-- ==== Sys2Proof/Word.lean ====
section
/-! DEFINITION. The word types of the block and the plainest arithmetic on bit fields.  Registers, record words and
counts that the spec reads as numbers are natural numbers kept below the width of their field; bytes of memory are bit
vectors. -/
namespace Sys2Proof

/-- A byte of memory. -/
abbrev Byte := BitVec 8

/-- `w` bits of `v` starting at bit `lo`: the spec's `[lo+w-1 : lo]`. -/
def bits (v lo w : Nat) : Nat := (v / 2 ^ lo) % 2 ^ w

/-- Bit `i` of `v`. -/
def bit (v i : Nat) : Bool := (v / 2 ^ i) % 2 == 1

/-- One for true, zero for false. -/
def b2n (b : Bool) : Nat := if b then 1 else 0

/-- A field of width `w` placed at bit `lo`. -/
def put (v lo w : Nat) : Nat := (v % 2 ^ w) * 2 ^ lo

/-- The value `v` held in `w` bits. -/
def trunc (w v : Nat) : Nat := v % 2 ^ w

/-- A counter of `w` bits that saturates. -/
def satAdd (w v n : Nat) : Nat := min (v + n) (2 ^ w - 1)

/-- `a` divided by `b`, rounded up. -/
def ceilDiv (a b : Nat) : Nat := (a + b - 1) / b

/-- Difference of two free-running counts of 32 bits. -/
def diff32 (a b : Nat) : Nat := (a + 2 ^ 32 - b % 2 ^ 32) % 2 ^ 32

/-- Two's complement reading of the low `w` bits. -/
def toSigned (w v : Nat) : Int :=
  let u := v % 2 ^ w
  if u < 2 ^ (w - 1) then (u : Int) else (u : Int) - (2 ^ w : Nat)

/-- Two's complement of `i` in `w` bits. -/
def ofSigned (w : Nat) (i : Int) : Nat := (i % ((2 ^ w : Nat) : Int)).toNat

/-- Nearest limit of a range (R17). -/
def clampTo (lo hi v : Nat) : Nat := if v < lo then lo else if hi < v then hi else v

/-- Ascending numbers `a, a+1, …, a+n-1`. -/
def span (a n : Nat) : List Nat := (List.range n).map (fun i => a + i)

/-- Little-endian bytes of a value: `n` bytes, byte 0 the least significant (R19). -/
def leBytes : Nat → Nat → List Byte
  | 0, _ => []
  | n + 1, v => BitVec.ofNat 8 (v % 256) :: leBytes n (v / 256)

/-- The value of little-endian bytes (R19). -/
def ofLE : List Byte → Nat
  | [] => 0
  | b :: bs => b.toNat + 256 * ofLE bs

/-- The `i`-th word of a record, zero beyond its end. -/
def word (ws : List Nat) (i : Nat) : Nat := ws.getD i 0

/-- The field of width `w` at bit `lo` of word `i` of a record. -/
def fld (ws : List Nat) (i lo w : Nat) : Nat := bits (word ws i) lo w

/-- The 64-bit words of a byte string, little-endian. -/
def wordsOf : Nat → List Byte → List Nat
  | 0, _ => []
  | n + 1, bs => ofLE (bs.take 8) :: wordsOf n (bs.drop 8)

/-- The bytes of a record of 64-bit words. -/
def bytesOf (ws : List Nat) : List Byte := ws.flatMap (leBytes 8)

/-- Replace element `i` of a list (nothing where the list is shorter). -/
def setAt {α : Type} : List α → Nat → α → List α
  | [], _, _ => []
  | _ :: xs, 0, a => a :: xs
  | x :: xs, n + 1, a => x :: setAt xs n a

/-- Insert a number into a list, keeping it ascending. -/
def insertAsc : List Nat → Nat → List Nat
  | [], a => [a]
  | x :: xs, a => if a < x then a :: x :: xs else x :: insertAsc xs a

/-- Numbers in ascending order. -/
def ascending (xs : List Nat) : List Nat := xs.foldl insertAsc []

end Sys2Proof
end

