-- ==== Sys2Proof/Syntax.lean ====
section
/-! DEFINITION. The commands of the block: one constructor for every row of the table of operations and events, with the
operands its sender gives.  Function operands are function indices (R92), rings and compartments are numbers; a value
that comes from outside the block (data that returns, the outcome of a transfer) is an operand. -/
namespace Sys2Proof

/-- How an access outside the block ended. -/
inductive Outcome3 where
  | ok | fault | poison
  deriving DecidableEq, Repr

/-- A message of a queue pair: its transport header (table "Transport header") and its payload bytes. -/
structure Msg where
  op     : Nat
  fin    : Bool
  immV   : Bool
  code   : Nat
  srcQp  : Nat
  dstQp  : Nat
  msn    : Nat
  imm    : Nat
  va     : Nat
  keyIx  : Nat
  keyGen : Nat
  len    : Nat
  data   : List Nat
  deriving DecidableEq, Repr

/-- A flit of a peer link (table "Flit header"): its header fields and the valid bytes of its body.  The payload of a message is
written in plaintext; that its tag verifies is said beside the flit. -/
structure Flit where
  typ    : Nat
  first  : Bool
  last   : Bool
  cls    : Nat
  fill   : Bool
  replay : Bool
  slot   : Nat
  seq    : Nat
  ack    : Nat
  nak    : Bool
  stream : Nat
  dst    : Nat
  src    : Nat
  credStream : Nat
  credMood   : Nat
  credCls    : Nat
  credCount  : Nat
  gen    : Nat
  body   : List Nat
  deriving DecidableEq, Repr

/-- A TIME flit as it is received (table "TIME body"), times in units of 1/256 beat: `tx` the sender's time at this flit, `rxLast` and
`rxEcho` its receive time and our send time of the flit it answers, `recv` our own receive time. -/
structure TimeBody where
  tx     : Nat
  rxLast : Nat
  rxEcho : Nat
  recv   : Nat
  depth  : Nat
  locked : Bool
  rootId : Nat
  selfId : Nat
  deriving DecidableEq, Repr

/-- What a roll call answer says of one link: its number and state, the neighbour's serial and link number, and whether the link went
down or came up since the start of the walk. -/
structure LinkSeen where
  link   : Nat
  up     : Bool
  serial : Nat
  far    : Nat
  down   : Bool
  rose   : Bool
  deriving DecidableEq, Repr

/-- A RoCE v2 packet (chapter 17): what its checks show, its addresses (an IPv6 address is one number, word 0 lowest), the BTH fields,
and the fields of its extended headers. -/
structure Packet where
  fcsOk  : Bool
  icrcOk : Bool
  hdrOk  : Bool
  roce   : Bool
  dstIp  : Nat
  srcIp  : Nat
  prio   : Nat
  ce     : Bool
  opcode : Nat
  dstQp  : Nat
  pkey   : Nat
  psn    : Nat
  ackReq : Bool
  va     : Nat
  rkey   : Nat
  len    : Nat
  synd   : Nat
  msn    : Nat
  operand : Nat
  compare : Nat
  imm    : Nat
  tagOk  : Bool
  data   : List Nat
  deriving DecidableEq, Repr

/-- The commands of the block. -/
inductive Instr where
  /-- REGISTER_WRITE (R14): A write to a register that has no row of its own takes effect under its access code, with locked-field, reserved-bit and clamp handling. -/
  | registerWrite (fn : Nat) (off : Nat) (val : Nat)
  /-- UNSUPPORTED_REGISTER_ACCESS (R9): A register access that is not an aligned 32-bit access completes with Unsupported Request, with no read side effect and no write. -/
  | unsupportedRegisterAccess (fn : Nat) (off : Nat) (size : Nat)
  /-- REGISTER_PAIR_LOW_READ (R11): A read of the low half of a register pair returns that half and latches the high half into a shadow held for the reading function. -/
  | registerPairLowRead (fn : Nat) (off : Nat)
  /-- REGISTER_PAIR_HIGH_READ (R11): A read of the high half of a register pair returns the function's shadow and discards it. -/
  | registerPairHighRead (fn : Nat) (off : Nat)
  /-- REGISTER_PAIR_LOW_WRITE (R12): A write of the low half of a register pair is staged per writing function and has no effect yet. -/
  | registerPairLowWrite (fn : Nat) (off : Nat) (val : Nat)
  /-- REGISTER_PAIR_HIGH_WRITE (R12): A write of the high half of a register pair commits the staged low half and the written high half in one cycle. -/
  | registerPairHighWrite (fn : Nat) (off : Nat) (val : Nat)
  /-- READ_TO_CLEAR (R14): A read of an RC field returns its value and clears the field. -/
  | readToClear (fn : Nat) (off : Nat)
  /-- ASSIGN (R59): ADMIN ASSIGN checks a compartment plan record in order and binds the plan's resources to a FREE tenant compartment. -/
  | assign (fn : Nat) (ring : Nat) (rivals : List Nat)
  /-- QUIESCE (R47): ADMIN QUIESCE closes the compartment's intake and lets work already accepted drain. -/
  | quiesce (fn : Nat) (ring : Nat) (rival : Option Nat)
  /-- QUIESCE_DRAIN_COMPLETE (R47): When the drain ends, the compartment becomes QUIESCED, its contracts end and QUIESCE completes. -/
  | quiesceDrainComplete (cmp : Nat)
  /-- REOPEN (R46): ADMIN REOPEN returns a QUIESCED compartment to ASSIGNED and reopens its intake. -/
  | reopen (fn : Nat) (ring : Nat)
  /-- SCRUB (R50): ADMIN SCRUB writes SCRUBBING into CMP_STATE and starts the SCRUB steps in order. -/
  | scrub (fn : Nat) (ring : Nat)
  /-- SCRUB_STEP_COMPLETE (R52): When a SCRUB step meets its completion condition, the next step starts; step 8 frees the compartment or taints it. -/
  | scrubStepComplete (cmp : Nat) (verified : Bool)
  /-- SERVICE_SLOT_GRANT (R35): Each service slot of an arbitrated resource is served to its owning compartment, to the SHARED remainder, or passes idle. -/
  | serviceSlotGrant (lane : Nat) (requests : List (Nat × Nat × Nat))
  /-- TABLE_LOAD_CONTRACT (R81): TABLE_LOAD of kind CONTRACT checks a contract record and preload list, or clears the contracts for a clear record. -/
  | tableLoadContract (fn : Nat) (ring : Nat)
  /-- CONTRACT_PRELOAD_DONE (R81): When the preload has been applied, checks 3 and 8 are made and the contract becomes STAGED or the preload is removed. -/
  | contractPreloadDone (cmp : Nat) (loads : List Nat)
  /-- CONTRACT_ACTIVATE (R82): At the beat equal to its epoch a STAGED contract becomes ACTIVE and upper timeouts are clamped again. -/
  | contractActivate (cmp : Nat)
  /-- CONTRACT_END (R82): At epoch plus span the ACTIVE contract ends and its preloaded entries are unpinned. -/
  | contractEnd (cmp : Nat)
  /-- DEADLINE_MISSED (R87): When the BEAT counter passes an indicative deadline with no visible completion record, a DEADLINE_MISSED breach is posted. -/
  | deadlineMissed (op : Nat)
  /-- FRAME_BOUNDARY (R586): At a frame boundary every frame counter is latched to its shadow and restarts, and suppression summaries are posted. -/
  | frameBoundary
  /-- MAILBOX_SEND (R104): The sender's send doorbell passes a mailbox held by SENDER to the junction. -/
  | mailboxSend (fn : Nat) (rivals : List Nat)
  /-- MAILBOX_REQUEST_PROCESS (R105): In the compartment's management window, the junction checks a request, answers it or relays it to the server. -/
  | mailboxRequestProcess (idx : Nat)
  /-- QUERY_STATE (R107): The junction answers QUERY_STATE with the sender's compartment state and contract IDs. -/
  | queryState (idx : Nat)
  /-- QUERY_GRANTS (R107): The junction answers QUERY_GRANTS with the sender's instance grants and share lanes. -/
  | queryGrants (idx : Nat)
  /-- QUERY_IDENTITY (R107): The junction answers QUERY_IDENTITY with part, stepping and serial number. -/
  | queryIdentity (idx : Nat)
  /-- MAILBOX_REPLY (R104): The server's INS_MB_REPLY passes a mailbox held by SERVER to the junction. -/
  | mailboxReply (fn : Nat) (idx : Nat)
  /-- MAILBOX_REPLY_PROCESS (R106): In the compartment's window, the junction checks a reply and passes it to the sender or keeps it with the server. -/
  | mailboxReplyProcess (idx : Nat)
  /-- MANAGEMENT_WINDOW_END (R104): At the end of a compartment's management window, holder changes whose processing ended in it take effect and mailbox events are raised. -/
  | managementWindowEnd (cmp : Nat)
  /-- MAILBOX_NOTICE_SET (R107): A write to INS_MB_NOTICE_SET places a notice in the sender's notice register and raises its mailbox event. -/
  | mailboxNoticeSet (fn : Nat) (idx : Nat) (value : Nat)
  /-- INSTANCE_RESET (R108): A function-level reset or INS_ENABLE written 0 closes the instance's intake and classifies its work in flight. -/
  | instanceReset (idx : Nat)
  /-- INSTANCE_RESET_DRAINED (R108): When every drained write is visible, the instance's queue pairs, translations and state are reset and INSTANCE_RESET is posted. -/
  | instanceResetDrained (idx : Nat) (writes : Nat)
  /-- MANAGER_RESET (R112): A function-level reset of a manager function resets every enabled instance of its port and its own state and posts MANAGER_RESET. -/
  | managerReset (port : Nat) (drained : List (Nat × Nat))
  /-- RING_START (R124): START moves an IDLE or STOPPED command ring to RUNNING. -/
  | ringStart (issuer : Nat) (fn : Nat) (ring : Nat) (rival : Option (Nat × Nat))
  /-- RING_SUSPEND (R124): SUSPEND stops new descriptor starts on a RUNNING ring. -/
  | ringSuspend (issuer : Nat) (fn : Nat) (ring : Nat) (rival : Option (Nat × Nat))
  /-- RING_RESUME (R124): RESUME returns a SUSPENDED ring to RUNNING. -/
  | ringResume (issuer : Nat) (fn : Nat) (ring : Nat) (rival : Option (Nat × Nat))
  /-- RING_STOP (R124): STOP moves a ring to STOPPING and to STOPPED once started descriptors complete. -/
  | ringStop (issuer : Nat) (fn : Nat) (ring : Nat) (rival : Option (Nat × Nat))
  /-- RING_CANCEL (R124): CANCEL ends started descriptors at their next request boundary, skips the rest and empties the fire queue. -/
  | ringCancel (issuer : Nat) (fn : Nat) (ring : Nat) (rival : Option (Nat × Nat))
  /-- RING_REVOKE_ORDER (R124): A REVOKE order to a command ring has no effect and is reported as not valid. -/
  | ringRevokeOrder (issuer : Nat) (fn : Nat) (ring : Nat)
  /-- CPL_RING_START (R126): START makes a STOPPED completion ring RUNNING. -/
  | cplRingStart (issuer : Nat) (fn : Nat) (ring : Nat) (rival : Option (Nat × Nat))
  /-- CPL_RING_STOP (R126): STOP makes a RUNNING completion ring STOPPED. -/
  | cplRingStop (issuer : Nat) (fn : Nat) (ring : Nat) (rival : Option (Nat × Nat))
  /-- RING_CREATE (R162): RNG_CREATE creates a command ring from DISABLED after checking its set-up. -/
  | ringCreate (fn : Nat) (ring : Nat)
  /-- RING_DESTROY (R128): RNG_DESTROY returns an IDLE or STOPPED command ring to DISABLED and unarms its slots. -/
  | ringDestroy (fn : Nat) (ring : Nat)
  /-- CPL_RING_CREATE (R126): RNG_CCREATE creates a completion ring and makes it RUNNING. -/
  | cplRingCreate (fn : Nat) (ring : Nat)
  /-- CPL_RING_DESTROY (R128): RNG_CDESTROY returns a STOPPED or ERROR completion ring that no command ring binds to DISABLED. -/
  | cplRingDestroy (fn : Nat) (ring : Nat)
  /-- COMMAND_DOORBELL (R132): A command ring doorbell records the new producer count or is dropped and counted. -/
  | commandDoorbell (fn : Nat) (ring : Nat) (off : Nat) (size : Nat) (count : Nat)
  /-- COMPLETION_DOORBELL (R132): A completion ring doorbell records the new consumer count or is dropped and counted. -/
  | completionDoorbell (fn : Nat) (ring : Nat) (off : Nat) (size : Nat) (count : Nat)
  /-- DESCRIPTOR_FETCH (R125): A fetched descriptor arrives from ring memory; a fault or poison sets the ring to ERROR. -/
  | descriptorFetch (fn : Nat) (ring : Nat) (list : Option Nat) (words : List Nat) (outcome : Outcome3)
  /-- NOP (R135): NOP performs only its wait and its signal. -/
  | nop (fn : Nat) (ring : Nat)
  /-- CALL_LIST (R147): CALL_LIST runs a command list in list order until it ends or a list descriptor fails. -/
  | callList (fn : Nat) (ring : Nat)
  /-- MOVE_COPY (R141): MOVE_COPY copies bytes from source to destination as if every source byte were read first. -/
  | moveCopy (fn : Nat) (ring : Nat)
  /-- MOVE_FILL (R141): MOVE_FILL writes the 8-byte pattern over the destination. -/
  | moveFill (fn : Nat) (ring : Nat)
  /-- MOVE_2D (R142): MOVE_2D copies rows with strides in row order. -/
  | move2d (fn : Nat) (ring : Nat)
  /-- MOVE_ATOMIC (R334): MOVE_ATOMIC performs an atomic FAR at the home and returns the old value. -/
  | moveAtomic (fn : Nat) (ring : Nat)
  /-- GATHER_REDUCE (R363): GATHER_REDUCE reads the index list and sends row commands to the command's stack in index-list order. -/
  | gatherReduce (fn : Nat) (ring : Nat)
  /-- XLATE_PREFETCH (R261): XLATE_PREFETCH translates every page of a range and fills the named port cache without faults. -/
  | xlatePrefetch (fn : Nat) (ring : Nat)
  /-- XLATE_INVALIDATE (R263): XLATE_INVALIDATE removes the compartment's walked translations overlapping a range and waits for their accesses. -/
  | xlateInvalidate (fn : Nat) (ring : Nat)
  /-- XLATE_PROBE (R262): XLATE_PROBE reports the translation a subjunctive request would receive, filling nothing. -/
  | xlateProbe (fn : Nat) (ring : Nat)
  /-- REMOTE_WRITE (R446): REMOTE_WRITE posts a write operation to its queue pair as request messages. -/
  | remoteWrite (fn : Nat) (ring : Nat)
  /-- REMOTE_READ (R446): REMOTE_READ posts a READ_REQ message to its queue pair. -/
  | remoteRead (fn : Nat) (ring : Nat)
  /-- REMOTE_SEND (R446): REMOTE_SEND posts a send operation to its queue pair as request messages. -/
  | remoteSend (fn : Nat) (ring : Nat)
  /-- REMOTE_ATOMIC (R332): REMOTE_ATOMIC posts an ATOMIC_REQ on an INT64 element to its queue pair. -/
  | remoteAtomic (fn : Nat) (ring : Nat)
  /-- CON_SIGNAL (R136): CON_SIGNAL applies ADD, SET or OR to a concord object and returns the new value. -/
  | conSignal (fn : Nat) (ring : Nat)
  /-- CON_READ (R167): CON_READ returns the current value of a concord object. -/
  | conRead (fn : Nat) (ring : Nat)
  /-- CON_ARM (R170): CON_ARM checks and copies a fire descriptor into a conjunction slot and sets it ARMED. -/
  | conArm (fn : Nat) (ring : Nat)
  /-- CON_DISARM (R180): CON_DISARM returns an ARMED slot to UNARMED and reports the slot's former state. -/
  | conDisarm (fn : Nat) (ring : Nat)
  /-- OPERATION_COMPLETE (R138): When an operation completes, its signal is applied and its completion record is claimed in the bound completion ring. -/
  | operationComplete (ops : List Nat)
  /-- COMPLETION_RECORD_WRITE (R122): A waiting completion record is written once its ring has room, with its phase bit. -/
  | completionRecordWrite (fn : Nat) (ring : Nat) (outcome : Outcome3)
  /-- COMMAND_TIMEOUT (R159): When a descriptor's command timeout fires, it ends with TIMEOUT and COMMAND_TIMEOUT is posted. -/
  | commandTimeout (op : Nat)
  /-- CONCORD_SIGNAL_APPLY (R165): One operation per cycle is applied to a concord object in rotating port order and evaluated against its waiters. -/
  | concordSignalApply (obj : Nat) (requests : List (Nat × Nat × Nat))
  /-- CONCORD_VIEW_SIGNAL (R165): A write to CON_VSIG_OBJ and CON_VSIG_OP applies a signal through the instance view. -/
  | concordViewSignal (fn : Nat) (obj : Nat) (sigop : Nat)
  /-- CONCORD_WINDOW_SET (R165): A commit to the concord value window applies SET through the manager port. -/
  | concordWindowSet (fn : Nat) (obj : Nat) (high : Nat)
  /-- EVENT_SOURCE_BIND (R185): A write of EVT_SRC_OWNER and EVT_SRC_BOUND binds a compartment-ring or pool source to an owner. -/
  | eventSourceBind (fn : Nat) (src : Nat) (owner : Nat) (bound : Bool)
  /-- EVENT_ROUTE_APPLY (R187): EVT_RT_APPLY routes an owned source to a vector, counting a raise if the source is pending. -/
  | eventRouteApply (fn : Nat) (vec : Nat) (sense : Nat)
  /-- EVENT_DOORBELL (R190): An event doorbell write is accepted as a raise of a bound MESSAGE source of its compartment, or dropped. -/
  | eventDoorbell (fn : Nat) (src : Nat) (rivals : List Nat)
  /-- COALESCE_TIMER_EXPIRY (R194): When the BEAT counter reaches batch start plus the coalescing time, the vector delivers. -/
  | coalesceTimerExpiry (fn : Nat) (vec : Nat)
  /-- VECTOR_UNMASK (R196): Clearing EVT_VEC_MASK with a held delivery makes the vector deliver in the next cycle. -/
  | vectorUnmask (fn : Nat) (vec : Nat)
  /-- EVENT_CLAIM (R200): A read of the claim register claims the next pending source routed to the vector, or returns 0x000. -/
  | eventClaim (fn : Nat) (vec : Nat) (ports : List Nat)
  /-- MGMT_CORE_EVENT_FORWARD (R198): Firmware claims a source delivered to a management core and forwards it to the board controller as an I3C alert. -/
  | mgmtCoreEventForward (core : Nat) (vec : Nat)
  /-- ATS_TRANSLATION_COMPLETION (R212): A translation completion is held, discarded as stale, or leads to a page request. -/
  | atsTranslationCompletion (fn : Nat) (pasid : Option Nat) (page : Nat) (size : Nat) (out : Nat) (flags : Nat)
  /-- PRG_RESPONSE (R221): A page request group response retranslates or ends the waiting operations. -/
  | prgResponse (fn : Nat) (idx : Nat) (pasid : Option Nat) (code : Nat)
  /-- ATS_INVALIDATE_REQUEST (R225): An ATS invalidate request removes matching held translations of its function. -/
  | atsInvalidateRequest (fn : Nat) (itag : Nat) (pasid : Option Nat) (global : Bool) (base : Nat) (size : Nat)
  /-- ATS_INVALIDATE_COMPLETION (R226): Once matching translations are removed and their accesses settled, the invalidate completion is sent. -/
  | atsInvalidateCompletion (fn : Nat)
  /-- HOST_READ_COMPLETION (R210): A host memory read completion arrives; poison, UR or CA, or a completion for squashed work is handled. -/
  | hostReadCompletion (tag : Nat) (data : List Nat) (outcome : Outcome3)
  /-- HOST_COMPLETION_TIMEOUT (R504): When a host read's completion timeout expires, the data is poisoned and HOST_POISON is posted. -/
  | hostCompletionTimeout (tag : Nat)
  /-- WALK_START (R256): A free walker of the compartment takes the oldest waiting request and searches the range entries. -/
  | walkStart (port : Nat) (cmp : Nat) (stream : Nat) (va : Nat) (indic : Bool) (access : Nat)
  /-- WALK_ENTRY_RETURN (R235): A page table entry read returns and is checked, continuing the walk, filling caches or faulting. -/
  | walkEntryReturn (id : Nat) (poison : Bool)
  /-- MANAGER_INVALIDATION (R267): TRN_MGR_INV_GO invalidates every walked translation of the named compartment. -/
  | managerInvalidation (fn : Nat) (cmp : Nat)
  /-- MANAGER_INVALIDATION_DONE (R264): When every removed translation's accesses are visible, TRN_MGR_INV_BUSY clears. -/
  | managerInvalidationDone
  /-- TABLE_LOAD_RANGE_TABLE (R243): TABLE_LOAD of kind RANGE_TABLE checks every list entry, then removes old translations and writes the entries. -/
  | tableLoadRangeTable (fn : Nat) (ring : Nat)
  /-- SLICE_REQUEST (R278): A request reaching its home slice hits, or misses and opens a miss-table entry with its own memory read. -/
  | sliceRequest (port : Nat) (cmp : Nat) (addr : Nat) (len : Nat) (write : Bool) (indic : Bool) (nc : Bool) (data : List Nat)
  /-- FILL_RETURN (R284): A fill returns its data and is placed, dropped as a duplicate or not placed as STALE. -/
  | fillReturn (slice : Nat) (id : Nat)
  /-- FILL (R290): Maintenance FILL reads and places every missing line of the range. -/
  | fill (fn : Nat) (cmp : Nat)
  /-- CLEAN (R290): Maintenance CLEAN writes back every dirty line of the range and keeps it valid. -/
  | clean (fn : Nat) (cmp : Nat)
  /-- INVALIDATE (R290): Maintenance INVALIDATE makes every valid line of the range invalid without writeback. -/
  | invalidate (fn : Nat) (cmp : Nat)
  /-- FLUSH (R290): Maintenance FLUSH writes back dirty lines of the range and invalidates them. -/
  | flush (fn : Nat) (cmp : Nat)
  /-- MAINTENANCE_DONE (R291): When every writeback is accepted and every fill settled, SYC_MT_BUSY clears with the line count. -/
  | maintenanceDone (cmp : Nat)
  /-- PINNED_WAY_CHANGE (R276): A write changing a window's pinned count starts a flush of the ways whose assignment changes. -/
  | pinnedWayChange (fn : Nat) (cmp : Nat) (win : Nat) (value : Nat)
  /-- PIN_FLUSH_DONE (R276): When the pinned-way flush completes, the new pinned assignment takes effect. -/
  | pinFlushDone (cmp : Nat)
  /-- GET_COPY (R313): The home accepts or retries a request for a readable copy and acts on the filter state. -/
  | getCopy (agent : Nat) (txn : Nat) (addr : Nat) (indic : Bool) (age : Nat)
  /-- GET_OWN (R313): The home accepts or retries a request for the line with ownership. -/
  | getOwn (agent : Nat) (txn : Nat) (addr : Nat) (indic : Bool) (age : Nat)
  /-- CLAIM_OWN (R313): The home grants ownership of a recorded copy without data, or handles it as GET_OWN. -/
  | claimOwn (agent : Nat) (txn : Nat) (addr : Nat) (indic : Bool) (age : Nat)
  /-- PEEK (R313): The home serves a read without leaving a copy with the reader. -/
  | peek (agent : Nat) (cmp : Nat) (txn : Nat) (addr : Nat) (indic : Bool) (age : Nat)
  /-- PUT_LINE (R315): The home clears every copy and writes a whole line, then sends PUT_DONE. -/
  | putLine (agent : Nat) (cmp : Nat) (txn : Nat) (addr : Nat) (indic : Bool) (age : Nat) (data : List Nat)
  /-- PUT_BYTES (R315): The home clears copies, merges the enabled bytes with the owner's data and sends PUT_DONE. -/
  | putBytes (agent : Nat) (cmp : Nat) (txn : Nat) (addr : Nat) (indic : Bool) (age : Nat) (mask : Nat) (data : List Nat)
  /-- ATOMIC_FAR (R337): The home's atomic unit operates on the slice copy after invalidations and returns ATOMIC_RESULT. -/
  | atomicFar (agent : Nat) (cmp : Nat) (txn : Nat) (addr : Nat) (indic : Bool) (age : Nat) (op : Nat) (fmt : Nat) (operand : Nat) (compare : Nat)
  /-- EVENT (R189): A die-port EVENT message delivers an event doorbell word, or is refused while intake is closed. -/
  | event (agent : Nat) (word : Nat)
  /-- INSTALLED (R308): INSTALLED finishes a request, updates the filter and unblocks the line. -/
  | installed (agent : Nat) (addr : Nat)
  /-- RSP_SERVED (R313): An owner's RSP_SERVED reports a served forward and its new state. -/
  | rspServed (agent : Nat) (addr : Nat) (code : Nat)
  /-- RSP_CLEARED (R313): A holder's RSP_CLEARED reports a line cleared with no dirty data. -/
  | rspCleared (agent : Nat) (addr : Nat)
  /-- RSP_MISS (R311): RSP_MISS clears the agent from the filter and lets the home serve from the slice. -/
  | rspMiss (agent : Nat) (addr : Nat)
  /-- RSP_EVICTING (R317): RSP_EVICTING makes the home match the agent's writeback to the outstanding forward. -/
  | rspEvicting (agent : Nat) (addr : Nat)
  /-- LINE_WB (R313): A dirty eviction is written to the slice and answered with WB_TAKEN. -/
  | lineWb (agent : Nat) (addr : Nat) (poison : Bool) (data : List Nat)
  /-- LINE_BACK (R312): Dirty data for a CLEAR with DATA_BACK or a BACK_INV is written to the slice. -/
  | lineBack (agent : Nat) (addr : Nat) (poison : Bool) (data : List Nat)
  /-- LINE_PEEK (R298): Data from an owner reaches a non-caching requester, which keeps no copy. -/
  | linePeek (agent : Nat) (requester : Nat) (addr : Nat) (poison : Bool) (data : List Nat)
  /-- RETRY_RESEND (R319): COH_RETRY_GAP cycles after a RETRY, a junction requester resends its request with age raised. -/
  | retryResend (agent : Nat) (txn : Nat)
  /-- RESERVATION_EXPIRY (R320): An unused starved-line reservation expires and passes to the next starved request. -/
  | reservationExpiry (line : Nat)
  /-- COHERENT_WINDOW_CHANGE_DONE (R295): When back-invalidation of removed lines ends, COH_WIN_BUSY clears and the new range takes effect. -/
  | coherentWindowChangeDone (cmp : Nat)
  /-- DIE_PORT_LINK_DOWN (R326): A die port link loss answers forwards with RSP_MISS, poisons owned lines and clears the agents. -/
  | diePortLinkDown (port : Nat)
  /-- CXL_M2S_REQUEST (R322): A host CXL.mem request is mapped to a coherence request, queued, or answered outside any window. -/
  | cxlM2sRequest (port : Nat) (kind : Nat) (metaV : Nat) (txn : Nat) (dpa : Nat) (mask : Nat) (data : List Nat)
  /-- CXL_BIRSP (R322): A host back-invalidate response is mapped to RSP_SERVED, RSP_CLEARED or RSP_MISS. -/
  | cxlBirsp (port : Nat) (addr : Nat) (shared : Bool)
  /-- HOST_ATOMICOP_REQUEST (R333): A PCIe AtomicOp request from the host completes with Unsupported Request. -/
  | hostAtomicopRequest (port : Nat) (fn : Nat) (addr : Nat)
  /-- STACK_READ_RETURN (R360): A tier-one line returns from a stack, corrected or poisoned as its check data shows. -/
  | stackReadReturn (addr : Nat) (error : Nat)
  /-- GR_RESULT_RETURN (R368): A gather-reduce row or result row arrives from the base layer and is written to the output. -/
  | grResultReturn (op : Nat)
  /-- ACTIVITY_WINDOW_BOUNDARY (R372): At each activity window boundary a stack computes its refresh and throttle steps from activity and temperature. -/
  | activityWindowBoundary (stack : Nat) (count : Nat) (temp : Nat)
  /-- ENUMERATION_START (R382): EXP_ENUM_GO fixes the set of up ports at the start beat and begins visiting them. -/
  | enumerationStart (fn : Nat)
  /-- ENUMERATION_PORT_VISIT (R382): The visit of one expansion port ends with its checks passed or failed. -/
  | enumerationPortVisit (port : Nat) (link : Bool) (hdmh : Bool) (gib : Nat) (serial : Nat) (ide : Bool) (decoder : Bool)
  /-- ENUMERATION_MAP_APPLY (R384): At the end of the walk the map is applied to the allocator as one claim and port states are set. -/
  | enumerationMapApply (rings : List Nat)
  /-- EXPANSION_LINK_UP (R381): An expansion link coming up outside enumeration makes the port READY. -/
  | expansionLinkUp (port : Nat)
  /-- EXPANSION_LINK_DOWN (R391): An ACTIVE port whose link goes down becomes DOWN or EMPTY and its traffic is poisoned or discarded. -/
  | expansionLinkDown (port : Nat)
  /-- EXPANDER_RESPONSE (R390): An expander's read data or write completion arrives; poisoned data poisons the line. -/
  | expanderResponse (addr : Nat) (write : Bool) (poison : Bool) (latency : Nat)
  /-- EXPANDER_EVENT (R390): A CXL event record from an expander posts EXPANDER_EVENT. -/
  | expanderEvent (port : Nat) (record : List Nat)
  /-- PLK_LINK_ENABLE (R394): A write of PLK_LINK_EN moves a peer link to DETECT or to DISABLED. -/
  | plkLinkEnable (fn : Nat) (link : Nat) (value : Nat)
  /-- LINK_RETRAIN (R394): PLK_RETRAIN moves a FAILED peer link to DETECT. -/
  | linkRetrain (fn : Nat) (link : Nat)
  /-- LINK_SIGNAL_DETECTED (R394): Signal on all 8 lanes moves a link from DETECT to EQUALIZE. -/
  | linkSignalDetected (link : Nat)
  /-- LINK_EQUALIZE_DONE (R394): Completed equalization moves a link to ALIGN. -/
  | linkEqualizeDone (link : Nat)
  /-- LINK_EQUALIZE_TIMEOUT (R394): Equalization not done within 500 ms returns the link to DETECT and counts a training failure. -/
  | linkEqualizeTimeout (link : Nat)
  /-- LINK_ALIGN_LOCK (R394): Group lock and deskew on all lanes move a link to INIT. -/
  | linkAlignLock (link : Nat)
  /-- LINK_ALIGN_TIMEOUT (R394): No lock within 10 ms returns the link to DETECT. -/
  | linkAlignTimeout (link : Nat)
  /-- LINK_INIT_DONE (R396): 16 consecutive valid INIT flits each way bring the link UP and record PLK_LAST_UP. -/
  | linkInitDone (link : Nat) (serial : Nat) (far : Nat)
  /-- LINK_INIT_TIMEOUT (R394): INIT not done within 1 ms returns the link to DETECT. -/
  | linkInitTimeout (link : Nat)
  /-- LINK_SIGNAL_LOST (R396): Loss of signal or group lock takes an UP link to DETECT and discards its buffered flits. -/
  | linkSignalLost (link : Nat)
  /-- SLOT_TRANSMIT (R415): In each slot the transmitter sends one flit chosen by the slot plan, replay or TIME rules. -/
  | slotTransmit (link : Nat)
  /-- FLIT_RECEIVE (R404): A received flit is checked, accepted in sequence or discarded with a NAK, and delivered, forwarded or refused. -/
  | flitReceive (link : Nat) (pos : Nat) (corrected : Nat) (lost : Bool) (crcOk : Bool) (tagOk : Bool) (flit : Flit)
  /-- REPLAY_BUFFER_FULL_TIMEOUT (R405): A replay buffer full for 512 consecutive slots starts a replay round. -/
  | replayBufferFullTimeout (link : Nat)
  /-- REPLAY_ROUND_TIMEOUT (R405): A replay round not acknowledged within 2 µs fails and starts the next, or after 8 failures the link enters FAILED. -/
  | replayRoundTimeout (link : Nat)
  /-- SLOT_PLAN_SWITCH (R413): At the frame where a STAGED plan takes effect, it replaces the ACTIVE plan and credits are adjusted. -/
  | slotPlanSwitch (link : Nat)
  /-- TABLE_LOAD_SLOT_PLAN (R412): TABLE_LOAD of kind SLOT_PLAN checks a slot plan record and makes it the link's STAGED plan. -/
  | tableLoadSlotPlan (fn : Nat) (ring : Nat)
  /-- TABLE_LOAD_ROUTING (R417): TABLE_LOAD of kind ROUTING checks and loads a compartment's routing table. -/
  | tableLoadRouting (fn : Nat) (ring : Nat)
  /-- TIME_FLIT_RECEIVE (R421): A TIME flit from the parent yields an offset that steps, slews, locks or unlocks the BEAT counter. -/
  | timeFlitReceive (link : Nat) (replayed : Bool) (body : TimeBody)
  /-- TIME_EXCHANGE_TIMEOUT (R422): 8 cadence frames without an exchange clear PWR_BEAT_LOCKED. -/
  | timeExchangeTimeout
  /-- ROLL_CALL (R425): ADMIN ROLL_CALL records its start beat and walks the domain breadth first. -/
  | rollCall (fn : Nat) (ring : Nat)
  /-- ROLL_QUERY_RECEIVE (R424): A peer-link controller answers a roll call query from its own link state. -/
  | rollQueryReceive (link : Nat) (since : Nat) (stop : Option Nat)
  /-- ROLL_ANSWER_RECEIVE (R426): A roll call answer records links and queues junctions; the last closing answer writes the map. -/
  | rollAnswerReceive (junction : Nat) (jid : Nat) (links : List LinkSeen)
  /-- ROLL_QUERY_TIMEOUT (R425): A junction that does not answer within PLK_ROLL_TIMEOUT is marked UNREACHED. -/
  | rollQueryTimeout (junction : Nat)
  /-- QP_CREATE (R432): QP_CREATE creates a queue pair with the named number, transport and mood. -/
  | qpCreate (fn : Nat)
  /-- QP_MODIFY (R435): QP_MODIFY moves a queue pair between states as the transition table allows. -/
  | qpModify (fn : Nat)
  /-- QP_DESTROY (R435): QP_DESTROY destroys a queue pair in RESET or ERROR. -/
  | qpDestroy (fn : Nat)
  /-- QP_QUERY (R435): QP_QUERY returns a queue pair's state, mood, transport and outstanding count. -/
  | qpQuery (fn : Nat)
  /-- CQ_CREATE (R431): CQ_CREATE allocates the lowest free CQ number and creates the CQ. -/
  | cqCreate (fn : Nat) (rivals : List Nat)
  /-- CQ_DESTROY (R433): CQ_DESTROY destroys a CQ bound to no queue pair. -/
  | cqDestroy (fn : Nat)
  /-- SRQ_CREATE (R451): SRQ_CREATE allocates an SRQ and binds it to a doorbell slot. -/
  | srqCreate (fn : Nat) (rivals : List Nat)
  /-- SRQ_DESTROY (R433): SRQ_DESTROY destroys an SRQ bound to no queue pair. -/
  | srqDestroy (fn : Nat)
  /-- PD_ALLOC (R431): PD_ALLOC allocates the lowest free protection domain. -/
  | pdAlloc (fn : Nat) (rivals : List Nat)
  /-- PD_FREE (R433): PD_FREE frees a protection domain named by no queue pair or key. -/
  | pdFree (fn : Nat)
  /-- REG_REGION (R439): REG_REGION makes a region key VALID. -/
  | regRegion (fn : Nat) (rivals : List Nat)
  /-- OPEN_WINDOW (R440): OPEN_WINDOW makes a window key VALID within a region. -/
  | openWindow (fn : Nat) (rivals : List Nat)
  /-- REVOKE (R443): REVOKE stamps a key CLOSING with a new generation at the protection check. -/
  | revoke (fn : Nat)
  /-- REVOKE_DRAIN_DONE (R443): When every access that passed with the old generation is visible, the key becomes FREE and REVOKE completes. -/
  | revokeDrainDone (fn : Nat)
  /-- MANAGER_REVOKE (R445): NET_MGR_REVOKE revokes an instance's key at rank REVOKE and posts KEY_REVOKED. -/
  | managerRevoke (fn : Nat) (key : Nat) (rival : Bool)
  /-- QP_STOP_ORDER (R436): A manager STOP order moves a queue pair to ERROR. -/
  | qpStopOrder (issuer : Nat) (fn : Nat) (qp : Nat) (rival : Bool)
  /-- QP_START_ORDER (R436): A manager START order moves a queue pair from ERROR to RESET. -/
  | qpStartOrder (issuer : Nat) (fn : Nat) (qp : Nat) (rival : Bool)
  /-- REMOTE_REQUEST_RECEIVE (R441): An arriving request message passes the protection check and is performed, or is refused with a syndrome. -/
  | remoteRequestReceive (cmp : Nat) (ids : List Nat)
  /-- REMOTE_MESSAGE_VISIBLE (R454): At a message's visibility point a CQ entry is written and tagged-message triggers are matched. -/
  | remoteMessageVisible (qp : Nat) (outcome : Outcome3)
  /-- REMOTE_RESPONSE_RECEIVE (R449): A response passes the response check and completes operations, or a NAK ends the operation and errors the queue pair. -/
  | remoteResponseReceive (cmp : Nat) (id : Nat)
  /-- SRQ_DOORBELL (R451): An SRQ doorbell records the owner's new producer count. -/
  | srqDoorbell (fn : Nat) (slot : Nat) (off : Nat) (size : Nat) (count : Nat)
  /-- CQ_DOORBELL (R451): A CQ doorbell records the new consumer count and releases held receive pipelines. -/
  | cqDoorbell (fn : Nat) (slot : Nat) (off : Nat) (size : Nat) (count : Nat)
  /-- TRANSPORT_TIMEOUT (R459): When the transport timeout fires, the operation ends with TIMEOUT, its queue pair errors and TRANSPORT_TIMEOUT is posted. -/
  | transportTimeout (op : Nat)
  /-- RNR_WAIT_EXPIRY (R452): After the RNR back-off or timer the requester resends from the refused message. -/
  | rnrWaitExpiry (qp : Nat)
  /-- AEQ_READ (R460): A read of NET_AEQ_LO removes the oldest asynchronous event record and latches its high half. -/
  | aeqRead (fn : Nat)
  /-- ROCE_PACKET_RECEIVE (R466): A received RoCE v2 packet is checked, sequenced, accepted into the compartment allotment or discarded. -/
  | rocePacketReceive (port : Nat) (occupancy : Nat) (packet : Packet)
  /-- CNP_RECEIVE (R489): A received CNP lowers the queue pair's send rate limit. -/
  | cnpReceive (port : Nat) (packet : Packet)
  /-- PFC_FRAME_RECEIVE (R484): A received PFC frame pauses or resumes frames of an enabled priority. -/
  | pfcFrameReceive (port : Nat) (prio : Nat) (quanta : Nat)
  /-- ACK_TIMEOUT (R479): An acknowledgement timer expiry ends a retry period and starts a retransmission round or exhausts retries. -/
  | ackTimeout (qp : Nat)
  /-- PFC_REFRESH_TIMER (R485): Every 0x8000 quanta above XON the port repeats its PFC pause frame. -/
  | pfcRefreshTimer (port : Nat) (prio : Nat)
  /-- PFC_STORM (R487): A priority paused for NET_PFC_STORM_US without a break posts PFC_STORM. -/
  | pfcStorm (port : Nat) (prio : Nat)
  /-- CC_ALPHA_TIMER (R489): Each NET_CC_ALPHA_US without a CNP decays alpha. -/
  | ccAlphaTimer (qp : Nat)
  /-- CC_RATE_TIMER (R489): Each NET_CC_TIMER_US or NET_CC_BYTES without a CNP raises the rate toward its target. -/
  | ccRateTimer (qp : Nat)
  /-- NET_LINK_DOWN (R463): An Ethernet link going down discards held frames and posts NET_LINK_DOWN and PORT_DOWN records. -/
  | netLinkDown (port : Nat)
  /-- NET_LINK_UP (R463): An Ethernet link coming up posts PORT_UP records. -/
  | netLinkUp (port : Nat)
  /-- INCIDENT_RECORD_WRITE (R501): The incident unit writes the next queued record into its ring when the ring has room. -/
  | incidentRecordWrite (ring : Nat) (outcome : Outcome3)
  /-- DEVICE_PENDING_CLEAR (R503): A write of 1 to INC_DEVICE_PENDING by the primary manager clears it and releases FAULT_N. -/
  | devicePendingClear (fn : Nat)
  /-- HOST_LINK_RESET (R515): PERST or the link leaving L0 resets the port's functions, translations and host agent and posts HOST_LINK_DOWN. -/
  | hostLinkReset (port : Nat) (perst : Bool) (drained : List (Nat × Nat))
  /-- WARM_RESET (R517): SYS_RST_N or BOOT_RESET_REQ warm runs the warm reset steps and completes within 100 ms. -/
  | warmReset (cause : Nat) (fn : Nat) (key : Nat) (hosts : List Nat)
  /-- COLD_RESET (R520): PWRGOOD rising or BOOT_RESET_REQ cold starts a cold start, or fawn mode when attempts or a request demand it. -/
  | coldReset (cause : Nat) (fn : Nat) (key : Nat)
  /-- POWER_ON (R594): VDD_AON becoming good samples PRIMARY_SEL and starts the always-on domain. -/
  | powerOn (sel : Nat)
  /-- POWER_LOSS (R594): VDD_AON falling below 0.65 V for 10 µs loses every key, grant and always-on state. -/
  | powerLoss
  /-- PWRGOOD_FALL (R608): PWRGOOD low for 250 AONCLK cycles holds the junction in reset. -/
  | pwrgoodFall
  /-- BOOT_PHASE_DONE (R520): When a boot phase's work completes, the next phase starts, ending at READY. -/
  | bootPhaseDone (phase : Nat) (ms : Nat) (rails : List Nat) (reason : Nat) (imgA : List Nat) (imgB : List Nat) (recA : List Nat) (recB : List Nat)
  /-- BOOT_PHASE_TIMEOUT (R521): A phase exceeding its limit fails the start, records reason and phase and drives FAULT_N low. -/
  | bootPhaseTimeout
  /-- MGMT_CORE_FAULT (R541): A management-core or entropy fault fails the start, or after READY posts MGMT_CORE_FAULT. -/
  | mgmtCoreFault (core : Nat) (entropy : Bool)
  /-- CLAMP_LOG_CLEAR (R527): BOOT_CLAMP_CLEAR empties the clamp log and zeroes BOOT_CLAMP_DROPPED. -/
  | clampLogClear (fn : Nat)
  /-- ATTEMPT_CLEAR (R530): BOOT_ATTEMPT_CLR sets BOOT_ATTEMPTS to 0. -/
  | attemptClear (fn : Nat)
  /-- BULK_FILL (R537): BULK_FILL writes every line of a range with a 128-byte pattern or zero. -/
  | bulkFill (fn : Nat) (ring : Nat) (slot : Option Nat) (lines : Nat)
  /-- MEMTEST (R538): MEMTEST writes, reads back and compares patterns over a range, then zeroes it. -/
  | memtest (fn : Nat) (ring : Nat) (slot : Option Nat) (lines : Nat) (corrected : Nat) (mismatched : List Nat)
  /-- KEY_ROTATE (R545): KEY_ROTATE re-encrypts a tier of a compartment line by line under a new key. -/
  | keyRotate (fn : Nat) (ring : Nat) (slot : Option Nat) (lines : Nat)
  /-- FW_STAGE_IMAGE (R559): FW_STAGE with target image erases, programs and verifies the non-running image slot. -/
  | fwStageImage (fn : Nat) (ring : Nat) (slot : Option Nat) (bytes : Nat) (flashOk : Bool) (data : List Nat)
  /-- FW_STAGE_RECORD (R559): FW_STAGE with target record writes and verifies a boot record copy. -/
  | fwStageRecord (fn : Nat) (ring : Nat) (slot : Option Nat) (bytes : Nat) (flashOk : Bool) (data : List Nat) (seqA : Option Nat) (seqB : Option Nat)
  /-- OP_SUSPEND (R534): OP_SUSPEND stops a running long operation from issuing new requests. -/
  | opSuspend (fn : Nat) (ring : Nat) (rival : Option Nat)
  /-- OP_RESUME (R533): OP_RESUME returns a suspended long operation to RUNNING. -/
  | opResume (fn : Nat) (ring : Nat) (rival : Option Nat)
  /-- OP_CANCEL (R536): OP_CANCEL ends a long operation with the effects its kind gives. -/
  | opCancel (fn : Nat) (ring : Nat) (rival : Option Nat)
  /-- LONG_OPERATION_END (R539): A long operation ending sets its slot ENDED, writes its record and raises event source 0x003. -/
  | longOperationEnd (slot : Nat)
  /-- LINK_KEY_SET (R547): An authenticated LINK_KEY_SET request stages a compartment's link key with its activation beat. -/
  | linkKeySet (session : Nat) (cmp : Nat) (key : Nat) (tag : Nat) (beat : Nat)
  /-- LINK_KEY_ACTIVATE (R548): At the first frame boundary after its activation beat a STAGED link key becomes ACTIVE. -/
  | linkKeyActivate (cmp : Nat)
  /-- LINK_KEY_PREVIOUS_EXPIRY (R548): 1,048,576 beats after activation the PREVIOUS link key is destroyed. -/
  | linkKeyPreviousExpiry (cmp : Nat)
  /-- GET_VERSION (R552): The junction answers SPDM GET_VERSION. -/
  | getVersion (port : Nat)
  /-- GET_CAPABILITIES (R552): The junction answers SPDM GET_CAPABILITIES. -/
  | getCapabilities (port : Nat)
  /-- NEGOTIATE_ALGORITHMS (R552): The junction answers SPDM NEGOTIATE_ALGORITHMS with its supported algorithms. -/
  | negotiateAlgorithms (port : Nat) (offered : Bool)
  /-- GET_DIGESTS (R553): The junction answers SPDM GET_DIGESTS for certificate slot 0. -/
  | getDigests (port : Nat)
  /-- GET_CERTIFICATE (R553): The junction returns its slot 0 certificate chain. -/
  | getCertificate (port : Nat) (slot : Nat) (offset : Nat) (len : Nat)
  /-- CHALLENGE (R552): The junction answers SPDM CHALLENGE signed with its alias key. -/
  | challenge (port : Nat) (slot : Nat)
  /-- GET_MEASUREMENTS (R553): The junction returns its measurement blocks signed by the alias key. -/
  | getMeasurements (port : Nat) (index : Nat)
  /-- KEY_EXCHANGE (R552): The junction answers SPDM KEY_EXCHANGE to open a session. -/
  | keyExchange (port : Nat) (slot : Nat) (mutualAuth : Bool) (digest : Nat)
  /-- FINISH (R552): The junction answers SPDM FINISH to complete a session. -/
  | finish (session : Nat) (verified : Bool)
  /-- KEY_UPDATE (R552): The junction answers SPDM KEY_UPDATE for a session. -/
  | keyUpdate (session : Nat) (op : Nat)
  /-- HEARTBEAT (R552): The junction answers SPDM HEARTBEAT. -/
  | heartbeat (session : Nat)
  /-- END_SESSION (R552): The junction answers SPDM END_SESSION and closes the session. -/
  | endSession (session : Nat)
  /-- LOCK_INTERFACE_REQUEST (R557): LOCK_INTERFACE_REQUEST moves a bound, enabled instance's TDISP interface to CONFIG_LOCKED. -/
  | lockInterfaceRequest (idx : Nat) (stream : Nat)
  /-- GET_DEVICE_INTERFACE_REPORT (R557): The junction returns the instance's TDISP interface report. -/
  | getDeviceInterfaceReport (idx : Nat)
  /-- GET_DEVICE_INTERFACE_STATE (R557): The junction returns the instance's TDISP interface state. -/
  | getDeviceInterfaceState (idx : Nat)
  /-- START_INTERFACE_REQUEST (R557): START_INTERFACE_REQUEST moves a CONFIG_LOCKED interface to RUN. -/
  | startInterfaceRequest (idx : Nat)
  /-- STOP_INTERFACE_REQUEST (R557): STOP_INTERFACE_REQUEST returns an interface to CONFIG_UNLOCKED. -/
  | stopInterfaceRequest (idx : Nat)
  /-- IDE_FAILURE (R556): An IDE stream entering Insecure posts IDE_FAILURE and handles expansion ports as link loss. -/
  | ideFailure (exp : Bool) (port : Nat) (stream : Nat)
  /-- EXP_IDE_REKEY (R555): SEC_EXP_IDE_REKEY programs fresh keys into the unused key set and switches to it. -/
  | expIdeRekey (fn : Nat) (port : Nat)
  /-- SVN_COMMIT (R560): SEC_SVN_COMMIT blows SEC_MIN_SVN to the running image's SVN. -/
  | svnCommit (fn : Nat)
  /-- SEAL (R561): SEC_SEAL written 0x5EA1 on a LAB part blows the seal fuse for the next cold reset. -/
  | seal (fn : Nat) (value : Nat)
  /-- DEBUG_CHALLENGE_REQUEST (R562): A challenge request generates a new challenge record and discards any earlier one. -/
  | debugChallengeRequest (path : Nat) (fn : Nat) (rival : Bool)
  /-- DEBUG_RESPONSE_SUBMIT (R563): A submitted response is verified; a pass destroys keys, taints compartments and opens the debug port. -/
  | debugResponseSubmit (path : Nat) (fn : Nat) (mode : Nat) (words : List Nat)
  /-- DEBUG_CHALLENGE_EXPIRY (R562): A challenge expires 60 s after issue and counts as a failure. -/
  | debugChallengeExpiry
  /-- TELEMETRY_SAMPLE (R577): At every BEAT with low 16 bits zero, sensors and rails are sampled and alarms raised or cleared. -/
  | telemetrySample (temps : List Nat) (rails : List Nat) (power : Nat) (energy : Nat) (avs : Nat)
  /-- TSYNC_EDGE (R569): A TSYNC rising edge at the root disciplines TCLK, applies a pending root time and may set lock. -/
  | tsyncEdge (err : Nat)
  /-- TSYNC_EDGE_MISSING (R569): 8 consecutive missing TSYNC edges clear PWR_BEAT_LOCKED at the root. -/
  | tsyncEdgeMissing
  /-- ROOT_TIME_SET (R570): A write of PWR_ROOT_TIME sets domain time at the root, or is dropped while locked. -/
  | rootTimeSet (fn : Nat) (high : Nat)
  /-- BLOCK_GATE (R574): A PWR_GATE write gates or ungates a block that meets its condition. -/
  | blockGate (fn : Nat) (off : Nat) (val : Nat)
  /-- UNGATE_DONE (R575): When an ungated slice has been zeroed it returns to the free pools and PWR_GATE_BUSY clears. -/
  | ungateDone (block : Nat)
  /-- I3C_TELEMETRY_READ (R583): An I3C private index write and 4-byte read returns a telemetry value. -/
  | i3cTelemetryRead (index : Nat)
  /-- I3C_FAWN_REQUEST (R583): An I3C write of index 0x40 with 0x0000_FA3E sets BOOT_FAWN_REQ. -/
  | i3cFawnRequest (index : Nat) (val : Nat)
  /-- ENTDAA (R582): The I3C target takes a dynamic address through ENTDAA. -/
  | entdaa (addr : Nat)
  /-- SETDASA (R582): The I3C target takes its static address as dynamic address. -/
  | setdasa
  /-- RSTDAA (R582): The I3C target resets its dynamic address. -/
  | rstdaa
  /-- ENEC (R584): ENEC enables in-band interrupts and releases queued forwarded sources. -/
  | enec
  /-- DISEC (R582): DISEC disables in-band interrupts. -/
  | disec
  /-- GETPID (R582): The I3C target returns its provisional ID. -/
  | getpid
  /-- GETBCR (R582): The I3C target returns its bus characteristics register. -/
  | getbcr
  /-- GETDCR (R582): The I3C target returns its device characteristics register. -/
  | getdcr
  /-- GETSTATUS (R582): The I3C target returns its status. -/
  | getstatus
  /-- GETMXDS (R582): The I3C target returns its maximum data speed. -/
  | getmxds
  /-- PFC_PAUSE_EXPIRY (R484): When the pause time requested by a received PFC frame has elapsed, the port resumes starting frames of that priority. -/
  | pfcPauseExpiry (port : Nat) (prio : Nat)
  /-- INTAKE_BELOW_XON (R485): When a priority's intake occupancy falls below NET_PFC_XON, the port sends a PFC frame with quanta 0 for that priority. -/
  | intakeBelowXon (port : Nat) (prio : Nat)
  /-- PERST_DEASSERT (R522): PERST_x_N deasserting lets the host port begin link training within 20 ms. -/
  | perstDeassert (port : Nat)
  /-- SYS_RST_N_RELEASE (R608): SYS_RST_N taken high starts a held cold start, and it ends the release of THERM_ALERT_N and FAULT_N. -/
  | sysRstNRelease
  /-- DIE_PORT_LINK_UP (R297): A die-to-die port link coming up makes the agents of its bound streams live again. -/
  | diePortLinkUp (port : Nat)
  /-- H2D_SNOOP (R322): A CXL.cache H2D snoop from a host is answered RspIHitI. -/
  | h2dSnoop (port : Nat) (tag : Nat)
  /-- BICONFLICT (R322): A host BIConflict message is handled and answered with BIConflictAck as CXL 3.1 specifies. -/
  | biconflict (port : Nat) (tag : Nat)
  /-- LINE_S (R323): Direct data from a die owner (LINE_S, LINE_E or LINE_M) reaching the host port unit for a host requester is turned into S2M data and a completion, and INSTALLED is sent on the host's behalf. -/
  | lineS (port : Nat) (op : Nat) (addr : Nat) (poison : Bool) (data : List Nat)
  /-- IDE_KM (R554): An IDE_KM request from the host over DOE programs, starts or switches the K0 and K1 key sets of a host port's IDE stream. -/
  | ideKm (port : Nat) (session : Nat) (stream : Nat) (op : Nat) (set : Nat)
  /-- CONFIGURATION_WRITE (R210): A host configuration write to a function's ATS, PRI or PASID enable bits changes how the function's host-served accesses and page requests behave, and clearing and then setting PRI Enable lifts the block left by Response Failure. -/
  | configurationWrite (fn : Nat) (item : Nat) (value : Nat)
  deriving DecidableEq, Repr

end Sys2Proof
end

