-- ==== Sys2Proof/Decode.lean ====
section
/-! DEFINITION. Words of the table of operations and events.  The table gives no row any bits: a command is sent to the block with
its operands, and no word spells one. -/
namespace Sys2Proof

/-- The command that a word spells by the table's bits: the table gives bits to no row, so no word spells a command. -/
def decodeTableWord (_nbits _w : Nat) : Option Instr := none

end Sys2Proof
end

