-- ==== Sys2Proof/Config.lean ====
section
/-! DEFINITION. What the spec leaves open and an implementation fixes.  Every constant here is opaque: nothing can be
proved of its value, so a statement about the block holds whatever an implementation chose. -/
namespace Sys2Proof

/-- The `n`-th unconstrained choice of the block: keys, nonces, random pools, digests and every value the spec leaves
undefined. -/
opaque Config.freeValue : Nat → BitVec 64

/-- What a byte of tier memory reads as under a key it was not written with (R55): a value that depends only on the key
and the address. -/
opaque Config.staleByte : Nat → Nat → BitVec 8

/-- The hash that spreads translations over the banks and sets of the shared translation cache: of the address above the page size, the
PASID and whether it is host-served (R253). -/
opaque Config.sharedHash : Nat → Option Nat → Bool → BitVec 16

/-- The fixed hash that spreads the local line numbers of a slice over the sets of its snoop filter (R310). -/
opaque Config.filterHash : Nat → BitVec 11

/-- The share pattern an allocator lays over the free service slots of an arbitrated resource (R39): lane, units and the
slots already taken give the slots of the new pattern. -/
opaque Config.pattern : Nat → Nat → List Nat → List Nat

/-- What a signature, certificate, tag or digest check over the given words answers. -/
opaque Config.verify : Nat → List Nat → Bool

/-- The flow hash of a queue pair: a fixed hash of its number and compartment (R465). -/
opaque Config.flowHash : Nat → Nat → BitVec 32

/-- The code of the remote syndrome BOUNDS, which the table of remote syndromes does not list (R441, R456). -/
opaque Config.boundsSyndrome : BitVec 8

/-- The code of a resource kind in RESOURCE_REFUSED, by the row of the table "Compartment resources", which gives no codes (R32). -/
opaque Config.resourceKind : Nat → BitVec 8

/-- What the I3C target answers where the spec states no value: its bus and device characteristics and its maximum data speed (R582). -/
opaque Config.i3cConst : Nat → BitVec 32

/-- The code of the failure reason TIMEOUT, to which the table of boot phases gives no number (R520). -/
opaque Config.timeoutReason : BitVec 8

/-- The digest of the given words. -/
opaque Config.digest : List Nat → Nat → BitVec 64

end Sys2Proof
end

