-- ==== Sys2Proof/Machine/Fields.lean ====
section
/-! DEFINITION. The register fields of the block: every field of every register table of the spec, under the
spec's own name, with its place in the address map (chapter 23, R609 and R612), its access code (R14), its reset
value, its legal range (R17) and whether it lies in the always-on domain. -/
namespace Sys2Proof.Machine

/-- Every register field the spec names; the constructor is the spec's own field name. -/
inductive Fld where
  | HST_PART_NUMBER | HST_PACKAGE_CODE | HST_STEP_MINOR | HST_STEP_MAJOR | HST_SERIAL | HST_THIS_PORT
  | HST_IS_PRIMARY | HST_PRIMARY_SEL | HST_OTHER_PORT_UP | HST_FOREIGN_COUNT | BOOT_PHASE | BOOT_READY
  | BOOT_FAWN | BOOT_IMAGE | BOOT_RECORD_STATUS | BOOT_READY_MS | BOOT_ATTEMPT_LIMIT | BOOT_ATTEMPTS
  | BOOT_ATTEMPT_CLR | BOOT_FAWN_REQ | BOOT_FAIL_REASON | BOOT_FAIL_PHASE | BOOT_FAWN_REASON | BOOT_LAST_TYPE
  | BOOT_LAST_CAUSE | BOOT_RESET_REQ | BOOT_RESET_KEY | BOOT_RESET_BAD_KEY | BOOT_CLAMP_COUNT | BOOT_CLAMP_DROPPED
  | BOOT_CLAMP_CLEAR | BOOT_CL_ENTRY | BOOT_OP_SLOT | CMP_STATE | CMP_SEALED | CMP_INTAKE_CLOSED
  | CMP_SCRUB_STEP | CMP_TAINT_CAUSE | CMP_HOUSE_UNITS | CMP_HOUSE_SLICES | CMP_HOUSE_WALKERS | CMP_HOUSE_T1_GIB
  | CMP_HOUSE_RANGE_BLK | CMP_HOUSE_CON_BLK | CMP_HOUSE_CONJ_BLK | CMP_HOUSE_QP_BLK | CMP_HOUSE_CQ_BLK | CMP_HOUSE_SRQ_BLK
  | CMP_HOUSE_PD_BLK | CMP_HOUSE_KEY_BLK | CMP_HOUSE_T2_GIB | CMP_FREE_SLICES | CMP_FREE_WALKERS | CMP_FREE_RANGE_BLK
  | CMP_FREE_CON_BLK | CMP_FREE_CONJ_BLK | CMP_FREE_QP_BLK | CMP_FREE_CQ_BLK | CMP_FREE_SRQ_BLK | CMP_FREE_PD_BLK
  | CMP_FREE_KEY_BLK | CMP_FREE_STREAMS | CMP_SLICE_OWNER | CMP_SLICE_BOUND | CMP_CTR_ACTIVE_ID | CMP_CTR_STAGED_ID
  | CMP_CTR_EPOCH_CUR | CMP_CTR_BREACH_FRAME | CMP_CTR_SUPPRESSING | CMP_CTR_BREACH_TOTAL | CMP_CTR_SUPPRESS | INS_ENABLE
  | INS_BOUND | INS_CMP | INS_RESET_BUSY | INS_CMD_RINGS | INS_CPL_RINGS | INS_ENGINES
  | INS_RING_MOOD | INS_QP_FIRST | INS_QP_COUNT | INS_QP_IND | INS_PASID_BASE | INS_PASID_COUNT
  | INS_MB_HOLDER | INS_MB_REPLY | INS_MB_SEND_RELAY | INS_MB_NEXT_SEQ | INS_MB_NOTICE_SET | INS_ORD_TARGET
  | INS_ORD_CODE | INS_ORD_KIND | INS_ORD_STATUS | INS_MB_DROPPED | INS_MB_REPLY_REJECT | INS_RESET_DRAINED
  | INS_RESET_SQUASHED | INS_RESET_COUNT | INS_MB_RELAY_NOTICE | INS_SELF_FUNC | INS_SELF_PORT | INS_MB_SEND
  | INS_MB_NOTICE | RNG_BASE | RNG_LOG2_SIZE | RNG_LOC | RNG_PASID_EN | RNG_PASID
  | RNG_CPL_RING | RNG_MOOD | RNG_STATE | RNG_TIMEOUT | RNG_CONS | RNG_PROD
  | RNG_CREATE | RNG_DESTROY | RNG_ORDER | RNG_SETUP_STATUS | RNG_ORD_RESULT | RNG_INFLIGHT
  | RNG_DB_DROPPED | RNG_CBASE | RNG_CLOG2_SIZE | RNG_CLOC | RNG_CPASID_EN | RNG_CPASID
  | RNG_CPL_EVT_ALL | RNG_CSTATE | RNG_CPROD | RNG_CCONS | RNG_CCREATE | RNG_CDESTROY
  | RNG_CORDER | RNG_CSETUP_STATUS | RNG_CORD_RESULT | RNG_CPL_FULL_WAITS | RNG_CPL_CLAIM_TIES | RNG_CPL_DISCARDED
  | RNG_LATE_COMPLETIONS | RNG_DB_DROPPED_TOTAL | CON_VALUE | CON_OBJ_BLK_OWNER | CON_OBJ_BLK_BOUND | CON_SLOT_BLK_OWNER
  | CON_SLOT_BLK_BOUND | CON_SIG_TIES | CON_ARMS | CON_ARM_BUSY | CON_TAG_UNMATCHED | CON_FIRED
  | CON_SLOT_WORD | CON_VIEW_VALUE | CON_VSIG_VALUE | CON_VSIG_OBJ | CON_VSIG_OP | CON_VSIG_STATUS
  | CON_VIEW_ARMED | CON_VIEW_BLK | CON_VIEW_BLK_VALID | EVT_SRC_OWNER | EVT_SRC_BOUND | EVT_SRC_SENSE
  | EVT_SRC_ROUTED | EVT_SRC_VEC | EVT_PENDING | EVT_COUNT | EVT_SAT | EVT_COAL_COUNT
  | EVT_TARGETS | EVT_VEC_MASK | EVT_COAL_TIME | EVT_ALT1 | EVT_ALT2 | EVT_ALT3
  | EVT_CLM_SRC | EVT_CLM_COUNT | EVT_CLM_SAT | EVT_VEC_BATCH | EVT_VEC_HELD | EVT_VEC_NPEND
  | EVT_VEC_DELIVERIES | EVT_VEC_SPURIOUS | EVT_CPL_SRC | EVT_CPL_SRC_VALID | EVT_RT_SRC | EVT_RT_VEC
  | EVT_RT_SENSE | EVT_RT_APPLY | EVT_RT_STATUS | EVT_RT_PEND | EVT_RT_ROUTED | EVT_RT_MSG
  | EVT_RT_CUR_VEC | EVT_RT_COUNT | EVT_RT_SAT | EVT_DOORBELL | EVT_DB_DROPPED | EVT_MB_SERVE
  | EVT_DB_DROPPED_TOTAL | EVT_CLAIM_TIES | TRN_ATS_AHEAD | TRN_PRG_PAGES | TRN_PRI_ROUNDS | TRN_ATS_REQS
  | TRN_ATS_STALE | TRN_PRG_SENT | TRN_PRG_LATE | TRN_PRG_UNEXPECTED | TRN_INV_RECEIVED | TRN_INV_OVERFLOW
  | TRN_PRI_FAILURES | TRN_PRG_OUTSTANDING | TRN_ROOT | TRN_ROOT_VALID | TRN_WALKERS | TRN_WALK_QUEUE
  | TRN_FAULT_LIMIT | TRN_FAULT_FRAME | TRN_MGR_INV_CMP | TRN_MGR_INV_GO | TRN_MGR_INV_BUSY | TRN_LOAD_INDEX
  | TRN_LOAD_REASON | TRN_PC_QUOTA | TRN_PC_PINNED | TRN_PC_PIN_EMPTY | TRN_RE | SYC_WIN_BASE
  | SYC_WIN_UNITS | SYC_WIN_PERSIST | SYC_WIN_MOOD | SYC_WIN_QUOTA | SYC_WIN_PIN | SYC_MT_ADDR
  | SYC_MT_LEN | SYC_MT_OP | SYC_MT_GO | SYC_MT_BUSY | SYC_MT_STATUS | SYC_MT_LINES
  | COH_WIN_BASE | COH_WIN_UNITS | COH_WIN_HOST_A | COH_WIN_HOST_B | COH_WIN_NO_E | COH_WIN_DPA
  | COH_WIN_BUSY | COH_WIN_DROPPED | COH_AG_CMP | COH_AG_BOUND | COH_AG_LIVE | COH_AG_LOST_LINES
  | COH_RETRY_GAP | STK_TRAINED | STK_TEMP | STK_TEMP_PEAK | STK_REF_STEP | STK_THR_STEP
  | STK_TRIPPED | STK_ACT_COUNT | STK_ACT_T1 | STK_ACT_T2 | STK_ACT_T3 | STK_REF_MIN
  | STK_ECC_CORR | STK_ECC_UNCORR | STK_ERR_APA | STK_REF_STEPS | STK_THR_STEPS | STK_T_REF2
  | STK_T_REF3 | STK_T_THR1 | STK_T_THR2 | STK_T_THR3 | STK_T_TRIP | STK_T_HYST
  | STK_GROUP_MODE | STK_CORR_LIMIT | EXP_STATE | EXP_LINK_UP | EXP_IDE_UP | EXP_USABLE_GIB
  | EXP_SERIAL | EXP_BOUND_SERIAL | EXP_MAP_OUTCOME | EXP_MAP_REASON | EXP_RD_POISON | EXP_WR_DISCARD
  | EXP_SLOW | EXP_ENUM_GO | EXP_ENUM_BUSY | EXP_ENUM_STATUS | EXP_ENUM_BEAT | EXP_IDE_REQUIRED
  | EXP_LAT_LIMIT | PLK_LINK_STATE | PLK_LINK_EN | PLK_RETRAIN | PLK_NBR_ID | PLK_NBR_LINK
  | PLK_NBR_VALID | PLK_NBR_SERIAL | PLK_LAST_UP | PLK_LAST_DOWN | PLK_FEC_CORR | PLK_FEC_UNCORR
  | PLK_CRC_ERR | PLK_PROTO_ERR | PLK_REPLAYS | PLK_REPLAY_LIMIT | PLK_FLIGHT | PLK_TIME_ASYM
  | PLK_PLAN_ACTIVE_ID | PLK_PLAN_STAGED_ID | PLK_PLAN_GEN | PLK_UNKNOWN_STREAM | PLK_PLAN_MISMATCH | PLK_NO_ROUTE
  | PLK_TRAIN_FAIL | PLK_JUNCTION_ID | PLK_TIME_PARENT | PLK_TIME_ROOT | PLK_TIME_ROOT_ID | PLK_TIME_DEPTH
  | PLK_TIME_OFFSET | PLK_ROLL_STATUS | PLK_ROLL_BUSY | PLK_ROLL_START | PLK_ROLL_END | PLK_ROLL_TIMEOUT
  | PLK_LOAD_REASON | PLK_LOAD_SLOT | PLK_CMP_STREAM | PLK_CMP_STREAM_VALID | PLK_ROUTE_WORD | PLK_PLAN_WORD
  | NET_ARG | NET_CMD_CODE | NET_CMD_BUSY | NET_CMD_STATUS | NET_CMD_RESULT | NET_CMD_SRC
  | NET_CMD_SRC_VALID | NET_AEQ_LO | NET_AEQ_HI | NET_AEQ_SRC | NET_AEQ_SRC_VALID | NET_AEQ_OVF
  | NET_SRQ_SLOT | NET_SRQ_SLOT_VALID | NET_CQ_SLOT | NET_CQ_SLOT_VALID | NET_SRQ_POSTED | NET_MGR_REVOKE
  | NET_MGR_REV_BUSY | NET_MGR_REV_STATUS | NET_REFUSE_LIMIT | NET_QP_CTX_WORD | NET_KEY_WORD | NET_PORT_EN
  | NET_PORT_LINK_UP | NET_PORT_MODE | NET_PORT_ECN_EN | NET_PORT_MAC | NET_PORT_MAX_FRAME | NET_PFC_EN
  | NET_PFC_PRIO_A | NET_PFC_PRIO_B | NET_PFC_XOFF | NET_PFC_XON | NET_PFC_STORM_US | NET_CNP_INTERVAL
  | NET_CC_G | NET_CC_RAI | NET_CC_TIMER_US | NET_CC_ALPHA_US | NET_CC_BYTES | NET_CC_MIN
  | NET_RETX_LIMIT | NET_PORT_FCS_ERR | NET_PORT_ICRC_ERR | NET_PORT_BAD_HDR | NET_PORT_NO_DEST | NET_PORT_PKEY_DROP
  | NET_PORT_BAD_OP | NET_PORT_SEQ_NAK | NET_PORT_TAG_FAIL | NET_PORT_OTHER | NET_PORT_LOSSY_DROP | NET_PORT_PFC_TX
  | NET_PORT_PFC_RX | NET_CMP_IP | NET_CMP_IPV6 | NET_CMP_PRIO | NET_CMP_PLAIN_OK | NET_CMP_DSCP
  | NET_CMP_PKEY | NET_CMP_RXBUF | NET_AH_WORD | INC_DRING_BASE | INC_DRING_LOC | INC_DRING_EN
  | INC_DRING_STATE | INC_DRING_PROD | INC_DRING_CONS | INC_DRING_QUEUED | INC_SEQ_NEXT | INC_DEVICE_PENDING
  | INC_LOST_NOTICE | INC_LOST_DEGRADED | INC_LOST_JOB | INC_LOST_DEVICE | INC_CRING_BASE | INC_CRING_LOC
  | INC_CRING_EN | INC_CRING_READER | INC_CRING_STATE | INC_CRING_PROD | INC_CRING_CONS | INC_CRING_LOST_NOTICE
  | INC_CRING_LOST_DEGRADED | INC_CRING_LOST_JOB | INC_CRING_LOST_DEVICE | SEC_LIFECYCLE | SEC_DBG_OPEN | SEC_DBG_OPENED_SINCE_POWER
  | SEC_DBG_LOCKOUT | SEC_SEAL | SEC_MIN_SVN | SEC_IMAGE_SVN | SEC_SVN_COMMIT | SEC_FW_KEY_REVOKED
  | SEC_FW_KEY_USED | SEC_T1_KEY | SEC_T2_KEY | SEC_LINK_ACTIVE | SEC_LINK_STAGED | SEC_T1_ROTATING
  | SEC_T2_ROTATING | SEC_CMP_AUTH | SEC_DBG_REQ | SEC_DBG_SUBMIT | SEC_DBG_MODE | SEC_DBG_STATUS
  | SEC_DBG_FAILURES | SEC_DBG_CHALLENGE | SEC_DBG_RESPONSE | SEC_EXP_IDE_UP | SEC_EXP_IDE_REKEY | SEC_EXP_CERT_DIGEST
  | PWR_BEAT | PWR_BEAT_LOCKED | PWR_BEAT_LOST | PWR_PLL_LOCK | PWR_TSYNC_EN | PWR_TSYNC_ERR
  | PWR_ROOT_TIME | PWR_GATE_PLK | PWR_GATE_NET | PWR_GATE_EXP | PWR_GATE_SLICE | PWR_GATE_BUSY
  | PWR_TEMP | PWR_TEMP_MAX | PWR_TEMP_PEAK | PWR_T_WARN | PWR_T_CRIT | PWR_T_HYST
  | PWR_POWER_MW | PWR_ENERGY_MJ | PWR_LIMIT_W | PWR_AVS_TARGET_MV | PWR_RAIL_MV | PWR_ALARM_STATE
  | PWR_ALERT_JUNCTION | PWR_ALERT_CAUSE | PWR_IBI_DROPPED | STAT_FRAME_K | STAT_FRAME_K_ACTIVE | STAT_SHADOW_K
  | STAT_SHADOW_FRAME | STAT_F_LIVE | STAT_F_SHADOW | TRN_ST_PORT_MISS | TRN_ST_WALKS | TRN_ST_RANGE_HITS
  | TRN_ST_MERGED | TRN_ST_FAULTS | TRN_ST_INV | TRN_ST_WALK_RESTART | TRN_ST_OVERFLOW | SYC_ST_HITS
  | SYC_ST_MISSES | SYC_ST_NO_ALLOC | SYC_ST_DUP_FILL | SYC_ST_STALE_FILL | SYC_ST_WRITEBACKS | SYC_ST_EVICT_STREAM
  | SYC_ST_EVICT_NORMAL | SYC_ST_EVICT_PERSIST | SYC_ST_MISS_HOLD | COH_ST_FWD | COH_ST_INV | COH_ST_BACK_INV
  | COH_ST_RSP_MISS | COH_ST_EVICT_CROSS | COH_ST_RETRY | COH_ST_STARVED | COH_ST_RES_EXPIRED | COH_ST_INV_WRITES
  | COH_ST_HOST_HELD | COH_AT_FAR | COH_AT_FAR_DIE | COH_AT_PLACE_FORCED | COH_AT_INVALID | COH_AT_OVERFLOW
  | COH_AT_UNDERFLOW | COH_AT_POISONED | STK_GR_CMDS | STK_GR_ENTRIES | STK_GR_LINES | STK_GR_POISONED
  | NET_ST_TX_MSGS | NET_ST_RX_MSGS | NET_ST_REFUSED | NET_ST_ALLOC_TIES | NET_ST_SRQ_TIES | NET_ST_SRQ_EMPTY
  | NET_ST_RNR_DISCARD | NET_ST_LATE | NET_ST_CQ_FULL_WAITS | NET_ST_ALLOC_EMPTY | NET_ST_RETRANSMIT | NET_ST_RX_FULL
  | NET_ST_CNP_TX | NET_ST_CNP_RX
  deriving DecidableEq, Repr

/-- The access codes of the table "Register access codes" (R14). -/
inductive Access where
  | RW | RO | WO | W1C | W1S | RC | RWL
  deriving DecidableEq, Repr

/-- The values a set-up field takes (R17): every value of its width, a numeric range, a list of encodings, or a
limit stated in terms of other fields (R624). -/
inductive Legal where
  | any
  | between (lo hi : Nat)
  | oneOf (codes : List Nat)
  | cross
  deriving DecidableEq, Repr

/-- One dimension of a register array: how many, the byte stride, and the stride in bits inside one register. -/
structure Dim where
  count : Nat
  bytes : Nat
  bits  : Nat
  deriving DecidableEq, Repr

/-- What a register table says of one field.  `perFn`: the register belongs to the accessing function (R611) and
`base` is its instance BAR0 offset; otherwise `base` is its manager BAR0 offset. -/
structure FieldSpec where
  perFn    : Bool
  base     : Nat
  dims     : List Dim
  lo       : Nat
  width    : Nat
  pair     : Bool
  access   : Access
  setup    : Bool
  aon      : Bool
  sticky   : Bool
  computed : Bool
  lowRes   : Nat
  reset    : Nat
  legal    : Legal
  deriving DecidableEq, Repr

/-- The register tables of the spec, one row a field: owner space, base offset, array dimensions, lowest bit, width,
register pair, access code, set-up, always-on domain, kept through warm reset, computed from other state, reserved low
bits of an address, reset value, legal values. -/
def Fld.spec : Fld → FieldSpec
  | .HST_PART_NUMBER => ⟨false, 0x0, [], 0, 16, false, .RO, false, false, false, false, 0, 18962, .any⟩
  | .HST_PACKAGE_CODE => ⟨false, 0x0, [], 16, 16, false, .RO, false, false, false, false, 0, 23052, .any⟩
  | .HST_STEP_MINOR => ⟨false, 0x4, [], 0, 4, false, .RO, false, false, false, false, 0, 0, .any⟩
  | .HST_STEP_MAJOR => ⟨false, 0x4, [], 4, 4, false, .RO, false, false, false, false, 0, 1, .any⟩
  | .HST_SERIAL => ⟨false, 0x8, [], 0, 64, true, .RO, false, false, false, false, 0, 0, .any⟩
  | .HST_THIS_PORT => ⟨false, 0x10, [], 0, 1, false, .RO, false, false, false, true, 0, 0, .any⟩
  | .HST_IS_PRIMARY => ⟨false, 0x10, [], 1, 1, false, .RO, false, false, false, true, 0, 0, .any⟩
  | .HST_PRIMARY_SEL => ⟨false, 0x10, [], 2, 1, false, .RO, false, false, false, false, 0, 0, .any⟩
  | .HST_OTHER_PORT_UP => ⟨false, 0x10, [], 3, 1, false, .RO, false, false, false, true, 0, 0, .any⟩
  | .HST_FOREIGN_COUNT => ⟨false, 0x14, [], 0, 16, false, .RO, false, false, true, false, 0, 0, .any⟩
  | .BOOT_PHASE => ⟨false, 0x100000, [], 0, 3, false, .RO, false, false, false, false, 0, 0, .any⟩
  | .BOOT_READY => ⟨false, 0x100000, [], 4, 1, false, .RO, false, false, false, false, 0, 0, .any⟩
  | .BOOT_FAWN => ⟨false, 0x100000, [], 5, 1, false, .RO, false, false, false, false, 0, 0, .any⟩
  | .BOOT_IMAGE => ⟨false, 0x100000, [], 6, 1, false, .RO, false, false, false, false, 0, 0, .any⟩
  | .BOOT_RECORD_STATUS => ⟨false, 0x100000, [], 8, 2, false, .RO, false, false, false, false, 0, 0, .any⟩
  | .BOOT_READY_MS => ⟨false, 0x100000, [], 16, 16, false, .RO, false, false, false, false, 0, 0, .any⟩
  | .BOOT_ATTEMPT_LIMIT => ⟨false, 0x100004, [], 0, 3, false, .RW, true, true, false, false, 0, 3, .between 1 7⟩
  | .BOOT_ATTEMPTS => ⟨false, 0x100004, [], 8, 3, false, .RO, false, true, false, false, 0, 0, .any⟩
  | .BOOT_ATTEMPT_CLR => ⟨false, 0x100004, [], 16, 1, false, .W1S, false, false, false, false, 0, 0, .any⟩
  | .BOOT_FAWN_REQ => ⟨false, 0x100004, [], 17, 1, false, .RW, false, true, false, false, 0, 0, .any⟩
  | .BOOT_FAIL_REASON => ⟨false, 0x100008, [], 0, 8, false, .RO, false, true, false, false, 0, 0, .any⟩
  | .BOOT_FAIL_PHASE => ⟨false, 0x100008, [], 8, 3, false, .RO, false, true, false, false, 0, 0, .any⟩
  | .BOOT_FAWN_REASON => ⟨false, 0x100008, [], 16, 2, false, .RO, false, false, false, false, 0, 0, .any⟩
  | .BOOT_LAST_TYPE => ⟨false, 0x10000C, [], 0, 4, false, .RO, false, false, false, false, 0, 0, .any⟩
  | .BOOT_LAST_CAUSE => ⟨false, 0x10000C, [], 4, 4, false, .RO, false, false, false, false, 0, 0, .any⟩
  | .BOOT_RESET_REQ => ⟨false, 0x100010, [], 0, 2, false, .WO, false, false, false, false, 0, 0, .any⟩
  | .BOOT_RESET_KEY => ⟨false, 0x100010, [], 16, 16, false, .WO, false, false, false, false, 0, 0, .any⟩
  | .BOOT_RESET_BAD_KEY => ⟨false, 0x100014, [], 0, 16, false, .RO, false, false, false, false, 0, 0, .any⟩
  | .BOOT_CLAMP_COUNT => ⟨false, 0x100100, [], 0, 7, false, .RO, false, false, false, true, 0, 0, .any⟩
  | .BOOT_CLAMP_DROPPED => ⟨false, 0x100100, [], 16, 16, false, .RO, false, false, false, false, 0, 0, .any⟩
  | .BOOT_CLAMP_CLEAR => ⟨false, 0x100104, [], 0, 1, false, .W1S, false, false, false, false, 0, 0, .any⟩
  | .BOOT_CL_ENTRY => ⟨false, 0x101000, [⟨64, 32, 0⟩, ⟨4, 8, 0⟩], 0, 64, true, .RO, false, false, false, true, 0, 0, .any⟩
  | .BOOT_OP_SLOT => ⟨false, 0x102000, [⟨16, 64, 0⟩, ⟨8, 8, 0⟩], 0, 64, true, .RO, false, false, false, true, 0, 0, .any⟩
  | .CMP_STATE => ⟨false, 0x200000, [⟨32, 4, 0⟩], 0, 3, false, .RO, false, true, false, false, 0, 0, .any⟩
  | .CMP_SEALED => ⟨false, 0x200000, [⟨32, 4, 0⟩], 3, 1, false, .RO, false, false, false, false, 0, 0, .any⟩
  | .CMP_INTAKE_CLOSED => ⟨false, 0x200000, [⟨32, 4, 0⟩], 4, 1, false, .RO, false, false, false, false, 0, 0, .any⟩
  | .CMP_SCRUB_STEP => ⟨false, 0x200000, [⟨32, 4, 0⟩], 8, 4, false, .RO, false, true, false, false, 0, 0, .any⟩
  | .CMP_TAINT_CAUSE => ⟨false, 0x200000, [⟨32, 4, 0⟩], 12, 4, false, .RO, false, true, false, false, 0, 0, .any⟩
  | .CMP_HOUSE_UNITS => ⟨false, 0x200100, [], 0, 11, false, .RWL, true, true, false, false, 0, 32, .between 8 128⟩
  | .CMP_HOUSE_SLICES => ⟨false, 0x200104, [], 0, 8, false, .RWL, true, true, false, false, 0, 4, .between 1 32⟩
  | .CMP_HOUSE_WALKERS => ⟨false, 0x200104, [], 8, 8, false, .RWL, true, true, false, false, 0, 2, .between 2 16⟩
  | .CMP_HOUSE_T1_GIB => ⟨false, 0x200104, [], 16, 9, false, .RWL, true, true, false, false, 0, 8, .between 0 64⟩
  | .CMP_HOUSE_RANGE_BLK => ⟨false, 0x200108, [], 0, 8, false, .RWL, true, true, false, false, 0, 1, .between 0 16⟩
  | .CMP_HOUSE_CON_BLK => ⟨false, 0x200108, [], 8, 8, false, .RWL, true, true, false, false, 0, 2, .between 0 16⟩
  | .CMP_HOUSE_CONJ_BLK => ⟨false, 0x200108, [], 16, 8, false, .RWL, true, true, false, false, 0, 4, .between 0 16⟩
  | .CMP_HOUSE_QP_BLK => ⟨false, 0x200108, [], 24, 8, false, .RWL, true, true, false, false, 0, 0, .between 0 16⟩
  | .CMP_HOUSE_CQ_BLK => ⟨false, 0x20010C, [], 0, 8, false, .RWL, true, true, false, false, 0, 0, .between 0 16⟩
  | .CMP_HOUSE_SRQ_BLK => ⟨false, 0x20010C, [], 8, 8, false, .RWL, true, true, false, false, 0, 0, .between 0 16⟩
  | .CMP_HOUSE_PD_BLK => ⟨false, 0x20010C, [], 16, 8, false, .RWL, true, true, false, false, 0, 0, .between 0 16⟩
  | .CMP_HOUSE_KEY_BLK => ⟨false, 0x20010C, [], 24, 8, false, .RWL, true, true, false, false, 0, 0, .between 0 16⟩
  | .CMP_HOUSE_T2_GIB => ⟨false, 0x200120, [], 0, 13, false, .RWL, true, true, false, false, 0, 0, .between 0 4096⟩
  | .CMP_FREE_SLICES => ⟨false, 0x200110, [], 0, 8, false, .RO, false, false, false, true, 0, 0, .any⟩
  | .CMP_FREE_WALKERS => ⟨false, 0x200110, [], 8, 8, false, .RO, false, false, false, true, 0, 0, .any⟩
  | .CMP_FREE_RANGE_BLK => ⟨false, 0x200110, [], 16, 8, false, .RO, false, false, false, true, 0, 0, .any⟩
  | .CMP_FREE_CON_BLK => ⟨false, 0x200110, [], 24, 8, false, .RO, false, false, false, true, 0, 0, .any⟩
  | .CMP_FREE_CONJ_BLK => ⟨false, 0x200114, [], 0, 8, false, .RO, false, false, false, true, 0, 0, .any⟩
  | .CMP_FREE_QP_BLK => ⟨false, 0x200114, [], 8, 8, false, .RO, false, false, false, true, 0, 0, .any⟩
  | .CMP_FREE_CQ_BLK => ⟨false, 0x200114, [], 16, 8, false, .RO, false, false, false, true, 0, 0, .any⟩
  | .CMP_FREE_SRQ_BLK => ⟨false, 0x200114, [], 24, 8, false, .RO, false, false, false, true, 0, 0, .any⟩
  | .CMP_FREE_PD_BLK => ⟨false, 0x200118, [], 0, 8, false, .RO, false, false, false, true, 0, 0, .any⟩
  | .CMP_FREE_KEY_BLK => ⟨false, 0x200118, [], 8, 8, false, .RO, false, false, false, true, 0, 0, .any⟩
  | .CMP_FREE_STREAMS => ⟨false, 0x200118, [], 16, 8, false, .RO, false, false, false, true, 0, 0, .any⟩
  | .CMP_SLICE_OWNER => ⟨false, 0x200200, [⟨32, 4, 0⟩, ⟨4, 0, 8⟩], 0, 5, false, .RO, false, false, false, true, 0, 0, .any⟩
  | .CMP_SLICE_BOUND => ⟨false, 0x200200, [⟨32, 4, 0⟩, ⟨4, 0, 8⟩], 7, 1, false, .RO, false, false, false, true, 0, 0, .any⟩
  | .CMP_CTR_ACTIVE_ID => ⟨false, 0x201000, [⟨32, 64, 0⟩], 0, 32, false, .RO, false, false, false, true, 0, 0, .any⟩
  | .CMP_CTR_STAGED_ID => ⟨false, 0x201004, [⟨32, 64, 0⟩], 0, 32, false, .RO, false, false, false, true, 0, 0, .any⟩
  | .CMP_CTR_EPOCH_CUR => ⟨false, 0x201008, [⟨32, 64, 0⟩], 0, 64, true, .RO, false, false, false, true, 0, 0, .any⟩
  | .CMP_CTR_BREACH_FRAME => ⟨false, 0x201010, [⟨32, 64, 0⟩], 0, 16, false, .RO, false, false, false, false, 0, 0, .any⟩
  | .CMP_CTR_SUPPRESSING => ⟨false, 0x201010, [⟨32, 64, 0⟩], 16, 1, false, .RO, false, false, false, false, 0, 0, .any⟩
  | .CMP_CTR_BREACH_TOTAL => ⟨false, 0x201014, [⟨32, 64, 0⟩], 0, 32, false, .RO, false, false, false, false, 0, 0, .any⟩
  | .CMP_CTR_SUPPRESS => ⟨false, 0x201018, [⟨32, 64, 0⟩], 0, 8, false, .RW, true, false, false, false, 0, 64, .between 1 255⟩
  | .INS_ENABLE => ⟨false, 0x300000, [⟨128, 256, 0⟩], 0, 1, false, .RW, true, false, false, false, 0, 0, .cross⟩
  | .INS_BOUND => ⟨false, 0x300000, [⟨128, 256, 0⟩], 1, 1, false, .RO, false, false, false, false, 0, 0, .any⟩
  | .INS_CMP => ⟨false, 0x300000, [⟨128, 256, 0⟩], 4, 5, false, .RO, false, false, false, false, 0, 0, .any⟩
  | .INS_RESET_BUSY => ⟨false, 0x300000, [⟨128, 256, 0⟩], 16, 1, false, .RO, false, false, false, false, 0, 0, .any⟩
  | .INS_CMD_RINGS => ⟨false, 0x300004, [⟨128, 256, 0⟩], 0, 7, false, .RW, true, false, false, false, 0, 0, .between 0 64⟩
  | .INS_CPL_RINGS => ⟨false, 0x300004, [⟨128, 256, 0⟩], 8, 7, false, .RW, true, false, false, false, 0, 0, .between 0 64⟩
  | .INS_ENGINES => ⟨false, 0x300004, [⟨128, 256, 0⟩], 24, 5, false, .RW, true, false, false, false, 0, 0, .any⟩
  | .INS_RING_MOOD => ⟨false, 0x300008, [⟨128, 256, 0⟩], 0, 64, true, .RW, true, false, false, false, 0, 0, .any⟩
  | .INS_QP_FIRST => ⟨false, 0x300010, [⟨128, 256, 0⟩], 0, 16, false, .RW, true, false, false, false, 0, 0, .cross⟩
  | .INS_QP_COUNT => ⟨false, 0x300014, [⟨128, 256, 0⟩], 0, 17, false, .RW, true, false, false, false, 0, 0, .cross⟩
  | .INS_QP_IND => ⟨false, 0x300018, [⟨128, 256, 0⟩], 0, 17, false, .RW, true, false, false, false, 0, 0, .cross⟩
  | .INS_PASID_BASE => ⟨false, 0x30001C, [⟨128, 256, 0⟩], 0, 20, false, .RW, true, false, false, false, 0, 0, .any⟩
  | .INS_PASID_COUNT => ⟨false, 0x300020, [⟨128, 256, 0⟩], 0, 21, false, .RW, true, false, false, false, 0, 0, .cross⟩
  | .INS_MB_HOLDER => ⟨false, 0x300024, [⟨128, 256, 0⟩], 0, 2, false, .RO, false, false, false, false, 0, 0, .any⟩
  | .INS_MB_REPLY => ⟨false, 0x300024, [⟨128, 256, 0⟩], 8, 1, false, .W1S, false, false, false, false, 0, 0, .any⟩
  | .INS_MB_SEND_RELAY => ⟨false, 0x300024, [⟨128, 256, 0⟩], 9, 1, false, .W1S, false, false, false, false, 0, 0, .any⟩
  | .INS_MB_NEXT_SEQ => ⟨false, 0x300024, [⟨128, 256, 0⟩], 16, 16, false, .RO, false, false, false, false, 0, 1, .any⟩
  | .INS_MB_NOTICE_SET => ⟨false, 0x300028, [⟨128, 256, 0⟩], 0, 32, false, .WO, false, false, false, false, 0, 0, .any⟩
  | .INS_ORD_TARGET => ⟨false, 0x30002C, [⟨128, 256, 0⟩], 0, 16, false, .WO, false, false, false, false, 0, 0, .any⟩
  | .INS_ORD_CODE => ⟨false, 0x30002C, [⟨128, 256, 0⟩], 16, 4, false, .WO, false, false, false, false, 0, 0, .any⟩
  | .INS_ORD_KIND => ⟨false, 0x30002C, [⟨128, 256, 0⟩], 20, 2, false, .WO, false, false, false, false, 0, 0, .any⟩
  | .INS_ORD_STATUS => ⟨false, 0x300030, [⟨128, 256, 0⟩], 0, 2, false, .RO, false, false, false, false, 0, 0, .any⟩
  | .INS_MB_DROPPED => ⟨false, 0x300034, [⟨128, 256, 0⟩], 0, 16, false, .RO, false, false, false, false, 0, 0, .any⟩
  | .INS_MB_REPLY_REJECT => ⟨false, 0x300034, [⟨128, 256, 0⟩], 16, 16, false, .RO, false, false, false, false, 0, 0, .any⟩
  | .INS_RESET_DRAINED => ⟨false, 0x300038, [⟨128, 256, 0⟩], 0, 32, false, .RO, false, false, false, false, 0, 0, .any⟩
  | .INS_RESET_SQUASHED => ⟨false, 0x30003C, [⟨128, 256, 0⟩], 0, 32, false, .RO, false, false, false, false, 0, 0, .any⟩
  | .INS_RESET_COUNT => ⟨false, 0x300040, [⟨128, 256, 0⟩], 0, 16, false, .RO, false, false, true, false, 0, 0, .any⟩
  | .INS_MB_RELAY_NOTICE => ⟨false, 0x300044, [⟨128, 256, 0⟩], 0, 32, false, .RC, false, false, false, false, 0, 0, .any⟩
  | .INS_SELF_FUNC => ⟨true, 0x10, [], 0, 6, false, .RO, false, false, false, true, 0, 0, .any⟩
  | .INS_SELF_PORT => ⟨true, 0x10, [], 8, 1, false, .RO, false, false, false, true, 0, 0, .any⟩
  | .INS_MB_SEND => ⟨true, 0x2000, [], 0, 1, false, .W1S, false, false, false, false, 0, 0, .any⟩
  | .INS_MB_NOTICE => ⟨true, 0x2008, [], 0, 32, false, .RC, false, false, false, false, 0, 0, .any⟩
  | .RNG_BASE => ⟨true, 0x10000, [⟨64, 64, 0⟩], 0, 64, true, .RW, true, false, false, false, 10, 0, .any⟩
  | .RNG_LOG2_SIZE => ⟨true, 0x10008, [⟨64, 64, 0⟩], 0, 5, false, .RW, true, false, false, false, 0, 4, .between 4 16⟩
  | .RNG_LOC => ⟨true, 0x10008, [⟨64, 64, 0⟩], 5, 1, false, .RW, true, false, false, false, 0, 0, .any⟩
  | .RNG_PASID_EN => ⟨true, 0x10008, [⟨64, 64, 0⟩], 6, 1, false, .RW, true, false, false, false, 0, 0, .any⟩
  | .RNG_PASID => ⟨true, 0x10008, [⟨64, 64, 0⟩], 8, 20, false, .RW, true, false, false, false, 0, 0, .any⟩
  | .RNG_CPL_RING => ⟨true, 0x1000C, [⟨64, 64, 0⟩], 0, 6, false, .RW, true, false, false, false, 0, 0, .any⟩
  | .RNG_MOOD => ⟨true, 0x1000C, [⟨64, 64, 0⟩], 8, 1, false, .RW, true, false, false, false, 0, 0, .any⟩
  | .RNG_STATE => ⟨true, 0x1000C, [⟨64, 64, 0⟩], 16, 3, false, .RO, false, false, false, false, 0, 0, .any⟩
  | .RNG_TIMEOUT => ⟨true, 0x10010, [⟨64, 64, 0⟩], 0, 24, false, .RW, true, false, false, false, 0, 0, .any⟩
  | .RNG_CONS => ⟨true, 0x10014, [⟨64, 64, 0⟩], 0, 32, false, .RO, false, false, false, false, 0, 0, .any⟩
  | .RNG_PROD => ⟨true, 0x10018, [⟨64, 64, 0⟩], 0, 32, false, .RO, false, false, false, false, 0, 0, .any⟩
  | .RNG_CREATE => ⟨true, 0x1001C, [⟨64, 64, 0⟩], 0, 1, false, .W1S, false, false, false, false, 0, 0, .any⟩
  | .RNG_DESTROY => ⟨true, 0x1001C, [⟨64, 64, 0⟩], 1, 1, false, .W1S, false, false, false, false, 0, 0, .any⟩
  | .RNG_ORDER => ⟨true, 0x1001C, [⟨64, 64, 0⟩], 4, 4, false, .WO, false, false, false, false, 0, 0, .any⟩
  | .RNG_SETUP_STATUS => ⟨true, 0x1001C, [⟨64, 64, 0⟩], 8, 4, false, .RO, false, false, false, false, 0, 0, .any⟩
  | .RNG_ORD_RESULT => ⟨true, 0x1001C, [⟨64, 64, 0⟩], 12, 2, false, .RO, false, false, false, false, 0, 0, .any⟩
  | .RNG_INFLIGHT => ⟨true, 0x10020, [⟨64, 64, 0⟩], 0, 7, false, .RO, false, false, false, true, 0, 0, .any⟩
  | .RNG_DB_DROPPED => ⟨true, 0x10020, [⟨64, 64, 0⟩], 16, 16, false, .RO, false, false, false, false, 0, 0, .any⟩
  | .RNG_CBASE => ⟨true, 0x11000, [⟨64, 64, 0⟩], 0, 64, true, .RW, true, false, false, false, 10, 0, .any⟩
  | .RNG_CLOG2_SIZE => ⟨true, 0x11008, [⟨64, 64, 0⟩], 0, 5, false, .RW, true, false, false, false, 0, 4, .between 4 16⟩
  | .RNG_CLOC => ⟨true, 0x11008, [⟨64, 64, 0⟩], 5, 1, false, .RW, true, false, false, false, 0, 0, .any⟩
  | .RNG_CPASID_EN => ⟨true, 0x11008, [⟨64, 64, 0⟩], 6, 1, false, .RW, true, false, false, false, 0, 0, .any⟩
  | .RNG_CPASID => ⟨true, 0x11008, [⟨64, 64, 0⟩], 8, 20, false, .RW, true, false, false, false, 0, 0, .any⟩
  | .RNG_CPL_EVT_ALL => ⟨true, 0x11008, [⟨64, 64, 0⟩], 28, 1, false, .RW, true, false, false, false, 0, 0, .any⟩
  | .RNG_CSTATE => ⟨true, 0x1100C, [⟨64, 64, 0⟩], 16, 2, false, .RO, false, false, false, false, 0, 0, .any⟩
  | .RNG_CPROD => ⟨true, 0x11014, [⟨64, 64, 0⟩], 0, 32, false, .RO, false, false, false, false, 0, 0, .any⟩
  | .RNG_CCONS => ⟨true, 0x11018, [⟨64, 64, 0⟩], 0, 32, false, .RO, false, false, false, false, 0, 0, .any⟩
  | .RNG_CCREATE => ⟨true, 0x1101C, [⟨64, 64, 0⟩], 0, 1, false, .W1S, false, false, false, false, 0, 0, .any⟩
  | .RNG_CDESTROY => ⟨true, 0x1101C, [⟨64, 64, 0⟩], 1, 1, false, .W1S, false, false, false, false, 0, 0, .any⟩
  | .RNG_CORDER => ⟨true, 0x1101C, [⟨64, 64, 0⟩], 4, 4, false, .WO, false, false, false, false, 0, 0, .any⟩
  | .RNG_CSETUP_STATUS => ⟨true, 0x1101C, [⟨64, 64, 0⟩], 8, 4, false, .RO, false, false, false, false, 0, 0, .any⟩
  | .RNG_CORD_RESULT => ⟨true, 0x1101C, [⟨64, 64, 0⟩], 12, 2, false, .RO, false, false, false, false, 0, 0, .any⟩
  | .RNG_CPL_FULL_WAITS => ⟨true, 0x11020, [⟨64, 64, 0⟩], 0, 16, false, .RO, false, false, false, false, 0, 0, .any⟩
  | .RNG_CPL_CLAIM_TIES => ⟨true, 0x11020, [⟨64, 64, 0⟩], 16, 16, false, .RO, false, false, false, false, 0, 0, .any⟩
  | .RNG_CPL_DISCARDED => ⟨true, 0x11024, [⟨64, 64, 0⟩], 0, 32, false, .RO, false, false, false, false, 0, 0, .any⟩
  | .RNG_LATE_COMPLETIONS => ⟨false, 0x402000, [], 0, 32, false, .RO, false, false, false, false, 0, 0, .any⟩
  | .RNG_DB_DROPPED_TOTAL => ⟨false, 0x402004, [], 0, 32, false, .RO, false, false, false, false, 0, 0, .any⟩
  | .CON_VALUE => ⟨false, 0x2000000, [⟨4096, 8, 0⟩], 0, 64, true, .RW, false, false, false, false, 0, 0, .any⟩
  | .CON_OBJ_BLK_OWNER => ⟨false, 0x2008000, [⟨64, 4, 0⟩], 0, 5, false, .RO, false, false, false, true, 0, 0, .any⟩
  | .CON_OBJ_BLK_BOUND => ⟨false, 0x2008000, [⟨64, 4, 0⟩], 8, 1, false, .RO, false, false, false, true, 0, 0, .any⟩
  | .CON_SLOT_BLK_OWNER => ⟨false, 0x2008100, [⟨128, 4, 0⟩], 0, 5, false, .RO, false, false, false, true, 0, 0, .any⟩
  | .CON_SLOT_BLK_BOUND => ⟨false, 0x2008100, [⟨128, 4, 0⟩], 8, 1, false, .RO, false, false, false, true, 0, 0, .any⟩
  | .CON_SIG_TIES => ⟨false, 0x2008400, [], 0, 32, false, .RO, false, false, false, false, 0, 0, .any⟩
  | .CON_ARMS => ⟨false, 0x2008404, [], 0, 32, false, .RO, false, false, false, false, 0, 0, .any⟩
  | .CON_ARM_BUSY => ⟨false, 0x2008408, [], 0, 32, false, .RO, false, false, false, false, 0, 0, .any⟩
  | .CON_TAG_UNMATCHED => ⟨false, 0x200840C, [], 0, 32, false, .RO, false, false, false, false, 0, 0, .any⟩
  | .CON_FIRED => ⟨false, 0x2008410, [], 0, 32, false, .RO, false, false, false, false, 0, 0, .any⟩
  | .CON_SLOT_WORD => ⟨false, 0x2100000, [⟨32768, 128, 0⟩, ⟨16, 8, 0⟩], 0, 64, true, .RO, false, false, false, true, 0, 0, .any⟩
  | .CON_VIEW_VALUE => ⟨true, 0x40000, [⟨4096, 8, 0⟩], 0, 64, true, .RO, false, false, false, true, 0, 0, .any⟩
  | .CON_VSIG_VALUE => ⟨true, 0x48000, [], 0, 64, true, .RW, false, false, false, false, 0, 0, .any⟩
  | .CON_VSIG_OBJ => ⟨true, 0x48008, [], 0, 12, false, .WO, false, false, false, false, 0, 0, .any⟩
  | .CON_VSIG_OP => ⟨true, 0x48008, [], 12, 2, false, .WO, false, false, false, false, 0, 0, .any⟩
  | .CON_VSIG_STATUS => ⟨true, 0x4800C, [], 0, 2, false, .RO, false, false, false, false, 0, 0, .any⟩
  | .CON_VIEW_ARMED => ⟨true, 0x48010, [], 0, 16, false, .RO, false, false, false, true, 0, 0, .any⟩
  | .CON_VIEW_BLK => ⟨true, 0x48100, [⟨64, 4, 0⟩], 0, 6, false, .RO, false, false, false, true, 0, 0, .any⟩
  | .CON_VIEW_BLK_VALID => ⟨true, 0x48100, [⟨64, 4, 0⟩], 8, 1, false, .RO, false, false, false, true, 0, 0, .any⟩
  | .EVT_SRC_OWNER => ⟨false, 0xC00000, [⟨2048, 16, 0⟩], 0, 7, false, .RW, true, false, false, false, 0, 0, .any⟩
  | .EVT_SRC_BOUND => ⟨false, 0xC00000, [⟨2048, 16, 0⟩], 7, 1, false, .RW, true, false, false, false, 0, 0, .any⟩
  | .EVT_SRC_SENSE => ⟨false, 0xC00000, [⟨2048, 16, 0⟩], 8, 1, false, .RO, false, false, false, false, 0, 0, .any⟩
  | .EVT_SRC_ROUTED => ⟨false, 0xC00000, [⟨2048, 16, 0⟩], 9, 1, false, .RO, false, false, false, false, 0, 0, .any⟩
  | .EVT_SRC_VEC => ⟨false, 0xC00000, [⟨2048, 16, 0⟩], 16, 8, false, .RO, false, false, false, false, 0, 0, .any⟩
  | .EVT_PENDING => ⟨false, 0xC00004, [⟨2048, 16, 0⟩], 0, 1, false, .RO, false, false, false, false, 0, 0, .any⟩
  | .EVT_COUNT => ⟨false, 0xC00004, [⟨2048, 16, 0⟩], 16, 12, false, .RO, false, false, false, false, 0, 0, .any⟩
  | .EVT_SAT => ⟨false, 0xC00004, [⟨2048, 16, 0⟩], 28, 1, false, .RO, false, false, false, false, 0, 0, .any⟩
  | .EVT_COAL_COUNT => ⟨true, 0x20000, [⟨256, 32, 0⟩], 0, 8, false, .RW, true, false, false, false, 0, 1, .between 1 255⟩
  | .EVT_TARGETS => ⟨true, 0x20000, [⟨256, 32, 0⟩], 8, 8, false, .RW, true, false, false, false, 0, 1, .cross⟩
  | .EVT_VEC_MASK => ⟨true, 0x20000, [⟨256, 32, 0⟩], 16, 1, false, .RW, false, false, false, false, 0, 1, .any⟩
  | .EVT_COAL_TIME => ⟨true, 0x20004, [⟨256, 32, 0⟩], 0, 16, false, .RW, true, false, false, false, 0, 0, .any⟩
  | .EVT_ALT1 => ⟨true, 0x20008, [⟨256, 32, 0⟩], 0, 8, false, .RW, true, false, false, false, 0, 0, .cross⟩
  | .EVT_ALT2 => ⟨true, 0x20008, [⟨256, 32, 0⟩], 8, 8, false, .RW, true, false, false, false, 0, 0, .cross⟩
  | .EVT_ALT3 => ⟨true, 0x20008, [⟨256, 32, 0⟩], 16, 8, false, .RW, true, false, false, false, 0, 0, .cross⟩
  | .EVT_CLM_SRC => ⟨true, 0x2000C, [⟨256, 32, 0⟩], 0, 11, false, .RO, false, false, false, true, 0, 0, .any⟩
  | .EVT_CLM_COUNT => ⟨true, 0x2000C, [⟨256, 32, 0⟩], 16, 12, false, .RO, false, false, false, true, 0, 0, .any⟩
  | .EVT_CLM_SAT => ⟨true, 0x2000C, [⟨256, 32, 0⟩], 28, 1, false, .RO, false, false, false, true, 0, 0, .any⟩
  | .EVT_VEC_BATCH => ⟨true, 0x20010, [⟨256, 32, 0⟩], 0, 8, false, .RO, false, false, false, false, 0, 0, .any⟩
  | .EVT_VEC_HELD => ⟨true, 0x20010, [⟨256, 32, 0⟩], 8, 1, false, .RO, false, false, false, false, 0, 0, .any⟩
  | .EVT_VEC_NPEND => ⟨true, 0x20010, [⟨256, 32, 0⟩], 16, 12, false, .RO, false, false, false, true, 0, 0, .any⟩
  | .EVT_VEC_DELIVERIES => ⟨true, 0x20014, [⟨256, 32, 0⟩], 0, 32, false, .RO, false, false, false, false, 0, 0, .any⟩
  | .EVT_VEC_SPURIOUS => ⟨true, 0x20018, [⟨256, 32, 0⟩], 0, 16, false, .RO, false, false, false, false, 0, 0, .any⟩
  | .EVT_CPL_SRC => ⟨true, 0x21000, [⟨64, 4, 0⟩], 0, 11, false, .RW, true, false, false, false, 0, 0, .cross⟩
  | .EVT_CPL_SRC_VALID => ⟨true, 0x21000, [⟨64, 4, 0⟩], 15, 1, false, .RW, true, false, false, false, 0, 0, .any⟩
  | .EVT_RT_SRC => ⟨true, 0x22000, [], 0, 11, false, .RW, false, false, false, false, 0, 0, .any⟩
  | .EVT_RT_VEC => ⟨true, 0x22004, [], 0, 8, false, .RW, false, false, false, false, 0, 0, .any⟩
  | .EVT_RT_SENSE => ⟨true, 0x22004, [], 8, 1, false, .RW, false, false, false, false, 0, 0, .any⟩
  | .EVT_RT_APPLY => ⟨true, 0x22004, [], 16, 1, false, .W1S, false, false, false, false, 0, 0, .any⟩
  | .EVT_RT_STATUS => ⟨true, 0x22008, [], 0, 2, false, .RO, false, false, false, false, 0, 0, .any⟩
  | .EVT_RT_PEND => ⟨true, 0x2200C, [], 0, 1, false, .RO, false, false, false, true, 0, 0, .any⟩
  | .EVT_RT_ROUTED => ⟨true, 0x2200C, [], 1, 1, false, .RO, false, false, false, true, 0, 0, .any⟩
  | .EVT_RT_MSG => ⟨true, 0x2200C, [], 2, 1, false, .RO, false, false, false, true, 0, 0, .any⟩
  | .EVT_RT_CUR_VEC => ⟨true, 0x2200C, [], 8, 8, false, .RO, false, false, false, true, 0, 0, .any⟩
  | .EVT_RT_COUNT => ⟨true, 0x2200C, [], 16, 12, false, .RO, false, false, false, true, 0, 0, .any⟩
  | .EVT_RT_SAT => ⟨true, 0x2200C, [], 28, 1, false, .RO, false, false, false, true, 0, 0, .any⟩
  | .EVT_DOORBELL => ⟨true, 0x2F000, [], 0, 11, false, .WO, false, false, false, false, 0, 0, .any⟩
  | .EVT_DB_DROPPED => ⟨true, 0x2F010, [], 0, 16, false, .RO, false, false, false, false, 0, 0, .any⟩
  | .EVT_MB_SERVE => ⟨false, 0xC1F100, [⟨4, 4, 0⟩], 0, 32, false, .RO, false, false, false, true, 0, 0, .any⟩
  | .EVT_DB_DROPPED_TOTAL => ⟨false, 0xC1F200, [], 0, 32, false, .RO, false, false, false, false, 0, 0, .any⟩
  | .EVT_CLAIM_TIES => ⟨false, 0xC1F204, [], 0, 32, false, .RO, false, false, false, false, 0, 0, .any⟩
  | .TRN_ATS_AHEAD => ⟨false, 0x50C000, [⟨2, 256, 0⟩], 0, 5, false, .RW, true, false, false, false, 0, 8, .between 1 16⟩
  | .TRN_PRG_PAGES => ⟨false, 0x50C000, [⟨2, 256, 0⟩], 8, 5, false, .RW, true, false, false, false, 0, 4, .between 1 16⟩
  | .TRN_PRI_ROUNDS => ⟨false, 0x50C000, [⟨2, 256, 0⟩], 16, 3, false, .RW, true, false, false, false, 0, 2, .between 1 4⟩
  | .TRN_ATS_REQS => ⟨false, 0x50C010, [⟨2, 256, 0⟩], 0, 32, false, .RO, false, false, false, false, 0, 0, .any⟩
  | .TRN_ATS_STALE => ⟨false, 0x50C014, [⟨2, 256, 0⟩], 0, 16, false, .RO, false, false, false, false, 0, 0, .any⟩
  | .TRN_PRG_SENT => ⟨false, 0x50C018, [⟨2, 256, 0⟩], 0, 32, false, .RO, false, false, false, false, 0, 0, .any⟩
  | .TRN_PRG_LATE => ⟨false, 0x50C01C, [⟨2, 256, 0⟩], 0, 16, false, .RO, false, false, false, false, 0, 0, .any⟩
  | .TRN_PRG_UNEXPECTED => ⟨false, 0x50C01C, [⟨2, 256, 0⟩], 16, 16, false, .RO, false, false, false, false, 0, 0, .any⟩
  | .TRN_INV_RECEIVED => ⟨false, 0x50C020, [⟨2, 256, 0⟩], 0, 32, false, .RO, false, false, false, false, 0, 0, .any⟩
  | .TRN_INV_OVERFLOW => ⟨false, 0x50C024, [⟨2, 256, 0⟩], 0, 16, false, .RO, false, false, false, false, 0, 0, .any⟩
  | .TRN_PRI_FAILURES => ⟨false, 0x50C024, [⟨2, 256, 0⟩], 16, 16, false, .RO, false, false, false, false, 0, 0, .any⟩
  | .TRN_PRG_OUTSTANDING => ⟨false, 0x50C028, [⟨2, 256, 0⟩], 0, 10, false, .RO, false, false, false, true, 0, 0, .any⟩
  | .TRN_ROOT => ⟨false, 0x500000, [⟨32, 32, 0⟩], 0, 64, true, .RW, true, false, false, false, 12, 0, .any⟩
  | .TRN_ROOT_VALID => ⟨false, 0x500008, [⟨32, 32, 0⟩], 0, 1, false, .RW, true, false, false, false, 0, 0, .any⟩
  | .TRN_WALKERS => ⟨false, 0x500008, [⟨32, 32, 0⟩], 8, 7, false, .RO, false, false, false, true, 0, 0, .any⟩
  | .TRN_WALK_QUEUE => ⟨false, 0x500008, [⟨32, 32, 0⟩], 16, 7, false, .RO, false, false, false, true, 0, 0, .any⟩
  | .TRN_FAULT_LIMIT => ⟨false, 0x50000C, [⟨32, 32, 0⟩], 0, 8, false, .RW, true, false, false, false, 0, 16, .between 1 255⟩
  | .TRN_FAULT_FRAME => ⟨false, 0x500010, [⟨32, 32, 0⟩], 0, 16, false, .RO, false, false, false, false, 0, 0, .any⟩
  | .TRN_MGR_INV_CMP => ⟨false, 0x500800, [], 0, 5, false, .RW, false, false, false, false, 0, 0, .any⟩
  | .TRN_MGR_INV_GO => ⟨false, 0x500800, [], 8, 1, false, .W1S, false, false, false, false, 0, 0, .any⟩
  | .TRN_MGR_INV_BUSY => ⟨false, 0x500800, [], 9, 1, false, .RO, false, false, false, false, 0, 0, .any⟩
  | .TRN_LOAD_INDEX => ⟨false, 0x500810, [], 0, 13, false, .RO, false, false, false, false, 0, 0, .any⟩
  | .TRN_LOAD_REASON => ⟨false, 0x500810, [], 16, 4, false, .RO, false, false, false, false, 0, 0, .any⟩
  | .TRN_PC_QUOTA => ⟨false, 0x501000, [⟨13, 32, 0⟩, ⟨8, 4, 0⟩, ⟨4, 0, 8⟩], 0, 7, false, .RW, true, false, false, false, 0, 0, .cross⟩
  | .TRN_PC_PINNED => ⟨false, 0x501200, [⟨13, 4, 0⟩], 0, 9, false, .RO, false, false, false, true, 0, 0, .any⟩
  | .TRN_PC_PIN_EMPTY => ⟨false, 0x501200, [⟨13, 4, 0⟩], 16, 9, false, .RO, false, false, false, true, 0, 0, .any⟩
  | .TRN_RE => ⟨false, 0x2800000, [⟨8192, 32, 0⟩, ⟨4, 8, 0⟩], 0, 64, true, .RO, false, false, false, true, 0, 0, .any⟩
  | .SYC_WIN_BASE => ⟨false, 0x600000, [⟨32, 512, 0⟩, ⟨16, 32, 0⟩], 0, 64, true, .RW, true, false, false, false, 21, 0, .any⟩
  | .SYC_WIN_UNITS => ⟨false, 0x600008, [⟨32, 512, 0⟩, ⟨16, 32, 0⟩], 0, 20, false, .RW, true, false, false, false, 0, 0, .between 0 524288⟩
  | .SYC_WIN_PERSIST => ⟨false, 0x60000C, [⟨32, 512, 0⟩, ⟨16, 32, 0⟩], 0, 2, false, .RW, true, false, false, false, 0, 1, .oneOf [0, 1, 2]⟩
  | .SYC_WIN_MOOD => ⟨false, 0x60000C, [⟨32, 512, 0⟩, ⟨16, 32, 0⟩], 2, 1, false, .RW, true, false, false, false, 0, 0, .any⟩
  | .SYC_WIN_QUOTA => ⟨false, 0x60000C, [⟨32, 512, 0⟩, ⟨16, 32, 0⟩], 4, 5, false, .RW, true, false, false, false, 0, 0, .between 0 16⟩
  | .SYC_WIN_PIN => ⟨false, 0x60000C, [⟨32, 512, 0⟩, ⟨16, 32, 0⟩], 16, 4, false, .RW, true, false, false, false, 0, 0, .cross⟩
  | .SYC_MT_ADDR => ⟨false, 0x604000, [⟨32, 32, 0⟩], 0, 64, true, .RW, false, false, false, false, 7, 0, .any⟩
  | .SYC_MT_LEN => ⟨false, 0x604008, [⟨32, 32, 0⟩], 0, 64, true, .RW, false, false, false, false, 0, 0, .any⟩
  | .SYC_MT_OP => ⟨false, 0x604010, [⟨32, 32, 0⟩], 0, 3, false, .RW, true, false, false, false, 0, 0, .oneOf [0, 1, 2, 3, 4]⟩
  | .SYC_MT_GO => ⟨false, 0x604010, [⟨32, 32, 0⟩], 8, 1, false, .W1S, false, false, false, false, 0, 0, .any⟩
  | .SYC_MT_BUSY => ⟨false, 0x604010, [⟨32, 32, 0⟩], 9, 1, false, .RO, false, false, false, false, 0, 0, .any⟩
  | .SYC_MT_STATUS => ⟨false, 0x604010, [⟨32, 32, 0⟩], 16, 2, false, .RO, false, false, false, false, 0, 0, .any⟩
  | .SYC_MT_LINES => ⟨false, 0x604014, [⟨32, 32, 0⟩], 0, 32, false, .RO, false, false, false, false, 0, 0, .any⟩
  | .COH_WIN_BASE => ⟨false, 0x700000, [⟨32, 256, 0⟩, ⟨8, 32, 0⟩], 0, 64, true, .RW, true, false, false, false, 21, 0, .any⟩
  | .COH_WIN_UNITS => ⟨false, 0x700008, [⟨32, 256, 0⟩, ⟨8, 32, 0⟩], 0, 20, false, .RW, true, false, false, false, 0, 0, .between 0 524288⟩
  | .COH_WIN_HOST_A => ⟨false, 0x70000C, [⟨32, 256, 0⟩, ⟨8, 32, 0⟩], 0, 1, false, .RW, true, false, false, false, 0, 0, .cross⟩
  | .COH_WIN_HOST_B => ⟨false, 0x70000C, [⟨32, 256, 0⟩, ⟨8, 32, 0⟩], 1, 1, false, .RW, true, false, false, false, 0, 0, .cross⟩
  | .COH_WIN_NO_E => ⟨false, 0x70000C, [⟨32, 256, 0⟩, ⟨8, 32, 0⟩], 2, 1, false, .RW, true, false, false, false, 0, 0, .any⟩
  | .COH_WIN_DPA => ⟨false, 0x700010, [⟨32, 256, 0⟩, ⟨8, 32, 0⟩], 0, 64, true, .RW, true, false, false, false, 21, 0, .any⟩
  | .COH_WIN_BUSY => ⟨false, 0x702800, [⟨32, 4, 0⟩], 0, 1, false, .RO, false, false, false, false, 0, 0, .any⟩
  | .COH_WIN_DROPPED => ⟨false, 0x702800, [⟨32, 4, 0⟩], 16, 16, false, .RO, false, false, false, false, 0, 0, .any⟩
  | .COH_AG_CMP => ⟨false, 0x702000, [⟨34, 16, 0⟩], 0, 5, false, .RO, false, false, false, true, 0, 0, .any⟩
  | .COH_AG_BOUND => ⟨false, 0x702000, [⟨34, 16, 0⟩], 8, 1, false, .RO, false, false, false, true, 0, 0, .any⟩
  | .COH_AG_LIVE => ⟨false, 0x702000, [⟨34, 16, 0⟩], 9, 1, false, .RO, false, false, false, false, 0, 0, .any⟩
  | .COH_AG_LOST_LINES => ⟨false, 0x702004, [⟨34, 16, 0⟩], 0, 32, false, .RO, false, false, false, false, 0, 0, .any⟩
  | .COH_RETRY_GAP => ⟨false, 0x703000, [], 0, 11, false, .RWL, true, false, false, false, 0, 32, .between 8 1024⟩
  | .STK_TRAINED => ⟨false, 0x800000, [⟨8, 256, 0⟩], 0, 1, false, .RO, false, false, false, false, 0, 0, .any⟩
  | .STK_TEMP => ⟨false, 0x800004, [⟨8, 256, 0⟩], 0, 8, false, .RO, false, false, false, false, 0, 0, .any⟩
  | .STK_TEMP_PEAK => ⟨false, 0x800004, [⟨8, 256, 0⟩], 8, 8, false, .RC, false, false, false, false, 0, 0, .any⟩
  | .STK_REF_STEP => ⟨false, 0x800004, [⟨8, 256, 0⟩], 16, 2, false, .RO, false, false, false, false, 0, 0, .any⟩
  | .STK_THR_STEP => ⟨false, 0x800004, [⟨8, 256, 0⟩], 20, 2, false, .RO, false, false, false, false, 0, 0, .any⟩
  | .STK_TRIPPED => ⟨false, 0x800004, [⟨8, 256, 0⟩], 24, 1, false, .RO, false, false, false, false, 0, 0, .any⟩
  | .STK_ACT_COUNT => ⟨false, 0x800008, [⟨8, 256, 0⟩], 0, 24, false, .RO, false, false, false, false, 0, 0, .any⟩
  | .STK_ACT_T1 => ⟨false, 0x80000C, [⟨8, 256, 0⟩], 0, 24, false, .RW, true, false, false, false, 0, 1048576, .between 65536 16777215⟩
  | .STK_ACT_T2 => ⟨false, 0x800010, [⟨8, 256, 0⟩], 0, 24, false, .RW, true, false, false, false, 0, 2097152, .cross⟩
  | .STK_ACT_T3 => ⟨false, 0x800014, [⟨8, 256, 0⟩], 0, 24, false, .RW, true, false, false, false, 0, 4194304, .cross⟩
  | .STK_REF_MIN => ⟨false, 0x800018, [⟨8, 256, 0⟩], 0, 2, false, .RW, true, false, false, false, 0, 0, .between 0 3⟩
  | .STK_ECC_CORR => ⟨false, 0x80001C, [⟨8, 256, 0⟩], 0, 32, false, .RO, false, false, false, false, 0, 0, .any⟩
  | .STK_ECC_UNCORR => ⟨false, 0x800020, [⟨8, 256, 0⟩], 0, 32, false, .RO, false, false, false, false, 0, 0, .any⟩
  | .STK_ERR_APA => ⟨false, 0x800024, [⟨8, 256, 0⟩], 0, 64, true, .RO, false, false, false, false, 0, 0, .any⟩
  | .STK_REF_STEPS => ⟨false, 0x80002C, [⟨8, 256, 0⟩], 0, 16, false, .RO, false, false, false, false, 0, 0, .any⟩
  | .STK_THR_STEPS => ⟨false, 0x80002C, [⟨8, 256, 0⟩], 16, 16, false, .RO, false, false, false, false, 0, 0, .any⟩
  | .STK_T_REF2 => ⟨false, 0x800800, [], 0, 8, false, .RWL, true, false, false, false, 0, 85, .between 70 95⟩
  | .STK_T_REF3 => ⟨false, 0x800800, [], 8, 8, false, .RWL, true, false, false, false, 0, 95, .cross⟩
  | .STK_T_THR1 => ⟨false, 0x800800, [], 16, 8, false, .RWL, true, false, false, false, 0, 100, .between 90 110⟩
  | .STK_T_THR2 => ⟨false, 0x800800, [], 24, 8, false, .RWL, true, false, false, false, 0, 105, .cross⟩
  | .STK_T_THR3 => ⟨false, 0x800804, [], 0, 8, false, .RWL, true, false, false, false, 0, 110, .cross⟩
  | .STK_T_TRIP => ⟨false, 0x800804, [], 8, 8, false, .RWL, true, false, false, false, 0, 115, .cross⟩
  | .STK_T_HYST => ⟨false, 0x800804, [], 16, 4, false, .RWL, true, false, false, false, 0, 3, .between 1 10⟩
  | .STK_GROUP_MODE => ⟨false, 0x800810, [], 0, 48, true, .RW, false, true, false, false, 0, 0, .any⟩
  | .STK_CORR_LIMIT => ⟨false, 0x800818, [], 0, 8, false, .RW, true, false, false, false, 0, 16, .between 1 255⟩
  | .EXP_STATE => ⟨false, 0x900000, [⟨8, 256, 0⟩], 0, 2, false, .RO, false, false, false, false, 0, 0, .any⟩
  | .EXP_LINK_UP => ⟨false, 0x900000, [⟨8, 256, 0⟩], 2, 1, false, .RO, false, false, false, false, 0, 0, .any⟩
  | .EXP_IDE_UP => ⟨false, 0x900000, [⟨8, 256, 0⟩], 3, 1, false, .RO, false, false, false, false, 0, 0, .any⟩
  | .EXP_USABLE_GIB => ⟨false, 0x900004, [⟨8, 256, 0⟩], 0, 10, false, .RO, false, false, false, false, 0, 0, .any⟩
  | .EXP_SERIAL => ⟨false, 0x900008, [⟨8, 256, 0⟩], 0, 64, true, .RO, false, false, false, false, 0, 0, .any⟩
  | .EXP_BOUND_SERIAL => ⟨false, 0x900010, [⟨8, 256, 0⟩], 0, 64, true, .RO, false, true, false, false, 0, 0, .any⟩
  | .EXP_MAP_OUTCOME => ⟨false, 0x900018, [⟨8, 256, 0⟩], 0, 3, false, .RO, false, false, false, false, 0, 0, .any⟩
  | .EXP_MAP_REASON => ⟨false, 0x900018, [⟨8, 256, 0⟩], 8, 4, false, .RO, false, false, false, false, 0, 0, .any⟩
  | .EXP_RD_POISON => ⟨false, 0x90001C, [⟨8, 256, 0⟩], 0, 32, false, .RO, false, false, false, false, 0, 0, .any⟩
  | .EXP_WR_DISCARD => ⟨false, 0x900020, [⟨8, 256, 0⟩], 0, 32, false, .RO, false, false, false, false, 0, 0, .any⟩
  | .EXP_SLOW => ⟨false, 0x900024, [⟨8, 256, 0⟩], 0, 32, false, .RO, false, false, false, false, 0, 0, .any⟩
  | .EXP_ENUM_GO => ⟨false, 0x900800, [], 0, 1, false, .W1S, false, false, false, false, 0, 0, .any⟩
  | .EXP_ENUM_BUSY => ⟨false, 0x900800, [], 1, 1, false, .RO, false, false, false, false, 0, 0, .any⟩
  | .EXP_ENUM_STATUS => ⟨false, 0x900800, [], 4, 2, false, .RO, false, false, false, false, 0, 0, .any⟩
  | .EXP_ENUM_BEAT => ⟨false, 0x900808, [], 0, 64, true, .RO, false, false, false, false, 0, 0, .any⟩
  | .EXP_IDE_REQUIRED => ⟨false, 0x900810, [], 0, 1, false, .RWL, true, false, false, false, 0, 1, .any⟩
  | .EXP_LAT_LIMIT => ⟨false, 0x900810, [], 16, 10, false, .RW, true, false, false, false, 0, 640, .between 200 1000⟩
  | .PLK_LINK_STATE => ⟨false, 0xA00000, [⟨12, 256, 0⟩], 0, 3, false, .RO, false, false, false, false, 0, 0, .any⟩
  | .PLK_LINK_EN => ⟨false, 0xA00000, [⟨12, 256, 0⟩], 8, 1, false, .RW, true, false, false, false, 0, 1, .any⟩
  | .PLK_RETRAIN => ⟨false, 0xA00000, [⟨12, 256, 0⟩], 9, 1, false, .W1S, false, false, false, false, 0, 0, .any⟩
  | .PLK_NBR_ID => ⟨false, 0xA00004, [⟨12, 256, 0⟩], 0, 8, false, .RO, false, false, false, false, 0, 0, .any⟩
  | .PLK_NBR_LINK => ⟨false, 0xA00004, [⟨12, 256, 0⟩], 8, 4, false, .RO, false, false, false, false, 0, 0, .any⟩
  | .PLK_NBR_VALID => ⟨false, 0xA00004, [⟨12, 256, 0⟩], 16, 1, false, .RO, false, false, false, false, 0, 0, .any⟩
  | .PLK_NBR_SERIAL => ⟨false, 0xA00008, [⟨12, 256, 0⟩], 0, 64, true, .RO, false, false, false, false, 0, 0, .any⟩
  | .PLK_LAST_UP => ⟨false, 0xA00010, [⟨12, 256, 0⟩], 0, 64, true, .RO, false, false, false, false, 0, 0, .any⟩
  | .PLK_LAST_DOWN => ⟨false, 0xA00018, [⟨12, 256, 0⟩], 0, 64, true, .RO, false, false, false, false, 0, 0, .any⟩
  | .PLK_FEC_CORR => ⟨false, 0xA00020, [⟨12, 256, 0⟩], 0, 32, false, .RO, false, false, false, false, 0, 0, .any⟩
  | .PLK_FEC_UNCORR => ⟨false, 0xA00024, [⟨12, 256, 0⟩], 0, 32, false, .RO, false, false, false, false, 0, 0, .any⟩
  | .PLK_CRC_ERR => ⟨false, 0xA00028, [⟨12, 256, 0⟩], 0, 16, false, .RO, false, false, false, false, 0, 0, .any⟩
  | .PLK_PROTO_ERR => ⟨false, 0xA00028, [⟨12, 256, 0⟩], 16, 16, false, .RO, false, false, false, false, 0, 0, .any⟩
  | .PLK_REPLAYS => ⟨false, 0xA0002C, [⟨12, 256, 0⟩], 0, 32, false, .RO, false, false, false, false, 0, 0, .any⟩
  | .PLK_REPLAY_LIMIT => ⟨false, 0xA00030, [⟨12, 256, 0⟩], 0, 8, false, .RW, true, false, false, false, 0, 16, .between 1 255⟩
  | .PLK_FLIGHT => ⟨false, 0xA00034, [⟨12, 256, 0⟩], 0, 16, false, .RO, false, false, false, false, 0, 0, .any⟩
  | .PLK_TIME_ASYM => ⟨false, 0xA00038, [⟨12, 256, 0⟩], 0, 16, false, .RW, true, false, false, false, 0, 0, .cross⟩
  | .PLK_PLAN_ACTIVE_ID => ⟨false, 0xA0003C, [⟨12, 256, 0⟩], 0, 32, false, .RO, false, false, false, true, 0, 0, .any⟩
  | .PLK_PLAN_STAGED_ID => ⟨false, 0xA00040, [⟨12, 256, 0⟩], 0, 32, false, .RO, false, false, false, true, 0, 0, .any⟩
  | .PLK_PLAN_GEN => ⟨false, 0xA00044, [⟨12, 256, 0⟩], 0, 1, false, .RO, false, false, false, false, 0, 0, .any⟩
  | .PLK_UNKNOWN_STREAM => ⟨false, 0xA00048, [⟨12, 256, 0⟩], 0, 16, false, .RO, false, false, false, false, 0, 0, .any⟩
  | .PLK_PLAN_MISMATCH => ⟨false, 0xA00048, [⟨12, 256, 0⟩], 16, 16, false, .RO, false, false, false, false, 0, 0, .any⟩
  | .PLK_NO_ROUTE => ⟨false, 0xA0004C, [⟨12, 256, 0⟩], 0, 16, false, .RO, false, false, false, false, 0, 0, .any⟩
  | .PLK_TRAIN_FAIL => ⟨false, 0xA0004C, [⟨12, 256, 0⟩], 16, 16, false, .RO, false, false, false, false, 0, 0, .any⟩
  | .PLK_JUNCTION_ID => ⟨false, 0xA01000, [], 0, 8, false, .RW, true, false, false, false, 0, 0, .any⟩
  | .PLK_TIME_PARENT => ⟨false, 0xA01004, [], 0, 4, false, .RW, true, false, false, false, 0, 15, .oneOf [0, 1, 2, 3, 4, 5, 6, 7, 8, 9, 10, 11, 15]⟩
  | .PLK_TIME_ROOT => ⟨false, 0xA01004, [], 8, 1, false, .RW, true, false, false, false, 0, 0, .any⟩
  | .PLK_TIME_ROOT_ID => ⟨false, 0xA01004, [], 16, 8, false, .RW, true, false, false, false, 0, 0, .any⟩
  | .PLK_TIME_DEPTH => ⟨false, 0xA01008, [], 0, 4, false, .RO, false, false, false, false, 0, 0, .any⟩
  | .PLK_TIME_OFFSET => ⟨false, 0xA01008, [], 16, 16, false, .RO, false, false, false, false, 0, 0, .any⟩
  | .PLK_ROLL_STATUS => ⟨false, 0xA01010, [], 0, 3, false, .RO, false, false, false, false, 0, 0, .any⟩
  | .PLK_ROLL_BUSY => ⟨false, 0xA01010, [], 8, 1, false, .RO, false, false, false, false, 0, 0, .any⟩
  | .PLK_ROLL_START => ⟨false, 0xA01018, [], 0, 64, true, .RO, false, false, false, false, 0, 0, .any⟩
  | .PLK_ROLL_END => ⟨false, 0xA01020, [], 0, 64, true, .RO, false, false, false, false, 0, 0, .any⟩
  | .PLK_ROLL_TIMEOUT => ⟨false, 0xA01028, [], 0, 16, false, .RW, true, false, false, false, 0, 100, .between 10 10000⟩
  | .PLK_LOAD_REASON => ⟨false, 0xA01030, [], 0, 3, false, .RO, false, false, false, false, 0, 0, .any⟩
  | .PLK_LOAD_SLOT => ⟨false, 0xA01030, [], 16, 10, false, .RO, false, false, false, false, 0, 0, .any⟩
  | .PLK_CMP_STREAM => ⟨false, 0xA02000, [⟨32, 4, 0⟩], 0, 12, false, .RW, true, false, false, false, 0, 0, .cross⟩
  | .PLK_CMP_STREAM_VALID => ⟨false, 0xA02000, [⟨32, 4, 0⟩], 16, 1, false, .RW, true, false, false, false, 0, 0, .cross⟩
  | .PLK_ROUTE_WORD => ⟨false, 0xA04000, [⟨32, 256, 0⟩, ⟨64, 4, 0⟩], 0, 32, false, .RO, false, false, false, true, 0, 0, .any⟩
  | .PLK_PLAN_WORD => ⟨false, 0xA10000, [⟨12, 4096, 0⟩, ⟨1024, 4, 0⟩], 0, 32, false, .RO, false, false, false, true, 0, 0, .any⟩
  | .NET_ARG => ⟨true, 0x50000, [⟨8, 4, 0⟩], 0, 32, false, .RW, false, false, false, false, 0, 0, .any⟩
  | .NET_CMD_CODE => ⟨true, 0x50020, [], 0, 8, false, .WO, false, false, false, false, 0, 0, .any⟩
  | .NET_CMD_BUSY => ⟨true, 0x50024, [], 0, 1, false, .RO, false, false, false, false, 0, 0, .any⟩
  | .NET_CMD_STATUS => ⟨true, 0x50024, [], 8, 4, false, .RO, false, false, false, false, 0, 0, .any⟩
  | .NET_CMD_RESULT => ⟨true, 0x50028, [], 0, 32, false, .RO, false, false, false, false, 0, 0, .any⟩
  | .NET_CMD_SRC => ⟨true, 0x5002C, [], 0, 11, false, .RW, true, false, false, false, 0, 0, .any⟩
  | .NET_CMD_SRC_VALID => ⟨true, 0x5002C, [], 15, 1, false, .RW, true, false, false, false, 0, 0, .any⟩
  | .NET_AEQ_LO => ⟨true, 0x50030, [], 0, 32, false, .RC, false, false, false, true, 0, 0, .any⟩
  | .NET_AEQ_HI => ⟨true, 0x50034, [], 0, 32, false, .RO, false, false, false, true, 0, 0, .any⟩
  | .NET_AEQ_SRC => ⟨true, 0x50038, [], 0, 11, false, .RW, true, false, false, false, 0, 0, .any⟩
  | .NET_AEQ_SRC_VALID => ⟨true, 0x50038, [], 15, 1, false, .RW, true, false, false, false, 0, 0, .any⟩
  | .NET_AEQ_OVF => ⟨true, 0x50038, [], 16, 1, false, .W1C, false, false, false, false, 0, 0, .any⟩
  | .NET_SRQ_SLOT => ⟨true, 0x50100, [⟨64, 4, 0⟩], 0, 12, false, .RO, false, false, false, false, 0, 0, .any⟩
  | .NET_SRQ_SLOT_VALID => ⟨true, 0x50100, [⟨64, 4, 0⟩], 15, 1, false, .RO, false, false, false, false, 0, 0, .any⟩
  | .NET_CQ_SLOT => ⟨true, 0x50200, [⟨64, 4, 0⟩], 0, 14, false, .RO, false, false, false, false, 0, 0, .any⟩
  | .NET_CQ_SLOT_VALID => ⟨true, 0x50200, [⟨64, 4, 0⟩], 15, 1, false, .RO, false, false, false, false, 0, 0, .any⟩
  | .NET_SRQ_POSTED => ⟨true, 0x50300, [⟨64, 4, 0⟩], 0, 17, false, .RO, false, false, false, true, 0, 0, .any⟩
  | .NET_MGR_REVOKE => ⟨false, 0xB91000, [], 0, 32, false, .WO, false, false, false, false, 0, 0, .any⟩
  | .NET_MGR_REV_BUSY => ⟨false, 0xB91004, [], 0, 1, false, .RO, false, false, false, false, 0, 0, .any⟩
  | .NET_MGR_REV_STATUS => ⟨false, 0xB91004, [], 1, 3, false, .RO, false, false, false, false, 0, 0, .any⟩
  | .NET_REFUSE_LIMIT => ⟨false, 0xB91008, [], 0, 8, false, .RW, true, false, false, false, 0, 16, .between 1 255⟩
  | .NET_QP_CTX_WORD => ⟨false, 0x3000000, [⟨65536, 128, 0⟩, ⟨16, 8, 0⟩], 0, 64, true, .RO, false, false, false, true, 0, 0, .any⟩
  | .NET_KEY_WORD => ⟨false, 0x4000000, [⟨262144, 32, 0⟩, ⟨4, 8, 0⟩], 0, 64, true, .RO, false, false, false, true, 0, 0, .any⟩
  | .NET_PORT_EN => ⟨false, 0xB00000, [⟨2, 4096, 0⟩], 0, 1, false, .RW, true, false, false, false, 0, 0, .any⟩
  | .NET_PORT_LINK_UP => ⟨false, 0xB00000, [⟨2, 4096, 0⟩], 1, 1, false, .RO, false, false, false, false, 0, 0, .any⟩
  | .NET_PORT_MODE => ⟨false, 0xB00000, [⟨2, 4096, 0⟩], 4, 1, false, .RW, true, false, false, false, 0, 0, .any⟩
  | .NET_PORT_ECN_EN => ⟨false, 0xB00000, [⟨2, 4096, 0⟩], 8, 1, false, .RW, true, false, false, false, 0, 1, .any⟩
  | .NET_PORT_MAC => ⟨false, 0xB00004, [⟨2, 4096, 0⟩], 0, 48, true, .RW, true, false, false, false, 0, 0, .any⟩
  | .NET_PORT_MAX_FRAME => ⟨false, 0xB0000C, [⟨2, 4096, 0⟩], 0, 14, false, .RW, true, false, false, false, 0, 9216, .between 1518 9216⟩
  | .NET_PFC_EN => ⟨false, 0xB00010, [⟨2, 4096, 0⟩], 0, 2, false, .RW, true, false, false, false, 0, 1, .any⟩
  | .NET_PFC_PRIO_A => ⟨false, 0xB00010, [⟨2, 4096, 0⟩], 4, 3, false, .RW, true, false, false, false, 0, 3, .cross⟩
  | .NET_PFC_PRIO_B => ⟨false, 0xB00010, [⟨2, 4096, 0⟩], 8, 3, false, .RW, true, false, false, false, 0, 4, .cross⟩
  | .NET_PFC_XOFF => ⟨false, 0xB00014, [⟨2, 4096, 0⟩], 0, 10, false, .RW, true, false, false, false, 0, 640, .between 0 1000⟩
  | .NET_PFC_XON => ⟨false, 0xB00014, [⟨2, 4096, 0⟩], 16, 10, false, .RW, true, false, false, false, 0, 512, .cross⟩
  | .NET_PFC_STORM_US => ⟨false, 0xB00018, [⟨2, 4096, 0⟩], 0, 16, false, .RW, true, false, false, false, 0, 10000, .between 100 65535⟩
  | .NET_CNP_INTERVAL => ⟨false, 0xB0001C, [⟨2, 4096, 0⟩], 0, 16, false, .RW, true, false, false, false, 0, 50, .between 1 1000⟩
  | .NET_CC_G => ⟨false, 0xB00020, [⟨2, 4096, 0⟩], 0, 10, false, .RW, true, false, false, false, 0, 4, .between 1 1023⟩
  | .NET_CC_RAI => ⟨false, 0xB00020, [⟨2, 4096, 0⟩], 16, 10, false, .RW, true, false, false, false, 0, 40, .between 1 1000⟩
  | .NET_CC_TIMER_US => ⟨false, 0xB00024, [⟨2, 4096, 0⟩], 0, 16, false, .RW, true, false, false, false, 0, 55, .between 1 10000⟩
  | .NET_CC_ALPHA_US => ⟨false, 0xB00024, [⟨2, 4096, 0⟩], 16, 16, false, .RW, true, false, false, false, 0, 55, .between 1 10000⟩
  | .NET_CC_BYTES => ⟨false, 0xB00028, [⟨2, 4096, 0⟩], 0, 16, false, .RW, true, false, false, false, 0, 4096, .between 64 65535⟩
  | .NET_CC_MIN => ⟨false, 0xB00028, [⟨2, 4096, 0⟩], 16, 16, false, .RW, true, false, false, false, 0, 10, .between 1 8000⟩
  | .NET_RETX_LIMIT => ⟨false, 0xB0002C, [⟨2, 4096, 0⟩], 0, 8, false, .RW, true, false, false, false, 0, 16, .between 1 255⟩
  | .NET_PORT_FCS_ERR => ⟨false, 0xB00040, [⟨2, 4096, 0⟩], 0, 32, false, .RO, false, false, false, false, 0, 0, .any⟩
  | .NET_PORT_ICRC_ERR => ⟨false, 0xB00044, [⟨2, 4096, 0⟩], 0, 32, false, .RO, false, false, false, false, 0, 0, .any⟩
  | .NET_PORT_BAD_HDR => ⟨false, 0xB00048, [⟨2, 4096, 0⟩], 0, 32, false, .RO, false, false, false, false, 0, 0, .any⟩
  | .NET_PORT_NO_DEST => ⟨false, 0xB0004C, [⟨2, 4096, 0⟩], 0, 32, false, .RO, false, false, false, false, 0, 0, .any⟩
  | .NET_PORT_PKEY_DROP => ⟨false, 0xB00050, [⟨2, 4096, 0⟩], 0, 32, false, .RO, false, false, false, false, 0, 0, .any⟩
  | .NET_PORT_BAD_OP => ⟨false, 0xB00054, [⟨2, 4096, 0⟩], 0, 32, false, .RO, false, false, false, false, 0, 0, .any⟩
  | .NET_PORT_SEQ_NAK => ⟨false, 0xB00058, [⟨2, 4096, 0⟩], 0, 32, false, .RO, false, false, false, false, 0, 0, .any⟩
  | .NET_PORT_TAG_FAIL => ⟨false, 0xB0005C, [⟨2, 4096, 0⟩], 0, 32, false, .RO, false, false, false, false, 0, 0, .any⟩
  | .NET_PORT_OTHER => ⟨false, 0xB00060, [⟨2, 4096, 0⟩], 0, 32, false, .RO, false, false, false, false, 0, 0, .any⟩
  | .NET_PORT_LOSSY_DROP => ⟨false, 0xB00064, [⟨2, 4096, 0⟩], 0, 32, false, .RO, false, false, false, false, 0, 0, .any⟩
  | .NET_PORT_PFC_TX => ⟨false, 0xB00068, [⟨2, 4096, 0⟩], 0, 32, false, .RO, false, false, false, false, 0, 0, .any⟩
  | .NET_PORT_PFC_RX => ⟨false, 0xB0006C, [⟨2, 4096, 0⟩], 0, 32, false, .RO, false, false, false, false, 0, 0, .any⟩
  | .NET_CMP_IP => ⟨false, 0xB10000, [⟨32, 256, 0⟩, ⟨2, 128, 0⟩, ⟨4, 4, 0⟩], 0, 32, false, .RW, true, false, false, false, 0, 0, .any⟩
  | .NET_CMP_IPV6 => ⟨false, 0xB10010, [⟨32, 256, 0⟩, ⟨2, 128, 0⟩], 0, 1, false, .RW, true, false, false, false, 0, 0, .any⟩
  | .NET_CMP_PRIO => ⟨false, 0xB10010, [⟨32, 256, 0⟩, ⟨2, 128, 0⟩], 1, 1, false, .RW, true, false, false, false, 0, 0, .any⟩
  | .NET_CMP_PLAIN_OK => ⟨false, 0xB10010, [⟨32, 256, 0⟩, ⟨2, 128, 0⟩], 2, 1, false, .RW, true, false, false, false, 0, 0, .cross⟩
  | .NET_CMP_DSCP => ⟨false, 0xB10010, [⟨32, 256, 0⟩, ⟨2, 128, 0⟩], 8, 6, false, .RW, true, false, false, false, 0, 26, .any⟩
  | .NET_CMP_PKEY => ⟨false, 0xB10014, [⟨32, 256, 0⟩, ⟨2, 128, 0⟩], 0, 16, false, .RW, true, false, false, false, 0, 65535, .any⟩
  | .NET_CMP_RXBUF => ⟨false, 0xB10014, [⟨32, 256, 0⟩, ⟨2, 128, 0⟩], 16, 12, false, .RW, true, false, false, false, 0, 64, .cross⟩
  | .NET_AH_WORD => ⟨false, 0xB20000, [⟨32, 4096, 0⟩, ⟨2, 2048, 0⟩, ⟨64, 32, 0⟩, ⟨8, 4, 0⟩], 0, 32, false, .RW, true, false, false, false, 0, 0, .any⟩
  | .INC_DRING_BASE => ⟨false, 0xD00000, [], 0, 64, true, .RW, true, false, false, false, 12, 0, .any⟩
  | .INC_DRING_LOC => ⟨false, 0xD00008, [], 0, 1, false, .RW, true, false, false, false, 0, 0, .any⟩
  | .INC_DRING_EN => ⟨false, 0xD00008, [], 31, 1, false, .RW, true, false, false, false, 0, 0, .any⟩
  | .INC_DRING_STATE => ⟨false, 0xD0000C, [], 0, 2, false, .RO, false, false, false, false, 0, 0, .any⟩
  | .INC_DRING_PROD => ⟨false, 0xD00010, [], 0, 32, false, .RO, false, false, false, false, 0, 0, .any⟩
  | .INC_DRING_CONS => ⟨false, 0xD00014, [], 0, 32, false, .RW, false, false, false, false, 0, 0, .any⟩
  | .INC_DRING_QUEUED => ⟨false, 0xD00018, [], 0, 9, false, .RO, false, false, false, true, 0, 0, .any⟩
  | .INC_SEQ_NEXT => ⟨false, 0xD00020, [], 0, 32, false, .RO, false, false, false, false, 0, 1, .any⟩
  | .INC_DEVICE_PENDING => ⟨false, 0xD00024, [], 0, 1, false, .W1C, false, false, false, false, 0, 0, .any⟩
  | .INC_LOST_NOTICE => ⟨false, 0xD00028, [], 0, 16, false, .RO, false, false, false, false, 0, 0, .any⟩
  | .INC_LOST_DEGRADED => ⟨false, 0xD00028, [], 16, 16, false, .RO, false, false, false, false, 0, 0, .any⟩
  | .INC_LOST_JOB => ⟨false, 0xD0002C, [], 0, 16, false, .RO, false, false, false, false, 0, 0, .any⟩
  | .INC_LOST_DEVICE => ⟨false, 0xD0002C, [], 16, 16, false, .RO, false, false, false, false, 0, 0, .any⟩
  | .INC_CRING_BASE => ⟨false, 0xD01000, [⟨32, 64, 0⟩], 0, 64, true, .RW, true, false, false, false, 12, 0, .any⟩
  | .INC_CRING_LOC => ⟨false, 0xD01008, [⟨32, 64, 0⟩], 0, 1, false, .RW, true, false, false, false, 0, 0, .any⟩
  | .INC_CRING_EN => ⟨false, 0xD01008, [⟨32, 64, 0⟩], 31, 1, false, .RW, true, false, false, false, 0, 0, .any⟩
  | .INC_CRING_READER => ⟨false, 0xD0100C, [⟨32, 64, 0⟩], 0, 7, false, .RW, true, false, false, false, 0, 0, .cross⟩
  | .INC_CRING_STATE => ⟨false, 0xD0100C, [⟨32, 64, 0⟩], 16, 2, false, .RO, false, false, false, false, 0, 0, .any⟩
  | .INC_CRING_PROD => ⟨false, 0xD01010, [⟨32, 64, 0⟩], 0, 32, false, .RO, false, false, false, false, 0, 0, .any⟩
  | .INC_CRING_CONS => ⟨false, 0xD01014, [⟨32, 64, 0⟩], 0, 32, false, .RW, false, false, false, false, 0, 0, .any⟩
  | .INC_CRING_LOST_NOTICE => ⟨false, 0xD01018, [⟨32, 64, 0⟩], 0, 16, false, .RO, false, false, false, false, 0, 0, .any⟩
  | .INC_CRING_LOST_DEGRADED => ⟨false, 0xD01018, [⟨32, 64, 0⟩], 16, 16, false, .RO, false, false, false, false, 0, 0, .any⟩
  | .INC_CRING_LOST_JOB => ⟨false, 0xD0101C, [⟨32, 64, 0⟩], 0, 16, false, .RO, false, false, false, false, 0, 0, .any⟩
  | .INC_CRING_LOST_DEVICE => ⟨false, 0xD0101C, [⟨32, 64, 0⟩], 16, 16, false, .RO, false, false, false, false, 0, 0, .any⟩
  | .SEC_LIFECYCLE => ⟨false, 0xE00000, [], 0, 1, false, .RO, false, true, false, false, 0, 0, .any⟩
  | .SEC_DBG_OPEN => ⟨false, 0xE00000, [], 8, 1, false, .RO, false, false, false, false, 0, 0, .any⟩
  | .SEC_DBG_OPENED_SINCE_POWER => ⟨false, 0xE00000, [], 9, 1, false, .RO, false, true, false, false, 0, 0, .any⟩
  | .SEC_DBG_LOCKOUT => ⟨false, 0xE00000, [], 10, 1, false, .RO, false, true, false, false, 0, 0, .any⟩
  | .SEC_SEAL => ⟨false, 0xE00004, [], 0, 16, false, .WO, false, false, false, false, 0, 0, .any⟩
  | .SEC_MIN_SVN => ⟨false, 0xE00008, [], 0, 16, false, .RO, false, true, false, false, 0, 0, .any⟩
  | .SEC_IMAGE_SVN => ⟨false, 0xE00008, [], 16, 16, false, .RO, false, false, false, false, 0, 0, .any⟩
  | .SEC_SVN_COMMIT => ⟨false, 0xE0000C, [], 0, 1, false, .W1S, false, false, false, false, 0, 0, .any⟩
  | .SEC_FW_KEY_REVOKED => ⟨false, 0xE00010, [], 0, 4, false, .RO, false, true, false, false, 0, 0, .any⟩
  | .SEC_FW_KEY_USED => ⟨false, 0xE00010, [], 4, 2, false, .RO, false, false, false, false, 0, 0, .any⟩
  | .SEC_T1_KEY => ⟨false, 0xE00100, [⟨32, 4, 0⟩], 0, 1, false, .RO, false, false, false, true, 0, 0, .any⟩
  | .SEC_T2_KEY => ⟨false, 0xE00100, [⟨32, 4, 0⟩], 1, 1, false, .RO, false, false, false, true, 0, 0, .any⟩
  | .SEC_LINK_ACTIVE => ⟨false, 0xE00100, [⟨32, 4, 0⟩], 2, 1, false, .RO, false, false, false, true, 0, 0, .any⟩
  | .SEC_LINK_STAGED => ⟨false, 0xE00100, [⟨32, 4, 0⟩], 3, 1, false, .RO, false, false, false, true, 0, 0, .any⟩
  | .SEC_T1_ROTATING => ⟨false, 0xE00100, [⟨32, 4, 0⟩], 4, 1, false, .RO, false, false, false, true, 0, 0, .any⟩
  | .SEC_T2_ROTATING => ⟨false, 0xE00100, [⟨32, 4, 0⟩], 5, 1, false, .RO, false, false, false, true, 0, 0, .any⟩
  | .SEC_CMP_AUTH => ⟨false, 0xE00200, [⟨32, 64, 0⟩, ⟨12, 4, 0⟩], 0, 32, false, .RW, true, false, false, false, 0, 0, .any⟩
  | .SEC_DBG_REQ => ⟨false, 0xE01000, [], 0, 1, false, .W1S, false, false, false, false, 0, 0, .any⟩
  | .SEC_DBG_SUBMIT => ⟨false, 0xE01000, [], 1, 1, false, .W1S, false, false, false, false, 0, 0, .any⟩
  | .SEC_DBG_MODE => ⟨false, 0xE01000, [], 2, 1, false, .RW, false, false, false, false, 0, 0, .any⟩
  | .SEC_DBG_STATUS => ⟨false, 0xE01004, [], 0, 3, false, .RO, false, false, false, false, 0, 0, .any⟩
  | .SEC_DBG_FAILURES => ⟨false, 0xE01004, [], 8, 4, false, .RO, false, true, false, false, 0, 0, .any⟩
  | .SEC_DBG_CHALLENGE => ⟨false, 0xE01100, [⟨16, 4, 0⟩], 0, 32, false, .RO, false, false, false, false, 0, 0, .any⟩
  | .SEC_DBG_RESPONSE => ⟨false, 0xE01200, [⟨48, 4, 0⟩], 0, 32, false, .WO, false, false, false, false, 0, 0, .any⟩
  | .SEC_EXP_IDE_UP => ⟨false, 0xE02000, [⟨8, 64, 0⟩], 0, 1, false, .RO, false, false, false, true, 0, 0, .any⟩
  | .SEC_EXP_IDE_REKEY => ⟨false, 0xE02000, [⟨8, 64, 0⟩], 1, 1, false, .W1S, false, false, false, false, 0, 0, .any⟩
  | .SEC_EXP_CERT_DIGEST => ⟨false, 0xE02010, [⟨8, 64, 0⟩, ⟨12, 4, 0⟩], 0, 32, false, .RO, false, false, false, false, 0, 0, .any⟩
  | .PWR_BEAT => ⟨false, 0xF00000, [], 0, 64, true, .RO, false, false, false, false, 0, 0, .any⟩
  | .PWR_BEAT_LOCKED => ⟨false, 0xF00008, [], 0, 1, false, .RO, false, false, false, false, 0, 0, .any⟩
  | .PWR_BEAT_LOST => ⟨false, 0xF00008, [], 1, 1, false, .W1C, false, false, false, false, 0, 0, .any⟩
  | .PWR_PLL_LOCK => ⟨false, 0xF00010, [], 0, 10, false, .RO, false, false, false, false, 0, 0, .any⟩
  | .PWR_TSYNC_EN => ⟨false, 0xF00020, [], 0, 1, false, .RW, true, false, false, false, 0, 0, .any⟩
  | .PWR_TSYNC_ERR => ⟨false, 0xF00020, [], 16, 16, false, .RO, false, false, false, false, 0, 0, .any⟩
  | .PWR_ROOT_TIME => ⟨false, 0xF00028, [], 0, 64, true, .RW, true, false, false, false, 0, 0, .any⟩
  | .PWR_GATE_PLK => ⟨false, 0xF00100, [], 0, 12, false, .RW, true, false, false, false, 0, 0, .any⟩
  | .PWR_GATE_NET => ⟨false, 0xF00100, [], 16, 2, false, .RW, true, false, false, false, 0, 0, .any⟩
  | .PWR_GATE_EXP => ⟨false, 0xF00100, [], 24, 8, false, .RW, true, false, false, false, 0, 0, .any⟩
  | .PWR_GATE_SLICE => ⟨false, 0xF00104, [⟨4, 4, 0⟩], 0, 32, false, .RW, true, false, false, false, 0, 0, .any⟩
  | .PWR_GATE_BUSY => ⟨false, 0xF00114, [], 0, 1, false, .RO, false, false, false, true, 0, 0, .any⟩
  | .PWR_TEMP => ⟨false, 0xF00200, [⟨16, 4, 0⟩], 0, 8, false, .RO, false, false, false, false, 0, 0, .any⟩
  | .PWR_TEMP_MAX => ⟨false, 0xF00240, [], 0, 8, false, .RO, false, false, false, false, 0, 0, .any⟩
  | .PWR_TEMP_PEAK => ⟨false, 0xF00240, [], 8, 8, false, .RC, false, false, false, false, 0, 0, .any⟩
  | .PWR_T_WARN => ⟨false, 0xF00244, [], 0, 8, false, .RWL, true, false, false, false, 0, 95, .between 80 105⟩
  | .PWR_T_CRIT => ⟨false, 0xF00244, [], 8, 8, false, .RWL, true, false, false, false, 0, 110, .cross⟩
  | .PWR_T_HYST => ⟨false, 0xF00244, [], 16, 4, false, .RWL, true, false, false, false, 0, 3, .between 1 10⟩
  | .PWR_POWER_MW => ⟨false, 0xF00300, [], 0, 32, false, .RO, false, false, false, false, 0, 0, .any⟩
  | .PWR_ENERGY_MJ => ⟨false, 0xF00304, [], 0, 64, true, .RO, false, false, false, false, 0, 0, .any⟩
  | .PWR_LIMIT_W => ⟨false, 0xF0030C, [], 0, 9, false, .RW, true, false, false, false, 0, 290, .between 150 320⟩
  | .PWR_AVS_TARGET_MV => ⟨false, 0xF00310, [], 0, 10, false, .RO, false, false, false, false, 0, 720, .any⟩
  | .PWR_RAIL_MV => ⟨false, 0xF00320, [⟨6, 4, 0⟩], 0, 12, false, .RO, false, false, false, false, 0, 0, .any⟩
  | .PWR_ALARM_STATE => ⟨false, 0xF00340, [], 0, 4, false, .RO, false, false, false, false, 0, 0, .any⟩
  | .PWR_ALERT_JUNCTION => ⟨false, 0xF00340, [], 8, 1, false, .RO, false, false, false, false, 0, 0, .any⟩
  | .PWR_ALERT_CAUSE => ⟨false, 0xF00340, [], 16, 9, false, .RO, false, false, false, true, 0, 0, .any⟩
  | .PWR_IBI_DROPPED => ⟨false, 0xF00344, [], 16, 16, false, .RO, false, false, false, false, 0, 0, .any⟩
  | .STAT_FRAME_K => ⟨false, 0x1000000, [], 0, 5, false, .RW, true, false, false, false, 0, 20, .between 16 30⟩
  | .STAT_FRAME_K_ACTIVE => ⟨false, 0x1000004, [], 0, 5, false, .RO, false, false, false, false, 0, 20, .any⟩
  | .STAT_SHADOW_K => ⟨false, 0x1000004, [], 8, 5, false, .RO, false, false, false, false, 0, 0, .any⟩
  | .STAT_SHADOW_FRAME => ⟨false, 0x1000008, [], 0, 64, true, .RO, false, false, false, false, 0, 0, .any⟩
  | .STAT_F_LIVE => ⟨false, 0x1001000, [⟨32, 256, 0⟩, ⟨16, 16, 0⟩], 0, 64, true, .RO, false, false, false, false, 0, 0, .any⟩
  | .STAT_F_SHADOW => ⟨false, 0x1001008, [⟨32, 256, 0⟩, ⟨16, 16, 0⟩], 0, 64, true, .RO, false, false, false, false, 0, 0, .any⟩
  | .TRN_ST_PORT_MISS => ⟨false, 0x502000, [⟨32, 32, 0⟩], 0, 32, false, .RO, false, false, false, false, 0, 0, .any⟩
  | .TRN_ST_WALKS => ⟨false, 0x502004, [⟨32, 32, 0⟩], 0, 32, false, .RO, false, false, false, false, 0, 0, .any⟩
  | .TRN_ST_RANGE_HITS => ⟨false, 0x502008, [⟨32, 32, 0⟩], 0, 32, false, .RO, false, false, false, false, 0, 0, .any⟩
  | .TRN_ST_MERGED => ⟨false, 0x50200C, [⟨32, 32, 0⟩], 0, 32, false, .RO, false, false, false, false, 0, 0, .any⟩
  | .TRN_ST_FAULTS => ⟨false, 0x502010, [⟨32, 32, 0⟩], 0, 32, false, .RO, false, false, false, false, 0, 0, .any⟩
  | .TRN_ST_INV => ⟨false, 0x502014, [⟨32, 32, 0⟩], 0, 32, false, .RO, false, false, false, false, 0, 0, .any⟩
  | .TRN_ST_WALK_RESTART => ⟨false, 0x502018, [⟨32, 32, 0⟩], 0, 32, false, .RO, false, false, false, false, 0, 0, .any⟩
  | .TRN_ST_OVERFLOW => ⟨false, 0x50201C, [⟨32, 32, 0⟩], 0, 32, false, .RO, false, false, false, false, 0, 0, .any⟩
  | .SYC_ST_HITS => ⟨false, 0x606000, [⟨32, 64, 0⟩], 0, 32, false, .RO, false, false, false, false, 0, 0, .any⟩
  | .SYC_ST_MISSES => ⟨false, 0x606004, [⟨32, 64, 0⟩], 0, 32, false, .RO, false, false, false, false, 0, 0, .any⟩
  | .SYC_ST_NO_ALLOC => ⟨false, 0x606008, [⟨32, 64, 0⟩], 0, 32, false, .RO, false, false, false, false, 0, 0, .any⟩
  | .SYC_ST_DUP_FILL => ⟨false, 0x60600C, [⟨32, 64, 0⟩], 0, 32, false, .RO, false, false, false, false, 0, 0, .any⟩
  | .SYC_ST_STALE_FILL => ⟨false, 0x606010, [⟨32, 64, 0⟩], 0, 32, false, .RO, false, false, false, false, 0, 0, .any⟩
  | .SYC_ST_WRITEBACKS => ⟨false, 0x606014, [⟨32, 64, 0⟩], 0, 32, false, .RO, false, false, false, false, 0, 0, .any⟩
  | .SYC_ST_EVICT_STREAM => ⟨false, 0x606018, [⟨32, 64, 0⟩], 0, 32, false, .RO, false, false, false, false, 0, 0, .any⟩
  | .SYC_ST_EVICT_NORMAL => ⟨false, 0x60601C, [⟨32, 64, 0⟩], 0, 32, false, .RO, false, false, false, false, 0, 0, .any⟩
  | .SYC_ST_EVICT_PERSIST => ⟨false, 0x606020, [⟨32, 64, 0⟩], 0, 32, false, .RO, false, false, false, false, 0, 0, .any⟩
  | .SYC_ST_MISS_HOLD => ⟨false, 0x606024, [⟨32, 64, 0⟩], 0, 32, false, .RO, false, false, false, false, 0, 0, .any⟩
  | .COH_ST_FWD => ⟨false, 0x704000, [⟨32, 64, 0⟩], 0, 32, false, .RO, false, false, false, false, 0, 0, .any⟩
  | .COH_ST_INV => ⟨false, 0x704004, [⟨32, 64, 0⟩], 0, 32, false, .RO, false, false, false, false, 0, 0, .any⟩
  | .COH_ST_BACK_INV => ⟨false, 0x704008, [⟨32, 64, 0⟩], 0, 32, false, .RO, false, false, false, false, 0, 0, .any⟩
  | .COH_ST_RSP_MISS => ⟨false, 0x70400C, [⟨32, 64, 0⟩], 0, 32, false, .RO, false, false, false, false, 0, 0, .any⟩
  | .COH_ST_EVICT_CROSS => ⟨false, 0x704010, [⟨32, 64, 0⟩], 0, 32, false, .RO, false, false, false, false, 0, 0, .any⟩
  | .COH_ST_RETRY => ⟨false, 0x704014, [⟨32, 64, 0⟩], 0, 32, false, .RO, false, false, false, false, 0, 0, .any⟩
  | .COH_ST_STARVED => ⟨false, 0x704018, [⟨32, 64, 0⟩], 0, 32, false, .RO, false, false, false, false, 0, 0, .any⟩
  | .COH_ST_RES_EXPIRED => ⟨false, 0x70401C, [⟨32, 64, 0⟩], 0, 32, false, .RO, false, false, false, false, 0, 0, .any⟩
  | .COH_ST_INV_WRITES => ⟨false, 0x704020, [⟨32, 64, 0⟩], 0, 32, false, .RO, false, false, false, false, 0, 0, .any⟩
  | .COH_ST_HOST_HELD => ⟨false, 0x704024, [⟨32, 64, 0⟩], 0, 32, false, .RO, false, false, false, false, 0, 0, .any⟩
  | .COH_AT_FAR => ⟨false, 0x705000, [⟨32, 64, 0⟩], 0, 32, false, .RO, false, false, false, false, 0, 0, .any⟩
  | .COH_AT_FAR_DIE => ⟨false, 0x705004, [⟨32, 64, 0⟩], 0, 32, false, .RO, false, false, false, false, 0, 0, .any⟩
  | .COH_AT_PLACE_FORCED => ⟨false, 0x705008, [⟨32, 64, 0⟩], 0, 32, false, .RO, false, false, false, false, 0, 0, .any⟩
  | .COH_AT_INVALID => ⟨false, 0x70500C, [⟨32, 64, 0⟩], 0, 32, false, .RO, false, false, false, false, 0, 0, .any⟩
  | .COH_AT_OVERFLOW => ⟨false, 0x705010, [⟨32, 64, 0⟩], 0, 32, false, .RO, false, false, false, false, 0, 0, .any⟩
  | .COH_AT_UNDERFLOW => ⟨false, 0x705014, [⟨32, 64, 0⟩], 0, 32, false, .RO, false, false, false, false, 0, 0, .any⟩
  | .COH_AT_POISONED => ⟨false, 0x705018, [⟨32, 64, 0⟩], 0, 32, false, .RO, false, false, false, false, 0, 0, .any⟩
  | .STK_GR_CMDS => ⟨false, 0x801000, [⟨32, 32, 0⟩], 0, 32, false, .RO, false, false, false, false, 0, 0, .any⟩
  | .STK_GR_ENTRIES => ⟨false, 0x801004, [⟨32, 32, 0⟩], 0, 32, false, .RO, false, false, false, false, 0, 0, .any⟩
  | .STK_GR_LINES => ⟨false, 0x801008, [⟨32, 32, 0⟩], 0, 32, false, .RO, false, false, false, false, 0, 0, .any⟩
  | .STK_GR_POISONED => ⟨false, 0x80100C, [⟨32, 32, 0⟩], 0, 32, false, .RO, false, false, false, false, 0, 0, .any⟩
  | .NET_ST_TX_MSGS => ⟨false, 0xB90000, [⟨32, 64, 0⟩], 0, 32, false, .RO, false, false, false, false, 0, 0, .any⟩
  | .NET_ST_RX_MSGS => ⟨false, 0xB90004, [⟨32, 64, 0⟩], 0, 32, false, .RO, false, false, false, false, 0, 0, .any⟩
  | .NET_ST_REFUSED => ⟨false, 0xB90008, [⟨32, 64, 0⟩], 0, 32, false, .RO, false, false, false, false, 0, 0, .any⟩
  | .NET_ST_ALLOC_TIES => ⟨false, 0xB9000C, [⟨32, 64, 0⟩], 0, 32, false, .RO, false, false, false, false, 0, 0, .any⟩
  | .NET_ST_SRQ_TIES => ⟨false, 0xB90010, [⟨32, 64, 0⟩], 0, 32, false, .RO, false, false, false, false, 0, 0, .any⟩
  | .NET_ST_SRQ_EMPTY => ⟨false, 0xB90014, [⟨32, 64, 0⟩], 0, 32, false, .RO, false, false, false, false, 0, 0, .any⟩
  | .NET_ST_RNR_DISCARD => ⟨false, 0xB90018, [⟨32, 64, 0⟩], 0, 32, false, .RO, false, false, false, false, 0, 0, .any⟩
  | .NET_ST_LATE => ⟨false, 0xB9001C, [⟨32, 64, 0⟩], 0, 32, false, .RO, false, false, false, false, 0, 0, .any⟩
  | .NET_ST_CQ_FULL_WAITS => ⟨false, 0xB90020, [⟨32, 64, 0⟩], 0, 32, false, .RO, false, false, false, false, 0, 0, .any⟩
  | .NET_ST_ALLOC_EMPTY => ⟨false, 0xB90024, [⟨32, 64, 0⟩], 0, 32, false, .RO, false, false, false, false, 0, 0, .any⟩
  | .NET_ST_RETRANSMIT => ⟨false, 0xB90028, [⟨32, 64, 0⟩], 0, 32, false, .RO, false, false, false, false, 0, 0, .any⟩
  | .NET_ST_RX_FULL => ⟨false, 0xB9002C, [⟨32, 64, 0⟩], 0, 32, false, .RO, false, false, false, false, 0, 0, .any⟩
  | .NET_ST_CNP_TX => ⟨false, 0xB90030, [⟨32, 64, 0⟩], 0, 32, false, .RO, false, false, false, false, 0, 0, .any⟩
  | .NET_ST_CNP_RX => ⟨false, 0xB90034, [⟨32, 64, 0⟩], 0, 32, false, .RO, false, false, false, false, 0, 0, .any⟩

/-- Fields 0 to 59 of the register tables. -/
def Fld.list0 : List Fld :=
  [.HST_PART_NUMBER, .HST_PACKAGE_CODE, .HST_STEP_MINOR, .HST_STEP_MAJOR, .HST_SERIAL, .HST_THIS_PORT,
   .HST_IS_PRIMARY, .HST_PRIMARY_SEL, .HST_OTHER_PORT_UP, .HST_FOREIGN_COUNT, .BOOT_PHASE, .BOOT_READY,
   .BOOT_FAWN, .BOOT_IMAGE, .BOOT_RECORD_STATUS, .BOOT_READY_MS, .BOOT_ATTEMPT_LIMIT, .BOOT_ATTEMPTS,
   .BOOT_ATTEMPT_CLR, .BOOT_FAWN_REQ, .BOOT_FAIL_REASON, .BOOT_FAIL_PHASE, .BOOT_FAWN_REASON, .BOOT_LAST_TYPE,
   .BOOT_LAST_CAUSE, .BOOT_RESET_REQ, .BOOT_RESET_KEY, .BOOT_RESET_BAD_KEY, .BOOT_CLAMP_COUNT, .BOOT_CLAMP_DROPPED,
   .BOOT_CLAMP_CLEAR, .BOOT_CL_ENTRY, .BOOT_OP_SLOT, .CMP_STATE, .CMP_SEALED, .CMP_INTAKE_CLOSED,
   .CMP_SCRUB_STEP, .CMP_TAINT_CAUSE, .CMP_HOUSE_UNITS, .CMP_HOUSE_SLICES, .CMP_HOUSE_WALKERS, .CMP_HOUSE_T1_GIB,
   .CMP_HOUSE_RANGE_BLK, .CMP_HOUSE_CON_BLK, .CMP_HOUSE_CONJ_BLK, .CMP_HOUSE_QP_BLK, .CMP_HOUSE_CQ_BLK, .CMP_HOUSE_SRQ_BLK,
   .CMP_HOUSE_PD_BLK, .CMP_HOUSE_KEY_BLK, .CMP_HOUSE_T2_GIB, .CMP_FREE_SLICES, .CMP_FREE_WALKERS, .CMP_FREE_RANGE_BLK,
   .CMP_FREE_CON_BLK, .CMP_FREE_CONJ_BLK, .CMP_FREE_QP_BLK, .CMP_FREE_CQ_BLK, .CMP_FREE_SRQ_BLK, .CMP_FREE_PD_BLK]

/-- Fields 60 to 119 of the register tables. -/
def Fld.list1 : List Fld :=
  [.CMP_FREE_KEY_BLK, .CMP_FREE_STREAMS, .CMP_SLICE_OWNER, .CMP_SLICE_BOUND, .CMP_CTR_ACTIVE_ID, .CMP_CTR_STAGED_ID,
   .CMP_CTR_EPOCH_CUR, .CMP_CTR_BREACH_FRAME, .CMP_CTR_SUPPRESSING, .CMP_CTR_BREACH_TOTAL, .CMP_CTR_SUPPRESS, .INS_ENABLE,
   .INS_BOUND, .INS_CMP, .INS_RESET_BUSY, .INS_CMD_RINGS, .INS_CPL_RINGS, .INS_ENGINES,
   .INS_RING_MOOD, .INS_QP_FIRST, .INS_QP_COUNT, .INS_QP_IND, .INS_PASID_BASE, .INS_PASID_COUNT,
   .INS_MB_HOLDER, .INS_MB_REPLY, .INS_MB_SEND_RELAY, .INS_MB_NEXT_SEQ, .INS_MB_NOTICE_SET, .INS_ORD_TARGET,
   .INS_ORD_CODE, .INS_ORD_KIND, .INS_ORD_STATUS, .INS_MB_DROPPED, .INS_MB_REPLY_REJECT, .INS_RESET_DRAINED,
   .INS_RESET_SQUASHED, .INS_RESET_COUNT, .INS_MB_RELAY_NOTICE, .INS_SELF_FUNC, .INS_SELF_PORT, .INS_MB_SEND,
   .INS_MB_NOTICE, .RNG_BASE, .RNG_LOG2_SIZE, .RNG_LOC, .RNG_PASID_EN, .RNG_PASID,
   .RNG_CPL_RING, .RNG_MOOD, .RNG_STATE, .RNG_TIMEOUT, .RNG_CONS, .RNG_PROD,
   .RNG_CREATE, .RNG_DESTROY, .RNG_ORDER, .RNG_SETUP_STATUS, .RNG_ORD_RESULT, .RNG_INFLIGHT]

/-- Fields 120 to 179 of the register tables. -/
def Fld.list2 : List Fld :=
  [.RNG_DB_DROPPED, .RNG_CBASE, .RNG_CLOG2_SIZE, .RNG_CLOC, .RNG_CPASID_EN, .RNG_CPASID,
   .RNG_CPL_EVT_ALL, .RNG_CSTATE, .RNG_CPROD, .RNG_CCONS, .RNG_CCREATE, .RNG_CDESTROY,
   .RNG_CORDER, .RNG_CSETUP_STATUS, .RNG_CORD_RESULT, .RNG_CPL_FULL_WAITS, .RNG_CPL_CLAIM_TIES, .RNG_CPL_DISCARDED,
   .RNG_LATE_COMPLETIONS, .RNG_DB_DROPPED_TOTAL, .CON_VALUE, .CON_OBJ_BLK_OWNER, .CON_OBJ_BLK_BOUND, .CON_SLOT_BLK_OWNER,
   .CON_SLOT_BLK_BOUND, .CON_SIG_TIES, .CON_ARMS, .CON_ARM_BUSY, .CON_TAG_UNMATCHED, .CON_FIRED,
   .CON_SLOT_WORD, .CON_VIEW_VALUE, .CON_VSIG_VALUE, .CON_VSIG_OBJ, .CON_VSIG_OP, .CON_VSIG_STATUS,
   .CON_VIEW_ARMED, .CON_VIEW_BLK, .CON_VIEW_BLK_VALID, .EVT_SRC_OWNER, .EVT_SRC_BOUND, .EVT_SRC_SENSE,
   .EVT_SRC_ROUTED, .EVT_SRC_VEC, .EVT_PENDING, .EVT_COUNT, .EVT_SAT, .EVT_COAL_COUNT,
   .EVT_TARGETS, .EVT_VEC_MASK, .EVT_COAL_TIME, .EVT_ALT1, .EVT_ALT2, .EVT_ALT3,
   .EVT_CLM_SRC, .EVT_CLM_COUNT, .EVT_CLM_SAT, .EVT_VEC_BATCH, .EVT_VEC_HELD, .EVT_VEC_NPEND]

/-- Fields 180 to 239 of the register tables. -/
def Fld.list3 : List Fld :=
  [.EVT_VEC_DELIVERIES, .EVT_VEC_SPURIOUS, .EVT_CPL_SRC, .EVT_CPL_SRC_VALID, .EVT_RT_SRC, .EVT_RT_VEC,
   .EVT_RT_SENSE, .EVT_RT_APPLY, .EVT_RT_STATUS, .EVT_RT_PEND, .EVT_RT_ROUTED, .EVT_RT_MSG,
   .EVT_RT_CUR_VEC, .EVT_RT_COUNT, .EVT_RT_SAT, .EVT_DOORBELL, .EVT_DB_DROPPED, .EVT_MB_SERVE,
   .EVT_DB_DROPPED_TOTAL, .EVT_CLAIM_TIES, .TRN_ATS_AHEAD, .TRN_PRG_PAGES, .TRN_PRI_ROUNDS, .TRN_ATS_REQS,
   .TRN_ATS_STALE, .TRN_PRG_SENT, .TRN_PRG_LATE, .TRN_PRG_UNEXPECTED, .TRN_INV_RECEIVED, .TRN_INV_OVERFLOW,
   .TRN_PRI_FAILURES, .TRN_PRG_OUTSTANDING, .TRN_ROOT, .TRN_ROOT_VALID, .TRN_WALKERS, .TRN_WALK_QUEUE,
   .TRN_FAULT_LIMIT, .TRN_FAULT_FRAME, .TRN_MGR_INV_CMP, .TRN_MGR_INV_GO, .TRN_MGR_INV_BUSY, .TRN_LOAD_INDEX,
   .TRN_LOAD_REASON, .TRN_PC_QUOTA, .TRN_PC_PINNED, .TRN_PC_PIN_EMPTY, .TRN_RE, .SYC_WIN_BASE,
   .SYC_WIN_UNITS, .SYC_WIN_PERSIST, .SYC_WIN_MOOD, .SYC_WIN_QUOTA, .SYC_WIN_PIN, .SYC_MT_ADDR,
   .SYC_MT_LEN, .SYC_MT_OP, .SYC_MT_GO, .SYC_MT_BUSY, .SYC_MT_STATUS, .SYC_MT_LINES]

/-- Fields 240 to 299 of the register tables. -/
def Fld.list4 : List Fld :=
  [.COH_WIN_BASE, .COH_WIN_UNITS, .COH_WIN_HOST_A, .COH_WIN_HOST_B, .COH_WIN_NO_E, .COH_WIN_DPA,
   .COH_WIN_BUSY, .COH_WIN_DROPPED, .COH_AG_CMP, .COH_AG_BOUND, .COH_AG_LIVE, .COH_AG_LOST_LINES,
   .COH_RETRY_GAP, .STK_TRAINED, .STK_TEMP, .STK_TEMP_PEAK, .STK_REF_STEP, .STK_THR_STEP,
   .STK_TRIPPED, .STK_ACT_COUNT, .STK_ACT_T1, .STK_ACT_T2, .STK_ACT_T3, .STK_REF_MIN,
   .STK_ECC_CORR, .STK_ECC_UNCORR, .STK_ERR_APA, .STK_REF_STEPS, .STK_THR_STEPS, .STK_T_REF2,
   .STK_T_REF3, .STK_T_THR1, .STK_T_THR2, .STK_T_THR3, .STK_T_TRIP, .STK_T_HYST,
   .STK_GROUP_MODE, .STK_CORR_LIMIT, .EXP_STATE, .EXP_LINK_UP, .EXP_IDE_UP, .EXP_USABLE_GIB,
   .EXP_SERIAL, .EXP_BOUND_SERIAL, .EXP_MAP_OUTCOME, .EXP_MAP_REASON, .EXP_RD_POISON, .EXP_WR_DISCARD,
   .EXP_SLOW, .EXP_ENUM_GO, .EXP_ENUM_BUSY, .EXP_ENUM_STATUS, .EXP_ENUM_BEAT, .EXP_IDE_REQUIRED,
   .EXP_LAT_LIMIT, .PLK_LINK_STATE, .PLK_LINK_EN, .PLK_RETRAIN, .PLK_NBR_ID, .PLK_NBR_LINK]

/-- Fields 300 to 359 of the register tables. -/
def Fld.list5 : List Fld :=
  [.PLK_NBR_VALID, .PLK_NBR_SERIAL, .PLK_LAST_UP, .PLK_LAST_DOWN, .PLK_FEC_CORR, .PLK_FEC_UNCORR,
   .PLK_CRC_ERR, .PLK_PROTO_ERR, .PLK_REPLAYS, .PLK_REPLAY_LIMIT, .PLK_FLIGHT, .PLK_TIME_ASYM,
   .PLK_PLAN_ACTIVE_ID, .PLK_PLAN_STAGED_ID, .PLK_PLAN_GEN, .PLK_UNKNOWN_STREAM, .PLK_PLAN_MISMATCH, .PLK_NO_ROUTE,
   .PLK_TRAIN_FAIL, .PLK_JUNCTION_ID, .PLK_TIME_PARENT, .PLK_TIME_ROOT, .PLK_TIME_ROOT_ID, .PLK_TIME_DEPTH,
   .PLK_TIME_OFFSET, .PLK_ROLL_STATUS, .PLK_ROLL_BUSY, .PLK_ROLL_START, .PLK_ROLL_END, .PLK_ROLL_TIMEOUT,
   .PLK_LOAD_REASON, .PLK_LOAD_SLOT, .PLK_CMP_STREAM, .PLK_CMP_STREAM_VALID, .PLK_ROUTE_WORD, .PLK_PLAN_WORD,
   .NET_ARG, .NET_CMD_CODE, .NET_CMD_BUSY, .NET_CMD_STATUS, .NET_CMD_RESULT, .NET_CMD_SRC,
   .NET_CMD_SRC_VALID, .NET_AEQ_LO, .NET_AEQ_HI, .NET_AEQ_SRC, .NET_AEQ_SRC_VALID, .NET_AEQ_OVF,
   .NET_SRQ_SLOT, .NET_SRQ_SLOT_VALID, .NET_CQ_SLOT, .NET_CQ_SLOT_VALID, .NET_SRQ_POSTED, .NET_MGR_REVOKE,
   .NET_MGR_REV_BUSY, .NET_MGR_REV_STATUS, .NET_REFUSE_LIMIT, .NET_QP_CTX_WORD, .NET_KEY_WORD, .NET_PORT_EN]

/-- Fields 360 to 419 of the register tables. -/
def Fld.list6 : List Fld :=
  [.NET_PORT_LINK_UP, .NET_PORT_MODE, .NET_PORT_ECN_EN, .NET_PORT_MAC, .NET_PORT_MAX_FRAME, .NET_PFC_EN,
   .NET_PFC_PRIO_A, .NET_PFC_PRIO_B, .NET_PFC_XOFF, .NET_PFC_XON, .NET_PFC_STORM_US, .NET_CNP_INTERVAL,
   .NET_CC_G, .NET_CC_RAI, .NET_CC_TIMER_US, .NET_CC_ALPHA_US, .NET_CC_BYTES, .NET_CC_MIN,
   .NET_RETX_LIMIT, .NET_PORT_FCS_ERR, .NET_PORT_ICRC_ERR, .NET_PORT_BAD_HDR, .NET_PORT_NO_DEST, .NET_PORT_PKEY_DROP,
   .NET_PORT_BAD_OP, .NET_PORT_SEQ_NAK, .NET_PORT_TAG_FAIL, .NET_PORT_OTHER, .NET_PORT_LOSSY_DROP, .NET_PORT_PFC_TX,
   .NET_PORT_PFC_RX, .NET_CMP_IP, .NET_CMP_IPV6, .NET_CMP_PRIO, .NET_CMP_PLAIN_OK, .NET_CMP_DSCP,
   .NET_CMP_PKEY, .NET_CMP_RXBUF, .NET_AH_WORD, .INC_DRING_BASE, .INC_DRING_LOC, .INC_DRING_EN,
   .INC_DRING_STATE, .INC_DRING_PROD, .INC_DRING_CONS, .INC_DRING_QUEUED, .INC_SEQ_NEXT, .INC_DEVICE_PENDING,
   .INC_LOST_NOTICE, .INC_LOST_DEGRADED, .INC_LOST_JOB, .INC_LOST_DEVICE, .INC_CRING_BASE, .INC_CRING_LOC,
   .INC_CRING_EN, .INC_CRING_READER, .INC_CRING_STATE, .INC_CRING_PROD, .INC_CRING_CONS, .INC_CRING_LOST_NOTICE]

/-- Fields 420 to 479 of the register tables. -/
def Fld.list7 : List Fld :=
  [.INC_CRING_LOST_DEGRADED, .INC_CRING_LOST_JOB, .INC_CRING_LOST_DEVICE, .SEC_LIFECYCLE, .SEC_DBG_OPEN, .SEC_DBG_OPENED_SINCE_POWER,
   .SEC_DBG_LOCKOUT, .SEC_SEAL, .SEC_MIN_SVN, .SEC_IMAGE_SVN, .SEC_SVN_COMMIT, .SEC_FW_KEY_REVOKED,
   .SEC_FW_KEY_USED, .SEC_T1_KEY, .SEC_T2_KEY, .SEC_LINK_ACTIVE, .SEC_LINK_STAGED, .SEC_T1_ROTATING,
   .SEC_T2_ROTATING, .SEC_CMP_AUTH, .SEC_DBG_REQ, .SEC_DBG_SUBMIT, .SEC_DBG_MODE, .SEC_DBG_STATUS,
   .SEC_DBG_FAILURES, .SEC_DBG_CHALLENGE, .SEC_DBG_RESPONSE, .SEC_EXP_IDE_UP, .SEC_EXP_IDE_REKEY, .SEC_EXP_CERT_DIGEST,
   .PWR_BEAT, .PWR_BEAT_LOCKED, .PWR_BEAT_LOST, .PWR_PLL_LOCK, .PWR_TSYNC_EN, .PWR_TSYNC_ERR,
   .PWR_ROOT_TIME, .PWR_GATE_PLK, .PWR_GATE_NET, .PWR_GATE_EXP, .PWR_GATE_SLICE, .PWR_GATE_BUSY,
   .PWR_TEMP, .PWR_TEMP_MAX, .PWR_TEMP_PEAK, .PWR_T_WARN, .PWR_T_CRIT, .PWR_T_HYST,
   .PWR_POWER_MW, .PWR_ENERGY_MJ, .PWR_LIMIT_W, .PWR_AVS_TARGET_MV, .PWR_RAIL_MV, .PWR_ALARM_STATE,
   .PWR_ALERT_JUNCTION, .PWR_ALERT_CAUSE, .PWR_IBI_DROPPED, .STAT_FRAME_K, .STAT_FRAME_K_ACTIVE, .STAT_SHADOW_K]

/-- Fields 480 to 535 of the register tables. -/
def Fld.list8 : List Fld :=
  [.STAT_SHADOW_FRAME, .STAT_F_LIVE, .STAT_F_SHADOW, .TRN_ST_PORT_MISS, .TRN_ST_WALKS, .TRN_ST_RANGE_HITS,
   .TRN_ST_MERGED, .TRN_ST_FAULTS, .TRN_ST_INV, .TRN_ST_WALK_RESTART, .TRN_ST_OVERFLOW, .SYC_ST_HITS,
   .SYC_ST_MISSES, .SYC_ST_NO_ALLOC, .SYC_ST_DUP_FILL, .SYC_ST_STALE_FILL, .SYC_ST_WRITEBACKS, .SYC_ST_EVICT_STREAM,
   .SYC_ST_EVICT_NORMAL, .SYC_ST_EVICT_PERSIST, .SYC_ST_MISS_HOLD, .COH_ST_FWD, .COH_ST_INV, .COH_ST_BACK_INV,
   .COH_ST_RSP_MISS, .COH_ST_EVICT_CROSS, .COH_ST_RETRY, .COH_ST_STARVED, .COH_ST_RES_EXPIRED, .COH_ST_INV_WRITES,
   .COH_ST_HOST_HELD, .COH_AT_FAR, .COH_AT_FAR_DIE, .COH_AT_PLACE_FORCED, .COH_AT_INVALID, .COH_AT_OVERFLOW,
   .COH_AT_UNDERFLOW, .COH_AT_POISONED, .STK_GR_CMDS, .STK_GR_ENTRIES, .STK_GR_LINES, .STK_GR_POISONED,
   .NET_ST_TX_MSGS, .NET_ST_RX_MSGS, .NET_ST_REFUSED, .NET_ST_ALLOC_TIES, .NET_ST_SRQ_TIES, .NET_ST_SRQ_EMPTY,
   .NET_ST_RNR_DISCARD, .NET_ST_LATE, .NET_ST_CQ_FULL_WAITS, .NET_ST_ALLOC_EMPTY, .NET_ST_RETRANSMIT, .NET_ST_RX_FULL,
   .NET_ST_CNP_TX, .NET_ST_CNP_RX]

/-- Every register field. -/
def Fld.all : List Fld :=
  Fld.list0 ++ Fld.list1 ++ Fld.list2 ++ Fld.list3 ++ Fld.list4 ++ Fld.list5 ++ Fld.list6 ++ Fld.list7 ++ Fld.list8

end Sys2Proof.Machine
end

