-- ==== Sys2Proof/Machine/Tab.lean ====
section
/-! DEFINITION. Sparse tables: lists of (key, entry) pairs in one canonical form, keys strictly rising.  The register
file, memory and every array of the block are held this way. -/
namespace Sys2Proof.Machine

/-- A sparse table. -/
abbrev Tab (α : Type) := List (Nat × α)

/-- The entry of a key, if listed. -/
def Tab.find {α : Type} : Tab α → Nat → Option α
  | [], _ => none
  | (k, a) :: t, i => if k = i then some a else Tab.find t i

/-- The entry of a key, `d` where it is not listed. -/
def Tab.get {α : Type} (t : Tab α) (d : α) (i : Nat) : α := (t.find i).getD d

/-- Insert or replace the entry of a key, keeping keys rising. -/
def Tab.put {α : Type} : Tab α → Nat → α → Tab α
  | [], i, a => [(i, a)]
  | (k, b) :: t, i, a =>
    if i < k then (i, a) :: (k, b) :: t
    else if k = i then (i, a) :: t
    else (k, b) :: Tab.put t i a

/-- Remove every entry of a key. -/
def Tab.del {α : Type} : Tab α → Nat → Tab α
  | [], _ => []
  | (k, b) :: t, i => if k = i then Tab.del t i else (k, b) :: Tab.del t i

/-- Set an entry, keeping no entry equal to the default `d`. -/
def Tab.set {α : Type} [DecidableEq α] (t : Tab α) (d : α) (i : Nat) (a : α) : Tab α :=
  if a = d then t.del i else t.put i a

/-- Keep the entries whose key and value satisfy `p`. -/
def Tab.keep {α : Type} (t : Tab α) (p : Nat → α → Bool) : Tab α := t.filter (fun e => p e.1 e.2)

/-- Apply `f` to every entry. -/
def Tab.mapVals {α : Type} (t : Tab α) (f : Nat → α → α) : Tab α := t.map (fun e => (e.1, f e.1 e.2))

/-- The keys listed, rising. -/
def Tab.keys {α : Type} (t : Tab α) : List Nat := t.map (·.1)

/-- Keys above `lo` and strictly rising. -/
def Tab.rising {α : Type} : Option Nat → Tab α → Bool
  | _, [] => true
  | none, (k, _) :: t => Tab.rising (some k) t
  | some l, (k, _) :: t => decide (l < k) && Tab.rising (some k) t

/-- Canonical form: keys strictly rising and no entry equal to the default. -/
def Tab.wf {α : Type} [DecidableEq α] (t : Tab α) (d : α) : Bool :=
  Tab.rising none t && t.all (fun e => decide (e.2 ≠ d))

end Sys2Proof.Machine
end

