-- ==== Sys2Proof/Machine/State.lean ====
section
/-! DEFINITION. The state of the block as plain data: the register file, the memories it reads and writes, the queues,
buffers and tables of every unit the spec describes, the pins, and the queue of waiting commands. -/
namespace Sys2Proof.Machine

open Sys2Proof

/-- Reasons a step can stop with a fault.  No meaning of this model raises one: every command has an effect or, where its
occasion is absent, none.  The constructor is kept for the interface; raising it would be safe. -/
inductive Fault where
  /-- Raised by nothing in this model; a stop here would be safe. -/
  | none
  deriving DecidableEq, Repr

/-- Reasons a command has no meaning. -/
inductive Refusal where
  /-- Raised by an arm of `exec` whose command has no meaning yet; safe. -/
  | notModelled (mnemonic : String)
  deriving DecidableEq, Repr

/-- The kinds of thing the block sends out or answers. -/
inductive EmitKind where
  /-- a register access completed with Unsupported Request (R9, R619): function, offset -/
  | unsupported
  /-- a register read completed: function, offset, value -/
  | readValue
  /-- an MSI-X write: function, entry (R197) -/
  | msix
  /-- an interrupt of a management core: core, vector (R198) -/
  | coreIrq
  /-- a mailbox reply passed to its sender: instance index -/
  | mailbox
  /-- a message of the coherence protocol to an agent: agent, opcode, address, data or operands -/
  | coh
  /-- a CXL message to a host: port, kind, operands -/
  | cxl
  /-- a TLP to a host: port, kind, operands -/
  | host
  /-- a flit on a peer link: link, words -/
  | flit
  /-- a packet on an Ethernet port: port, words -/
  | packet
  /-- a PFC frame: port, priority, quanta -/
  | pfc
  /-- an I3C answer or in-band interrupt: words -/
  | i3c
  /-- an SPDM or TDISP response: session, code, words -/
  | spdm
  /-- a command to a memory expander: port, words -/
  | expander
  /-- a TIME, roll call or other link control message: link, words -/
  | control
  /-- data returned to a client port or die: port, address, poison, bytes -/
  | data
  /-- an access to the SPI flash: target, length, outcome -/
  | flash
  deriving DecidableEq, Repr

/-- One thing sent out of the block, newest last in `State.sent`. -/
structure Emit where
  kind : EmitKind
  args : List Nat
  deriving DecidableEq, Repr

/-- One entry of the clamp log (R17, R526). -/
structure ClampEntry where
  fieldId   : Nat
  source    : Nat
  fn        : Nat
  unlisted  : Bool
  requested : Nat
  applied   : Nat
  beat      : Nat
  unknown   : Bool
  deriving DecidableEq, Repr

/-- An incident as it waits in a posting queue (R493, R501): its header fields and payload words 1 to 7. -/
structure Incident where
  code     : Nat
  severity : Nat
  both     : Bool
  cmp      : Option Nat
  seq      : Nat
  payload  : List Nat
  deriving DecidableEq, Repr

/-- Where the descriptor of an operation came from: the ring itself, the list of a CALL_LIST operation, or a fired
conjunction slot. -/
inductive Source where
  | ring
  | list (parent index : Nat)
  | fired (slot : Nat)
  deriving DecidableEq, Repr

/-- What a started operation waits for. -/
inductive OpWait where
  /-- its work is done: it can complete -/
  | done
  /-- its engine still works, or waits for data from outside -/
  | engine
  /-- a host-served translation of the page at this address (R208, R218) -/
  | ats (va : Nat)
  /-- the list descriptors of a CALL_LIST -/
  | list
  /-- the end of a long operation in this slot (R145) -/
  | long (slot : Nat)
  /-- the remote end of a queue pair operation (R144) -/
  | remote (qp : Nat)
  /-- result rows of a GATHER_REDUCE on this stack (R368) -/
  | rows (stack : Nat)
  /-- the accumulator context of its compartment on this stack (R364) -/
  | held (stack : Nat)
  deriving DecidableEq, Repr

/-- An operation: a started descriptor that has not completed.  `stamp` and `deadline` are absolute beats (a deadline of 0
is none); `listNext`, `listOk`, `listEnd`, `buf` and `released` are the list state of a CALL_LIST: descriptors started,
those that ended OK, the list has ended, descriptors fetched and not started, and the wait of the next one met.  A MOVE counts in
`listNext` its rows done and in `listOk` the bytes of the row written, and keeps in `buf` the bytes read. -/
structure Op where
  id       : Nat
  fn       : Nat
  ring     : Nat
  cmp      : Nat
  source   : Source
  index    : Nat
  desc     : List Nat
  startBeat : Nat
  startNs  : Nat
  startSeq : Nat
  stamp    : Nat
  deadline : Nat
  wait     : OpWait
  status   : Nat
  result   : Nat
  flags    : Nat
  detail   : Nat
  inner    : Nat
  innerIdx : Nat
  breaches : List Nat
  links    : List Nat
  listNext : Nat
  listOk   : Nat
  listEnd  : Bool
  buf      : List (List Nat)
  released : Bool
  deriving DecidableEq, Repr

/-- The run-time state of one command ring beside its registers: descriptors fetched and not started, fired
descriptors waiting (R175), and whether the waits of the two heads have been met (R168). -/
structure RingRun where
  fetched  : List (List Nat)
  fire     : List (Nat × List Nat)
  released : Bool
  fireReleased : Bool
  deriving DecidableEq, Repr

/-- A completion record waiting for its completion ring (R122, R161). -/
structure CplWait where
  words  : List Nat
  op     : Op
  waited : Bool
  deriving DecidableEq, Repr

/-- Rings, operations and completions (chapter 5). -/
structure RingSt where
  run     : Tab RingRun
  cplQ    : Tab (List CplWait)
  ops     : List Op
  opSerial : Nat
  ended   : List Nat
  ordPend : Tab (List (Nat × Nat × Nat × Nat))
  deriving DecidableEq, Repr

/-- A conjunction slot (chapter 6): UNARMED slots are not listed. -/
structure Slot where
  fired    : Bool
  tagged   : Bool
  cond     : Nat
  obj      : Nat
  operand  : Nat
  fn       : Nat
  ring     : Nat
  indic    : Bool
  armBeat  : Nat
  fireBeat : Nat
  desc     : List Nat
  deriving DecidableEq, Repr

/-- What a compartment holds beside the owner bits of the register file (R31): blocks of each pool, walkers, granules,
streams, and its share lanes.  A share lane holds units (SEALED and house) or a weight (SHARED); a pattern lists the
service slots of the share period that carry the compartment's units. -/
structure Grants where
  slices   : List Nat
  walkers  : Nat
  rangeBlk : List Nat
  conBlk   : List Nat
  conjBlk  : List Nat
  qpBlk    : List Nat
  cqBlk    : List Nat
  srqBlk   : List Nat
  pdBlk    : List Nat
  keyBlk   : List Nat
  streams  : List Nat
  t1       : List Nat
  t2       : List Nat
  lanes    : List Nat
  patterns : List (List Nat)
  deriving DecidableEq, Repr

/-- No grant. -/
def Grants.none : Grants := ⟨[], 0, [], [], [], [], [], [], [], [], [], [], [], [], []⟩

/-- A contract record as loaded (R81). -/
structure Contract where
  schedId  : Nat
  epoch    : Nat
  span     : Nat
  slack    : Nat
  lanes    : List Nat
  preload  : List (Nat × Nat)
  deriving DecidableEq, Repr

/-- Compartments and contracts (chapters 2 and 3): `share` is the position of each lane in its share period; `demand`, `served` and `over`
count, by lane × 32 + compartment, indicative slots of this period, SHARED-remainder slots, and periods over demand; `granted` is
the last service slot of a lane, compartment × 2 + mood + 1. -/
structure CmpSt where
  grants  : Tab Grants
  active  : Tab Contract
  staged  : Tab Contract
  allocTies : Nat
  share   : Tab Nat
  demand  : Tab Nat
  served  : Tab Nat
  overs    : Tab Nat
  granted : Tab Nat
  suppressed : Tab Nat
  deriving DecidableEq, Repr

/-- Host functions and mailboxes (chapter 4): mailbox buffers by index × 1024 + 32-bit word; the doorbells that wait for their management
window, in order, each a mailbox and whether it is a reply; the holder each processed mailbox takes at the end of its window (1 SENDER,
3 SERVER, 2 SERVER without an event); what is enabled in configuration space; and the instances under reset whose squashed work was INDICATIVE. -/
structure FnSt where
  mbox     : Tab Nat
  mbBell   : List (Nat × Bool)
  mbDone   : Tab Nat
  configs  : Tab Nat
  resetInd : List Nat
  deriving DecidableEq, Repr

/-- Vectors and MSI-X beside their registers (chapter 7): batch start beats, claim pointers, and the MSI-X tables. -/
structure EvtSt where
  batchStart : Tab Nat
  claimPtr   : Tab Nat
  msix       : Tab (List Nat)
  msixPend   : Tab Nat
  msixEn     : List Nat
  deriving DecidableEq, Repr

/-- Incidents (chapter 18): the posting queues of the device ring and of each compartment ring, and every incident code
and object posted so far that a later rule looks back at (cause links R90 and R509). -/
structure IncSt where
  devQ   : List Incident
  cmpQ   : Tab (List Incident)
  recent : List (Nat × Nat × Nat × Nat)
  frame  : Tab Nat
  deriving DecidableEq, Repr

/-- The memories the block reads and writes.  `acc` is accelerator memory by accelerator physical address, `host` host
memory by port × 2^64 + bus address; bytes not listed read as zero.  `lineKey` is the serial number of the tier key each
written 128-byte line was written under, `poison` the lines that hold poison, `t2Poison` the poison tables of R506. -/
structure MemSt where
  acc      : List Host.Cell
  host     : List Host.Cell
  lineKey  : Tab Nat
  poison   : List Nat
  hostPoison : List Nat
  t2Poison : Tab (List Nat)
  deriving DecidableEq, Repr

/-- The pins and rails the spec gives the block (chapter 22). -/
structure PinSt where
  vddAon      : Bool
  pwrgood     : Bool
  sysRstN     : Bool
  perstA      : Bool
  perstB      : Bool
  primarySel  : Bool
  primary     : Nat
  hostUp      : List Nat
  deriving DecidableEq, Repr

/-- The register file: every field of `Fld`, its shadows and staged halves (R11 to R13), and the clamp log. -/
structure RegSt where
  vals   : Tab Nat
  shadow : Tab Nat
  staged : Tab Nat
  clamp  : List ClampEntry
  ptrs   : Tab Nat
  deriving DecidableEq, Repr

/-- Whose host-served translation a cached one is: its function and PASID, and the U and Global bits of its completion (R209, R213,
R225). -/
structure HostTag where
  fn     : Nat
  pasid  : Option Nat
  u      : Bool
  global : Bool
  deriving DecidableEq, Repr

/-- A cached translation (R250, R254): the compartment it belongs to, the base and size it covers, where it leads, and its
rights.  `target` 0 is accelerator memory, 1 and 2 the host ports; `range` names the range entry it came from, and `host` the
host-served request. -/
structure Trans where
  cmp    : Nat
  base   : Nat
  size   : Nat
  out    : Nat
  r      : Bool
  w      : Bool
  a      : Bool
  nc     : Bool
  gr     : Bool
  pinInd : Bool
  target : Nat
  func   : Nat
  range  : Option Nat
  host   : Option HostTag
  deriving DecidableEq, Repr

/-- A request that a walk serves or that a client port holds: port, stream, address and access (R255, R257). -/
structure WalkReq where
  port   : Nat
  stream : Nat
  va     : Nat
  access : Nat
  deriving DecidableEq, Repr

/-- A request that a full walk queue holds at its client port (R258): `missed` once it has missed there. -/
structure HeldReq where
  cmp    : Nat
  indic  : Bool
  missed : Bool
  req    : WalkReq
  deriving DecidableEq, Repr

/-- A walk in progress or queued (R255 to R257): the address and access of the request that started it, the requests it serves
(its starter first), the level whose entry is awaited and the address of that entry; `queued` while no walker serves it; `restart`
once an overlapping invalidation has reached it (R265). -/
structure Walk where
  id      : Nat
  cmp     : Nat
  va      : Nat
  indic   : Bool
  access  : Nat
  reqs    : List WalkReq
  queued  : Bool
  overflow : Bool
  level   : Nat
  entry   : Nat
  restart : Bool
  deriving DecidableEq, Repr

/-- Walked translation (chapter 9): range table, port caches (least recently used first), pinned places, shared cache,
walks, and the requests held at client ports, oldest first. -/
structure XlSt where
  ranges : Tab (List Nat)
  port   : Tab (List Trans)
  pinned : Tab (List Trans)
  places : Tab (List (Nat × Nat))
  shared : List Trans
  walks  : List Walk
  waiting : List HeldReq
  serial : Nat
  deriving DecidableEq, Repr

/-- A host-served translation held for a function (R209, R212, R213): in the ring window of a ring (`win`), or in the
cache of a client port (`port`) and the shared cache. -/
structure Held where
  fn     : Nat
  pasid  : Option Nat
  base   : Nat
  size   : Nat
  out    : Nat
  r      : Bool
  w      : Bool
  u      : Bool
  global : Bool
  win    : Option Nat
  port   : Nat
  deriving DecidableEq, Repr

/-- An entry of a translation request table, or a request that waits for one (`sent` is false) (R211): the ring windows and client
ports its answer is for, and `stale` once an overlapping invalidation has arrived after it was sent (R215). -/
structure AtsReq where
  fn    : Nat
  pasid : Option Nat
  page  : Nat
  users : List (Option Nat × Nat)
  stale : Bool
  sent  : Bool
  deriving DecidableEq, Repr

/-- Page requests of an operation that wait for the function's allocation (R219). -/
structure PrgAsk where
  fn    : Nat
  pasid : Option Nat
  pages : List Nat
  write : Bool
  deriving DecidableEq, Repr

/-- A page request group (R218): its pages and whether write access was asked; `live` is false once its operations have
ended or been squashed, so that its response only frees the index (R222). -/
structure PrgGroup where
  fn    : Nat
  idx   : Nat
  pasid : Option Nat
  pages : List Nat
  write : Bool
  live  : Bool
  deriving DecidableEq, Repr

/-- A held ATS invalidate request (R223, R224): `wide` when it arrived with 32 held, `late` while it waits for their space; `tags` are
the host reads that used a translation it removed (R226). -/
structure InvReq where
  itag   : Nat
  pasid  : Option Nat
  global : Bool
  base   : Nat
  size   : Nat
  wide   : Bool
  late   : Bool
  tags   : List Nat
  deriving DecidableEq, Repr

/-- A host read whose completion has not arrived (R111, R226): its operation, or none once squashed, and, where it used a
host-served translation, the PASID and address it translated. -/
structure HostRead where
  tag   : Nat
  fn    : Nat
  addr  : Nat
  len   : Nat
  op    : Option Nat
  ats   : Bool
  pasid : Option Nat
  va    : Nat
  deriving DecidableEq, Repr

/-- Host-served translation (chapter 8). -/
structure AtsSt where
  held    : List Held
  reqs    : List AtsReq
  groups  : List PrgGroup
  prgWait : List PrgAsk
  rounds  : List (Nat × Nat × Nat)
  invQ    : Tab (List InvReq)
  blocked : List Nat
  reads   : List HostRead
  readTag : Nat
  deriving DecidableEq, Repr

/-- An SPDM session (R552): the port whose DOE mailbox carries it, whether FINISH has established it, whether the requester was
authenticated, and the SHA-384 digest of the requester's leaf public key. -/
structure Session where
  id          : Nat
  port        : Nat
  established : Bool
  mutualAuth  : Bool
  digest      : Nat
  deriving DecidableEq, Repr

/-- An IDE stream of a host port (R554): the key sets programmed for each direction (bit 0 K0, bit 1 K1), the set in use + 1 (0 none), and
whether it is Insecure. -/
structure IdeStream where
  keys     : Nat
  active   : Nat
  insecure : Bool
  deriving DecidableEq, Repr

/-- Security (chapter 20): the TDISP state of each instance and the selective IDE stream it is bound to, the serial numbers of the tier keys,
pending rotations (key 2 × compartment + tier: old key and rotation boundary), the link keys of each compartment (key, sender tag, beat: the
activation beat of a STAGED key, the boundary at which an ACTIVE or PREVIOUS key took effect or was replaced), the queue pairs marked USED
under the ACTIVE key (R547 to R550), SPDM connection states and sessions, IDE streams (key 8 × port + stream) and the key set in use on each
expansion port, a failed entropy source, the time of the challenge held, a seal that waits for the next cold reset, and the digests of the
running image and the applied boot record. -/
structure SecSt where
  tdisp : Tab Nat
  ifStream : Tab Nat
  t1Key : Tab Nat
  t2Key : Tab Nat
  keySerial : Nat
  rot   : Tab (Nat × Nat)
  linkAct : Tab (Nat × Nat × Nat)
  linkStg : Tab (Nat × Nat × Nat)
  linkPrev : Tab (Nat × Nat × Nat)
  used : List Nat
  spdm : Tab Nat
  sessions : List Session
  sessSerial : Nat
  ide : Tab IdeStream
  expSet : Tab Nat
  entropyBad : Bool
  challenge : Option Nat
  sealNext : Bool
  digest : Nat
  recDigest : Nat
  deriving DecidableEq, Repr

/-- Start-up and resets (chapter 19): the step of a warm reset that is running (0: none), a cold or power-on start under way, whether it
follows a power-on, its type and cause, when it began, a start that has failed, an image running, a cold start held while SYS_RST_N is low, host ports whose links are
retrained after the warm reset, and what waits for the device incident ring to be enabled: a RESET_RECORD and rejected image slots. -/
structure BootSt where
  warmStep : Nat
  running : Bool
  powerOn : Bool
  typ     : Nat
  cause   : Nat
  startNs : Nat
  failed  : Bool
  imageUp : Bool
  sysHeld : Bool
  hostAfter : List Nat
  record  : Option (Nat × Nat)
  rejected : List Nat
  deriving DecidableEq, Repr

/-- What memory still holds beneath a dirty cached line: bytes, the key they were written under, poison. -/
structure Under where
  bytes  : List Byte
  key    : Nat
  poison : Bool
  deriving DecidableEq, Repr

/-- A valid tag of the system cache (R271).  A dirty line holds what memory has beneath it; its poison bit is the poison
of the line in `MemSt.poison`. -/
structure CLine where
  way   : Nat
  line  : Nat
  cmp   : Nat
  win   : Nat
  cls   : Nat
  dirty : Option Under
  deriving DecidableEq, Repr

/-- An open miss-table entry of a slice (R283, R284): `bytes` is the data of a partial write that waits for its fill. -/
structure Miss where
  id    : Nat
  slice : Nat
  port  : Nat
  cmp   : Nat
  line  : Nat
  addr  : Nat
  len   : Nat
  place : Bool
  indic : Bool
  stale : Bool
  bytes : Option (List Byte)
  deriving DecidableEq, Repr

/-- A maintenance operation or pinned-way flush whose end has not been reported (R276, R291): lines changed, the ways a
flush closes to allocation, and the pinned counts it brings into force. -/
structure Maint where
  pin   : Bool
  lines : Nat
  ways  : List Nat
  pins  : List Nat
  deriving DecidableEq, Repr

/-- The system cache (chapter 10): the valid tags of each set (key slice × 1024 + set), least recent first; the miss
tables; the pinned counts in force; maintenance under way. -/
structure CacheSt where
  sets   : Tab (List CLine)
  misses : List Miss
  serial : Nat
  pins   : Tab (List Nat)
  maint  : Tab Maint
  deriving DecidableEq, Repr

/-- A request at a coherence home: opcode, requester, transaction number, compartment, line, age, and what a write or an
atomic carries (bytes, byte mask, atomic code, format, operand and comparand). -/
structure CohReq where
  op      : Nat
  agent   : Nat
  txn     : Nat
  cmp     : Nat
  line    : Nat
  age     : Nat
  addr    : Nat
  data    : List Nat
  mask    : Nat
  aop     : Nat
  fmt     : Nat
  operand : Nat
  compare : Nat
  deriving DecidableEq, Repr

/-- An answer a home waits for: the agent, the forward sent to it, and which halves of an eviction crossing have arrived (R317). -/
structure Answer where
  agent    : Nat
  op       : Nat
  evicting : Bool
  wb       : Bool
  deriving DecidableEq, Repr

/-- A tracker entry of a slice: a blocked line (R308, R309).  `wait` is the victim line whose filter entry the request needs,
`direct` says that the owner sends the data, `owes` that the home must, `got` that direct data has reached the host port
unit, `ends` how the requester ends (1 in S, 2 as owner), `granted` that only INSTALLED is awaited.  Opcode 0x14 is a filter eviction, 0x15 a
back-invalidation for a window change. -/
structure Track where
  req     : CohReq
  slice   : Nat
  wait    : Option Nat
  pend    : List Answer
  direct  : Bool
  owes    : Bool
  got     : Bool
  ends    : Nat
  granted : Bool
  deriving DecidableEq, Repr

/-- A snoop filter entry (R310): owner, sharers, and the count at its last use. -/
structure FEntry where
  owner   : Option Nat
  sharers : List Nat
  used    : Nat
  deriving DecidableEq, Repr

/-- A starved request (R320). -/
structure Starve where
  slice : Nat
  line  : Nat
  agent : Nat
  txn   : Nat
  deriving DecidableEq, Repr

/-- The coherence homes (chapter 11): snoop filter, trackers, starved tables, reservations, host queues, turned-away
requests of junction engines, die ports whose link is up, and the window ranges in force while a change runs. -/
structure CohSt where
  filter   : Tab FEntry
  tracks   : List Track
  starved  : List Starve
  reserved : Tab (Nat × Nat)
  hostQ    : List CohReq
  retried  : List CohReq
  dieUp    : List Nat
  oldWin   : Tab (Nat × Nat)
  clock    : Nat
  deriving DecidableEq, Repr

/-- The tier-one stacks beside their registers: consecutive windows below the refresh and the throttle step in force (R372,
R374). -/
structure StkSt where
  refLow : Tab Nat
  thrLow : Tab Nat
  deriving DecidableEq, Repr

/-- A long operation in its slot (table "Operation slot", R531).  `op` is the descriptor's operation, `fin` the status and result of an
operation that has ended and is not reported yet, `words` and `args` are its
working data. -/
structure LongOp where
  id        : Nat
  kind      : Nat
  tkind     : Nat
  cmp       : Nat
  state     : Nat
  status    : Nat
  done      : Nat
  total     : Nat
  startBeat : Nat
  endBeat   : Nat
  endOrder  : Nat
  detail    : Nat
  corr      : Nat
  mismatch  : Nat
  op        : Option Nat
  fin       : Option (Nat × Nat)
  words     : List Nat
  args      : List Nat
  deriving DecidableEq, Repr

/-- The operation slots (R531): slots not listed are FREE. -/
structure LongSt where
  slots  : Tab LongOp
  serial : Nat
  ends   : Nat
  deriving DecidableEq, Repr

/-- Expansion ports beside their registers (chapter 14): the ports a running enumeration visits, the reason and usable capacity of those
visited, and the ports whose link went down or came up during it. -/
structure ExpSt where
  start   : List Nat
  visited : Tab (Nat × Nat)
  fell    : List Nat
  rose    : List Nat
  deriving DecidableEq, Repr

/-- A replay round (R405): the flits it has yet to resend, the sequence number of its first, when it started, and the rounds that failed
before it. -/
structure Round where
  left    : List Flit
  first   : Nat
  startNs : Nat
  failed  : Nat
  deriving DecidableEq, Repr

/-- A message that waits for the slots of its compartment on a link: where it came from (a link, or none for this junction), the operation
it belongs to, its flits not sent yet, whether more are to come, and whether a missed slot has been reported. -/
structure TxMsg where
  cmp    : Nat
  stream : Nat
  indic  : Bool
  cls    : Nat
  origin : Option Nat
  op     : Option Nat
  flits  : List Flit
  more   : Bool
  missed : Bool
  deriving DecidableEq, Repr

/-- A message in a compartment's reassembly buffer, or on its way there: the port it arrived on (0 to 11 a peer link, 15 this junction, 16
and 17 an Ethernet port), mood and class, source (junction ID or IP address), the body bytes so far, the message once it is
complete, and for a packet whether it is the first of its message and asks for an acknowledgement. -/
structure RxMsg where
  id     : Nat
  via    : Nat
  cmp    : Nat
  indic  : Bool
  cls    : Nat
  src    : Nat
  psn    : Nat
  bytes  : List Nat
  msg    : Option Msg
  first  : Bool := true
  ack    : Bool := true
  deriving DecidableEq, Repr

/-- One peer link beside its registers (R404 to R410, R420): next slot to fill, sequence numbers, the replay buffer and round, slots for
which the buffer has been full, messages waiting to be sent, flits received and not yet passed on, the way of each message in progress
(key stream, mood, class; value output + 1, 0x20 refused), credits held, owed and withheld, and the last TIME exchange. -/
structure Lnk where
  txSlot : Nat
  txSeq  : Nat
  rxNext : Nat
  nak    : Bool
  gap    : Bool
  buf    : List Flit
  round  : Option Round
  full   : Nat
  txQ    : List TxMsg
  rxHold : List (Flit × Bool × Bool)
  way    : Tab Nat
  cred   : Tab Nat
  owed   : Tab Nat
  kept   : Tab Nat
  rxTime : Nat
  rxEcho : Nat
  deriving DecidableEq, Repr

/-- A junction of a roll call map. -/
structure RollJ where
  serial  : Nat
  jid     : Nat
  hops    : Nat
  path    : Nat
  reached : Bool
  deriving DecidableEq, Repr

/-- A link of a roll call map: reporting junction and link, far junction (once known) and link, outcome, far serial. -/
structure RollL where
  ja      : Nat
  la      : Nat
  jb      : Option Nat
  lb      : Nat
  outcome : Nat
  serial  : Nat
  deriving DecidableEq, Repr

/-- A roll call under way (R425): the slot of its long operation, hop limit, junctions and links found, junctions waiting to be queried
(the head is awaited), the closing pass, and whether the map was cut. -/
structure Roll where
  slot    : Nat
  limit   : Nat
  start   : Nat
  stop    : Nat
  js      : List RollJ
  ls      : List RollL
  queue   : List Nat
  closing : Bool
  cut     : Bool
  deriving DecidableEq, Repr

/-- Following the time parent (R421, R422): exchanges since the lock was lost, whether the counter has been stepped, consecutive good and
bad exchanges, the beat of the last exchange, and the beats the counter still holds its value (R72). -/
structure TimeSt where
  seen    : Nat
  stepped : Bool
  good    : Nat
  bad     : Nat
  last    : Nat
  hold    : Nat
  deriving DecidableEq, Repr

/-- Peer links (chapter 15): slot plans as the words of their records (the house plan where none is listed), the previous receive map and
the slot it is kept to, routing tables, reassembly buffers, time and roll call. -/
structure PlkSt where
  link    : Tab Lnk
  plan    : Tab (List Nat)
  next    : Tab (List Nat)
  old     : Tab (List Nat)
  oldTo   : Tab Nat
  routes  : Tab (List Nat)
  rx      : Tab (List RxMsg)
  rxSerial : Nat
  time    : TimeSt
  roll    : Option Roll
  deriving DecidableEq, Repr

/-- A request message of an operation at its queue pair: sent or still waiting, its packet sequence numbers, and the response bytes
that have arrived. -/
structure Sent where
  op   : Nat
  first : Bool
  off  : Nat
  msg  : Msg
  sent : Bool
  psn  : Nat
  npsn : Nat
  got  : Nat
  deriving DecidableEq, Repr

/-- A request message that has been performed and is not reported visible yet: its number, its responses, the key it
passed with (index + 1), its tag, and the completion queue entry it will write. -/
structure Passed where
  msn   : Nat
  psn   : Nat
  rsp   : List Msg
  key   : Nat
  tag   : Option Nat
  cqe   : Option (List Nat)
  indic : Bool
  waited : Bool
  deriving DecidableEq, Repr

/-- A queue pair (tables "Queue pair context"): the fields of its context, and its working data: messages of its operations in order,
messages performed, the receive buffer of a SEND in progress, the message an RNR answer waits for, responses sent, the saved results of
network atomics, the sequence NAK sent for a gap, the target and stage of its rate limit, when it last sent and received a congestion
notification, the next address, key and bytes left of a network WRITE in progress, bytes received of a message in progress, and when the
acknowledgement timer last started. -/
structure Qp where
  state   : Nat
  indic   : Bool
  net     : Bool
  owner   : Nat
  cmp     : Nat
  pd      : Nat
  srq     : Nat
  cq      : Nat
  rjid    : Nat
  rqp     : Nat
  timeout : Nat
  rnrRetry : Nat
  rnrBack : Nat
  sendMsn : Nat
  ackMsn  : Nat
  recvMsn : Nat
  pmtu    : Nat
  crypt   : Bool
  ah      : Nat
  port    : Nat
  sqNext  : Nat
  sqAck   : Nat
  rqPsn   : Nat
  minRnr  : Nat
  rdAtom  : Nat
  ackTime : Nat
  retryCnt : Nat
  retries : Nat
  rnrLeft : Nat
  rate    : Nat
  alpha   : Nat
  spent   : Bool
  flow    : Nat
  sends   : List Sent
  passed  : List Passed
  buffer  : Option (Nat × Nat × Nat × Nat)
  rnrAt   : Option Nat
  rnrWait : Option Nat
  resps   : Nat
  atoms   : List (Nat × Nat)
  gapNak  : Bool
  target  : Nat
  stage   : Nat
  cnpNs   : Option Nat
  cnpRx   : Option Nat
  wr      : Option (Nat × Nat × Nat)
  rcvd    : Nat
  lastRetry : Nat
  deriving DecidableEq, Repr

/-- A completion queue (R454, R455): where its buffer lies, its write-back slot and event source, `state` 1 runs, 3 is in ERROR, and the
produced and consumed counts. -/
structure Cq where
  owner : Nat
  base  : Nat
  log2  : Nat
  host  : Bool
  pasid : Option Nat
  slot  : Nat
  src   : Option Nat
  state : Nat
  prod  : Nat
  cons  : Nat
  deriving DecidableEq, Repr

/-- A shared receive queue (R451, R454). -/
structure Srq where
  owner : Nat
  base  : Nat
  log2  : Nat
  slot  : Nat
  limit : Nat
  prod  : Nat
  cons  : Nat
  told  : Bool
  deriving DecidableEq, Repr

/-- A key table entry (table "Key entry"); for a window, the region it opens and the queue pair it is bound to. -/
structure Key where
  state   : Nat
  window  : Bool
  r       : Bool
  w       : Bool
  a       : Bool
  indic   : Bool
  gen     : Nat
  pd      : Nat
  owner   : Nat
  va      : Nat
  len     : Nat
  parent  : Nat
  qp      : Option Nat
  deriving DecidableEq, Repr

/-- Remote access and the Ethernet ports (chapters 16 and 17): the objects, asynchronous event queues, frames held by a pause, when a
pause began and ends, PFC sent, packets in the compartment allotments. -/
structure NetSt where
  qps    : Tab Qp
  cqs    : Tab Cq
  srqs   : Tab Srq
  pds    : Tab Nat
  keys   : Tab Key
  revoking : Tab (List Nat)
  aeq    : Tab (List Nat)
  held   : Tab (List (List Nat))
  pauseAt : Tab Nat
  pauseTo : Tab Nat
  stormed : List Nat
  pfcOn  : List Nat
  allot  : Tab (List RxMsg)
  deriving DecidableEq, Repr

/-- Clocks, power and the management bus beside their registers (chapter 21): blocks that are ungating (a bit number of PWR_GATE, 0x100 +
slice), consecutive samples inside the limits of each alarm, the last power samples, TSYNC edges in a row (good, bad, missing), whether a
written root time waits and whether one has been applied, the hottest value since the last I3C read, in-band interrupts and their queue, the
dynamic address, the energy half latched for I3C, and the beat of the last frame boundary. -/
structure PwrSt where
  ungating : List Nat
  calm     : Tab Nat
  samples  : List Nat
  tsGood   : Nat
  tsBad    : Nat
  tsMiss   : Nat
  rootWait : Bool
  rootSet  : Bool
  peak     : Nat
  ibiOn    : Bool
  ibiQ     : List Nat
  address  : Option Nat
  energyHi : Nat
  frameBeat : Nat
  deriving DecidableEq, Repr

/-- The whole state of the block and its queue of waiting commands. -/
structure State where
  pending : List Instr
  reg   : RegSt
  mem   : MemSt
  pins  : PinSt
  ring  : RingSt
  slots : Tab Slot
  cmp   : CmpSt
  fns   : FnSt
  evt   : EvtSt
  inc   : IncSt
  xl    : XlSt
  syc   : CacheSt
  coh   : CohSt
  stk   : StkSt
  exp   : ExpSt
  long  : LongSt
  plk   : PlkSt
  net   : NetSt
  ats   : AtsSt
  sec   : SecSt
  boot  : BootSt
  pwr   : PwrSt
  sent  : List Emit
  ns    : Nat
  free  : Nat
  deriving DecidableEq, Repr

/-! ### Reset -/

/-- The state right after reset: every register at its Reset column, the fuses of the part the spec describes, the house compartment
ASSIGNED with nothing bound until INIT, every memory and queue empty, die links and expansion links down.  A register whose
reset value the spec does not give holds zero. -/
def State.reset : State where
  pending := []
  reg := { vals := [], shadow := [], staged := [], clamp := [], ptrs := [] }
  mem := { acc := [], host := [], lineKey := [], poison := [], hostPoison := [], t2Poison := [] }
  pins := { vddAon := true, pwrgood := false, sysRstN := true, perstA := false, perstB := false, primarySel := false, primary := 0,
            hostUp := [] }
  ring := { run := [], cplQ := [], ops := [], opSerial := 0, ended := [], ordPend := [] }
  slots := []
  cmp := { grants := [], active := [], staged := [], allocTies := 0, share := [], demand := [], served := [], overs := [], granted := [],
           suppressed := [] }
  fns := { mbox := [], mbBell := [], mbDone := [], configs := [], resetInd := [] }
  evt := { batchStart := [], claimPtr := [], msix := [], msixPend := [], msixEn := [] }
  inc := { devQ := [], cmpQ := [], recent := [], frame := [] }
  xl := { ranges := [], port := [], pinned := [], places := [], shared := [], walks := [], waiting := [], serial := 0 }
  syc := { sets := [], misses := [], serial := 0, pins := [], maint := [] }
  coh := { filter := [], tracks := [], starved := [], reserved := [], hostQ := [], retried := [], dieUp := [], oldWin := [], clock := 0 }
  stk := { refLow := [], thrLow := [] }
  exp := { start := [], visited := [], fell := [], rose := [] }
  long := { slots := [], serial := 1, ends := 0 }
  plk := { link := [], plan := [], next := [], old := [], oldTo := [], routes := [], rx := [], rxSerial := 0,
           time := { seen := 0, stepped := false, good := 0, bad := 0, last := 0, hold := 0 }, roll := none }
  net := { qps := [], cqs := [], srqs := [], pds := [], keys := [], revoking := [], aeq := [], held := [], pauseAt := [], pauseTo := [],
           stormed := [], pfcOn := [], allot := [] }
  ats := { held := [], reqs := [], groups := [], prgWait := [], rounds := [], invQ := [], blocked := [], reads := [], readTag := 0 }
  sec := { tdisp := [], ifStream := [], t1Key := [], t2Key := [], keySerial := 65, rot := [], linkAct := [], linkStg := [], linkPrev := [],
           used := [], spdm := [], sessions := [], sessSerial := 0, ide := [], expSet := [], entropyBad := false, challenge := none,
           sealNext := false, digest := 0, recDigest := 0 }
  boot := { warmStep := 0, running := false, powerOn := true, typ := 0, cause := 0, startNs := 0, failed := false, imageUp := false, sysHeld := false,
            hostAfter := [], record := none, rejected := [] }
  pwr := { ungating := [], calm := [], samples := [], tsGood := 0, tsBad := 0, tsMiss := 0, rootWait := false, rootSet := false, peak := 0,
           ibiOn := false, ibiQ := [], address := none, energyHi := 0, frameBeat := 0 }
  sent := []
  ns := 0
  free := 0

end Sys2Proof.Machine
end

