-- ==== Sys2Proof/Machine/Ops.lean ====
section
/-! DEFINITION. The named operations every meaning uses: reading and writing register fields, rotating pointers, sending,
raising events (R192), posting incidents (R494 to R503), and reading and writing memory. -/
namespace Sys2Proof.Machine

open Sys2Proof

/-- What a meaning answers. -/
abbrev Out := Host.Outcome State Fault Refusal

/-! ### Register fields -/

/-- The number of a field in the register file. -/
def Fld.num (f : Fld) : Nat := f.ctorIdx

/-- The key of entry `i` of a field array. -/
def fkey (f : Fld) (i : Nat) : Nat := f.num + 1024 * i

/-- Reset value of a field (the Reset columns): SYC_WIN_QUOTA is 16 for window 0 (chapter 10); the fixed event sources
are bound at their owners (R184) and the mailbox request number starts at 1. -/
def Fld.resetAt (f : Fld) (i : Nat) : Nat :=
  match f with
  | .SYC_WIN_QUOTA => if i % 16 = 0 then 16 else 0
  | .EVT_SRC_BOUND => b2n ((1 ≤ i && i ≤ 4) || (0x40 ≤ i && i < 0xC2))
  | .EVT_SRC_OWNER => if 0x40 ≤ i && i < 0xC0 then i - 0x40 else if i = 0xC1 then 64 else 0
  | _ => f.spec.reset

/-- Read entry `i` of a field. -/
def State.rd (s : State) (f : Fld) (i : Nat) : Nat := Tab.get s.reg.vals (f.resetAt i) (fkey f i)

/-- Write entry `i` of a field; the value is held in the width of the field. -/
def State.wr (s : State) (f : Fld) (i v : Nat) : State :=
  { s with reg := { s.reg with vals := Tab.set s.reg.vals (f.resetAt i) (fkey f i) (v % 2 ^ f.spec.width) } }

/-- The frame statistic that counts the same events as a cumulative counter of a compartment (table "Frame statistics"). -/
def frameStat : Fld → Option Nat
  | .TRN_ST_PORT_MISS => some 2
  | .TRN_ST_WALKS => some 3
  | .SYC_ST_HITS => some 4
  | .SYC_ST_MISSES => some 5
  | .SYC_ST_DUP_FILL => some 6
  | .COH_ST_RETRY => some 14
  | _ => none

/-- Count events in a frame counter of a compartment (R589). -/
def State.stat (s : State) (c k n : Nat) : State := s.wr .STAT_F_LIVE (16 * c + k) (s.rd .STAT_F_LIVE (16 * c + k) + n)

/-- Add to a saturating counter field; a compartment's counter also counts in its frame counter, if it has one. -/
def State.bump (s : State) (f : Fld) (i n : Nat) : State :=
  let s := s.wr f i (satAdd f.spec.width (s.rd f i) n)
  match frameStat f with
  | some k => s.stat i k n
  | none => s

/-- Write a field in every entry of a list of indices. -/
def State.wrAll (s : State) (f : Fld) (is : List Nat) (v : Nat) : State := is.foldl (fun t i => t.wr f i v) s

/-- Return fields to their reset values at the listed indices. -/
def State.rst (s : State) (fs : List Fld) (is : List Nat) : State :=
  fs.foldl (fun t f => is.foldl (fun u i => u.wr f i (f.resetAt i)) t) s

/-- The BEAT counter (R71). -/
def State.beat (s : State) : Nat := s.rd .PWR_BEAT 0

/-- Append to what the block has sent. -/
def State.emit (s : State) (k : EmitKind) (args : List Nat) : State := { s with sent := s.sent ++ [⟨k, args⟩] }

/-- A fresh value of the block's unconstrained choices: the opaque `Config.freeValue` at the next count. -/
def State.fresh (s : State) : Nat × State := ((Config.freeValue s.free).toNat, { s with free := s.free + 1 })

/-! ### Functions, ports and compartments -/

/-- The port of a function index (R92). -/
def portOf (fn : Nat) : Nat := fn / 64

/-- Function indices 0 and 64 name the manager functions (R92). -/
def isMgr (fn : Nat) : Bool := fn % 64 == 0

/-- The manager function of the primary port (R93). -/
def State.primaryFn (s : State) : Nat := 64 * s.pins.primary

/-- The manager function of the secondary port. -/
def State.secondaryFn (s : State) : Nat := 64 * (1 - s.pins.primary)

/-- The compartment of a function: house for a manager function, its binding for an instance (R24, R29). -/
def State.fnCmp (s : State) (fn : Nat) : Option Nat :=
  if isMgr fn then some 0 else if s.rd .INS_BOUND fn = 1 then some (s.rd .INS_CMP fn) else none

/-- States of a compartment (table "Compartment states"). -/
inductive CmpState where
  | free | assigned | quiesced | scrubbing | tainted
  deriving DecidableEq, Repr

/-- The code of a compartment state in CMP_STATE. -/
def CmpState.code : CmpState → Nat
  | .free => 0 | .assigned => 1 | .quiesced => 2 | .scrubbing => 3 | .tainted => 4

/-- The compartment state a code of CMP_STATE names. -/
def CmpState.ofCode : Nat → CmpState
  | 0 => .free | 1 => .assigned | 2 => .quiesced | 3 => .scrubbing | _ => .tainted

/-- The state of a compartment; the house compartment is always ASSIGNED (R29). -/
def State.cmpState (s : State) (c : Nat) : CmpState :=
  if c = 0 then .assigned else CmpState.ofCode (s.rd .CMP_STATE c)

/-- Set the state of a tenant compartment; the house compartment is never changed (R29). -/
def State.setCmpState (s : State) (c : Nat) (st : CmpState) : State :=
  if c = 0 then s else s.wr .CMP_STATE c st.code

/-- The intake of a compartment is open: it is ASSIGNED and no QUIESCE runs (R47, R48). -/
def State.intakeOpen (s : State) (c : Nat) : Bool :=
  s.cmpState c == .assigned && s.rd .CMP_INTAKE_CLOSED c == 0

/-- What a compartment holds. -/
def State.grants (s : State) (c : Nat) : Grants := s.cmp.grants.get Grants.none c

/-- Replace what a compartment holds. -/
def State.setGrants (s : State) (c : Nat) (g : Grants) : State :=
  { s with cmp := { s.cmp with grants := Tab.set s.cmp.grants Grants.none c g } }

/-- The tenant compartments. -/
def tenants : List Nat := span 1 31

/-- Every compartment. -/
def compartments : List Nat := List.range 32

/-- Configuration requests are answered with Request Retry Status: the junction is held in reset, no start has reached READY or fawn mode,
or a warm reset runs (R517, R521, R522, R608). -/
def State.retryStatus (s : State) : Bool :=
  !s.pins.pwrgood || decide (0 < s.boot.warmStep) || (s.rd .BOOT_READY 0 == 0 && s.rd .BOOT_FAWN 0 == 0)

/-- An IDE stream of a host port is Insecure; stream 0 is the link stream, 1 to 4 the selective streams. -/
def State.ideInsecure (s : State) (port stream : Nat) : Bool :=
  match s.sec.ide.find (8 * port + stream) with
  | some x => x.insecure
  | none => false

/-- Traffic of a function is blocked: its port's link stream, or the selective stream its interface is bound to, is Insecure (R556). -/
def State.ideBlocked (s : State) (fn : Nat) : Bool :=
  s.ideInsecure (portOf fn) 0 || (s.sec.ifStream.get 0 fn != 0 && s.ideInsecure (portOf fn) (s.sec.ifStream.get 0 fn))

/-- Memory requests to a function's BARs are turned away: while its configuration space cannot be reached, while the instance's reset runs
(R619), in fawn mode where it is an instance (R528), and while its IDE stream is Insecure. -/
def State.barsBlocked (s : State) (fn : Nat) : Bool :=
  s.retryStatus || (!isMgr fn && (s.rd .INS_RESET_BUSY fn == 1 || s.rd .BOOT_FAWN 0 == 1)) || s.ideBlocked fn

/-- Offsets of manager BAR0 that fawn mode provides (R528). -/
def State.fawnReach (s : State) (off : Nat) : Bool :=
  let within (lo n : Nat) : Bool := decide (lo ≤ off) && decide (off < lo + n)
  within 0 0x200000 || within 0x400000 0x2000 || within 0xC10000 0x2000 || within 0xC30000 0x10000 || within 0xD00000 0x30
    || within 0xE00000 0x100000 || within 0xF00000 0xC || within 0x6000000 0x1020 || within (0x300000 + 0x100 * s.secondaryFn) 0x100
    || within (0x7000000 + 0x1000 * s.secondaryFn) 0x1000

/-- A register cannot be reached: the function's BARs are blocked, or the register is one that fawn mode hides. -/
def State.closed (s : State) (fn off : Nat) : Bool :=
  s.barsBlocked fn || (s.rd .BOOT_FAWN 0 == 1 && isMgr fn && !s.fawnReach off)

/-! ### Rotating priority pointers (R622, R623) -/

/-- The claimants of a cyclic order of `n`, in rank order from the claimant the pointer names. -/
def rotate (n ptr : Nat) (claims : List Nat) : List Nat :=
  (List.range n).filterMap (fun k => let c := (ptr + k) % n; if claims.contains c then some c else none)

/-- The allocation points that hold a rotating pointer. -/
inductive Point where
  | allocator | incidents | object (i : Nat) | doorbell (n : Nat) | claim (v : Nat) | cpl (r : Nat)
  | remoteAlloc (c : Nat) | srq (q : Nat) | keyRevoke (c : Nat) | mailbox (c : Nat) | lane (c : Nat) | missTable (i : Nat)
  | walker (c : Nat) | ats (i : Nat) | slice (i : Nat) | opSlots | other (i : Nat)
  deriving DecidableEq, Repr

/-- The key of a pointer. -/
def Point.key : Point → Nat
  | .allocator => 0 | .incidents => 1 | .opSlots => 2
  | .object i => 16 + 16 * i | .doorbell i => 17 + 16 * i | .claim i => 18 + 16 * i | .cpl i => 19 + 16 * i
  | .remoteAlloc i => 20 + 16 * i | .srq i => 21 + 16 * i | .keyRevoke i => 22 + 16 * i | .mailbox i => 23 + 16 * i
  | .lane i => 24 + 16 * i | .missTable i => 25 + 16 * i | .walker i => 26 + 16 * i | .ats i => 27 + 16 * i
  | .slice i => 28 + 16 * i | .other i => 29 + 16 * i

/-- The claimant a pointer names; the first of its order after a reset (R623). -/
def State.ptr (s : State) (p : Point) : Nat := Tab.get s.reg.ptrs 0 p.key

/-- Order the claims that meet at a point: rotating order from its pointer, and the pointer advanced past the winner
when two or more claims tie (R622). -/
def State.arbitrate (s : State) (p : Point) (n : Nat) (claims : List Nat) : List Nat × State :=
  let ord := rotate n (s.ptr p) claims
  match ord with
  | a :: _ :: _ => (ord, { s with reg := { s.reg with ptrs := Tab.set s.reg.ptrs 0 p.key ((a + 1) % n) } })
  | _ => (ord, s)

/-! ### Events (chapter 7) -/

/-- Number of vectors of a function (R184). -/
def vecCount (fn : Nat) : Nat := if isMgr fn then 256 else 64

/-- The index of a vector in the vector register arrays. -/
def vecIx (fn v : Nat) : Nat := fn * 256 + v

/-- A source is bound: device sources to the primary manager function, the rest by their record; the mailbox source of
the primary manager's index is unowned (R184). -/
def State.srcBound (s : State) (n : Nat) : Bool :=
  if n = 0x40 + s.primaryFn then false else s.rd .EVT_SRC_BOUND n == 1

/-- The owner function of a source: sources 0x001 to 0x004 belong to the primary manager function (R184). -/
def State.srcOwner (s : State) (n : Nat) : Nat :=
  if 1 ≤ n && n ≤ 4 then s.primaryFn else s.rd .EVT_SRC_OWNER n

/-- The MSI-X entry of a function: its message is sent when MSI-X is enabled and the entry is not masked, and is
remembered in the pending bit array otherwise (R197, R616). -/
def State.msiSend (s : State) (fn e : Nat) : State :=
  let entry := s.evt.msix.get [0, 0, 0, 1] (fn * 256 + e)
  if s.evt.msixEn.contains fn && word entry 3 % 2 == 0 then s.emit .msix [fn, e]
  else { s with evt := { s.evt with msixPend := Tab.set s.evt.msixPend 0 (fn * 256 + e) 1 } }

/-- Send one message to each target of a vector whose bit is set (R197). -/
def State.deliverTargets (s : State) (fn v : Nat) : State :=
  let i := vecIx fn v
  let t := s.rd .EVT_TARGETS i
  let s := if bit t 0 then s.msiSend fn v else s
  let s := if bit t 1 then s.msiSend fn (s.rd .EVT_ALT1 i) else s
  let s := if bit t 2 then s.msiSend fn (s.rd .EVT_ALT2 i) else s
  let s := if bit t 3 then s.msiSend fn (s.rd .EVT_ALT3 i) else s
  (List.range 4).foldl (fun s c => if bit t (4 + c) && fn == s.primaryFn then s.emit .coreIrq [c, v] else s) s

/-- A delivery: the batch count becomes 0 and every target gets its message (R195, R197). -/
def State.deliver (s : State) (fn v : Nat) : State :=
  let i := vecIx fn v
  let s := match s.fnCmp fn with
    | some c => s.stat c 15 1
    | none => s
  (((s.wr .EVT_VEC_BATCH i 0).wr .EVT_VEC_HELD i 0).bump .EVT_VEC_DELIVERIES i 1).deliverTargets fn v

/-- The delivery condition of a vector is met: deliver, or hold while masked (R194, R196). -/
def State.deliverOrHold (s : State) (fn v : Nat) : State :=
  if s.rd .EVT_VEC_MASK (vecIx fn v) = 1 then s.wr .EVT_VEC_HELD (vecIx fn v) 1 else s.deliver fn v

/-- Add one raise to the batch of a vector, starting the batch at the present beat, and deliver when the count is
reached (R192, R194). -/
def State.vecRaise (s : State) (fn v : Nat) : State :=
  let i := vecIx fn v
  let s := if s.rd .EVT_VEC_BATCH i = 0 then
      { s with evt := { s.evt with batchStart := Tab.set s.evt.batchStart 0 i s.beat } } else s
  let s := s.bump .EVT_VEC_BATCH i 1
  if s.rd .EVT_COAL_COUNT i ≤ s.rd .EVT_VEC_BATCH i then s.deliverOrHold fn v else s

/-- A raise of a source (R192): counted, latched, and added to its vector when it is routed; discarded when the source
is not bound. -/
def State.raiseSrc (s : State) (n : Nat) : State :=
  if s.srcBound n then
    let s := if s.rd .EVT_COUNT n = 4095 then s.wr .EVT_SAT n 1 else s.wr .EVT_COUNT n (s.rd .EVT_COUNT n + 1)
    let s := s.wr .EVT_PENDING n 1
    if s.rd .EVT_SRC_ROUTED n = 1 then s.vecRaise (s.srcOwner n) (s.rd .EVT_SRC_VEC n) else s
  else s

/-- An internal occurrence raises a source in EDGE mode; a source in MESSAGE mode ignores it (R188). -/
def State.occur (s : State) (n : Nat) : State := if s.rd .EVT_SRC_SENSE n = 1 then s else s.raiseSrc n

/-! ### Asynchronous events (R460) -/

/-- The asynchronous event queue of a function. -/
def State.aeq (s : State) (fn : Nat) : List Nat := s.net.aeq.get [] fn

/-- The source of a function's asynchronous events is raised while its queue is not empty. -/
def State.aeqRaise (s : State) (fn : Nat) : State :=
  if s.rd .NET_AEQ_SRC_VALID fn = 1 && !(s.aeq fn).isEmpty then s.occur (s.rd .NET_AEQ_SRC fn) else s

/-- Post a record to the asynchronous event queue of a function; a full queue drops it. -/
def State.aeqPost (s : State) (fn code port obj seq : Nat) : State :=
  let q := s.aeq fn
  if q.length < 64 then
    ({ s with net := { s.net with aeq := Tab.set s.net.aeq [] fn (q ++ [put code 0 8 + put port 8 8 + put obj 16 16 + put seq 32 32]) } }).aeqRaise fn
  else s.wr .NET_AEQ_OVF fn 1

/-! ### Incidents (chapter 18) -/

/-- Severities (R496). -/
inductive Sev where
  | notice | degraded | job | device
  deriving DecidableEq, Repr

/-- The code of a severity. -/
def Sev.code : Sev → Nat
  | .notice => 0 | .degraded => 1 | .job => 2 | .device => 3

/-- The next value of the sequence counter (R494). -/
def seqAfter (n : Nat) : Nat := if n = 0xFFFFFFFF then 1 else n + 1

/-- The INC_LOST field of a severity: device ring. -/
def lostDev : Nat → Fld
  | 0 => .INC_LOST_NOTICE | 1 => .INC_LOST_DEGRADED | 2 => .INC_LOST_JOB | _ => .INC_LOST_DEVICE

/-- The INC_LOST field of a severity: compartment ring. -/
def lostCmp : Nat → Fld
  | 0 => .INC_CRING_LOST_NOTICE | 1 => .INC_CRING_LOST_DEGRADED | 2 => .INC_CRING_LOST_JOB
  | _ => .INC_CRING_LOST_DEVICE

/-- Put a record in the posting queue of the device ring, or count it as lost when the queue is full (R501). -/
def State.enqDev (s : State) (r : Incident) : State :=
  if s.inc.devQ.length < 256 then { s with inc := { s.inc with devQ := s.inc.devQ ++ [r] } }
  else s.bump (lostDev r.severity) 0 1

/-- Put a record in the posting queue of a compartment ring, or count it as lost (R501). -/
def State.enqCmp (s : State) (c : Nat) (r : Incident) : State :=
  let q := s.inc.cmpQ.get [] c
  if q.length < 64 then { s with inc := { s.inc with cmpQ := Tab.set s.inc.cmpQ [] c (q ++ [r]) } }
  else s.bump (lostCmp r.severity) c 1

/-- An incident to be posted: code, severity on the device ring and on the compartment rings, the compartments
concerned, whether a copy goes to each compartment ring and to the device ring, and payload words 1 to 5. -/
structure Post where
  code  : Nat
  sev   : Sev
  cSev  : Sev
  cmps  : List Nat := []
  toC   : Bool := false
  toD   : Bool := true
  unit  : Nat := 0
  obj   : Nat := 0
  args  : List Nat := []
  cause : Option Nat := none
  raw   : Option (List Nat) := none

/-- Payload words 1 to 7 of a record (R495): the common payload, or the words of its own format with the cause link in
word 6. -/
def Post.payload (p : Post) (beat : Nat) : List Nat :=
  let causeW := match p.cause with
    | some q => q % 2 ^ 32 + 2 ^ 32
    | none => 0
  match p.raw with
  | some ws => ws
  | none =>
    [put p.unit 0 8 + put p.obj 16 16, word p.args 0, word p.args 1, word p.args 2, word p.args 3, causeW, beat]

/-- The compartments that may receive a copy: ASSIGNED or QUIESCED tenants (R497). -/
def State.liveTenants (s : State) : List Nat :=
  tenants.filter (fun c => s.cmpState c == .assigned || s.cmpState c == .quiesced)

/-- Post one record with the next sequence number: a JOB incident goes to both rings where a compartment is concerned, a
DEVICE incident to the device ring (R494, R497).  Returns the number. -/
def State.postOne (s : State) (p : Post) : Nat × State :=
  let seq := s.rd .INC_SEQ_NEXT 0
  let toC := (p.toC || decide (p.cSev = .job)) && !p.cmps.isEmpty && !(decide (p.cSev = .device) && p.code != 0x0D02)
  let toD := p.toD || decide (p.sev = .job) || decide (p.sev = .device && p.code ≠ 0x0D02) || !toC
  let pay := p.payload s.beat
  let only := match p.cmps with
    | [c] => some c
    | _ => none
  let s := s.wr .INC_SEQ_NEXT 0 (seqAfter seq)
  let s := if toD then s.enqDev ⟨p.code, p.sev.code, toC && toD, only, seq, pay⟩ else s
  let s := if toC then
      p.cmps.foldl (fun s c => s.enqCmp c ⟨p.code, p.cSev.code, toC && toD, some c, seq, pay⟩) s
    else s
  (seq, { s with inc := { s.inc with recent := s.inc.recent ++ [(seq, p.code, p.unit, p.obj)] } })

/-- Functions bound to the listed compartments. -/
def State.boundTo (s : State) (cs : List Nat) : List Nat :=
  (List.range 128).filter (fun fn => !isMgr fn && s.rd .INS_BOUND fn == 1 && cs.contains (s.rd .INS_CMP fn))

/-- The effects every DEVICE incident has beside its record: INC_DEVICE_PENDING, a DEVICE_FAULT record with it as cause in the ring of
every tenant that is ASSIGNED or QUIESCED, and DEVICE_FATAL for their functions (R460, R497, R503). -/
def State.deviceEffects (s : State) (seq : Nat) : State :=
  let s := s.wr .INC_DEVICE_PENDING 0 1
  match s.liveTenants with
  | [] => s
  | cs =>
    let r := s.postOne { code := 0x0D02, sev := .device, cSev := .device, cmps := cs, toC := true, toD := false, cause := some seq }
    (s.boundTo cs).foldl (fun s fn => s.aeqPost fn 7 0 0 r.1) r.2

/-- Post an incident (R493 to R498, R503). -/
def State.postQ (s : State) (p : Post) : Nat × State :=
  let r := s.postOne p
  if p.sev = .device then (r.1, r.2.deviceEffects r.1) else r

/-- Post an incident, its number not needed. -/
def State.post (s : State) (p : Post) : State := (s.postQ p).2

/-- A device-ring incident. -/
def devInc (code : Nat) (sev : Sev) (unit obj : Nat) (args : List Nat) : Post :=
  { code := code, sev := sev, cSev := sev, unit := unit, obj := obj, args := args }

/-- A device-ring incident that concerns one compartment: its record names it (R497). -/
def onCmp (c : Nat) (p : Post) : Post := { p with cmps := [c] }

/-- An incident of one compartment that goes to its ring and the device ring. -/
def bothInc (code : Nat) (sev : Sev) (c : Option Nat) (unit obj : Nat) (args : List Nat) : Post :=
  { code := code, sev := sev, cSev := sev, cmps := c.toList, toC := true, unit := unit, obj := obj, args := args }

/-- An incident of one compartment that goes to its ring only (its JOB form goes to both). -/
def cmpInc (code : Nat) (sev : Sev) (c : Nat) (unit obj : Nat) (args : List Nat) : Post :=
  { code := code, sev := sev, cSev := sev, cmps := [c], toC := true, toD := false, unit := unit, obj := obj,
    args := args }

/-- A frame counter of an incident kind: true while fewer than `limit` have been posted in this frame for `key`. -/
def State.underLimit (s : State) (key limit : Nat) : Bool := decide (s.inc.frame.get 0 key < limit)

/-- Count one incident of a limited kind in this frame. -/
def State.countFrame (s : State) (key : Nat) : State :=
  { s with inc := { s.inc with frame := Tab.set s.inc.frame 0 key (s.inc.frame.get 0 key + 1) } }

/-- Post an incident of a kind with a limit per frame; past the limit nothing is posted. -/
def State.postLimited (s : State) (key limit : Nat) (p : Post) : State :=
  if s.underLimit key limit then (s.countFrame key).post p else s.countFrame key

/-- FOREIGN_ORDER: the order is dropped and reported (R94). -/
def State.foreignOrder (s : State) (fn off code : Nat) : State :=
  (s.post (devInc 0x0001 .notice (portOf fn) fn [off, code])).bump .HST_FOREIGN_COUNT 0 1

/-! ### The clamp log (R17, R526, R527) -/

/-- Enter a clamp in the log, raise event source 0x002, or count the drop and report the first one (R527). -/
def State.logClamp (s : State) (e : ClampEntry) : State :=
  if s.reg.clamp.length < 64 then
    ({ s with reg := { s.reg with clamp := s.reg.clamp ++ [{ e with beat := s.beat }] } }).occur 2
  else
    let first := s.rd .BOOT_CLAMP_DROPPED 0 = 0
    let s := s.bump .BOOT_CLAMP_DROPPED 0 1
    if first then s.post (devInc 0x0E03 .notice 0 0 [1]) else s

/-! ### Memory -/

/-- Tier-one capacity: 8 stacks of 48 GiB (chapter 1). -/
def t1Bytes : Nat := 384 * 2 ^ 30

/-- First address of tier two. -/
def t2Base : Nat := 0x40000000000

/-- Tier-two capacity. -/
def t2Bytes : Nat := 4096 * 2 ^ 30

/-- An address of accelerator memory. -/
def isAcc (a : Nat) : Bool := decide (a < t1Bytes) || (decide (t2Base ≤ a) && decide (a < t2Base + t2Bytes))

/-- Every granule of an extent is bound to the compartment. -/
def State.inGranules (s : State) (c a n : Nat) : Bool :=
  let g := s.grants c
  if a < t1Bytes then (span (a / 2 ^ 30) ((a + n - 1) / 2 ^ 30 - a / 2 ^ 30 + 1)).all (fun k => g.t1.contains k)
  else (span ((a - t2Base) / 2 ^ 30) ((a + n - 1 - t2Base) / 2 ^ 30 - (a - t2Base) / 2 ^ 30 + 1)).all
    (fun k => g.t2.contains k)

/-- The extent lies in granules bound to the compartment (R232). -/
def State.ownsExtent (s : State) (c a n : Nat) : Bool := isAcc a && isAcc (a + n - 1) && s.inGranules c a n

/-- What a byte nothing has written reads as. -/
def emptyByte : Byte := 0

/-- One byte of a memory. -/
def Mem.byte (m : List Host.Cell) (a : Nat) : Byte := Tab.get m emptyByte a

/-- Write one byte. -/
def Mem.set (m : List Host.Cell) (a : Nat) (b : Byte) : List Host.Cell := Tab.set m emptyByte a b

/-- Read `n` bytes from an address up. -/
def Mem.read (m : List Host.Cell) (a : Nat) : Nat → List Byte
  | 0 => []
  | n + 1 => Mem.byte m a :: Mem.read m (a + 1) n

/-- Write bytes from an address up. -/
def Mem.write (m : List Host.Cell) (a : Nat) : List Byte → List Host.Cell
  | [] => m
  | b :: bs => Mem.write (Mem.set m a b) (a + 1) bs

/-- Canonical form of a memory. -/
def Memory.wf (m : List Host.Cell) : Bool := Tab.wf m emptyByte

/-- The 128-byte line of an address. -/
def lineOf (a : Nat) : Nat := a / 128

/-- The lines a span of bytes touches. -/
def linesOf (a n : Nat) : List Nat := if n = 0 then [] else span (lineOf a) (lineOf (a + n - 1) - lineOf a + 1)

/-- The host address of a port as a key of host memory. -/
def hostKey (port a : Nat) : Nat := port * 2 ^ 64 + a

/-- The expansion port of a tier-two line (R386). -/
def portOfLine (l : Nat) : Nat := (128 * l - t2Base) / 2 ^ 39

/-- A line lies in tier two. -/
def isT2Line (l : Nat) : Bool := decide (t2Base ≤ 128 * l)

/-- Some slice holds the line. -/
def State.lineCached (s : State) (l : Nat) : Bool := s.syc.sets.any (fun e => e.2.any (fun x => x.line == l))

/-- The line lies on an expansion port that is not ACTIVE, and no slice holds it (R391). -/
def State.lineLost (s : State) (l : Nat) : Bool :=
  isT2Line l && s.rd .EXP_STATE (portOfLine l) != 2 && !s.lineCached l

/-- A line holds poison: marked, in the poison table of its expansion port, or on a port that is not ACTIVE (R391, R504, R506). -/
def State.linePoison (s : State) (l : Nat) : Bool :=
  s.mem.poison.contains l || (isT2Line l && (s.mem.t2Poison.get [] (portOfLine l)).contains l) || s.lineLost l

/-- Some line of the span holds poison (R504). -/
def State.poisoned (s : State) (a n : Nat) : Bool := (linesOf a n).any s.linePoison

/-- Mark a line poisoned, once. -/
def addOnce (xs : List Nat) (x : Nat) : List Nat := if xs.contains x then xs else xs ++ [x]

/-- Mark one line as poisoned: a tier-two line also enters the poison table of its port; a full table posts POISON_TABLE_FULL
(R506). -/
def State.poisonLine (s : State) (l : Nat) : State :=
  let s := { s with mem := { s.mem with poison := addOnce s.mem.poison l } }
  if !isT2Line l then s
  else
    let p := portOfLine l
    let tab := s.mem.t2Poison.get [] p
    if tab.contains l then s
    else if tab.length < 1024 then { s with mem := { s.mem with t2Poison := Tab.set s.mem.t2Poison [] p (tab ++ [l]) } }
    else s.post (devInc 0x0A04 .device p 0 [128 * l])

/-- Mark the lines of a span as poisoned. -/
def State.poisonLines (s : State) (ls : List Nat) : State := ls.foldl State.poisonLine s

/-- Mark lines of host memory as written with the EP bit (R505). -/
def State.hostPoisonLines (s : State) (ls : List Nat) : State :=
  { s with mem := { s.mem with hostPoison := ls.foldl addOnce s.mem.hostPoison } }

/-- The lines that a write covers whole lose their poison (R282, R506). -/
def State.cleanLines (s : State) (a n : Nat) : State :=
  let whole := (linesOf a n).filter (fun l => decide (a ≤ 128 * l) && decide (128 * l + 128 ≤ a + n))
  { s with mem := { s.mem with
      poison := s.mem.poison.filter (fun l => !whole.contains l)
      t2Poison := s.mem.t2Poison.mapVals (fun _ ls => ls.filter (fun l => !whole.contains l)) } }

/-- Write bytes to accelerator memory under a tier key: the bytes land, the lines carry the key, whole lines lose their
poison. -/
def State.accWrite (s : State) (key a : Nat) (bs : List Byte) : State :=
  let s := s.cleanLines a bs.length
  { s with mem := { s.mem with
      acc := Mem.write s.mem.acc a bs
      lineKey := (linesOf a bs.length).foldl (fun t l => Tab.set t 0 l key) s.mem.lineKey } }

/-- Write bytes to host memory. -/
def State.hostWrite (s : State) (port a : Nat) (bs : List Byte) : State :=
  { s with mem := { s.mem with host := Mem.write s.mem.host (hostKey port a) bs } }

end Sys2Proof.Machine
end

