-- ==== Sys2Proof/Machine/Breach.lean ====
section
/-! DEFINITION. Contracts as other units see them, and contract breaches (R86 to R90, R629). -/
namespace Sys2Proof.Machine

open Sys2Proof

/-- The ACTIVE contract of a compartment (R82). -/
def State.active (s : State) (c : Nat) : Option Contract := s.cmp.active.find c

/-- The STAGED contract of a compartment. -/
def State.stagedC (s : State) (c : Nat) : Option Contract := s.cmp.staged.find c

/-- The breach kinds of R86. -/
inductive Breach where
  | lateStart | deadlineMissed | translationLate | slotMissed | bufferEmpty | ringFull | revokedInSchedule
  | uncontractedPath | noContract | outOfSpan | overDemand
  deriving DecidableEq, Repr

/-- The code of a breach kind. -/
def Breach.code : Breach → Nat
  | .lateStart => 1 | .deadlineMissed => 2 | .translationLate => 3 | .slotMissed => 4 | .bufferEmpty => 5
  | .ringFull => 6 | .revokedInSchedule => 7 | .uncontractedPath => 8 | .noContract => 9 | .outOfSpan => 10
  | .overDemand => 11

/-- The severity of a breach kind. -/
def Breach.sev : Breach → Sev
  | .bufferEmpty | .revokedInSchedule | .noContract | .outOfSpan => .job
  | _ => .degraded

/-- Where and when a breach was met: path, engine, ring or stream or link, index, list index, expected and actual beats,
address and cause link. -/
structure BreachAt where
  path     : Nat := 0
  engine   : Nat := 0
  ring     : Nat := 0
  index    : Nat := 0
  list     : Option Nat := none
  expected : Nat := 0
  actual   : Nat := 0
  address  : Nat := 0
  cause    : Option Nat := none

/-- The payload of a CONTRACT_BREACH record (table "Breach payload"). -/
def breachPayload (kind sched : Nat) (b : BreachAt) (unlocked : Bool) : List Nat :=
  [put kind 0 8 + put b.path 8 8 + put b.engine 16 8 + put sched 32 32,
   put b.ring 0 16 + put b.index 16 16 + (match b.list with
     | some l => put l 32 16 + 2 ^ 48
     | none => 0),
   b.expected % 2 ^ 64, b.actual % 2 ^ 64, b.address % 2 ^ 64,
   (match b.cause with
     | some q => q % 2 ^ 32 + 2 ^ 32
     | none => 0) + 2 ^ 33 * b2n unlocked,
   0]

/-- The frame counter that limits DEGRADED breach records of a compartment (R89). -/
def breachKey (c : Nat) : Nat := 0x1000 + c

/-- Detect a breach: count it, and post its record unless the limit of DEGRADED records of the frame is reached (R86, R88,
R89). -/
def State.breach (s : State) (c : Nat) (k : Breach) (b : BreachAt) : State :=
  let s := ((s.bump .CMP_CTR_BREACH_FRAME c 1).bump .CMP_CTR_BREACH_TOTAL c 1).stat c 1 1
  let sched := match s.active c with
    | some t => t.schedId
    | none => 0
  let b := if k = .deadlineMissed || k = .slotMissed then { b with actual := 2 ^ 64 - 1 }
    else if k = .lateStart || k = .outOfSpan then b else { b with expected := 0, actual := s.beat }
  let p : Post := { code := 0x0102, sev := k.sev, cSev := k.sev, cmps := [c], toC := true, toD := decide (k.sev = .job),
                    raw := some (breachPayload k.code sched b (s.rd .PWR_BEAT_LOCKED 0 = 0)) }
  if k.sev = .job then s.post p
  else if s.underLimit (breachKey c) (s.rd .CMP_CTR_SUPPRESS c) then (s.countFrame (breachKey c)).post p
  else
    let s := s.wr .CMP_CTR_SUPPRESSING c 1
    { s with cmp := { s.cmp with suppressed := Tab.set s.cmp.suppressed 0 c (s.cmp.suppressed.get 0 c + 1) } }

/-- The engine code of an opcode (table "Engine codes"). -/
def engineOf (opcode : Nat) : Nat :=
  if opcode < 0x10 then 0 else if opcode < 0x20 then 1 else if opcode < 0x30 then 2 else if opcode < 0x40 then 3
  else if opcode < 0x50 then 4 else if opcode < 0x60 then 5 else 6

/-- The opcode of a descriptor. -/
def dOpcode (d : List Nat) : Nat := fld d 0 0 8

/-- The descriptor is INDICATIVE. -/
def dIndic (d : List Nat) : Bool := bit (word d 0) 8

/-- A cause incident of an operation: one posted since its start for a peer link, stack or ring it used (R90). -/
def State.causeOf (s : State) (o : Op) : Option Nat :=
  (s.inc.recent.filter (fun e => decide (o.startSeq ≤ e.1) &&
    ((decide (0x0B01 ≤ e.2.1) && decide (e.2.1 ≤ 0x0B06) && o.links.contains e.2.2.1)
      || (decide (0x0901 ≤ e.2.1) && decide (e.2.1 ≤ 0x0905) && o.links.contains (0x100 + e.2.2.1))
      || (decide (0x0301 ≤ e.2.1) && decide (e.2.1 ≤ 0x0303) && e.2.2.1 == o.ring && e.2.2.2 == o.fn)))).getLast?.map (·.1)

/-- The list index of an operation run from a command list. -/
def Op.listIdx (o : Op) : Option Nat :=
  match o.source with
  | .list _ i => some i
  | _ => none

/-- A breach of an operation, at most once for each kind (R87).  Returns the operation with the kind noted. -/
def State.opBreach (s : State) (o : Op) (k : Breach) (b : BreachAt) : Op × State :=
  if o.breaches.contains k.code || !dIndic o.desc then (o, s)
  else ({ o with breaches := o.breaches ++ [k.code] },
    s.breach o.cmp k { b with engine := engineOf (dOpcode o.desc), ring := o.ring, index := o.index, list := o.listIdx,
                              cause := s.causeOf o })

end Sys2Proof.Machine
end

