-- ==== Sys2Proof/Machine/Regs.lean ====
section
/-! DEFINITION. Register accesses: the address map (chapter 23), access codes (R14), register pairs (R11 to R13), set-up
limits and clamps (R17, R624), the seal lock (R15) and foreign orders (R94, R95). -/
namespace Sys2Proof.Machine

open Sys2Proof

/-! ### The address map -/

/-- Entries of a field array at a byte distance from its base: entry index, bit offset inside the register, bytes left
over. -/
def locate : List Dim → Nat → Nat → Nat → List (Nat × Nat × Nat)
  | [], rel, idx, b => [(idx, b, rel)]
  | d :: ds, rel, idx, b =>
    if d.bytes = 0 then (List.range d.count).flatMap (fun j => locate ds rel (idx * d.count + j) (b + d.bits * j))
    else if rel / d.bytes < d.count then locate ds (rel % d.bytes) (idx * d.count + rel / d.bytes) b
    else []

/-- A field found at a 32-bit register: its entry, its lowest bit there, and whether the register is the low or the
high half of a pair. -/
structure Hit where
  fld  : Fld
  idx  : Nat
  lo   : Nat
  high : Bool
  deriving DecidableEq, Repr

/-- Number of entries of a field array. -/
def FieldSpec.count (p : FieldSpec) : Nat := p.dims.foldl (fun n d => n * d.count) 1

/-- The hits of one field at an offset of its address space. -/
def hitsOf (perFn : Bool) (fn off : Nat) (f : Fld) : List Hit :=
  let p := f.spec
  if p.perFn != perFn || decide (off < p.base) then []
  else (locate p.dims (off - p.base) 0 0).filterMap (fun e =>
    let i := if perFn then fn * p.count + e.1 else e.1
    if e.2.2 = 0 then some ⟨f, i, p.lo + e.2.1, false⟩
    else if e.2.2 = 4 && p.pair then some ⟨f, i, p.lo + e.2.1, true⟩
    else none)

/-- The instance-space offset of a manager function's own registers (R611). -/
def ownOffset (off : Nat) : Option Nat :=
  if 0x400000 ≤ off ∧ off < 0x402000 then some (off - 0x400000 + 0x10000)
  else if 0xC10000 ≤ off ∧ off < 0xC12000 then some (off - 0xC10000 + 0x20000)
  else if 0xC30000 ≤ off ∧ off < 0xC40000 ∧ off < 0xC3F000 + 0x1000 then some (off - 0xC10000)
  else if 0xB80000 ≤ off ∧ off < 0xB80400 then some (off - 0xB80000 + 0x50000)
  else none

/-- The registers of a vector. -/
def Fld.isVector (f : Fld) : Bool := f.spec.perFn && decide (0x20000 ≤ f.spec.base) && decide (f.spec.base < 0x20020)

/-- Fields of the functions' own registers at an instance-space offset: the vector registers, or the others. -/
def ownHits (vec : Bool) (fn o : Nat) : List Hit := (Fld.all.filter (fun f => f.isVector == vec)).flatMap (hitsOf true fn o)

/-- The fields a function reaches at an offset of its BAR0 (R609, R611, R612). -/
def hits (fn off : Nat) : List Hit :=
  if isMgr fn then
    match ownOffset off with
    | some o => ownHits (decide (0xC10000 ≤ off) && decide (off < 0xC12000)) fn o
    | none => Fld.all.flatMap (hitsOf false fn off)
  else ownHits (decide (0x20000 ≤ off) && decide (off < 0x20800)) fn off

/-- The registers that an index of the secondary manager function has in the INS block. -/
def relayFields : List Fld :=
  [.INS_MB_HOLDER, .INS_MB_REPLY, .INS_MB_SEND_RELAY, .INS_MB_NEXT_SEQ, .INS_MB_NOTICE_SET, .INS_MB_DROPPED, .INS_MB_REPLY_REJECT,
   .INS_MB_RELAY_NOTICE]

/-- A register exists: the INS block has no entry for the primary manager function and a short one for the secondary, the relay's fields lie
there only, and event source 0 has no record. -/
def State.implemented (s : State) (h : Hit) : Bool :=
  let p := h.fld.spec
  if !p.perFn && decide (0x300000 ≤ p.base) && decide (p.base < 0x400000) then
    if isMgr h.idx then h.idx == s.secondaryFn && relayFields.contains h.fld
    else h.fld != .INS_MB_RELAY_NOTICE && h.fld != .INS_MB_SEND_RELAY
  else if !p.perFn && decide (0xC00000 ≤ p.base) && decide (p.base < 0xC10000) then h.idx != 0
  else true

/-- The registers a function finds at an offset. -/
def State.hits (s : State) (fn off : Nat) : List Hit := (Machine.hits fn off).filter s.implemented

/-- Ranges of manager BAR0 where a write is no device-wide order (R94, R609): those that take no write, INS, the mailbox array and the
accessing function's own ranges. -/
def notDeviceWide (off : Nat) : Bool :=
  let within (lo hi : Nat) : Bool := decide (lo ≤ off) && decide (off < hi)
  within 0 0x100000 || within 0x300000 0x400000 || (ownOffset off).isSome || within 0x402000 0x500000 || within 0xC1F100 0xC1F208
    || within 0x2008000 0x7080000

/-- Whether the writing function may write at an offset (R94, R95, R610). -/
def State.mayWrite (s : State) (fn off : Nat) : Bool :=
  if isMgr fn then
    if 0x300000 ≤ off ∧ off < 0x400000 then decide (portOf ((off - 0x300000) / 256) = portOf fn)
    else notDeviceWide off || fn == s.primaryFn
  else true

/-! ### Limits of set-up fields (R17, R624) -/

/-- The legal values of a set-up field given the values around it. -/
inductive Limit where
  | all
  | range (lo hi : Nat)
  | codes (ok : Bool) (instead : Nat)
  deriving DecidableEq, Repr

/-- The queue pair numbers of a compartment's blocks. -/
def State.qpRange (s : State) (c : Nat) : Nat × Nat :=
  let bs := (s.grants c).qpBlk
  match bs with
  | [] => (0, 0)
  | b :: rest => (512 * rest.foldl min b, 512 * rest.foldl max b + 511)

/-- How many queue pair numbers follow `q` without leaving the compartment's blocks. -/
def State.qpRun (s : State) (c q : Nat) : Nat :=
  let bs := (s.grants c).qpBlk
  (List.range 128).foldl (fun (acc : Nat × Bool) k =>
    if acc.2 && bs.contains (q / 512 + k) then
      (acc.1 + (if k = 0 then 512 - q % 512 else 512), true) else (acc.1, false)) (0, true) |>.1

/-- Limits stated in terms of other fields (R624).  `look` gives the value another field of the same write takes, or its
current value. -/
def State.crossLimit (s : State) (f : Fld) (i v : Nat) (look : Fld → Nat → Nat) : Limit :=
  match f with
  | .INS_ENABLE => .codes (v = 0 || s.rd .INS_BOUND i = 1) 0
  | .INS_QP_FIRST => let r := s.qpRange (s.rd .INS_CMP i); .range r.1 r.2
  | .INS_QP_COUNT => .range 0 (s.qpRun (s.rd .INS_CMP i) (s.rd .INS_QP_FIRST i))
  | .INS_QP_IND => .range 0 (s.rd .INS_QP_COUNT i)
  | .INS_PASID_COUNT => .range 0 (1048576 - s.rd .INS_PASID_BASE i)
  | .EVT_TARGETS => .codes (v < 16 || i / 256 = s.primaryFn) (v % 16)
  | .EVT_ALT1 => .range 0 (vecCount (i / 256) - 1)
  | .EVT_ALT2 => .range 0 (vecCount (i / 256) - 1)
  | .EVT_ALT3 => .range 0 (vecCount (i / 256) - 1)
  | .EVT_CPL_SRC => .codes (v = 0 || (s.srcBound v && s.srcOwner v = i / 64)) 0
  | .TRN_PC_QUOTA =>
    let others := (List.range 32).foldl (fun n c => if 32 * (i / 32) + c = i then n
      else n + look .TRN_PC_QUOTA (32 * (i / 32) + c)) 0
    .range 0 (min 64 (64 - others))
  | .SYC_WIN_PIN =>
    let others := (List.range 16).foldl (fun n w => if 16 * (i / 16) + w = i then n
      else n + s.rd .SYC_WIN_PIN (16 * (i / 16) + w)) 0
    .range 0 (8 - others)
  | .COH_WIN_HOST_A => .codes (v = 0 || s.rd .CMP_SEALED (i / 8) = 0) 0
  | .COH_WIN_HOST_B => .codes (v = 0 || s.rd .CMP_SEALED (i / 8) = 0) 0
  | .STK_ACT_T2 => .range (s.rd .STK_ACT_T1 i + 1) 16777215
  | .STK_ACT_T3 => .range (s.rd .STK_ACT_T2 i + 1) 16777215
  | .STK_T_REF3 => .range (look .STK_T_REF2 0 + 1) 105
  | .STK_T_THR2 => .range (look .STK_T_THR1 0 + 1) 115
  | .STK_T_THR3 => .range (look .STK_T_THR2 0 + 1) 120
  | .STK_T_TRIP => .range (look .STK_T_THR3 0 + 1) 125
  | .NET_PORT_EN => .codes (v = 0 || !bit (s.rd .PWR_GATE_NET 0) i) 0
  | .PLK_TIME_ASYM =>
    if (0xF800 ≤ v ∧ v < 0x10000) ∨ v ≤ 0x7FF then .all
    else if v < 0x8000 ∨ 0x10000 ≤ v then .range 0 0x7FF else .range 0xF800 0xFFFF
  | .PLK_CMP_STREAM => .codes (i ≠ 0 || v = 0) 0
  | .PLK_CMP_STREAM_VALID => .codes (i ≠ 0 || v = 0) 0
  | .NET_PFC_PRIO_A => .codes (v ≠ look .NET_PFC_PRIO_B i) 3
  | .NET_PFC_PRIO_B => .codes (v ≠ look .NET_PFC_PRIO_A i) 4
  | .NET_PFC_XON => .range 0 (look .NET_PFC_XOFF i - 1)
  | .NET_CMP_PLAIN_OK => .codes (v = 0 || s.rd .CMP_SEALED (i / 2) = 0) 0
  | .NET_CMP_RXBUF =>
    let others := (List.range 32).foldl (fun n c => if 2 * c + i % 2 = i then n else n + s.rd .NET_CMP_RXBUF (2 * c + i % 2)) 0
    .range 16 (min 2048 (4096 - others))
  | .INC_CRING_READER => .codes (v = 0 || (s.rd .INS_BOUND v = 1 && s.rd .INS_CMP v = i)) 0
  | .PWR_T_CRIT => .range (look .PWR_T_WARN 0 + 1) 120
  | _ => .all

/-- The limit of a set-up field. -/
def State.limitOf (s : State) (f : Fld) (i v : Nat) (look : Fld → Nat → Nat) : Limit :=
  match f.spec.legal with
  | .any => if f == .NET_PORT_EN then s.crossLimit f i v look else .all
  | .between lo hi => .range lo hi
  | .oneOf cs => .codes (cs.contains v) (f.resetAt i)
  | .cross => s.crossLimit f i v look

/-- The value a set-up field takes, and whether the requested value was out of its range (`none`: in range; `some true`:
an unlisted encoding) (R17). -/
def Limit.apply (l : Limit) (v : Nat) : Nat × Option Bool :=
  match l with
  | .all => (v, none)
  | .range lo hi => let a := if hi < v then hi else if v < lo then min lo (max hi lo) else v
    (a, if a = v then none else some false)
  | .codes ok d => if ok then (v, none) else (d, some true)

/-- The field ID of the clamp log: the offset and the lowest bit of the field (R526). -/
def fieldId (off lo : Nat) : Nat := off % 2 ^ 27 + 2 ^ 27 * (lo % 32)

/-- Apply a set-up value to a field: limits, clamp log, and the write (R17). -/
def State.setUp (s : State) (source fn off : Nat) (f : Fld) (i lo v : Nat) (look : Fld → Nat → Nat) : State :=
  let r := (s.limitOf f i v look).apply v
  let s := match r.2 with
    | none => s
    | some u => s.logClamp ⟨fieldId off lo, source, fn, u, v, r.1, 0, false⟩
  s.wr f i r.1

/-! ### Writes -/

/-- The part is sealed (R561). -/
def State.sealedPart (s : State) : Bool := s.rd .SEC_LIFECYCLE 0 == 1

/-- Fields whose write is a command with a row of its own, so that REGISTER_WRITE leaves them alone. -/
def ownRow : Fld → Bool
  | .EVT_SRC_OWNER | .EVT_SRC_BOUND | .CON_VALUE | .PLK_LINK_EN | .PWR_GATE_PLK | .PWR_GATE_NET | .PWR_GATE_EXP
  | .PWR_GATE_SLICE | .PWR_ROOT_TIME | .SYC_WIN_PIN | .INC_DEVICE_PENDING => true
  | _ => false

/-- Ring set-up fields, writable only while their ring is DISABLED. -/
def cmdSetup : Fld → Bool
  | .RNG_BASE | .RNG_LOG2_SIZE | .RNG_LOC | .RNG_PASID_EN | .RNG_PASID | .RNG_CPL_RING | .RNG_MOOD | .RNG_TIMEOUT => true
  | _ => false

/-- Completion ring set-up fields. -/
def cplSetup : Fld → Bool
  | .RNG_CBASE | .RNG_CLOG2_SIZE | .RNG_CLOC | .RNG_CPASID_EN | .RNG_CPASID | .RNG_CPL_EVT_ALL => true
  | _ => false

/-- INS set-up fields that a locked TDISP interface protects (R101). -/
def tdispField : Fld → Bool
  | .INS_CMD_RINGS | .INS_CPL_RINGS | .INS_ENGINES | .INS_RING_MOOD | .INS_QP_FIRST | .INS_QP_COUNT | .INS_QP_IND
  | .INS_PASID_BASE | .INS_PASID_COUNT => true
  | _ => false

/-- Coherent window fields (R295). -/
def cohField : Fld → Bool
  | .COH_WIN_BASE | .COH_WIN_UNITS | .COH_WIN_HOST_A | .COH_WIN_HOST_B | .COH_WIN_NO_E | .COH_WIN_DPA => true
  | _ => false

/-- The TDISP interface of an instance is CONFIG_LOCKED or RUN (R101, R557). -/
def State.tdispLocked (s : State) (i : Nat) : Bool :=
  let t := s.sec.tdisp.get 0 i
  t == 1 || t == 2

/-- Why a write to a field is dropped by the rules of its chapter; `none` when it is taken. -/
def State.dropField (s : State) (fn : Nat) (f : Fld) (i : Nat) : Bool :=
  (cmdSetup f && s.rd .RNG_STATE i != 0) || (cplSetup f && s.rd .RNG_CSTATE i != 0)
    || (f == .RNG_MOOD && !isMgr fn)
    || (f == .SEC_CMP_AUTH && s.cmpState (i / 12) != .free)
    || (cohField f && (s.cmpState (i / 8) != .free && s.cmpState (i / 8) != .quiesced || s.rd .COH_WIN_BUSY (i / 8) == 1))
    || (tdispField f && s.tdispLocked i)

/-- RESET_RECORD of the last start, and FW_IMAGE_REJECTED of each image it rejected, are posted once the device ring is enabled (R518, R558). -/
def State.flushBoot (s : State) : State :=
  if s.rd .INC_DRING_STATE 0 = 0 then s
  else
    let s := s.boot.rejected.foldl (fun s slot => s.post (devInc 0x0F03 .notice slot 0 [])) s
    let s := match s.boot.record with
      | some r => s.post (devInc 0x0E01 .notice 0 0 [r.1, r.2])
      | none => s
    { s with boot := { s.boot with rejected := [], record := none } }

/-- Place of an incident ring is allowed (R499); in fawn mode the device ring lies in host memory (R528). -/
def State.incRingOk (s : State) (dev : Bool) (c : Nat) : Bool :=
  if dev then s.rd .INC_DRING_LOC 0 = 1 || s.rd .BOOT_FAWN 0 == 0 && s.ownsExtent 0 (s.rd .INC_DRING_BASE 0) 0x40000
  else s.rd .INC_CRING_LOC c = 1 || s.ownsExtent c (s.rd .INC_CRING_BASE c) 0x10000

/-- After a set-up write of an incident ring: a ring outside its granules has its enable bit applied as 0 and logged;
an enabled ring that was DISABLED runs; a disabled one stops (R499, R502). -/
def State.incRingUpdate (s : State) (source fn off : Nat) (dev : Bool) (c : Nat) : State :=
  let en := if dev then Fld.INC_DRING_EN else .INC_CRING_EN
  let stf := if dev then Fld.INC_DRING_STATE else .INC_CRING_STATE
  let s := if s.rd en c = 1 && !s.incRingOk dev c then
      (s.logClamp ⟨fieldId off 31, source, fn, true, 1, 0, 0, false⟩).wr en c 0 else s
  if s.rd en c = 0 then s.wr stf c 0
  else if s.rd stf c = 0 then
    let s := s.wr stf c 1
    if dev then s.flushBoot else s
  else s

/-- A field that a sealed part locks (R14, R15). -/
def State.locked (s : State) (f : Fld) : Bool := f.spec.access == .RWL && s.sealedPart

/-- What follows a field write. -/
def State.afterWrite (s : State) (source fn off : Nat) (f : Fld) (i : Nat) : State :=
  match f with
  | .INC_DRING_EN | .INC_DRING_LOC | .INC_DRING_BASE => s.incRingUpdate source fn off true 0
  | .INC_CRING_EN | .INC_CRING_LOC | .INC_CRING_BASE => s.incRingUpdate source fn off false i
  | .EVT_VEC_MASK =>
    if s.rd .EVT_VEC_MASK i = 0 && s.rd .EVT_VEC_HELD i = 1 then s.deliver (i / 256) (i % 256) else s
  | .EVT_CPL_SRC_VALID => if s.rd .EVT_CPL_SRC i = 0 then s.wr .EVT_CPL_SRC_VALID i 0 else s
  | .EVT_COAL_COUNT =>
    if 0 < s.rd .EVT_VEC_BATCH i && s.rd .EVT_COAL_COUNT i ≤ s.rd .EVT_VEC_BATCH i then s.deliverOrHold (i / 256) (i % 256) else s
  | _ => s

/-- The value a pending write gives another field of the same register; its current value otherwise (R624). -/
def State.look (s : State) (hs : List Hit) (val : Nat) (done : List Fld) (g : Fld) (j : Nat) : Nat :=
  match hs.find? (fun h => h.fld == g && h.idx == j) with
  | some h => if done.contains g then s.rd g j else bits val h.lo g.spec.width
  | none => s.rd g j

/-- Write one field of a register by its access code (R14). -/
def State.writeField (s : State) (source fn off : Nat) (hs : List Hit) (val : Nat) (done : List Fld) (h : Hit) : State :=
  let p := h.fld.spec
  let v := bits val h.lo p.width
  if h.fld == .SEC_CMP_AUTH && s.dropField fn h.fld h.idx then
    s.logClamp ⟨fieldId off h.lo, source, fn, false, v, s.rd h.fld h.idx, 0, false⟩
  else if ownRow h.fld || s.dropField fn h.fld h.idx || s.locked h.fld then s
  else match p.access with
  | .RW | .RWL =>
    let s := if p.setup then s.setUp source fn off h.fld h.idx h.lo v (s.look hs val done) else s.wr h.fld h.idx v
    s.afterWrite source fn off h.fld h.idx
  | .W1C => s.wr h.fld h.idx (s.rd h.fld h.idx - (if v = 0 then 0 else s.rd h.fld h.idx))
  | .WO => if h.fld == .SEC_DBG_RESPONSE then s.wr h.fld h.idx v
    else if (h.fld == .RNG_ORDER || h.fld == .RNG_CORDER) && decide (6 < v) then
      s.wr (if h.fld == .RNG_ORDER then .RNG_ORD_RESULT else .RNG_CORD_RESULT) h.idx 2
    else if (h.fld == .INS_ORD_CODE && (v = 0 || decide (6 < v))) || (h.fld == .INS_ORD_KIND && v = 3) then s.wr .INS_ORD_STATUS h.idx 2 else s
  | _ => s

/-- Insert a hit by its lowest bit. -/
def insertHit : List Hit → Hit → List Hit
  | [], h => [h]
  | x :: xs, h => if h.lo < x.lo then h :: x :: xs else x :: insertHit xs h

/-- Fields of one register, lowest bit first. -/
def sortHits (hs : List Hit) : List Hit := hs.foldl insertHit []

/-- Write every field of a register, in ascending bit order (R624). -/
def State.writeFields (s : State) (source fn off val : Nat) (hs : List Hit) : State :=
  (sortHits hs).foldl (fun (a : State × List Fld) h =>
    (a.1.writeField source fn off hs val a.2 h, h.fld :: a.2)) (s, []) |>.1

/-- A locked RWL field is among the hits (R15). -/
def State.lockedHit (s : State) (hs : List Hit) : Bool := hs.any (fun h => s.locked h.fld)

/-- The INS register of a locked TDISP interface is among the hits (R101). -/
def State.tdispHit (s : State) (hs : List Hit) : Bool := hs.any (fun h => tdispField h.fld && s.tdispLocked h.idx)

/-- Checks of a register write before any field is written: reset windows (R619), the writer (R94, R95), the seal, which is reported and
leaves the other fields of the register to the write (R14, R15), and TDISP (R101). -/
def State.guardWrite (s : State) (fn off val : Nat) (hs : List Hit) (k : State → State) : State :=
  if s.closed fn off || hs.isEmpty then s
  else if !s.mayWrite fn off then s.foreignOrder fn off 0
  else
    let s := if s.lockedHit hs then s.post (devInc 0x0002 .notice (portOf fn) fn [off, val]) else s
    if s.tdispHit hs then s.foreignOrder fn off 0 else k s

/-- The key of a staged or shadowed pair of a function. -/
def pairKey (fn off : Nat) : Nat := fn * 2 ^ 32 + off

/-- Stage the low half of a pair (R12, R13). -/
def State.stageLow (s : State) (fn off val : Nat) : State :=
  { s with reg := { s.reg with staged := Tab.put s.reg.staged (pairKey fn off) val } }

/-- Commit a pair: the staged low half, or the present low half where none is staged, with the written high half; the
reserved low bits of an address read as zero (R12). -/
def State.commitPair (s : State) (source fn off val : Nat) (h : Hit) : State :=
  let p := h.fld.spec
  let lowOff := off - 4
  let low := (s.reg.staged.find (pairKey fn lowOff)).getD (s.rd h.fld h.idx % 2 ^ 32)
  let v := (low + 2 ^ 32 * val) % 2 ^ p.width
  let v := v / 2 ^ p.lowRes * 2 ^ p.lowRes
  let s := { s with reg := { s.reg with staged := Tab.del s.reg.staged (pairKey fn lowOff) } }
  if ownRow h.fld || s.dropField fn h.fld h.idx || s.locked h.fld then s
  else match p.access with
  | .RW | .RWL =>
    let s := if p.setup then s.setUp source fn lowOff h.fld h.idx h.lo v s.rd else s.wr h.fld h.idx v
    s.afterWrite source fn lowOff h.fld h.idx
  | _ => s

/-- Instance functions write their mailbox buffer, managers the entries of the mailbox array (R102, R103): the holder
writes, any other write is dropped and counted. -/
def State.mailboxWrite (s : State) (fn idx w val : Nat) (sender : Bool) : State :=
  let holder := s.rd .INS_MB_HOLDER idx
  if holder = (if sender then 0 else 2) then
    { s with fns := { s.fns with mbox := Tab.set s.fns.mbox 0 (idx * 1024 + w) (val % 2 ^ 32) } }
  else s.bump .INS_MB_DROPPED idx 1

/-- The mailbox reached at an offset: index, 32-bit word, and whether the writer is its sender (R102). -/
def State.mailboxAt (s : State) (fn off : Nat) : Option (Nat × Nat × Bool) :=
  if isMgr fn then
    if 0x7000000 ≤ off ∧ off < 0x7080000 then
      let idx := (off - 0x7000000) / 0x1000
      some (idx, (off % 0x1000) / 4, decide (idx = fn))
    else none
  else if 0x1000 ≤ off ∧ off < 0x2000 then some (fn, (off - 0x1000) / 4, true) else none

/-- The server of a mailbox (R95, R102): the primary manager for the relay mailbox, else the manager of its port. -/
def State.server (s : State) (idx : Nat) : Nat := if idx = s.secondaryFn then s.primaryFn else 64 * portOf idx

/-- The MSI-X table entry and word at an offset (R616). -/
def msixAt (fn off : Nat) : Option (Nat × Nat) :=
  let rel := if isMgr fn then off - 0x6000000 else off - 0x60000
  let base := if isMgr fn then 0x6000000 else 0x60000
  if base ≤ off ∧ rel < 16 * vecCount fn then some (rel / 16, (rel % 16) / 4) else none

/-- Write one word of an MSI-X table entry; unmasking an entry with its pending bit set sends the message (R616). -/
def State.msixWrite (s : State) (fn e w val : Nat) : State :=
  let k := fn * 256 + e
  let entry := setAt (s.evt.msix.get [0, 0, 0, 1] k) w (val % 2 ^ 32)
  let s := { s with evt := { s.evt with msix := Tab.set s.evt.msix [0, 0, 0, 1] k entry } }
  if s.evt.msixPend.get 0 k = 1 && word entry 3 % 2 = 0 && s.evt.msixEn.contains fn then
    ({ s with evt := { s.evt with msixPend := Tab.set s.evt.msixPend 0 k 0 } }).emit .msix [fn, e]
  else s

/-- Consumer counts of incident rings move only by the rule of R132 and only for their reader (R500). -/
def State.consWrite (s : State) (fn : Nat) (h : Hit) (val : Nat) : State :=
  match h.fld with
  | .INC_DRING_CONS =>
    if fn = s.primaryFn && decide (diff32 (s.rd .INC_DRING_PROD 0) val ≤ 4096) then s.wr .INC_DRING_CONS 0 val else s
  | .INC_CRING_CONS =>
    let reader := if s.rd .INC_CRING_READER h.idx = 0 then s.primaryFn else s.rd .INC_CRING_READER h.idx
    if fn = reader && decide (diff32 (s.rd .INC_CRING_PROD h.idx) val ≤ 1024) then s.wr .INC_CRING_CONS h.idx val else s
  | _ => s

/-- The hits of a consumer count (R500). -/
def isCons (h : Hit) : Bool := h.fld == .INC_DRING_CONS || h.fld == .INC_CRING_CONS

end Sys2Proof.Machine
end

