-- ==== Sys2Proof/Machine/Cache.lean ====
section
/-! DEFINITION. The partitioned system cache (chapter 10): slices and sets, windows and pinned ways, allocation and
replacement, miss tables, maintenance.  Memory as `MemSt.acc` holds it is what a reader through the cache sees; a dirty line
keeps what the tier beneath it still holds. -/
namespace Sys2Proof.Machine

open Sys2Proof

/-! ### Homes and windows -/

/-- The slices of a compartment in ascending number. -/
def State.slicesOf (s : State) (c : Nat) : List Nat := ascending (s.grants c).slices

/-- The set of a local line number (R270). -/
def setOf (m : Nat) : Nat := bits m 0 10 ^^^ bits m 10 10 ^^^ bits m 20 10 ^^^ bits m 30 6

/-- The home of a line of a compartment: slice and set (R269, R270). -/
def State.home (s : State) (c line : Nat) : Option (Nat × Nat) :=
  let l := line % 2 ^ 36
  let k := (s.slicesOf c).length
  match (s.slicesOf c)[l % k]? with
  | some q => some (q, setOf (l / k))
  | none => none

/-- The key of a set. -/
def setKey (slice set : Nat) : Nat := 1024 * slice + set

/-- The valid tags of a set, least recent first. -/
def State.cset (s : State) (k : Nat) : List CLine := s.syc.sets.get [] k

/-- Replace the tags of a set. -/
def State.setCset (s : State) (k : Nat) (ls : List CLine) : State :=
  { s with syc := { s.syc with sets := Tab.set s.syc.sets [] k ls } }

/-- The index of a cache window in the window registers. -/
def winIx (c w : Nat) : Nat := 16 * c + w

/-- The window of a line (R272). -/
def State.windowOf (s : State) (c line : Nat) : Nat :=
  ((span 1 15).find? (fun w =>
    let i := winIx c w
    decide (0 < s.rd .SYC_WIN_UNITS i) && decide (s.rd .SYC_WIN_BASE i ≤ 128 * line)
      && decide (128 * line < s.rd .SYC_WIN_BASE i + s.rd .SYC_WIN_UNITS i * 2 ^ 21))).getD 0

/-- The pinned counts in force of a compartment's windows. -/
def State.pinsOf (s : State) (c : Nat) : List Nat := s.syc.pins.get [] c

/-- The window a way is pinned for, under given counts: from way 15 down in ascending window order (R274). -/
def pinOwner (pins : List Nat) (way : Nat) : Option Nat :=
  ((List.range 16).foldl (fun (a : Nat × Option Nat) w =>
    let n := pins.getD w 0
    (a.1 + n, if a.2.isNone && decide (a.1 ≤ 15 - way) && decide (15 - way < a.1 + n) then some w else a.2)) (0, none)).2

/-- Ways no allocation may use while a pinned-way flush runs (R276). -/
def State.closedWays (s : State) (c : Nat) : List Nat :=
  match s.syc.maint.find c with
  | some m => m.ways
  | none => []

/-- A tag hits: its line and its compartment are the request's (R271). -/
def CLine.is (x : CLine) (c line : Nat) : Bool := x.line == line && x.cmp == c

/-! ### Lines between cache and memory -/

/-- What memory holds of a line that is not dirty in the cache. -/
def State.beneath (s : State) (line : Nat) : Under :=
  ⟨Mem.read s.mem.acc (128 * line) 128, s.mem.lineKey.get 0 line, s.mem.poison.contains line⟩

/-- Discard dirty data: the line reads as memory beneath it again. -/
def State.discard (s : State) (line : Nat) (u : Under) : State :=
  { s with mem := { s.mem with
      acc := Mem.write s.mem.acc (128 * line) u.bytes
      lineKey := Tab.set s.mem.lineKey 0 line u.key
      poison := if u.poison then addOnce s.mem.poison line else s.mem.poison.filter (fun l => l != line) } }

/-- What the tier itself holds of a span, dirty lines of the cache not seen (R289): the byte at an address. -/
def State.tierByte (s : State) (c a : Nat) : Option Byte :=
  match s.home c (lineOf a) with
  | none => none
  | some (q, t) =>
    match (s.cset (setKey q t)).find? (fun x => x.is c (lineOf a)) with
    | some x => x.dirty.map (fun u => u.bytes.getD (a % 128) emptyByte)
    | none => none

/-- A dirty line is written back (R281); on an expansion port that is not ACTIVE the write is discarded and counted (R391). -/
def State.writeBack (s : State) (x : CLine) : State :=
  match x.dirty with
  | none => s
  | some u =>
    let s := s.bump .SYC_ST_WRITEBACKS x.cmp 1
    if isT2Line x.line && s.rd .EXP_STATE (portOfLine x.line) != 2 then (s.discard x.line u).bump .EXP_WR_DISCARD (portOfLine x.line) 1
    else s

/-- A line leaves the cache as a victim: a dirty line is written back, a clean one discarded (R281). -/
def State.evicted (s : State) (x : CLine) : State :=
  let s := s.bump (match x.cls with
    | 0 => .SYC_ST_EVICT_STREAM
    | 1 => .SYC_ST_EVICT_NORMAL
    | _ => .SYC_ST_EVICT_PERSIST) x.cmp 1
  s.writeBack x

/-- Open misses of a line become STALE (R284). -/
def State.staleMiss (s : State) (c line : Nat) (but : Option Nat) : State :=
  { s with syc := { s.syc with misses := s.syc.misses.map (fun (m : Miss) =>
      if m.cmp == c && m.line == line && some m.id != but then { m with stale := true } else m) } }

/-! ### Placement (R278, R279) -/

/-- The way a miss takes in a set and the tag it replaces, if the line is placed. -/
def placeWay (pins : List Nat) (closed : List Nat) (quota win cls : Nat) (ls : List CLine) : Option (Nat × Option CLine) :=
  let open' := (List.range 16).filter (fun w => !closed.contains w)
  let used (w : Nat) : Bool := ls.any (fun x => x.way == w)
  let free (w : Nat) : Bool := (pinOwner pins w).isNone
  let loose := ls.filter (fun x => free x.way && !closed.contains x.way)
  let mine := (ls.filter (fun x => free x.way && x.win == win))
  match open'.find? (fun w => pinOwner pins w == some win && !used w) with
  | some w => some (w, none)
  | none =>
    if quota = 0 then none
    else if quota ≤ mine.length then
      match mine.find? (fun x => !closed.contains x.way) with
      | some v => some (v.way, some v)
      | none => none
    else match open'.find? (fun w => free w && !used w) with
      | some w => some (w, none)
      | none =>
        let cands := loose.filter (fun x => decide (x.cls ≤ cls))
        let low := cands.foldl (fun m x => min m x.cls) 3
        match cands.find? (fun x => x.cls == low) with
        | some v => some (v.way, some v)
        | none => none

/-- Place a line that missed; false where it is not allocated. -/
def State.place (s : State) (c line : Nat) (dirty : Option Under) : Bool × State :=
  match s.home c line with
  | none => (false, s)
  | some (q, t) =>
    let k := setKey q t
    let win := s.windowOf c line
    let i := winIx c win
    let cls := min (s.rd .SYC_WIN_PERSIST i) 2
    match placeWay (s.pinsOf c) (s.closedWays c) (s.rd .SYC_WIN_QUOTA i) win cls (s.cset k) with
    | none => (false, s)
    | some (way, victim) =>
      let s := match victim with
        | some v => (s.evicted v).setCset k ((s.cset k).filter (fun x => x != v))
        | none => s
      let x : CLine := ⟨way, line, c, win, cls, dirty⟩
      (true, (s.setCset k (if cls = 0 then x :: s.cset k else s.cset k ++ [x])).staleMiss c line none)

/-- The tag a request hits. -/
def State.lookup (s : State) (c line : Nat) : Option (Nat × CLine) :=
  match s.home c line with
  | none => none
  | some (q, t) => ((s.cset (setKey q t)).find? (fun x => x.is c line)).map (fun x => (setKey q t, x))

/-- A hit: most recent when the request's mood is the present mood of the line's recorded window (R279); a write makes the
line dirty (R280). -/
def State.hitLine (s : State) (k : Nat) (x : CLine) (indic write : Bool) : State :=
  let y := if write && x.dirty.isNone then { x with dirty := some (s.beneath x.line) } else x
  let s := if write then s.staleMiss x.cmp x.line none else s
  if s.rd .SYC_WIN_MOOD (winIx x.cmp x.win) = b2n indic then s.setCset k ((s.cset k).filter (fun z => z != x) ++ [y])
  else s.setCset k ((s.cset k).map (fun z => if z == x then y else z))

/-- A miss may allocate (R277). -/
def State.mayAllocate (s : State) (c line : Nat) (indic nc : Bool) : Bool :=
  !nc && s.rd .SYC_WIN_MOOD (winIx c (s.windowOf c line)) == b2n indic

/-- The tag effects of one whole access to a line, its miss and its fill taken together; called before the data of a write
lands. -/
def State.touchLine (s : State) (c : Nat) (indic nc write : Bool) (line : Nat) : State :=
  match s.home c line with
  | none => s
  | some _ =>
    match s.lookup c line with
    | some (k, x) => (s.bump .SYC_ST_HITS c 1).hitLine k x indic write
    | none =>
      let s := s.bump .SYC_ST_MISSES c 1
      let s := if write then s.staleMiss c line none else s
      if s.mayAllocate c line indic nc then
        let r := s.place c line (if write then some (s.beneath line) else none)
        if r.1 then r.2 else r.2.bump .SYC_ST_NO_ALLOC c 1
      else s.bump .SYC_ST_NO_ALLOC c 1

/-- The tag effects of an access to a span. -/
def State.touch (s : State) (c : Nat) (indic nc write : Bool) (a n : Nat) : State :=
  (linesOf a n).foldl (fun s l => s.touchLine c indic nc write l) s

/-! ### Requests and fills one at a time (R269, R283, R284) -/

/-- Return data to a client port. -/
def State.returnData (s : State) (port a : Nat) (poison : Bool) (bs : List Byte) : State :=
  s.emit .data (port :: a :: b2n poison :: bs.map BitVec.toNat)

/-- The serial number of the key of a tier of a compartment, 0 when none is held. -/
def State.keyOf (s : State) (c tier : Nat) : Nat := if tier = 0 then s.sec.t1Key.get (1 + c) c else s.sec.t2Key.get (33 + c) c

/-- The serial number of the key a compartment reads and writes an address under: while a rotation is pending, the old key at and above the
boundary (R545). -/
def State.tierKey (s : State) (c a : Nat) : Nat :=
  let tier := if a < t1Bytes then 0 else 1
  match s.sec.rot.find (2 * c + tier) with
  | some (old, boundary) => if boundary ≤ a then old else s.keyOf c tier
  | none => s.keyOf c tier

/-- One byte of accelerator memory as compartment `c` reads it: what was written there under its present key, and a value
that depends only on key and address otherwise (R55). -/
def State.accByte (s : State) (c a : Nat) : Byte :=
  if s.mem.lineKey.get 0 (lineOf a) = s.tierKey c a then Mem.byte s.mem.acc a else Config.staleByte (s.tierKey c a) a

/-- Bytes of accelerator memory as compartment `c` reads them. -/
def State.accRead (s : State) (c a : Nat) : Nat → List Byte
  | 0 => []
  | n + 1 => s.accByte c a :: s.accRead c (a + 1) n

/-- A write by compartment `c` under its key, tags left alone; the lines of a tier-two port that is not ACTIVE take it only where a
slice holds them (R391). -/
def State.cmpWrite (s : State) (c a : Nat) (bs : List Byte) : State :=
  if (linesOf a bs.length).any s.lineLost then
    (linesOf a bs.length).foldl (fun s l =>
      let lo := max a (128 * l)
      let hi := min (a + bs.length) (128 * l + 128)
      if s.lineLost l then s.bump .EXP_WR_DISCARD (portOfLine l) 1
      else s.accWrite (s.tierKey c lo) lo ((bs.drop (lo - a)).take (hi - lo))) s
  else s.accWrite (s.tierKey c a) a bs

/-- Bytes an operand spells. -/
def toBytes (n : Nat) (ws : List Nat) : List Byte := (List.range n).map (fun i => BitVec.ofNat 8 (word ws i))

/-- Misses open in a slice. -/
def State.missCount (s : State) (slice : Nat) : Nat := (s.syc.misses.filter (fun m => m.slice == slice)).length

/-- Open a miss-table entry (R283). -/
def State.openMiss (s : State) (m : Miss) : State :=
  { s with syc := { s.syc with misses := s.syc.misses ++ [{ m with id := s.syc.serial }], serial := s.syc.serial + 1 } }

/-- One request of a client port reaches the home slice of its line (R269, R277 to R284, R288).  The request lies in one line of
the compartment's granules; a full miss table holds it for this cycle (R283). -/
def execSliceRequest (port cmp addr len : Nat) (write indic nc : Bool) (data : List Nat) (s : State) : Out :=
  let l := lineOf addr
  if len = 0 || l != lineOf (addr + len - 1) || !s.ownsExtent cmp addr len then .next s
  else match s.home cmp l with
    | none => .next s
    | some (q, _) =>
      if 256 ≤ s.missCount q then .next (s.bump .SYC_ST_MISS_HOLD cmp 1)
      else match s.lookup cmp l with
        | some (k, x) =>
          let s := (s.bump .SYC_ST_HITS cmp 1).hitLine k x indic write
          if write then .next (s.cmpWrite cmp addr (toBytes len data))
          else .next (s.returnData port addr (s.linePoison l) (s.accRead cmp addr len))
        | none =>
          let may := s.mayAllocate cmp l indic nc
          let s := s.bump .SYC_ST_MISSES cmp 1
          let s := if may then s else s.bump .SYC_ST_NO_ALLOC cmp 1
          let s := if write then s.staleMiss cmp l none else s
          if write && len == 128 then
            let r := if may then s.place cmp l (some (s.beneath l)) else (true, s)
            let s := if r.1 then r.2 else r.2.bump .SYC_ST_NO_ALLOC cmp 1
            .next (s.cmpWrite cmp addr (toBytes len data))
          else if write && !may then .next (s.cmpWrite cmp addr (toBytes len data))
          else
            .next (s.openMiss ⟨0, q, port, cmp, l, addr, len, may, indic, false, if write then some (toBytes len data) else none⟩)

/-- The bytes a fill brings from memory: what lies beneath a dirty line, and whether it is poison. -/
def State.fillData (s : State) (m : Miss) : Bool × List Byte :=
  match s.lookup m.cmp m.line with
  | some (_, x) =>
    match x.dirty with
    | some u => (u.poison, if u.key = s.tierKey m.cmp m.addr then (u.bytes.drop (m.addr % 128)).take m.len
        else (span m.addr m.len).map (Config.staleByte (s.tierKey m.cmp m.addr)))
    | none => (s.linePoison m.line, s.accRead m.cmp m.addr m.len)
  | none => (s.linePoison m.line, s.accRead m.cmp m.addr m.len)

/-- A fill returns from memory: its data goes to its requester; it is dropped at the tag, not placed as STALE, or placed
(R284).  The bytes of a partial write are never lost: they merge into the cached line, or go to memory. -/
def execFillReturn (slice id : Nat) (s : State) : Out :=
  match s.syc.misses.find? (fun m => m.id == id && m.slice == slice) with
  | none => .next s
  | some m =>
    let d := s.fillData m
    let s := { s with syc := { s.syc with misses := s.syc.misses.filter (fun x => x.id != id) } }
    let s := if m.bytes.isNone then s.returnData m.port m.addr d.1 d.2 else s
    match s.lookup m.cmp m.line with
    | some (k, x) =>
      let s := s.bump .SYC_ST_DUP_FILL m.cmp 1
      match m.bytes with
      | none => .next s
      | some bs =>
        let y := if x.dirty.isNone then { x with dirty := some (s.beneath x.line) } else x
        .next (((s.setCset k ((s.cset k).map (fun z => if z == x then y else z))).staleMiss m.cmp m.line none).cmpWrite m.cmp m.addr bs)
    | none =>
      let s :=
        if m.stale then s.bump .SYC_ST_STALE_FILL m.cmp 1
        else if m.place then
          let r := s.place m.cmp m.line (if m.bytes.isSome then some (s.beneath m.line) else none)
          if r.1 then r.2 else r.2.bump .SYC_ST_NO_ALLOC m.cmp 1
        else s
      match m.bytes with
      | some bs => .next ((s.staleMiss m.cmp m.line none).cmpWrite m.cmp m.addr bs)
      | none => .next s

/-! ### Maintenance (R290 to R292) -/

/-- The maintenance operations. -/
inductive MtOp where
  | fill | clean | invalidate | flush
  deriving DecidableEq, Repr

/-- The code of a maintenance operation. -/
def MtOp.code : MtOp → Nat
  | .fill => 1 | .clean => 2 | .invalidate => 3 | .flush => 4

/-- Clean, invalidate or flush one tag: the tag left, if any, whether its state changed, and the block. -/
def State.mtTag (s : State) (op : MtOp) (x : CLine) : Option CLine × Bool × State :=
  let back := s.writeBack x
  match op with
  | .fill => (some x, false, s)
  | .clean => (some { x with dirty := none }, x.dirty.isSome, back)
  | .flush => (none, true, back.staleMiss x.cmp x.line none)
  | .invalidate =>
    let s := match x.dirty with
      | some u => s.discard x.line u
      | none => s
    (none, true, s.staleMiss x.cmp x.line none)

/-- Apply an operation to the tags of a set that `p` selects. -/
def State.mtSet (s : State) (op : MtOp) (p : CLine → Bool) (k : Nat) : Nat × State :=
  let r := (s.cset k).foldl (fun (a : List CLine × Nat × State) x =>
    if p x then
      let m := a.2.2.mtTag op x
      (a.1 ++ m.1.toList, a.2.1 + b2n m.2.1, m.2.2)
    else (a.1 ++ [x], a.2.1, a.2.2)) ([], 0, s)
  (r.2.1, r.2.2.setCset k r.1)

/-- Apply an operation to every tag of the block that `p` selects. -/
def State.mtAll (s : State) (op : MtOp) (p : CLine → Bool) : Nat × State :=
  s.syc.sets.keys.foldl (fun (a : Nat × State) k =>
    let r := a.2.mtSet op p k
    (a.1 + r.1, r.2)) (0, s)

/-- Fill one line: placed as by a subjunctive read, the mood test skipped. -/
def State.mtFill (s : State) (c line : Nat) : Nat × State :=
  match s.lookup c line with
  | some _ => (0, s)
  | none =>
    let r := s.place c line none
    (b2n r.1, r.2)

/-- The lines of every granule of a compartment. -/
def State.granuleLines (s : State) (c : Nat) : List Nat :=
  ((s.grants c).t1.map (fun g => g * 2 ^ 30) ++ (s.grants c).t2.map (fun g => t2Base + g * 2 ^ 30)).flatMap
    (fun a => span (a / 128) (2 ^ 23))

/-- Start a maintenance operation: its effect on every line, reported at MAINTENANCE_DONE. -/
def State.maintain (s : State) (op : MtOp) (fn c : Nat) : State :=
  if s.closed fn (0x604010 + 0x20 * c) || !decide (c < 32) then s
  else if fn != s.primaryFn then s.foreignOrder fn (0x604010 + 0x20 * c) 0
  else if s.rd .SYC_MT_BUSY c = 1 then s.wr .SYC_MT_STATUS c 1
  else if s.rd .SYC_MT_OP c = 0 then s.wr .SYC_MT_STATUS c 3
  else if s.rd .SYC_MT_OP c != op.code then s
  else
    let a := s.rd .SYC_MT_ADDR c
    let n := s.rd .SYC_MT_LEN c
    if n != 0 && !s.ownsExtent c a n then s.wr .SYC_MT_STATUS c 2
    else
      let s := (s.wr .SYC_MT_STATUS c 0).wr .SYC_MT_BUSY c 1
      let r := match op with
        | .fill =>
          (if n = 0 then s.granuleLines c else linesOf a n).foldl (fun (x : Nat × State) l =>
            let y := x.2.mtFill c l
            (x.1 + y.1, y.2)) (0, s)
        | _ => s.mtAll op (fun x => x.cmp == c && (n == 0 || (decide (lineOf a ≤ x.line) && decide (x.line ≤ lineOf (a + n - 1)))))
      { r.2 with syc := { r.2.syc with maint := Tab.put r.2.syc.maint c ⟨false, r.1, [], []⟩ } }

/-- Maintenance FILL. -/
def execFill (fn cmp : Nat) (s : State) : Out := .next (s.maintain .fill fn cmp)
/-- Maintenance CLEAN. -/
def execClean (fn cmp : Nat) (s : State) : Out := .next (s.maintain .clean fn cmp)
/-- Maintenance INVALIDATE. -/
def execInvalidate (fn cmp : Nat) (s : State) : Out := .next (s.maintain .invalidate fn cmp)
/-- Maintenance FLUSH. -/
def execFlush (fn cmp : Nat) (s : State) : Out := .next (s.maintain .flush fn cmp)

/-- The end of a maintenance operation: SYC_MT_BUSY clears with the number of lines changed (R290, R291). -/
def execMaintenanceDone (cmp : Nat) (s : State) : Out :=
  match s.syc.maint.find cmp with
  | some m =>
    if m.pin then .next s
    else .next { ((s.wr .SYC_MT_BUSY cmp 0).wr .SYC_MT_LINES cmp m.lines) with syc := { s.syc with maint := Tab.del s.syc.maint cmp } }
  | none => .next s

/-- A write of SYC_WIN_PIN: dropped while the engine is busy; clamped; a change flushes every line in a way whose pinned
assignment changes (R276). -/
def execPinnedWayChange (fn cmp win value : Nat) (s : State) : Out :=
  let off := 0x60000C + 0x200 * cmp + 0x20 * win
  if s.closed fn off || !decide (cmp < 32) || !decide (win < 16) then .next s
  else if fn != s.primaryFn then .next (s.foreignOrder fn off 0)
  else if s.rd .SYC_MT_BUSY cmp = 1 then .next (s.wr .SYC_MT_STATUS cmp 1)
  else
    let old := (List.range 16).map (fun w => s.rd .SYC_WIN_PIN (winIx cmp w))
    let s := s.setUp 0 fn off .SYC_WIN_PIN (winIx cmp win) 16 (value % 16) s.rd
    let new := (List.range 16).map (fun w => s.rd .SYC_WIN_PIN (winIx cmp w))
    if new = old then .next s
    else
      let ways := (List.range 16).filter (fun w => pinOwner old w != pinOwner new w)
      let r := s.mtAll .flush (fun x => x.cmp == cmp && ways.contains x.way)
      .next { (r.2.wr .SYC_MT_BUSY cmp 1) with syc := { r.2.syc with maint := Tab.put r.2.syc.maint cmp ⟨true, r.1, ways, new⟩ } }

/-- The pinned-way flush completes: the new assignment takes effect (R276). -/
def execPinFlushDone (cmp : Nat) (s : State) : Out :=
  match s.syc.maint.find cmp with
  | some m =>
    if m.pin then
      .next { (s.wr .SYC_MT_BUSY cmp 0) with syc := { s.syc with maint := Tab.del s.syc.maint cmp, pins := Tab.put s.syc.pins cmp m.pins } }
    else .next s
  | none => .next s

/-- A warm reset ends a pinned-way flush: the old assignment stays and SYC_WIN_PIN returns to it (R276). -/
def State.endPinFlush (s : State) : State :=
  s.syc.maint.foldl (fun s e =>
    if e.2.pin then
      let old := s.pinsOf e.1
      let s := (List.range 16).foldl (fun s w => s.wr .SYC_WIN_PIN (winIx e.1 w) (old.getD w 0)) s
      { (s.wr .SYC_MT_BUSY e.1 0) with syc := { s.syc with maint := Tab.del s.syc.maint e.1 } }
    else s) s

/-- A cold reset: every tag invalid, no writeback (R293). -/
def State.coldCache (s : State) : State :=
  let s := s.syc.sets.foldl (fun s e => e.2.foldl (fun s x => match x.dirty with
    | some u => s.discard x.line u
    | none => s) s) s
  { s with syc := { s.syc with sets := [], misses := [], maint := [], pins := [] } }

/-- SCRUB empties a compartment's slices; their data ways are zeroed (R50 step 3, R293). -/
def State.scrubCache (s : State) (c : Nat) : State :=
  let s := (s.mtAll .invalidate (fun x => x.cmp == c)).2
  { s with syc := { s.syc with misses := s.syc.misses.filter (fun m => m.cmp != c) } }

end Sys2Proof.Machine
end

