-- ==== Sys2Proof/Machine/Translate.lean ====
section
/-! DEFINITION. Walked translation (chapter 9): granules and keys, range entries, page tables, the port and shared caches,
faults, and reading and writing through a translation. -/
namespace Sys2Proof.Machine

open Sys2Proof

/-! ### Faults -/

/-- What an access asks for (TRN_FR_ACCESS): read, write, atomic, fetch; `gather` is the table read of GATHER_REDUCE. -/
inductive Need where
  | read | write | atomic | fetch | gather
  deriving DecidableEq, Repr

/-- The code of an access in a fault record. -/
def Need.code : Need → Nat
  | .read => 0 | .write => 1 | .atomic => 2 | .fetch => 3 | .gather => 0

/-- A translation fault (table "Fault payload"). -/
structure Flt where
  reason : Nat
  va     : Nat
  need   : Need
  host   : Bool := false
  level  : Nat := 0xF
  entry  : Nat := 0
  addr   : Nat := 0
  range  : Option Nat := none
  pasid  : Option Nat := none
  denied : Bool := false
  deriving DecidableEq, Repr

/-- The status an operation ends with at a fault (R259). -/
def Flt.status (f : Flt) : Nat :=
  if f.reason = 4 || f.denied then 0x09 else if f.reason = 7 then 0x0A else 0x08

/-- The fault record (table "Fault payload", words 1 to 7). -/
def Flt.payload (f : Flt) (indic : Bool) (port func ring index : Nat) (list : Option Nat) : List Nat :=
  [put f.reason 0 8 + put (b2n f.host) 8 1 + put f.need.code 9 2 + put (b2n indic) 11 1 + put f.level 12 4
     + put port 16 8 + put func 24 7,
   f.va % 2 ^ 57, f.entry % 2 ^ 64,
   (match f.range with
     | some i => put i 0 13 + 2 ^ 16
     | none => 0) + (match f.pasid with
     | some q => put q 32 20 + 2 ^ 52
     | none => 0),
   put ring 0 16 + put index 16 16 + (match list with
     | some l => put l 32 16 + 2 ^ 48
     | none => 0),
   0, f.addr % 2 ^ 64]

/-- The frame counter of recorded NOTICE faults of a compartment (R260). -/
def faultKey (c : Nat) : Nat := 0x2000 + c

/-- The frame counter of NOTICE faults not recorded (R260). -/
def faultLostKey (c : Nat) : Nat := 0x3000 + c

/-- Post the TRANSLATION_FAULT of an operation (R259, R260). -/
def State.postFault (s : State) (c : Nat) (indic : Bool) (f : Flt) (port func ring index : Nat) (list : Option Nat) : State :=
  let s := s.bump .TRN_ST_FAULTS c 1
  let p : Post := { code := 0x0601, sev := if indic then .job else .notice, cSev := if indic then .job else .notice,
                    cmps := [c], toC := true, toD := indic, raw := some (f.payload indic port func ring index list) }
  if indic then s.post p
  else
    let s := s.bump .TRN_FAULT_FRAME c 1
    if s.underLimit (faultKey c) (s.rd .TRN_FAULT_LIMIT c) then (s.countFrame (faultKey c)).post p
    else s.countFrame (faultLostKey c)

/-! ### Range entries -/

/-- Fields of a range entry (R239). -/
def reBase (e : List Nat) : Nat := bits (word e 1) 21 36 * 2 ^ 21

/-- The extent of a range entry in bytes. -/
def reBytes (e : List Nat) : Nat := bits (word e 2) 0 20 * 2 ^ 21

/-- The output base of a range entry. -/
def reOut (e : List Nat) : Nat := word e 3 / 2 ^ 21 * 2 ^ 21

/-- The target of a range entry: 0 accelerator memory, 1 and 2 host ports. -/
def reTarget (e : List Nat) : Nat := fld e 0 9 2

/-- A range entry maps an address for a compartment (R240). -/
def reMaps (c va : Nat) (e : List Nat) : Bool :=
  bit (word e 0) 0 && fld e 0 16 5 == c && decide (reBase e ≤ va) && decide (va < reBase e + reBytes e)

/-- The translation a range entry gives. -/
def reTrans (i : Nat) (e : List Nat) : Trans :=
  let b := bit (word e 0)
  { cmp := fld e 0 16 5, base := reBase e, size := reBytes e, out := reOut e, r := b 2, w := b 3, a := b 4, nc := b 5,
    gr := b 6, pinInd := b 7 && b 8, target := reTarget e, func := fld e 0 24 7, range := some i, host := none }

/-- The range entry of a compartment for an address, lowest index first (valid entries of one compartment do not
overlap, R243). -/
def State.rangeFind (s : State) (c va : Nat) : Option Trans :=
  (s.xl.ranges.find? (fun e => reMaps c va e.2)).map (fun e => reTrans e.1 e.2)

/-- Word 0 of a range entry (TRN_FR_ENTRY of its faults). -/
def State.rangeWord (s : State) (r : Option Nat) : Nat :=
  match r with
  | some i => word (s.xl.ranges.get [] i) 0
  | none => 0

/-- Rights and attributes combine as R245 demands. -/
def attrsOk (t : Trans) : Bool :=
  (!t.gr || (t.nc && t.target == 0 && decide (t.out < t1Bytes)))
    && (!t.a || (t.r && t.w && !t.nc && t.target == 0))
    && (t.target == 0 || (t.nc && !t.a && !t.gr))

/-- An access has its right (R246). -/
def Trans.allows (t : Trans) : Need → Bool
  | .read => t.r | .fetch => t.r | .write => t.w | .atomic => t.a | .gather => t.r && t.gr

/-- Check the right of a translation that was cached or that a range entry gives (R246). -/
def State.rightCheck (s : State) (t : Trans) (va : Nat) (need : Need) : Except Flt Trans :=
  if t.allows need then .ok t
  else .error { reason := 4, va := va, need := need, level := (match t.range with
    | some _ => 0xE
    | none => 0xF), entry := s.rangeWord t.range, range := t.range }

/-- What a walk finds in the range entries: none, a fault, or a translation with the fault record that a missing right would have
(R232, R248, R255). -/
def State.rangeWalk (s : State) (c va : Nat) (indic : Bool) (need : Need) : Option (Except Flt (Trans × Flt)) :=
  (s.rangeFind c va).map (fun t =>
    let f : Flt := { reason := 4, va := va, need := need, level := 0xE, entry := s.rangeWord t.range, range := t.range }
    if indic && !t.pinInd then .error { f with reason := 6 }
    else if t.target = 0 && !s.ownsExtent c t.out t.size then .error { f with reason := 5 }
    else .ok (t, f))

/-- A translation and the fault record of a missing right: its right is checked (R246). -/
def leafRight (x : Trans × Flt) : Except Flt Trans := if x.1.allows x.2.need then .ok x.1 else .error x.2

/-! ### Page tables (R233 to R236) -/

/-- The index of an address at a level. -/
def ptIndex (va level : Nat) : Nat := bits va (12 + 9 * level) 9

/-- Bytes a leaf of a level maps. -/
def leafBytes (level : Nat) : Nat := 2 ^ (12 + 9 * level)

/-- Outcome of checking one page table entry (R235). -/
inductive PteCheck where
  | fault (reason : Nat)
  | table (base : Nat)
  | leaf (t : Trans)
  deriving DecidableEq, Repr

/-- The checks of R235 on the entry read for an address at a level. -/
def State.checkPte (s : State) (c va level e : Nat) : PteCheck :=
  let b := bit e
  let addr := bits e 12 31 * 2 ^ 12
  let contig := b 7 && level == 0
  let size := if contig then 2 ^ 16 else leafBytes level
  let out := if contig then addr - 4096 * (ptIndex va 0 % 16) else addr
  let reserved := bits e 8 4 != 0 || bits e 43 13 != 0 || (b 1 && (level == 4 || level == 3)) || (!b 1 && level == 0)
    || (b 7 && level != 0) || (!b 1 && bits e 2 6 != 0)
    || (b 1 && (out % size != 0 || decide (contig && addr < 4096 * (ptIndex va 0 % 16))))
  let t : Trans := { cmp := c, base := va / size * size, size := size, out := out, r := b 2, w := b 3, a := b 4,
                     nc := b 5, gr := b 6, pinInd := false, target := 0, func := 0, range := none, host := none }
  if !b 0 then .fault 1
  else if reserved then .fault 2
  else if b 1 && !attrsOk t then .fault 3
  else if b 1 then (if s.ownsExtent c out size then .leaf t else .fault 5)
  else if s.ownsExtent c addr 4096 then .table addr else .fault 5

/-- The page table walk below a table, levels `n-1` down to 0: the leaf, with the fault record that a missing right would have. -/
def State.walkFrom (s : State) (c va : Nat) (need : Need) : Nat → Nat → Except Flt (Trans × Flt)
  | 0, _ => .error { reason := 2, va := va, need := need }
  | n + 1, table =>
    let addr := table + 8 * ptIndex va n
    if s.poisoned addr 8 then .error { reason := 7, va := va, need := need, level := n, addr := addr }
    else
      let e := ofLE (s.accRead c addr 8)
      match s.checkPte c va n e with
      | .fault r => .error { reason := r, va := va, need := need, level := n, entry := e, addr := addr }
      | .table b => s.walkFrom c va need n b
      | .leaf t => .ok (t, { reason := 4, va := va, need := need, level := n, entry := e, addr := addr })

/-- The page table walk from TRN_ROOT (R232, R255). -/
def State.walkPages (s : State) (c va : Nat) (need : Need) : Except Flt (Trans × Flt) :=
  let root := s.rd .TRN_ROOT c
  if s.rd .TRN_ROOT_VALID c = 0 then .error { reason := 8, va := va, need := need }
  else if !s.ownsExtent c root 4096 then
    .error { reason := 5, va := va, need := need, level := 4, addr := root + 8 * ptIndex va 4 }
  else s.walkFrom c va need 5 root

/-! ### The caches (R250 to R254) -/

/-- A cached walked translation covers an address of a compartment. -/
def Trans.covers (t : Trans) (c va : Nat) : Bool := t.host.isNone && t.cmp == c && decide (t.base ≤ va) && decide (va < t.base + t.size)

/-- A cached translation overlaps a span. -/
def Trans.overlaps (t : Trans) (va n : Nat) : Bool := decide (t.base < va + n) && decide (va < t.base + t.size)

/-- A hit in a port translation cache, pinned entries included (R250). -/
def State.portHit (s : State) (port c va : Nat) : Option Trans :=
  match (s.xl.pinned.get [] port).find? (fun t => t.covers c va) with
  | some t => some t
  | none => (s.xl.port.get [] port).find? (fun t => t.covers c va)

/-- A hit in the shared translation cache: page leaves only (R254). -/
def State.sharedHit (s : State) (c va : Nat) : Option Trans := s.xl.shared.find? (fun t => t.covers c va)

/-- Drop the least recently used of a compartment's entries until at most `q` are left. -/
def trimCmp (c q : Nat) (ts : List Trans) : List Trans :=
  let mine := ts.filter (fun t => t.cmp == c)
  let drop := mine.length - q
  (ts.foldl (fun (a : List Trans × Nat) t =>
    if t.cmp == c && decide (0 < a.2) then (a.1, a.2 - 1) else (a.1 ++ [t], a.2)) ([], drop)).1

/-- A translation of the same extent for the same requests. -/
def Trans.same (t u : Trans) : Bool :=
  t.cmp == u.cmp && t.base == u.base && t.size == u.size && t.range == u.range
    && t.host.map (fun g => (g.fn, g.pasid)) == u.host.map (fun g => (g.fn, g.pasid))

/-- Place a translation in a port cache as its most recently used, the quota not looked at. -/
def State.pushPort (s : State) (port : Nat) (t : Trans) : State :=
  { s with xl := { s.xl with port := Tab.set s.xl.port [] port ((s.xl.port.get [] port).filter (fun u => !u.same t) ++ [t]) } }

/-- Drop the least recently used unpinned entries of a compartment at a port beyond its quota there (R251). -/
def State.trimPort (s : State) (port c : Nat) : State :=
  { s with xl := { s.xl with
      port := Tab.set s.xl.port [] port (trimCmp c (s.rd .TRN_PC_QUOTA (port * 32 + c)) (s.xl.port.get [] port)) } }

/-- Fill an unpinned place of a port cache within the compartment's quota there (R251). -/
def State.fillPort (s : State) (port : Nat) (t : Trans) : State := (s.pushPort port t).trimPort port t.cmp

/-- A hit makes an unpinned entry of a port cache its most recently used. -/
def State.portUse (s : State) (port : Nat) (t : Trans) : State :=
  if (s.xl.port.get [] port).contains t then s.pushPort port t else s

/-- A place is reserved for a range entry of a compartment at a port (R252). -/
def State.reservedAt (s : State) (port c : Nat) (r : Option Nat) : Bool :=
  match r with
  | some i => (s.xl.places.get [] port).contains (c, i)
  | none => false

/-- Fill a range translation: its pinned place where one is reserved, else an unpinned place (R255). -/
def State.fillRange (s : State) (port : Nat) (t : Trans) : State :=
  if s.reservedAt port t.cmp t.range then
    let ts := (s.xl.pinned.get [] port).filter (fun u => u != t)
    { s with xl := { s.xl with pinned := Tab.set s.xl.pinned [] port (ts ++ [t]) } }
  else s.fillPort port t

/-- The bank and set of a translation in its compartment's banks (R253). -/
def State.sharedSet (s : State) (t : Trans) : Nat :=
  (Config.sharedHash (t.base / t.size) (t.host.bind (·.pasid)) t.host.isSome).toNat % (64 * max 1 (s.grants t.cmp).slices.length)

/-- Fill the shared translation cache: 8 ways a set, in the banks of the compartment's slices (R253). -/
def State.fillShared (s : State) (t : Trans) : State :=
  if (s.grants t.cmp).slices.isEmpty then s
  else
    let ts := s.xl.shared.filter (fun u => !u.same t)
    let same := ts.filter (fun u => u.cmp == t.cmp && s.sharedSet u == s.sharedSet t)
    let ts := match same with
      | v :: _ => if 8 ≤ same.length then ts.filter (fun u => u != v) else ts
      | [] => ts
    { s with xl := { s.xl with shared := ts ++ [t] } }

/-- A whole walk done at once for a request that missed (R255). -/
def State.walkNow (s : State) (port c va : Nat) (indic : Bool) (need : Need) : Except Flt Trans × State :=
  let s := s.bump .TRN_ST_WALKS c 1
  match s.rangeWalk c va indic need with
  | some r =>
    let s := s.bump .TRN_ST_RANGE_HITS c 1
    match r with
    | .error f => (.error f, s)
    | .ok x => (leafRight x, s.fillRange port x.1)
  | none =>
    if indic then (.error { reason := 6, va := va, need := need }, s)
    else match s.walkPages c va need with
      | .error f => (.error f, s)
      | .ok x => (leafRight x, (s.fillShared x.1).fillPort port x.1)

/-- Translate one address at a client port (R255).  The Boolean is true when an indicative request missed its port cache:
the breach TRANSLATION_LATE. -/
def State.translate (s : State) (port c va : Nat) (indic : Bool) (need : Need) : Except Flt Trans × Bool × State :=
  match s.portHit port c va with
  | some t =>
    if indic && !t.pinInd then
      let r := (s.bump .TRN_ST_PORT_MISS c 1).walkNow port c va indic need
      (r.1, true, r.2)
    else (s.rightCheck t va need, false, s.portUse port t)
  | none =>
    let s := s.bump .TRN_ST_PORT_MISS c 1
    match (if indic then none else s.sharedHit c va) with
    | some t => (s.rightCheck t va need, false, s.fillPort port t)
    | none =>
      let r := s.walkNow port c va indic need
      (r.1, indic, r.2)

/-! ### Spans of memory -/

/-- One piece of a translated span: where it lies, its length, and how it is served. -/
structure Piece where
  target : Nat
  func   : Nat
  addr   : Nat
  len    : Nat
  nc     : Bool
  gr     : Bool
  deriving DecidableEq, Repr

/-- The pieces of a span of virtual addresses, up to its first fault; `fuel` bounds the number of pieces. -/
def State.mapSpan (s : State) (port c : Nat) (indic : Bool) (need : Need) :
    Nat → Nat → Nat → List Piece × Option Flt × Bool × State
  | 0, _, _ => ([], none, false, s)
  | fuel + 1, va, n =>
    if n = 0 then ([], none, false, s)
    else
      let r := s.translate port c va indic need
      match r.1 with
      | .error f => ([], some f, r.2.1, r.2.2)
      | .ok t =>
        let m := min n (t.base + t.size - va)
        let rest := r.2.2.mapSpan port c indic need fuel (va + m) (n - m)
        (⟨t.target, t.func, t.out + (va - t.base), m, t.nc, t.gr⟩ :: rest.1, rest.2.1, r.2.1 || rest.2.2.1, rest.2.2.2)

/-- Pieces enough for a span. -/
def spanFuel (n : Nat) : Nat := n / 4096 + 2

/-- The bytes of a piece as the compartment reads them. -/
def State.pieceRead (s : State) (c : Nat) (p : Piece) : List Byte :=
  if p.target = 0 then s.accRead c p.addr p.len else Mem.read s.mem.host (hostKey (p.target - 1) p.addr) p.len

/-- A piece holds poison. -/
def State.piecePoison (s : State) (p : Piece) : Bool :=
  if p.target = 0 then s.poisoned p.addr p.len
  else (linesOf (hostKey (p.target - 1) p.addr) p.len).any (fun l => s.mem.hostPoison.contains l)

/-- The copies of the lines of a span are cleared: CLEAR to every agent the snoop filter records, which leaves the entry (the
invalidating writes of the engines, R298, R315). -/
def State.clearCopies (s : State) (c a n : Nat) : State :=
  let hit := s.coh.filter.filter (fun e => decide (0 < n) && decide (lineOf a ≤ e.1) && decide (e.1 ≤ lineOf (a + n - 1)))
  hit.foldl (fun s e =>
    let hs := e.2.owner.toList ++ e.2.sharers
    let s := (s.bump .COH_ST_INV_WRITES c 1).bump .COH_ST_INV c hs.length
    let s := hs.foldl (fun s h => s.emit (if h < 32 then .coh else .cxl) [h, 0x13, 128 * e.1, 0, 0]) s
    { s with coh := { s.coh with filter := Tab.del s.coh.filter e.1 } }) s

/-- Write bytes over the pieces of a span, through the compartment's slices. -/
def State.piecesWrite (s : State) (c : Nat) (indic : Bool) : List Piece → List Byte → State
  | [], _ => s
  | p :: ps, bs =>
    let now := bs.take p.len
    let s := if p.target = 0 then ((s.clearCopies c p.addr now.length).touch c indic p.nc true p.addr now.length).cmpWrite c p.addr now
      else s.hostWrite (p.target - 1) p.addr now
    s.piecesWrite c indic ps (bs.drop p.len)

/-- The tag effects of reading the pieces of a span. -/
def State.touchPieces (s : State) (c : Nat) (indic : Bool) (ps : List Piece) : State :=
  ps.foldl (fun s p => if p.target = 0 then s.touch c indic p.nc false p.addr p.len else s) s

/-- The outcome of reading a whole record through a translation. -/
inductive ReadOut where
  | ok (bs : List Byte)
  | fault (f : Flt)
  | poison
  deriving DecidableEq, Repr

/-- Read a record at a virtual address of a compartment; `accOnly` refuses a translation to a host target (R626). -/
def State.vread (s : State) (port c : Nat) (indic : Bool) (need : Need) (accOnly : Bool) (va n : Nat) :
    ReadOut × Bool × State :=
  let r := s.mapSpan port c indic need (spanFuel n) va n
  match r.2.1 with
  | some f => (.fault f, r.2.2.1, r.2.2.2)
  | none =>
    if accOnly && r.1.any (fun p => p.target != 0) then (.fault { reason := 5, va := va, need := need }, r.2.2.1, r.2.2.2)
    else if r.1.any r.2.2.2.piecePoison then (.poison, r.2.2.1, r.2.2.2)
    else (.ok (r.1.flatMap (r.2.2.2.pieceRead c)), r.2.2.1, r.2.2.2.touchPieces c indic r.1)

/-- Read an ADMIN record: house address space, client port 0x08, subjunctive (R626). -/
def State.adminRead (s : State) (accOnly : Bool) (va n : Nat) : ReadOut × State :=
  let r := s.vread 0x08 0 false .read accOnly va n
  (r.1, r.2.2)

/-! ### Invalidation (R263, R265) -/

/-- A walk's address overlaps a span: its 4 KiB page. -/
def Walk.overlaps (w : Walk) (va n : Nat) : Bool := decide (w.va / 4096 * 4096 < va + n) && decide (va < w.va / 4096 * 4096 + 4096)

/-- Remove a compartment's cached walked translations that `p` selects, pinned places staying reserved and empty (R252,
R263); walks whose address is selected restart (R265). -/
def State.dropTrans (s : State) (p : Trans → Bool) (q : Walk → Bool) : State :=
  { s with xl := { s.xl with
      port := s.xl.port.mapVals (fun _ ts => ts.filter (fun t => !p t))
      pinned := s.xl.pinned.mapVals (fun _ ts => ts.filter (fun t => !p t))
      shared := s.xl.shared.filter (fun t => !p t)
      walks := s.xl.walks.map (fun w => if q w then { w with restart := true } else w) } }

/-- Invalidate a span of a compartment; length 0 is the whole address space (R263). -/
def State.invalidate (s : State) (c va n : Nat) : State :=
  let n := if n = 0 then 2 ^ 57 else n
  let va := if n = 2 ^ 57 then 0 else va
  (s.dropTrans (fun t => t.host.isNone && t.cmp == c && t.overlaps va n) (fun w => w.cmp == c && w.overlaps va n)).bump .TRN_ST_INV c 1

/-- Unpin a contract's preloaded entries: their places are given up and the entries leave the caches (R82, R252). -/
def State.unpin (s : State) (c : Nat) (pre : List (Nat × Nat)) (keep : List (Nat × Nat)) : State :=
  pre.foldl (fun s e =>
    let (r, port) := e
    if keep.contains e then s else
    { s with xl := { s.xl with
        places := Tab.set s.xl.places [] port ((s.xl.places.get [] port).filter (fun x => x != (c, r)))
        pinned := Tab.set s.xl.pinned [] port ((s.xl.pinned.get [] port).filter (fun t => !(t.cmp == c && t.range == some r))) } }) s

end Sys2Proof.Machine
end

