-- ==== Sys2Proof/Machine/HostXlate.lean ====
section
/-! DEFINITION. Host-served translation (chapter 8): what a function may ask of the host, the translations held for it, page
requests, and invalidation. -/
namespace Sys2Proof.Machine

open Sys2Proof

/-- What the host has written in a function's configuration space. -/
inductive Cfg where
  | ats | pri | pasid | pageAlloc | msix | vfEnable | numVfs
  deriving DecidableEq, Repr

/-- The number of a configuration item. -/
def Cfg.num : Cfg → Nat
  | .ats => 0 | .pri => 1 | .pasid => 2 | .pageAlloc => 3 | .msix => 4 | .vfEnable => 5 | .numVfs => 6

/-- The value of a configuration item; every enable is clear after reset. -/
def State.cfg (s : State) (fn : Nat) (k : Cfg) : Nat := s.fns.configs.get 0 (fn * 8 + k.num)

/-- Set a configuration item. -/
def State.setCfg (s : State) (fn : Nat) (k : Cfg) (v : Nat) : State :=
  { s with fns := { s.fns with configs := Tab.set s.fns.configs 0 (fn * 8 + k.num) v } }

/-- How a host-served address is reached. -/
inductive HostMap where
  /-- at this bus address, up to the end of the mapping -/
  | at (addr len : Nat)
  /-- not translated yet, or without the right: `have` when a translation is held -/
  | missing (have' : Bool)
  /-- the access is not issued (reason) -/
  | bad (reason : Nat)
  deriving DecidableEq, Repr

/-- A held translation serves a function, PASID and address from the caches or from a ring window. -/
def Held.covers (h : Held) (fn : Nat) (pasid win : Option Nat) (va : Nat) : Bool :=
  h.fn == fn && h.pasid == pasid && h.win == win && decide (h.base ≤ va) && decide (va < h.base + h.size)

/-- The right an access needs of a held translation (R213). -/
def Held.allows (h : Held) (write : Bool) : Bool := if write then h.w else h.r

/-- The cached form of a held translation. -/
def State.heldTrans (s : State) (h : Held) : Trans :=
  { cmp := (s.fnCmp h.fn).getD 0, base := h.base, size := h.size, out := h.out, r := h.r, w := h.w, a := h.r && h.w, nc := true, gr := false,
    pinInd := false, target := 1 + portOf h.fn, func := h.fn, range := none, host := some ⟨h.fn, h.pasid, h.u, h.global⟩ }

/-- The host-served translation a cached one is. -/
def Trans.held (t : Trans) : Option Held :=
  t.host.map (fun g => { fn := g.fn, pasid := g.pasid, base := t.base, size := t.size, out := t.out, r := t.r, w := t.w, u := g.u,
                         global := g.global, win := none, port := 0 })

/-- The host-served translations a request can use, in the order it looks: those of its ring window, else those of the cache of its
client port and of the shared cache (R212, R216). -/
def State.heldAt (s : State) (win : Option Nat) (port : Nat) : List Held :=
  match win with
  | some _ => s.ats.held
  | none => (s.xl.port.get [] port ++ s.xl.shared).filterMap Trans.held

/-- Where a host-served access goes (R209, R210, R213): with ATS off it is untranslated; else a held translation with its right serves
it. -/
def State.hostMapAt (s : State) (port fn : Nat) (pasid win : Option Nat) (va : Nat) (write : Bool) : HostMap :=
  if pasid.isSome && s.cfg fn .pasid = 0 then .bad 0x15
  else if s.cfg fn .ats = 0 then .at va (2 ^ 64)
  else
    let hs := (s.heldAt win port).filter (fun h => h.covers fn pasid win va)
    match hs.find? (fun h => h.allows write) with
    | none => .missing !hs.isEmpty
    | some h => if h.u then .at va (h.base + h.size - va) else .at (h.out + (va - h.base)) (h.base + h.size - va)

/-- Where a host-served access of a ring or of the MOVE engine (client port 0x09) goes. -/
def State.hostMap (s : State) (fn : Nat) (pasid win : Option Nat) (va : Nat) (write : Bool) : HostMap := s.hostMapAt 0x09 fn pasid win va write

/-- An access uses a cached host-served translation: the cache of its client port keeps it as most recently used, and one found only in
the shared cache is filled there. -/
def State.hostUse (s : State) (port fn : Nat) (pasid : Option Nat) (va : Nat) (write : Bool) : State :=
  let fits (t : Trans) : Bool := match t.held with
    | some h => h.covers fn pasid none va && h.allows write
    | none => false
  match (s.xl.port.get [] port).find? fits with
  | some t => s.pushPort port t
  | none => match s.xl.shared.find? fits with
    | some t => s.fillPort port t
    | none => s

/-! ### Translation requests (R211) -/

/-- Requests in the translation request table of a compartment on a host port. -/
def State.atsTable (s : State) (fn : Nat) : Nat :=
  (s.ats.reqs.filter (fun q => q.sent && portOf q.fn == portOf fn && s.fnCmp q.fn == s.fnCmp fn)).length

/-- Send a translation request. -/
def State.atsIssue (s : State) (q : AtsReq) : State :=
  let s := { s with ats := { s.ats with reqs := s.ats.reqs.replace q { q with sent := true, stale := false } } }
  (s.bump .TRN_ATS_REQS (portOf q.fn) 1).emit .host [portOf q.fn, 1, q.fn, q.pasid.getD 0, q.page]

/-- Send the requests that wait, in order, as far as their tables have a free entry: 32 for each compartment on each port. -/
def State.atsPump (s : State) : State :=
  (s.ats.reqs.filter (fun q => !q.sent)).foldl (fun s q => if 32 ≤ s.atsTable q.fn then s else s.atsIssue q) s

/-- Ask for the translation of a page: a request for the same function, PASID and page that is outstanding or waits is shared. -/
def State.atsRequest (s : State) (fn : Nat) (pasid win : Option Nat) (port va : Nat) : State :=
  let page := va / 4096 * 4096
  match s.ats.reqs.find? (fun q => q.fn == fn && q.pasid == pasid && q.page == page) with
  | some q => { s with ats := { s.ats with reqs := s.ats.reqs.replace q { q with users := if q.users.contains (win, port) then q.users else q.users ++ [(win, port)] } } }
  | none =>
    let q : AtsReq := { fn := fn, pasid := pasid, page := page, users := [(win, port)], stale := false, sent := false }
    State.atsPump { s with ats := { s.ats with reqs := s.ats.reqs ++ [q] } }

/-- Hold a translation: a ring window keeps its 16 newest entries (R216); the others enter the cache of their client port, the quota
there to be applied once the waiting accesses have used them, and the shared cache (R212). -/
def State.hold (s : State) (h : Held) : State :=
  match h.win with
  | none => (s.pushPort h.port (s.heldTrans h)).fillShared (s.heldTrans h)
  | some _ =>
    let rest := s.ats.held.filter (fun x => !(x.fn == h.fn && x.pasid == h.pasid && x.win == h.win && x.base == h.base && x.size == h.size))
    let mine := rest.filter (fun x => x.fn == h.fn && x.win == h.win)
    let rest := match mine with
      | old :: _ => if 16 ≤ mine.length then rest.filter (fun x => x != old) else rest
      | [] => rest
    { s with ats := { s.ats with held := rest ++ [h] } }

/-- Drop the held translations that `p` selects from the caches and the ring windows. -/
def State.dropHeld (s : State) (p : Held → Bool) : State :=
  let gone (t : Trans) : Bool := match t.held with
    | some h => p h
    | none => false
  { s with
    ats := { s.ats with held := s.ats.held.filter (fun h => !p h) }
    xl := { s.xl with port := s.xl.port.mapVals (fun _ ts => ts.filter (fun t => !gone t)), shared := s.xl.shared.filter (fun t => !gone t) } }

/-! ### Page requests (R217 to R220) -/

/-- Page requests outstanding for a function. -/
def State.prgCount (s : State) (fn : Nat) : Nat :=
  (s.ats.groups.filter (fun g => g.fn == fn)).foldl (fun n g => n + g.pages.length) 0

/-- The lowest PRG index a function does not use, 0 to 511 (R218). -/
def State.freePrg (s : State) (fn : Nat) : Option Nat :=
  (List.range 512).find? (fun i => !s.ats.groups.any (fun g => g.fn == fn && g.idx == i))

/-- Rounds an operation has taken for a page (R220). -/
def State.roundsOf (s : State) (op page : Nat) : Nat :=
  match s.ats.rounds.find? (fun e => e.1 == op && e.2.1 == page) with
  | some e => e.2.2
  | none => 0

/-- Count one more round of an operation for a page. -/
def State.addRound (s : State) (op page : Nat) : State :=
  let n := s.roundsOf op page + 1
  { s with ats := { s.ats with rounds := (s.ats.rounds.filter (fun e => !(e.1 == op && e.2.1 == page))) ++ [(op, page, n)] } }

/-- Whether a page of a function and PASID is requested already, or waits to be (R219). -/
def State.pageAsked (s : State) (fn : Nat) (pasid : Option Nat) (page : Nat) : Bool :=
  s.ats.groups.any (fun g => g.live && g.fn == fn && g.pasid == pasid && g.pages.contains page)
    || s.ats.prgWait.any (fun a => a.fn == fn && a.pasid == pasid && a.pages.contains page)

/-- Send the oldest waiting page requests of a function as a group under a free PRG index, where its allocation has room for them; a group
is no larger than the allocation, and pages beyond it go on waiting. -/
def State.prgSend (s : State) (fn : Nat) : Option State :=
  match s.ats.prgWait.find? (fun a => a.fn == fn), s.freePrg fn with
  | some a, some i =>
    let pages := a.pages.take (s.cfg fn .pageAlloc)
    if pages.isEmpty || decide (s.cfg fn .pageAlloc < s.prgCount fn + pages.length) then none
    else
      let s := { s with ats := { s.ats with
        prgWait := if a.pages.length ≤ pages.length then s.ats.prgWait.erase a
          else s.ats.prgWait.replace a { a with pages := a.pages.drop pages.length }
        groups := s.ats.groups ++ [({ fn := fn, idx := i, pasid := a.pasid, pages := pages, write := a.write, live := true } : PrgGroup)] } }
      some ((s.bump .TRN_PRG_SENT (portOf fn) 1).emit .host ([portOf fn, 2, fn, a.pasid.getD 0, i, b2n a.write] ++ pages))
  | _, _ => none

/-- Send waiting page requests of a function in request order, until one must go on waiting (R219). -/
def State.prgPump (s : State) (fn : Nat) : Nat → State
  | 0 => s
  | n + 1 => match s.prgSend fn with
    | some t => t.prgPump fn n
    | none => s

/-- Send what can be sent of a function's waiting page requests. -/
def State.prgGo (s : State) (fn : Nat) : State := s.prgPump fn (s.ats.prgWait.foldl (fun n a => n + a.pages.length) 0)

/-- Request pages that are not requested yet, as one group (R218, R219). -/
def State.pageRequest (s : State) (fn : Nat) (pasid : Option Nat) (pages : List Nat) (write : Bool) : State :=
  let pages := (pages.filter (fun p => !s.pageAsked fn pasid p)).take (s.rd .TRN_PRG_PAGES (portOf fn))
  if pages.isEmpty then s
  else State.prgGo { s with ats := { s.ats with prgWait := s.ats.prgWait ++ [⟨fn, pasid, pages, write⟩] } } fn

/-! ### Invalidation -/

/-- A held translation matches an invalidate request (R225). -/
def InvReq.hits (q : InvReq) (fn : Nat) (h : Held) : Bool :=
  h.fn == fn && (q.wide || (decide (h.base < q.base + q.size) && decide (q.base < h.base + h.size) &&
    (h.pasid == q.pasid || (q.global && q.pasid.isSome && h.global && h.pasid.isSome))))

/-- Remove every held translation an invalidate request matches; requests sent before it become stale (R215, R225). -/
def State.atsInvalidate (s : State) (fn : Nat) (q : InvReq) : State :=
  let s := s.dropHeld (q.hits fn)
  { s with ats := { s.ats with
      reqs := s.ats.reqs.map (fun r => if r.sent && r.fn == fn && (q.wide || (decide (r.page < q.base + q.size) && decide (q.base < r.page + 4096)
        && (r.pasid == q.pasid || q.global))) then { r with stale := true } else r) } }

/-- Forget everything held for a function: its translations and requests; its page request groups only wait for their
responses (R108 step 5, R222). -/
def State.atsForget (s : State) (fn : Nat) : State :=
  let s := s.dropHeld (fun h => h.fn == fn)
  State.atsPump { s with ats := { s.ats with
      reqs := s.ats.reqs.filter (fun q => q.fn != fn)
      groups := s.ats.groups.map (fun g => if g.fn == fn then { g with live := false } else g)
      prgWait := s.ats.prgWait.filter (fun a => a.fn != fn)
      reads := s.ats.reads.map (fun r => if r.fn == fn then { r with op := none } else r) } }

end Sys2Proof.Machine
end

