-- ==== Sys2Proof/Machine/Operands.lean ====
section
/-! DEFINITION. The operand forms: every field of the descriptor header and of the body of every opcode (R135, the body
tables of chapter 5), and the checks of R140 that need only the descriptor's words. -/
namespace Sys2Proof.Machine

open Sys2Proof

/-! ### Header (table "Descriptor header") -/

def dFence (d : List Nat) : Bool := bit (word d 0) 9
def dIrq (d : List Nat) : Bool := bit (word d 0) 10
def dFtz (d : List Nat) : Bool := bit (word d 0) 11
def dSat (d : List Nat) : Bool := bit (word d 0) 12
def dListCpl (d : List Nat) : Bool := bit (word d 0) 13
def dWaitCond (d : List Nat) : Nat := fld d 0 14 2
def dWaitObj (d : List Nat) : Nat := fld d 0 16 12
def dSigOp (d : List Nat) : Nat := fld d 0 28 2
def dSigObj (d : List Nat) : Nat := fld d 0 32 12
def dTag (d : List Nat) : Nat := fld d 0 48 16
def dStart (d : List Nat) : Nat := fld d 1 0 40
def dDeadline (d : List Nat) : Nat := fld d 1 40 24
def dWaitValue (d : List Nat) : Nat := word d 2
def dSigValue (d : List Nat) : Nat := word d 3

/-- The wait condition holds on a value (R136). -/
def waitHolds (cond w v : Nat) : Bool :=
  match cond with
  | 0 => true
  | 1 => decide (w ≤ v)
  | 2 => v == w
  | _ => (v &&& w) == w

/-- The value after a signal operation (R136). -/
def sigApply (op s v : Nat) : Nat :=
  match op with
  | 1 => (v + s) % 2 ^ 64
  | 2 => s % 2 ^ 64
  | 3 => v ||| s
  | _ => v

/-! ### Bodies -/

def mvSrc (d : List Nat) : Nat := word d 4
def mvDst (d : List Nat) : Nat := word d 5
def mvLen (d : List Nat) : Nat := fld d 6 0 32
def mvSrcHost (d : List Nat) : Bool := bit (word d 6) 32
def mvDstHost (d : List Nat) : Bool := bit (word d 6) 33
def mvPasid (d : List Nat) : Nat := fld d 7 0 20
def m2RowBytes (d : List Nat) : Nat := fld d 6 0 32
def m2Rows (d : List Nat) : Nat := fld d 6 32 24
def m2SrcStride (d : List Nat) : Nat := fld d 7 0 32
def m2DstStride (d : List Nat) : Nat := fld d 7 32 32
def atAddr (d : List Nat) : Nat := word d 4
def atOperand (d : List Nat) : Nat := word d 5
def atCompare (d : List Nat) : Nat := word d 6
def atOp (d : List Nat) : Nat := fld d 7 0 8
def atPlace (d : List Nat) : Nat := fld d 7 8 2
def atFmt (d : List Nat) : Nat := fld d 7 12 4
def grTable (d : List Nat) : Nat := word d 4
def grIndex (d : List Nat) : Nat := word d 5
def grOut (d : List Nat) : Nat := word d 6
def grCount (d : List Nat) : Nat := fld d 7 0 21
def grOp (d : List Nat) : Nat := fld d 7 21 3
def grInFmt (d : List Nat) : Nat := fld d 7 24 3
def grNarrow (d : List Nat) : Bool := bit (word d 7) 27
def grRowBytes (d : List Nat) : Nat := fld d 7 32 15
def xlVa (d : List Nat) : Nat := word d 4
def xlLen (d : List Nat) : Nat := word d 5
def xlPort (d : List Nat) : Nat := fld d 6 0 8
def xlPasid (d : List Nat) : Nat := fld d 6 8 20
def xlHost (d : List Nat) : Bool := bit (word d 6) 28
def rmLocal (d : List Nat) : Nat := word d 4
def rmRemote (d : List Nat) : Nat := word d 5
def rmLen (d : List Nat) : Nat := fld d 6 0 32
def rmKeyIndex (d : List Nat) : Nat := fld d 6 32 24
def rmKeyGen (d : List Nat) : Nat := fld d 6 56 8
def rmQp (d : List Nat) : Nat := fld d 7 0 16
def rmImmEn (d : List Nat) : Bool := bit (word d 7) 16
def rmImm (d : List Nat) : Nat := fld d 7 32 32
def raRemote (d : List Nat) : Nat := word d 4
def raOperand (d : List Nat) : Nat := word d 5
def raCompare (d : List Nat) : Nat := word d 6
def raOp (d : List Nat) : Nat := fld d 7 16 8
def raKeyIndex (d : List Nat) : Nat := fld d 7 32 24
def raKeyGen (d : List Nat) : Nat := fld d 7 56 8
def cnObj (d : List Nat) : Nat := fld d 4 0 12
def cnOp (d : List Nat) : Nat := fld d 4 12 2
def cnSlot (d : List Nat) : Nat := fld d 4 16 15
def cnTrigger (d : List Nat) : Bool := bit (word d 4) 32
def cnValue (d : List Nat) : Nat := word d 5
def cnFire (d : List Nat) : Nat := word d 6
def cnRing (d : List Nat) : Nat := fld d 7 0 6
def adPtr (d : List Nat) : Nat := word d 4
def adCmp (d : List Nat) : Nat := fld d 5 0 5
def adKind (d : List Nat) : Nat := fld d 5 8 8
def adOpId (d : List Nat) : Nat := fld d 5 32 32
def adArg0 (d : List Nat) : Nat := word d 6
def adArg1 (d : List Nat) : Nat := word d 7
def clAddr (d : List Nat) : Nat := word d 4
def clCount (d : List Nat) : Nat := fld d 5 0 17
def clHost (d : List Nat) : Bool := bit (word d 5) 17
def clPasid (d : List Nat) : Nat := fld d 5 32 20

/-! ### Opcodes (table "Opcodes") -/

/-- The opcode is listed (check 1 of R140). -/
def opcodeListed (o : Nat) : Bool :=
  [0x00, 0x01, 0x10, 0x11, 0x12, 0x13, 0x20, 0x30, 0x31, 0x32, 0x40, 0x41, 0x42, 0x43, 0x50, 0x51, 0x52, 0x53].contains o
    || (decide (0x60 ≤ o) && decide (o ≤ 0x6C))

/-- The bit of INS_ENGINES that permits an opcode; the ring front end needs none. -/
def engineBit (o : Nat) : Option Nat :=
  if o < 0x10 then none else if o < 0x20 then some 0 else if o < 0x30 then some 1 else if o < 0x40 then some 2
  else if o < 0x50 then some 3 else some 4

/-- The address is a 57-bit virtual address. -/
def va57 (a : Nat) : Bool := decide (a < 2 ^ 57)

/-- The client ports (table "Client ports", R249). -/
def clientPort (p : Nat) : Bool := [0, 1, 2, 3, 8, 9, 10, 11, 12].contains p

/-- Element bytes of an atomic format (R329); 0 where the code is reserved. -/
def atomBytes (f : Nat) : Nat :=
  match f with
  | 0 => 4 | 1 => 8 | 4 => 4 | 5 => 2 | 6 => 2 | 7 => 4 | 8 => 4 | _ => 0

/-- The operation and format are a listed pairing (R328, R329). -/
def atomPair (op f : Nat) : Bool :=
  (decide (1 ≤ op) && decide (op ≤ 0xA) && decide (f ≤ 1))
    || (decide (0x10 ≤ op) && decide (op ≤ 0x12) && (f == 4 || f == 5 || f == 6 || f == 7 || f == 8))

/-- The checks of R329 on operation, format, operand, comparand and address. -/
def atomOk (op f operand compare addr : Nat) : Bool :=
  atomPair op f && decide (operand < 2 ^ (8 * atomBytes f)) && addr % atomBytes f == 0
    && (if op = 0xA then decide (compare < 2 ^ (8 * atomBytes f)) else compare == 0)

/-- Element bytes of a gather input format. -/
def grElem (f : Nat) : Nat :=
  match f with
  | 0 => 4 | 1 => 2 | 2 => 2 | 3 => 1 | 4 => 4 | _ => 0

/-- Bytes of one output element: the input format when the output is narrowed, the 32-bit accumulator format otherwise
(R361). -/
def grOutElem (f : Nat) (narrow : Bool) : Nat := if narrow then grElem f else 4

/-- The row size rule of a format (table "Row layouts"): int8 rows carry a scale word before their elements. -/
def grRowOk (f n : Nat) : Bool :=
  decide (1 ≤ n) && decide (n ≤ 16384) &&
    (match f with
    | 0 => n % 4 == 0 | 1 => n % 2 == 0 | 2 => n % 2 == 0 | 3 => decide (3 ≤ n) | 4 => n % 4 == 0 | _ => false)

/-- The checks on a GATHER_REDUCE body (R143, R361). -/
def gatherOk (d : List Nat) : Bool :=
  va57 (grTable d) && va57 (grIndex d) && grIndex d % 8 == 0 && va57 (grOut d) && decide (grCount d ≤ 1048576)
    && decide (grOp d ≤ 5) && decide (grInFmt d ≤ 4) && (grOp d != 2 || grInFmt d != 4) && (!grNarrow d || decide (grInFmt d ≤ 2))
    && fld d 7 28 4 == 0 && fld d 7 47 17 == 0 && grRowOk (grInFmt d) (grRowBytes d)
    && grOut d % max 1 (grOutElem (grInFmt d) (grNarrow d)) == 0

/-- The checks on an XLATE body. -/
def xlateOk (op : Nat) (d : List Nat) : Bool :=
  va57 (xlVa d) && decide (xlLen d < 2 ^ 40) && fld d 6 29 35 == 0 && word d 7 == 0
    && (op != 0x31 || !xlHost d) && (op != 0x32 || xlLen d == 0) && (op != 0x30 || clientPort (xlPort d))

/-- The checks on a CONCORD body. -/
def concordOk (op : Nat) (d : List Nat) : Bool :=
  fld d 4 14 2 == 0 && fld d 4 31 1 == 0 && fld d 4 33 31 == 0 &&
  (match op with
  | 0x50 => decide (1 ≤ cnOp d) && cnSlot d == 0 && !cnTrigger d && word d 6 == 0 && word d 7 == 0
  | 0x51 => cnOp d == 0 && cnSlot d == 0 && !cnTrigger d && word d 5 == 0 && word d 6 == 0 && word d 7 == 0
  | 0x52 => va57 (cnFire d) && cnFire d % 64 == 0 && decide (word d 7 < 64)
  | _ => cnObj d == 0 && cnOp d == 0 && !cnTrigger d && word d 5 == 0 && word d 6 == 0 && word d 7 == 0)

/-- Reserved fields of a body are zero, its fields lie in range and its addresses are aligned (check 4 of R140). -/
def bodyOk (d : List Nat) : Bool :=
  match dOpcode d with
  | 0x00 => word d 4 == 0 && word d 5 == 0 && word d 6 == 0 && word d 7 == 0
  | 0x01 => va57 (clAddr d) && clAddr d % 64 == 0 && decide (1 ≤ clCount d) && decide (clCount d ≤ 65536)
      && fld d 5 18 14 == 0 && fld d 5 52 12 == 0 && word d 6 == 0 && word d 7 == 0
  | 0x10 => va57 (mvSrc d) && va57 (mvDst d) && decide (1 ≤ mvLen d) && fld d 6 34 30 == 0 && fld d 7 20 44 == 0
  | 0x11 => va57 (mvDst d) && decide (1 ≤ mvLen d) && !mvSrcHost d && fld d 6 34 30 == 0 && fld d 7 20 44 == 0
  | 0x12 => va57 (mvSrc d) && va57 (mvDst d) && decide (1 ≤ m2RowBytes d) && decide (1 ≤ m2Rows d) && fld d 6 56 8 == 0
  | 0x13 => va57 (atAddr d) && decide (atPlace d ≤ 2) && fld d 7 10 2 == 0 && fld d 7 16 48 == 0
      && atomOk (atOp d) (atFmt d) (atOperand d) (atCompare d) (atAddr d)
  | 0x20 => gatherOk d
  | 0x30 => xlateOk 0x30 d
  | 0x31 => xlateOk 0x31 d
  | 0x32 => xlateOk 0x32 d
  | 0x40 => va57 (rmLocal d) && decide (rmLen d ≤ 2 ^ 31) && fld d 7 17 15 == 0 && (rmImmEn d || rmImm d == 0)
  | 0x41 => va57 (rmLocal d) && decide (rmLen d ≤ 2 ^ 31) && fld d 7 17 15 == 0 && !rmImmEn d && rmImm d == 0
  | 0x42 => va57 (rmLocal d) && rmRemote d == 0 && decide (rmLen d ≤ 2 ^ 31) && rmKeyIndex d == 0 && rmKeyGen d == 0
      && fld d 7 17 15 == 0 && (rmImmEn d || rmImm d == 0)
  | 0x43 => raRemote d % 8 == 0 && fld d 7 24 8 == 0 && atomOk (raOp d) 1 (raOperand d) (raCompare d) (raRemote d)
      && decide (raOp d ≤ 0xA)
  | 0x50 => concordOk 0x50 d
  | 0x51 => concordOk 0x51 d
  | 0x52 => concordOk 0x52 d
  | 0x53 => concordOk 0x53 d
  | _ => fld d 5 5 3 == 0 && fld d 5 16 16 == 0

/-- The header fields that must be zero are (R135, R139). -/
def headerOk (d : List Nat) : Bool :=
  fld d 0 30 2 == 0 && fld d 0 44 4 == 0 && (dIndic d || word d 1 == 0)

/-- The completion status codes (tables "Completion status" and "ADMIN completion status"). -/
inductive St where
  | ok | badOpcode | badDescriptor | moodMismatch | engineDenied | listNested | listFailed | listLocation
  | translationFault | accessDenied | poisoned | pasidRange | conNotOwned | cancelled | timeout | noContract | outOfSpan
  | remoteError | remoteQpError | bufferEmpty | admNotPrimary | cmpBadState | cmpPlanInvalid | cmpShareOver | cmpNoResource
  | ctrNotLocked | ctrBadRecord | ctrWrongCompartment | ctrOverShare | ctrPreloadEntry | ctrPreloadOver | ctrBusy
  | ctrEpochPast
  deriving DecidableEq, Repr

/-- The code of a completion status. -/
def St.code : St → Nat
  | .ok => 0x00 | .badOpcode => 0x01 | .badDescriptor => 0x02 | .moodMismatch => 0x03 | .engineDenied => 0x04
  | .listNested => 0x05 | .listFailed => 0x06 | .listLocation => 0x07 | .translationFault => 0x08 | .accessDenied => 0x09
  | .poisoned => 0x0A | .pasidRange => 0x0B | .conNotOwned => 0x0C | .cancelled => 0x0D | .timeout => 0x0E
  | .noContract => 0x0F | .outOfSpan => 0x10 | .remoteError => 0x11 | .remoteQpError => 0x12 | .bufferEmpty => 0x13
  | .admNotPrimary => 0x14 | .cmpBadState => 0x40 | .cmpPlanInvalid => 0x41 | .cmpShareOver => 0x42
  | .cmpNoResource => 0x43 | .ctrNotLocked => 0x48 | .ctrBadRecord => 0x49 | .ctrWrongCompartment => 0x4A
  | .ctrOverShare => 0x4B | .ctrPreloadEntry => 0x4C | .ctrPreloadOver => 0x4D | .ctrBusy => 0x4E | .ctrEpochPast => 0x4F

end Sys2Proof.Machine
end

