-- ==== Sys2Proof/Machine/Rings.lean ====
section
/-! DEFINITION. Rings, doorbells, descriptors and completions (chapter 5), and the operations on concord objects that signals
and waits use (R163 to R168, R175). -/
namespace Sys2Proof.Machine

open Sys2Proof

/-! ### Rings -/

/-- The index of ring `n` of a function in the ring register arrays. -/
def ringIx (fn n : Nat) : Nat := fn * 64 + n

/-- An idle front end of a ring. -/
def RingRun.idle : RingRun := ⟨[], [], false, false⟩

/-- The front-end state of a command ring. -/
def State.run (s : State) (fn n : Nat) : RingRun := s.ring.run.get RingRun.idle (ringIx fn n)

/-- Replace the front-end state of a command ring. -/
def State.setRun (s : State) (fn n : Nat) (r : RingRun) : State :=
  { s with ring := { s.ring with run := Tab.set s.ring.run RingRun.idle (ringIx fn n) r } }

/-- States of a command ring (table "Command ring states"). -/
inductive RingState where
  | disabled | idle | running | suspended | stopping | stopped | error
  deriving DecidableEq, Repr

/-- The code of a ring state. -/
def RingState.code : RingState → Nat
  | .disabled => 0 | .idle => 1 | .running => 2 | .suspended => 3 | .stopping => 4 | .stopped => 5 | .error => 6

/-- The ring state of a code. -/
def RingState.ofCode : Nat → RingState
  | 0 => .disabled | 1 => .idle | 2 => .running | 3 => .suspended | 4 => .stopping | 5 => .stopped | _ => .error

/-- The state of a command ring. -/
def State.ringState (s : State) (fn n : Nat) : RingState := RingState.ofCode (s.rd .RNG_STATE (ringIx fn n))

/-- Set the state of a command ring. -/
def State.setRing (s : State) (fn n : Nat) (st : RingState) : State := s.wr .RNG_STATE (ringIx fn n) st.code

/-- Slots of a command ring (R117). -/
def State.ringSlots (s : State) (fn n : Nat) : Nat := 2 ^ s.rd .RNG_LOG2_SIZE (ringIx fn n)

/-- Slots of a completion ring (R117). -/
def State.cplSlots (s : State) (fn n : Nat) : Nat := 2 ^ s.rd .RNG_CLOG2_SIZE (ringIx fn n)

/-- The PASID of a ring's host-served accesses (R118). -/
def State.ringPasid (s : State) (fn n : Nat) : Option Nat :=
  if s.rd .RNG_PASID_EN (ringIx fn n) = 1 then some (s.rd .RNG_PASID (ringIx fn n)) else none

/-- The PASID of a completion ring. -/
def State.cplPasid (s : State) (fn n : Nat) : Option Nat :=
  if s.rd .RNG_CPASID_EN (ringIx fn n) = 1 then some (s.rd .RNG_CPASID (ringIx fn n)) else none

/-- The PASID range of an instance (R119); a manager function has none. -/
def State.pasidOk (s : State) (fn p : Nat) : Bool :=
  isMgr fn || (decide (s.rd .INS_PASID_BASE fn ≤ p) && decide (p < s.rd .INS_PASID_BASE fn + s.rd .INS_PASID_COUNT fn))

/-- The data path of a function is open: a manager function, or an instance that is enabled and not being reset (R98,
R108). -/
def State.dataOpen (s : State) (fn : Nat) : Bool :=
  isMgr fn || (s.rd .INS_ENABLE fn == 1 && s.rd .INS_RESET_BUSY fn == 0)

/-- The ring front end may work for a function: data path open, bound, intake open (R47, R129). -/
def State.frontOpen (s : State) (fn : Nat) : Bool :=
  s.dataOpen fn && (match s.fnCmp fn with
    | some c => s.intakeOpen c
    | none => false)

/-- Operations of a ring, the long operations the ADMIN engine has accepted left out (R145). -/
def State.ringOps (s : State) (fn n : Nat) : List Op :=
  s.ring.ops.filter (fun o => o.fn == fn && o.ring == n && (match o.wait with
    | .long _ => false
    | _ => true))

/-- An operation by its number. -/
def State.findOp (s : State) (id : Nat) : Option Op := s.ring.ops.find? (fun o => o.id == id)

/-- Replace an operation. -/
def State.setOp (s : State) (o : Op) : State :=
  { s with ring := { s.ring with ops := s.ring.ops.map (fun x => if x.id == o.id then o else x) } }

/-- Remove an operation. -/
def State.dropOp (s : State) (id : Nat) : State :=
  { s with ring := { s.ring with ops := s.ring.ops.filter (fun x => x.id != id) } }

/-- An operation ends: its status and result, its work done. -/
def Op.ends (o : Op) (st result : Nat) : Op := { o with wait := .done, status := st, result := result }

/-! ### Concord objects (chapter 6) -/

/-- The wait of a descriptor is on an object. -/
def waitsOn (d : List Nat) (obj : Nat) : Bool := dWaitCond d != 0 && dWaitObj d == obj

/-- The wait of a descriptor holds on the value of its object now (R136, R168). -/
def State.waitNow (s : State) (d : List Nat) : Bool := waitHolds (dWaitCond d) (dWaitValue d) (s.rd .CON_VALUE (dWaitObj d))

/-- The head of a queue is released now, or was before (R168). -/
def State.headReleased (s : State) (was : Bool) (q : List (List Nat)) : Bool :=
  match q with
  | [] => false
  | d :: _ => was || s.waitNow d

/-- Register the heads of a ring's queues and evaluate them at once (R168). -/
def State.settle (s : State) (fn n : Nat) : State :=
  let r := s.run fn n
  s.setRun fn n { r with released := s.headReleased r.released r.fetched
                         fireReleased := s.headReleased r.fireReleased (r.fire.map (·.2)) }

/-- Evaluate a value of an object against the heads of every ring and list (R166). -/
def State.releaseHeads (s : State) (obj v : Nat) : State :=
  let hit (q : List (List Nat)) : Bool := match q with
    | [] => false
    | d :: _ => waitsOn d obj && waitHolds (dWaitCond d) (dWaitValue d) v
  { s with ring := { s.ring with
      run := s.ring.run.mapVals (fun _ r => { r with released := r.released || hit r.fetched
                                                     fireReleased := r.fireReleased || hit (r.fire.map (·.2)) })
      ops := s.ring.ops.map (fun o => if o.wait = .list then { o with released := o.released || hit o.buf } else o) } }

/-- Fire a slot: FIRED, its descriptor at the end of the fire queue of its ring (R175). -/
def State.fireSlot (s : State) (i : Nat) : State :=
  match s.slots.find i with
  | none => s
  | some t =>
    if t.fired then s
    else
      let r := s.run t.fn t.ring
      let s := { s with slots := s.slots.put i { t with fired := true, fireBeat := s.beat } }
      ((s.setRun t.fn t.ring { r with fire := r.fire ++ [(i, t.desc)] }).bump .CON_FIRED 0 1).settle t.fn t.ring

/-- The functions of an instance under reset fire nothing (step 1 of R108). -/
def State.mayFire (s : State) (t : Slot) : Bool := isMgr t.fn || s.rd .INS_RESET_BUSY t.fn == 0

/-- Slots an evaluation of an object releases, ascending (R175). -/
def State.slotsHit (s : State) (obj v : Nat) : List Nat :=
  (s.slots.filter (fun e => !e.2.fired && !e.2.tagged && e.2.obj == obj && waitHolds e.2.cond e.2.operand v
    && s.mayFire e.2)).map (·.1)

/-- An object takes a value, and the value is evaluated against every waiter (R166). -/
def State.concordSet (s : State) (obj v : Nat) : State :=
  let s := (s.wr .CON_VALUE obj v).releaseHeads obj v
  (s.slotsHit obj v).foldl State.fireSlot s

/-- Apply a signal operation to an object (R136). -/
def State.concordOp (s : State) (obj op v : Nat) : State :=
  if op = 0 then s else s.concordSet obj (sigApply op v (s.rd .CON_VALUE obj))

/-- The signal ports of R165: the ring front end, the five engine lanes, ADMIN, the views of port A and B instances, and
the manager window. -/
def signalPorts : Nat := 10

/-- Apply the operations (port, operation, value) that reach an object in one cycle, one a cycle in rotating order; a tie
is counted (R165, R622). -/
def State.concordApply (s : State) (obj : Nat) (rs : List (Nat × Nat × Nat)) : State :=
  match rs with
  | _ :: _ :: _ =>
    let a := s.arbitrate (.object obj) signalPorts (rs.map (·.1))
    (a.1.flatMap (fun p => rs.filter (fun r => r.1 == p))).foldl (fun s r => s.concordOp obj r.2.1 r.2.2) (a.2.bump .CON_SIG_TIES 0 1)
  | _ => rs.foldl (fun s r => s.concordOp obj r.2.1 r.2.2) s

/-- A concord object lies in the blocks of a compartment (R163). -/
def State.ownsObj (s : State) (c obj : Nat) : Bool := decide (obj < 4096) && (s.grants c).conBlk.contains (obj / 64)

/-- A conjunction slot lies in the blocks of a compartment. -/
def State.ownsSlot (s : State) (c i : Nat) : Bool := (s.grants c).conjBlk.contains (i / 256)

/-- Return a slot to UNARMED. -/
def State.unarm (s : State) (i : Nat) : State := { s with slots := s.slots.del i }

/-! ### The checks of a descriptor (R140) -/

/-- The descriptor names an ADMIN command. -/
def isAdmin (d : List Nat) : Bool := decide (0x60 ≤ dOpcode d) && decide (dOpcode d ≤ 0x6C)

/-- Check 2: the opcode's engine is permitted. -/
def State.engineAllowed (s : State) (fn : Nat) (indicRing : Bool) (d : List Nat) : Bool :=
  if isAdmin d then isMgr fn && !indicRing
  else match engineBit (dOpcode d) with
    | none => true
    | some b => isMgr fn || bit (s.rd .INS_ENGINES fn) b

/-- Check 5: the concord objects and conjunction slots that a descriptor names. -/
def State.concordOwned (s : State) (c : Nat) (d : List Nat) : Bool :=
  (dWaitCond d == 0 || s.ownsObj c (dWaitObj d)) && (dSigOp d == 0 || s.ownsObj c (dSigObj d)) &&
  (match dOpcode d with
  | 0x50 => s.ownsObj c (cnObj d)
  | 0x51 => s.ownsObj c (cnObj d)
  | 0x52 => s.ownsSlot c (cnSlot d) && (cnTrigger d || s.ownsObj c (cnObj d))
  | 0x53 => s.ownsSlot c (cnSlot d)
  | _ => true)

/-- The compartment that holds a block, if any. -/
def State.holder (s : State) (f : Grants → List Nat) (b : Nat) : Option Nat := compartments.find? (fun c => (f (s.grants c)).contains b)

/-- A request that would use a resource of another compartment is reported: RESOURCE_REFUSED with the row of the table "Compartment
resources", the compartment, the number and the owner (R32). -/
def State.refuseUse (s : State) (row c n : Nat) (owner : Option Nat) : State :=
  match owner with
  | some h => if h = c then s else s.post (onCmp c (devInc 0x0105 .notice (Config.resourceKind row).toNat c [n, h]))
  | none => s

/-- The concord objects and conjunction slots a descriptor names, as (is a slot, number). -/
def dConcord (d : List Nat) : List (Bool × Nat) :=
  (if dWaitCond d = 0 then [] else [(false, dWaitObj d)]) ++ (if dSigOp d = 0 then [] else [(false, dSigObj d)]) ++
  (match dOpcode d with
  | 0x50 => [(false, cnObj d)]
  | 0x51 => [(false, cnObj d)]
  | 0x52 => (true, cnSlot d) :: (if cnTrigger d then [] else [(false, cnObj d)])
  | 0x53 => [(true, cnSlot d)]
  | _ => [])

/-- Report the first of them that the compartment does not hold. -/
def State.refuseConcord (s : State) (c : Nat) (d : List Nat) : State :=
  match (dConcord d).find? (fun e => !(if e.1 then s.ownsSlot c e.2 else s.ownsObj c e.2)) with
  | some (true, i) => s.refuseUse 6 c i (s.holder (·.conjBlk) (i / 256))
  | some (false, i) => s.refuseUse 5 c i (s.holder (·.conBlk) (i / 64))
  | none => s

/-- The PASID a descriptor names, if any. -/
def dPasid (d : List Nat) : Option Nat :=
  match dOpcode d with
  | 0x01 => if clHost d then some (clPasid d) else none
  | 0x10 => if mvSrcHost d || mvDstHost d then some (mvPasid d) else none
  | 0x11 => if mvDstHost d then some (mvPasid d) else none
  | 0x30 => if xlHost d then some (xlPasid d) else none
  | 0x32 => if xlHost d then some (xlPasid d) else none
  | _ => none

/-- A queue pair number lies in the range of a function: its INS range, or the house's blocks for a manager function (R432). -/
def State.qpMine (s : State) (fn n : Nat) : Bool :=
  if isMgr fn then decide (n < 65536) && (s.grants 0).qpBlk.contains (n / 512)
  else decide (s.rd .INS_QP_FIRST fn ≤ n) && decide (n < s.rd .INS_QP_FIRST fn + s.rd .INS_QP_COUNT fn)

/-- The queue pair of a REMOTE descriptor lies in the function's range, and an atomic on a network queue pair is ADD or CAS (R432, R470). -/
def State.remoteRange (s : State) (fn : Nat) (d : List Nat) : Bool :=
  if engineOf (dOpcode d) != 4 then true
  else s.qpMine fn (rmQp d) && (dOpcode d != 0x43 || raOp d == 0x01 || raOp d == 0x0A ||
    (match s.net.qps.find (rmQp d) with
    | some q => !q.net
    | none => true))

/-- Checks 1 to 6 of R140 for a ring of the given mood. -/
def State.checkSix (s : State) (fn c : Nat) (indicRing : Bool) (d : List Nat) : Option St :=
  if !opcodeListed (dOpcode d) then some .badOpcode
  else if !s.engineAllowed fn indicRing d then some .engineDenied
  else if dIndic d != indicRing then some .moodMismatch
  else if !(headerOk d && bodyOk d && s.remoteRange fn d) then some .badDescriptor
  else if !s.concordOwned c d then some .conNotOwned
  else match dPasid d with
    | some p => if s.pasidOk fn p then none else some .pasidRange
    | none => none

/-- The beat a descriptor's stamps count from: the start beat of its list, or the epoch of the ACTIVE contract (R83). -/
def State.stampBase (s : State) (c : Nat) (base : Option Nat) : Nat :=
  match base, s.active c with
  | some b, _ => b
  | none, some t => t.epoch
  | none, none => 0

/-- The absolute start stamp of a descriptor (R83). -/
def State.stampOf (s : State) (c : Nat) (base : Option Nat) (d : List Nat) : Nat := s.stampBase c base + dStart d

/-- The absolute deadline of a descriptor, 0 for none (R83). -/
def State.deadlineOf (s : State) (c : Nat) (base : Option Nat) (d : List Nat) : Nat :=
  if dDeadline d = 0 then 0 else s.stampOf c base d + dDeadline d

/-- The checks of R140 in order. -/
def State.checkAll (s : State) (fn c : Nat) (indicRing : Bool) (base : Option Nat) (d : List Nat) : Option St :=
  match s.checkSix fn c indicRing d with
  | some st => some st
  | none =>
    if !dIndic d then none
    else match s.active c with
      | none => some .noContract
      | some t =>
        if t.epoch + t.span ≤ s.stampOf c base d || t.epoch + t.span ≤ s.deadlineOf c base d then some .outOfSpan else none

/-! ### Which descriptor starts next (R84, R121, R137, R147, R151, R152, R154, R177) -/

/-- A descriptor that could start. -/
structure Cand where
  src      : Source
  desc     : List Nat
  index    : Nat
  base     : Option Nat
  released : Bool
  deriving DecidableEq, Repr

/-- The running CALL_LIST of a ring: nothing but its list starts while it runs (R147). -/
def State.callList (s : State) (fn n : Nat) : Option Op :=
  s.ring.ops.find? (fun o => o.fn == fn && o.ring == n && decide (o.wait = .list))

/-- The mood of a ring. -/
def State.indicRing (s : State) (fn n : Nat) : Bool := s.rd .RNG_MOOD (ringIx fn n) == 1

/-- The operations a fence waits for: those of its own list, or every operation of the ring; for a ring descriptor, those
the ring itself started (R152, R177). -/
def State.fenceOps (s : State) (fn n : Nat) (src : Source) : List Op :=
  (s.ringOps fn n).filter (fun o => match src, o.source with
    | .list p _, .list q _ => p == q
    | .list _ _, _ => false
    | .ring, .fired _ => false
    | _, _ => true)

/-- A candidate passes every gate: room among the 64 started descriptors, and either a check fails at its start, or its
fence, wait and start stamp are met. -/
def State.gate (s : State) (fn n c : Nat) (k : Cand) : Bool :=
  decide ((s.ringOps fn n).length < 64) &&
  ((s.checkAll fn c (s.indicRing fn n) k.base k.desc).isSome ||
    ((!dFence k.desc || (s.fenceOps fn n k.src).isEmpty) && (k.released || s.waitNow k.desc) &&
      (!dIndic k.desc || decide (s.stampOf c k.base k.desc ≤ s.beat))))

/-- The slot in its ring of the descriptor at the consumer count. -/
def State.consSlot (s : State) (fn n : Nat) : Nat := s.rd .RNG_CONS (ringIx fn n) % s.ringSlots fn n

/-- The descriptor of a ring that starts next, if one can. -/
def State.nextCand (s : State) (fn n : Nat) : Option Cand :=
  match s.fnCmp fn with
  | none => none
  | some c =>
    if !s.frontOpen fn then none
    else match s.callList fn n with
      | some p =>
        if !p.listEnd && (match s.ringState fn n with
            | .running | .stopping | .error => true
            | _ => false) then
          match p.buf with
          | [] => none
          | d :: _ =>
            let k : Cand := ⟨.list p.id p.listNext, d, p.index, some p.startBeat, p.released⟩
            if s.gate fn n c k then some k else none
        else none
      | none =>
        if s.ringState fn n != .running then none
        else
          let r := s.run fn n
          let fired := match r.fire with
            | [] => none
            | (i, d) :: _ =>
              let k : Cand := ⟨.fired i, d, i, none, r.fireReleased⟩
              if s.gate fn n c k then some k else none
          match fired with
          | some k => some k
          | none =>
            match r.fetched with
            | [] => none
            | d :: _ =>
              let k : Cand := ⟨.ring, d, s.consSlot fn n, none, r.released⟩
              if s.gate fn n c k then some k else none

/-- Take a candidate out of its queue: the consumer count advances for a ring descriptor (R121), a fired slot returns to
UNARMED (R176), a list moves on. -/
def State.takeCand (s : State) (fn n : Nat) (k : Cand) : State :=
  let r := s.run fn n
  match k.src with
  | .ring =>
    ((s.wr .RNG_CONS (ringIx fn n) ((s.rd .RNG_CONS (ringIx fn n) + 1) % 2 ^ 32)).setRun fn n
      { r with fetched := r.fetched.drop 1, released := false }).settle fn n
  | .fired i => ((s.unarm i).setRun fn n { r with fire := r.fire.drop 1, fireReleased := false }).settle fn n
  | .list p i =>
    { s with ring := { s.ring with ops := s.ring.ops.map (fun (o : Op) =>
        if o.id == p then
          { o with listNext := i + 1, buf := o.buf.drop 1, released := s.headReleased false (o.buf.drop 1) }
        else o) } }

/-- The operation record of a started descriptor.  A result the spec does not state is a free value. -/
def State.newOp (s : State) (fn n c : Nat) (k : Cand) : Op × State :=
  let f := s.fresh
  let s := f.2
  ({ id := s.ring.opSerial, fn := fn, ring := n, cmp := c, source := k.src, index := k.index, desc := k.desc,
     startBeat := s.beat, startNs := s.ns, startSeq := s.rd .INC_SEQ_NEXT 0, stamp := s.stampOf c k.base k.desc,
     deadline := s.deadlineOf c k.base k.desc, wait := .done, status := 0, result := f.1, flags := 0, detail := 0,
     inner := 0, innerIdx := 0, breaches := [], links := [], listNext := 0, listOk := 0, listEnd := false, buf := [],
     released := false },
   { s with ring := { s.ring with opSerial := s.ring.opSerial + 1 } })

/-- The detail word: the sequence number of the incident that a failure posted between two states, 0 when none was. -/
def detailOf (before after : State) : Nat :=
  if before.rd .INC_SEQ_NEXT 0 = after.rd .INC_SEQ_NEXT 0 then 0 else before.rd .INC_SEQ_NEXT 0

/-- An operation whose descriptor fails a check (R140): checks 7 and 8 are breaches too. -/
def State.failCheck (s : State) (o : Op) (st : St) : Op × State :=
  let o := { o with status := st.code }
  match st with
  | .noContract =>
    let r := s.opBreach o .noContract {}
    ({ r.1 with detail := detailOf s r.2 }, r.2)
  | .outOfSpan =>
    let e := match s.active o.cmp with
      | some t => t.epoch + t.span
      | none => 0
    let r := s.opBreach o .outOfSpan { expected := e, actual := if e ≤ o.stamp then o.stamp else o.deadline }
    ({ r.1 with detail := detailOf s r.2 }, r.2)
  | .conNotOwned =>
    let t := s.refuseConcord o.cmp o.desc
    ({ o with detail := detailOf s t }, t)
  | _ => (o, s)

/-- An indicative descriptor that starts later than its stamp plus 13 beats (R86). -/
def State.lateStart (s : State) (o : Op) : Op × State :=
  if dIndic o.desc && decide (o.stamp + 13 < s.beat) then
    s.opBreach o .lateStart { expected := o.stamp, actual := s.beat }
  else (o, s)

/-- Start the next descriptor of a ring when `pick` names its row: take it, check it, and let `work` give its effect. -/
def State.startNext (s : State) (fn n : Nat) (pick : List Nat → Bool) (work : Op → State → Op × State) : State :=
  match s.fnCmp fn, s.nextCand fn n with
  | some c, some k =>
    if !pick k.desc then s
    else
      let check := s.checkAll fn c (s.indicRing fn n) k.base k.desc
      let a := (s.takeCand fn n k).newOp fn n c k
      let b := match check with
        | some st => a.2.failCheck a.1 st
        | none =>
          let l := a.2.lateStart a.1
          work l.1 l.2
      { b.2 with ring := { b.2.ring with ops := b.2.ring.ops ++ [b.1] } }
  | _, _ => s

/-! ### Reading and writing for an operation -/

/-- An operation ends on a translation fault: the fault record, the status, and the number of the incident, 0 where the
status is POISONED (R259, R505). -/
def State.opFault (s : State) (o : Op) (port result : Nat) (f : Flt) : Op × State :=
  let t := s.postFault o.cmp (dIndic o.desc) f port (o.fn % 64) o.ring o.index o.listIdx
  ({ o with wait := .done, status := f.status, result := result,
            detail := if f.status = St.poisoned.code then 0 else detailOf s t }, t)

/-- The breach of a request that missed its port cache (R255). -/
def State.opLate (s : State) (o : Op) (late : Bool) (va : Nat) : Op × State :=
  if late then s.opBreach o .translationLate { address := va } else (o, s)

/-- Read a record for an operation. -/
def State.opRead (s : State) (o : Op) (port : Nat) (need : Need) (accOnly : Bool) (va n : Nat) : ReadOut × Op × State :=
  let r := s.vread port o.cmp (dIndic o.desc) need accOnly va n
  let l := r.2.2.opLate o r.2.1 va
  (r.1, l.1, l.2)

/-! ### Completion (R138, R149, R153, R155, R161) -/

/-- Words of a completion record, its phase bit and late flag left to the write (table "Completion record"). -/
def State.recordOf (s : State) (o : Op) : List Nat :=
  let d := o.desc
  let (inList, li) := match o.source with
    | .list _ i => (true, i)
    | _ => (false, if o.status = St.listFailed.code then o.innerIdx else 0)
  [put (dTag d) 0 16 + put o.index 16 16 + put o.ring 32 6 + put (b2n inList) 40 1 + put o.status 48 8 + put o.flags 56 6,
   o.result % 2 ^ 64, s.beat, put li 0 16 + put o.inner 16 8 + put o.detail 32 32]

/-- Whether an operation writes a completion record (R149, R155). -/
def Op.writesRecord (o : Op) : Bool :=
  match o.source with
  | .list _ _ => dListCpl o.desc
  | _ => true

/-- The CALL_LIST of a list ends when its list has ended and none of its descriptors is outstanding (R148, R149). -/
def State.listCheck (s : State) (p : Nat) : State :=
  match s.findOp p with
  | none => s
  | some o =>
    let out := s.ring.ops.any (fun x => match x.source with
      | .list q _ => q == p
      | _ => false)
    if o.wait = .list && !out && (o.listEnd || decide (clCount o.desc ≤ o.listNext)) then
      let st := if o.status != 0 then o.status else if o.inner != 0 then St.listFailed.code else 0
      s.setOp { o with wait := .done, status := st, result := o.listOk }
    else s

/-- A list descriptor has ended: count it, or end the list at the first one not OK (R148). -/
def State.listEnded (s : State) (o : Op) : State :=
  match o.source with
  | .list p i =>
    let s := { s with ring := { s.ring with ops := s.ring.ops.map (fun (x : Op) =>
      if x.id == p then
        (if o.status = 0 then { x with listOk := x.listOk + 1 }
         else if x.inner = 0 then { x with listEnd := true, buf := [], inner := o.status, innerIdx := i } else x)
      else x) } }
    s.listCheck p
  | _ => s

/-- A ring in STOPPING becomes STOPPED when its last started descriptor completes (R124). -/
def State.stopCheck (s : State) (fn n : Nat) : State :=
  if s.ringState fn n = .stopping && (s.ringOps fn n).isEmpty then s.setRing fn n .stopped else s

/-- The key of the completion ring a command ring completes into. -/
def State.cplKey (s : State) (fn n : Nat) : Nat := ringIx fn (s.rd .RNG_CPL_RING (ringIx fn n))

/-- Records claimed in a completion ring and not written. -/
def State.cplWaits (s : State) (k : Nat) : List CplWait := s.ring.cplQ.get [] k

/-- Set the waiting records of a completion ring. -/
def State.setCplWaits (s : State) (k : Nat) (q : List CplWait) : State :=
  { s with ring := { s.ring with cplQ := Tab.set s.ring.cplQ [] k q } }

/-- Free slots of a completion ring that no claim has taken (R122). -/
def State.cplFree (s : State) (k : Nat) : Nat :=
  if s.rd .RNG_CSTATE k = 1 then
    2 ^ s.rd .RNG_CLOG2_SIZE k - diff32 (s.rd .RNG_CPROD k) (s.rd .RNG_CCONS k) - (s.cplWaits k).length
  else 0

/-- The breach of an indicative completion that finds its ring full (R86, R161). -/
def State.ringFull (s : State) (o : Op) : State := (s.opBreach o .ringFull {}).2

/-- One claim joins the records waiting for a completion ring; a claim past the free slots waits (R161). -/
def State.claimOne (s : State) (k : Nat) (w : CplWait) : State :=
  if 0 < s.cplFree k then s.setCplWaits k (s.cplWaits k ++ [w])
  else ((s.setCplWaits k (s.cplWaits k ++ [{ w with waited := true }])).bump .RNG_CPL_FULL_WAITS k 1).ringFull w.op

/-- The claims that reach one completion ring in one cycle: for the last free slots in rotating order over the engine
lanes, each tie counted (R161); discarded while the ring is in ERROR (R127). -/
def State.claimAll (s : State) (k : Nat) (ws : List CplWait) : State :=
  if s.rd .RNG_CSTATE k = 3 then s.bump .RNG_CPL_DISCARDED k ws.length
  else if s.rd .RNG_CSTATE k = 0 then s
  else if 0 < s.cplFree k && decide (s.cplFree k < ws.length) then
    let a := s.arbitrate (.cpl k) 7 (ws.map (fun w => engineOf (dOpcode w.op.desc)))
    let ordered := a.1.flatMap (fun l => ws.filter (fun w => engineOf (dOpcode w.op.desc) == l))
    ordered.foldl (fun s w => s.claimOne k w) (a.2.bump .RNG_CPL_CLAIM_TIES k 1)
  else ws.foldl (fun s w => s.claimOne k w) s

/-- An operation leaves its ring: it is no longer started, its list and its ring move on.  Its signal has been applied. -/
def State.leave (s : State) (o : Op) : State := ((s.dropOp o.id).listEnded o).stopCheck o.fn o.ring

/-- Complete operations of one cycle whose signals have been applied: each leaves, and its record claims a slot. -/
def State.completeOps (s : State) (os : List Op) : State :=
  let recs := (os.filter Op.writesRecord).map (fun o => (s.cplKey o.fn o.ring, (⟨s.recordOf o, o, false⟩ : CplWait)))
  let s := os.foldl State.leave s
  (recs.map (·.1)).eraseDups.foldl (fun s k => s.claimAll k ((recs.filter (fun r => r.1 == k)).map (·.2))) s

/-- Complete one operation with a status that applies no signal. -/
def State.completeOne (s : State) (o : Op) : State := s.completeOps [o]

/-- The signals of completing operations, grouped by object (R138, R165). -/
def State.signalAll (s : State) (os : List Op) : State :=
  let sig := os.filter (fun o => o.status == 0 && dSigOp o.desc != 0)
  (sig.map (fun o => dSigObj o.desc)).eraseDups.foldl (fun s obj =>
    let rs := (sig.filter (fun o => dSigObj o.desc == obj)).map
      (fun o => (engineOf (dOpcode o.desc), dSigOp o.desc, dSigValue o.desc))
    s.concordApply obj rs) s

/-- Operations complete in one cycle: signals first, then records; a completion for an operation that has already ended is
discarded and counted (R138, R153, R159). -/
def execOperationComplete (ops : List Nat) (s : State) : Out :=
  let late := ops.filter (fun i => s.ring.ended.contains i)
  let s := { (s.bump .RNG_LATE_COMPLETIONS 0 late.length) with
    ring := { s.ring with ended := s.ring.ended.filter (fun i => !late.contains i) } }
  let os := (ops.filterMap s.findOp).filter (fun o => decide (o.wait = .done))
  .next ((s.signalAll os).completeOps os)

/-- The beat flag of a record: an indicative operation whose record becomes visible after its deadline (R85, R87). -/
def State.lateFlag (s : State) (o : Op) : Nat := b2n (dIndic o.desc && o.deadline != 0 && decide (o.deadline < s.beat))

/-- A record with its phase bit (R123) and late flag in word 0. -/
def State.stamped (s : State) (k : Nat) (w : CplWait) : List Nat :=
  let c := s.rd .RNG_CPROD k
  let phase := 1 - (c / 2 ^ s.rd .RNG_CLOG2_SIZE k) % 2
  match w.words with
  | w0 :: rest => (w0 + put phase 38 1 + put (s.lateFlag w.op) 39 1) :: rest
  | [] => []

/-- A completion record write faults or meets poison: ERROR, CPL_WRITE_FAULT, and every record due is discarded (R127). -/
def State.cplFault (s : State) (fn n : Nat) (c : Option Nat) (poison : Bool) : State :=
  let k := ringIx fn n
  let q := s.cplWaits k
  let s := (s.wr .RNG_CSTATE k 3).post { bothInc 0x0302 .job c n fn [s.rd .RNG_CPROD k, b2n poison] with unit := n }
  (s.setCplWaits k []).bump .RNG_CPL_DISCARDED k q.length

/-- A record has been written: the producer count advances and the event source of the ring is raised when asked for
(R122, R156). -/
def State.cplWritten (s : State) (k : Nat) (w : CplWait) : State :=
  let s := s.stat w.op.cmp 0 1
  let s := (s.setCplWaits k ((s.cplWaits k).drop 1)).wr .RNG_CPROD k ((s.rd .RNG_CPROD k + 1) % 2 ^ 32)
  if dIrq w.op.desc || s.rd .RNG_CPL_EVT_ALL k = 1 then
    (if s.rd .EVT_CPL_SRC_VALID k = 0 then s else s.occur (s.rd .EVT_CPL_SRC k)) else s

/-! ### Asynchronous events (R460) -/

/-- A completion queue's record write faults or meets poison: ERROR, CPL_WRITE_FAULT and CQ_ERROR (R127, R454, R460). -/
def State.cqFault (s : State) (n : Nat) (poison : Bool) : State :=
  match s.net.cqs.find n with
  | none => s
  | some q =>
    let s := { s with net := { s.net with cqs := Tab.put s.net.cqs n { q with state := 3 } } }
    let r := s.postQ { bothInc 0x0302 .job (s.fnCmp q.owner) (n % 256) q.owner [q.prod, b2n poison] with unit := n % 256 }
    r.2.aeqPost q.owner 3 0 n r.1

/-! ### Writing a record -/

/-- A record write in host memory that waits for its translation: an indicative one is late (R216). -/
def State.cplLate (s : State) (k : Nat) (addr : Nat) : State :=
  match s.cplWaits k with
  | w :: rest =>
    let l := s.opBreach w.op .translationLate { address := addr }
    l.2.setCplWaits k ({ w with op := l.1 } :: rest)
  | [] => s

/-- The oldest waiting record of a completion ring is written once the ring has room (R122, R123, R126, R127).  `outcome`
says how a write to host memory went. -/
def execCompletionRecordWrite (fn ring : Nat) (outcome : Outcome3) (s : State) : Out :=
  let k := ringIx fn ring
  match s.cplWaits k with
  | [] => .next s
  | w :: _ =>
    if s.rd .RNG_CSTATE k != 1 || !decide (diff32 (s.rd .RNG_CPROD k) (s.rd .RNG_CCONS k) < s.cplSlots fn ring) then .next s
    else
      let addr := s.rd .RNG_CBASE k + 32 * (s.rd .RNG_CPROD k % s.cplSlots fn ring)
      let bs := bytesOf (s.stamped k w)
      let c := w.op.cmp
      if s.rd .RNG_CLOC k = 1 then
        match s.hostMap fn (s.cplPasid fn ring) (some (64 + ring)) addr true with
        | .missing _ => .next ((s.cplLate k addr).atsRequest fn (s.cplPasid fn ring) (some (64 + ring)) 0x08 addr)
        | .bad _ => .next (s.cplFault fn ring (some c) false)
        | .at a _ =>
          match outcome with
          | .ok => .next ((s.hostWrite (portOf fn) a bs).cplWritten k w)
          | .fault => .next (s.cplFault fn ring (some c) false)
          | .poison => .next (s.cplFault fn ring (some c) true)
      else
        let r := s.mapSpan 0x08 c (dIndic w.op.desc) .write (spanFuel 32) addr 32
        match r.2.1 with
        | some f => .next (r.2.2.2.cplFault fn ring (some c) (f.reason == 7))
        | none =>
          let l := r.2.2.2.opLate w.op r.2.2.1 addr
          if r.1.any l.2.piecePoison then .next (l.2.cplFault fn ring (some c) true)
          else .next ((l.2.piecesWrite c (dIndic w.op.desc) r.1 bs).cplWritten k w)

/-! ### Command timeout (R157 to R159) -/

/-- The incidents a timeout names as its cause (R509): the last one since the operation's start that concerns a resource the
operation used; a lost link, host or expander before a retry or an error below it. -/
def State.timeoutCause (s : State) (o : Op) : Option Nat :=
  let since := s.inc.recent.filter (fun e => decide (o.startSeq ≤ e.1))
  let used (e : Nat × Nat × Nat × Nat) : Bool := o.links.contains e.2.2.1
  let onQp (e : Nat × Nat × Nat × Nat) : Bool := decide (o.wait = .remote e.2.2.2)
  let hard := since.filter (fun e => (e.2.1 == 0x0B01 || e.2.1 == 0x0B03 || e.2.1 == 0x0C03) && used e
    || (e.2.1 == 0x0C06 && onQp e)
    || (e.2.1 == 0x0A02 && o.links.contains (0x200 + e.2.2.1)) || (e.2.1 == 0x0004 && o.links.contains (0x300 + e.2.2.1))
    || (e.2.1 == 0x0802 && o.links.contains (0x400 + e.2.2.1)))
  let soft := since.filter (fun e => (e.2.1 == 0x0B02 && used e) || (e.2.1 == 0x0C05 && (used e || onQp e)))
  match hard.getLast? with
  | some e => some e.1
  | none => soft.getLast?.map (·.1)

/-- The timer of an operation runs: not for REMOTE descriptors, ADMIN long operations and CALL_LIST (R157). -/
def Op.timed (o : Op) : Bool :=
  engineOf (dOpcode o.desc) != 4 && dOpcode o.desc != 0x01 && (match o.wait with
    | .long _ => false
    | _ => true)

/-- A recovery run is in progress on a peer link or network queue pair that an operation uses: its expiry is held (R508). -/
def State.inRecovery (s : State) (o : Op) : Bool :=
  s.plk.link.any (fun e => e.2.round.isSome && o.links.contains e.1) ||
  (match o.wait with
  | .remote n =>
    (match s.net.qps.find n with
    | some q => q.net && decide (0 < q.retries) && !q.spent
    | none => false)
  | _ => false)

/-- The command timeout of an operation fires (R159); it is held during a recovery run (R508). -/
def execCommandTimeout (op : Nat) (s : State) : Out :=
  match s.findOp op with
  | none => .next s
  | some o =>
    let t := s.rd .RNG_TIMEOUT (ringIx o.fn o.ring)
    if t = 0 || !o.timed || s.inRecovery o || decide (s.ns < o.startNs + 1000 * t) then .next s
    else
      let sev := if dIndic o.desc then Sev.job else .notice
      let li := match o.listIdx with
        | some i => put i 0 16 + 2 ^ 16
        | none => 0
      let seq := s.rd .INC_SEQ_NEXT 0
      let s := s.post { cmpInc 0x0303 sev o.cmp o.ring o.fn [o.index, li, t] with cause := s.timeoutCause o }
      let s := { s with ring := { s.ring with ended := s.ring.ended ++ [op] } }
      .next (s.completeOne { o with wait := .done, status := St.timeout.code, detail := seq })

/-! ### Orders (R114 to R116, R124, R126, R181) -/

/-- Return the FIRED slots of a ring to UNARMED and empty its fire queue (R181). -/
def State.dropFired (s : State) (fn n : Nat) : State :=
  let r := s.run fn n
  (r.fire.foldl (fun s e => s.unarm e.1) s).setRun fn n { r with fire := [], fireReleased := false }

/-- Started descriptors of a cancelled ring end CANCELLED at their next request boundary; work already done completes
(R124). -/
def cancelOp (o : Op) : Op :=
  match o.wait with
  | .done => o
  | .long _ => o
  | .list => { o with listEnd := true, buf := [], status := St.cancelled.code }
  | _ => { o with wait := .done, status := St.cancelled.code }

/-- The effect of CANCEL on a ring (R124, R181). -/
def State.cancelRing (s : State) (fn n : Nat) : State :=
  let i := ringIx fn n
  let gone := (s.ringOps fn n).filter (fun o => !decide (o.wait = .done))
  let s := (s.dropFired fn n).wr .RNG_CONS i (s.rd .RNG_PROD i)
  let s := s.setRun fn n RingRun.idle
  let s := { s with
    ring := { s.ring with ops := s.ring.ops.map (fun (o : Op) => if o.fn == fn && o.ring == n then cancelOp o else o) }
    ats := { s.ats with reads := s.ats.reads.map (fun (r : HostRead) => if gone.any (fun (o : Op) => some o.id == r.op) then { r with op := none } else r) } }
  let s := match s.callList fn n with
    | some p => s.listCheck p.id
    | none => s
  s.setRing fn n .stopped

/-- Apply an order to a command ring; `none` where the table "Command ring orders" does not list it (R124). -/
def State.applyRing (s : State) (fn n code : Nat) : Option State :=
  match code, s.ringState fn n with
  | 1, .idle => some ((s.setRun fn n { s.run fn n with fetched := [], released := false }).setRing fn n .running)
  | 1, .stopped => some ((s.setRun fn n { s.run fn n with fetched := [], released := false }).setRing fn n .running)
  | 3, .running => some (s.setRing fn n .suspended)
  | 2, .suspended => some (s.setRing fn n .running)
  | 5, .running => some ((s.setRing fn n .stopping).stopCheck fn n)
  | 5, .suspended => some ((s.setRing fn n .stopping).stopCheck fn n)
  | 4, .running => some (s.cancelRing fn n)
  | 4, .suspended => some (s.cancelRing fn n)
  | 4, .stopping => some (s.cancelRing fn n)
  | 4, .stopped => some (s.cancelRing fn n)
  | 4, .error => some (s.cancelRing fn n)
  | _, _ => none

/-- Apply an order to a completion ring (R126). -/
def State.applyCpl (s : State) (fn n code : Nat) : Option State :=
  let i := ringIx fn n
  match code, s.rd .RNG_CSTATE i with
  | 5, 1 => some (s.wr .RNG_CSTATE i 2)
  | 1, 2 => some (s.wr .RNG_CSTATE i 1)
  | _, _ => none

/-- The kinds of control object that orders reach. -/
inductive OrdKind where
  | cmdRing | cplRing | qp
  deriving DecidableEq, Repr

/-- The code of a kind (ORDER_CONFLICT, INS_ORD_KIND). -/
def OrdKind.code : OrdKind → Nat
  | .cmdRing => 0 | .cplRing => 1 | .qp => 2

/-- An issuer is the owner of an object of `fn`, or its manager function (R116). -/
def entitled (issuer fn : Nat) : Bool := issuer == fn || (!isMgr fn && issuer == 64 * portOf fn)

/-- Report the outcome of an order to its issuer: RNG_ORD_RESULT for the owner, INS_ORD_STATUS for the manager. -/
def State.reportOrder (s : State) (kind : OrdKind) (issuer fn n res : Nat) : State :=
  if issuer = fn then
    (match kind with
    | .cmdRing => s.wr .RNG_ORD_RESULT (ringIx fn n) res
    | .cplRing => s.wr .RNG_CORD_RESULT (ringIx fn n) res
    | .qp => s)
  else s.wr .INS_ORD_STATUS fn res

/-- Apply an order and report it: 0 taken, 2 not valid. -/
def State.takeOrder (s : State) (kind : OrdKind) (apply : State → Nat → Option State) (issuer fn n code : Nat) : State :=
  match apply s code with
  | some t => t.reportOrder kind issuer fn n 0
  | none => s.reportOrder kind issuer fn n 2

/-- ORDER_CONFLICT (R115). -/
def State.orderConflict (s : State) (kind fn n taken discarded takingFn discardingFn : Nat) : State :=
  s.post (bothInc 0x0003 .notice (s.fnCmp fn) kind n [put taken 0 4 + put discarded 4 4, put takingFn 0 7 + put discardingFn 8 7])

/-- An order to a control object, with the order of another issuer that reaches it in the same cycle, if any (R114 to
R116): the higher rank takes effect, the other is discarded and ORDER_CONFLICT posted; equal codes take effect once. -/
def State.order (s : State) (kind : OrdKind) (apply : State → Nat → Option State) (issuer fn n code : Nat)
    (rival : Option (Nat × Nat)) : State :=
  let off := 0x30002C + 0x100 * fn
  if s.closed issuer off then s
  else if !entitled issuer fn then s.foreignOrder issuer off code
  else match rival with
    | none => s.takeOrder kind apply issuer fn n code
    | some (other, code2) =>
      if !entitled other fn then (s.foreignOrder other off code2).takeOrder kind apply issuer fn n code
      else if code2 = code then
        (s.takeOrder kind apply issuer fn n code).reportOrder kind other fn n (if (apply s code).isSome then 0 else 2)
      else if code < code2 then
        (((s.takeOrder kind apply other fn n code2).reportOrder kind issuer fn n 1).orderConflict kind.code fn n code2 code other issuer)
      else (((s.takeOrder kind apply issuer fn n code).reportOrder kind other fn n 1).orderConflict kind.code fn n code code2 issuer other)

/-- An order to a command ring; a ring number past 63 is not the instance's (INS_ORD_STATUS 3). -/
def State.ringOrder (s : State) (issuer fn n code : Nat) (rival : Option (Nat × Nat)) : State :=
  if 64 ≤ n then (if entitled issuer fn then s.wr .INS_ORD_STATUS fn 3 else s.foreignOrder issuer (0x30002C + 0x100 * fn) code)
  else s.order .cmdRing (fun s c => s.applyRing fn n c) issuer fn n code rival

/-- An order to a completion ring. -/
def State.cplOrder (s : State) (issuer fn n code : Nat) (rival : Option (Nat × Nat)) : State :=
  if 64 ≤ n then (if entitled issuer fn then s.wr .INS_ORD_STATUS fn 3 else s.foreignOrder issuer (0x30002C + 0x100 * fn) code)
  else s.order .cplRing (fun s c => s.applyCpl fn n c) issuer fn n code rival

/-- START of a command ring (R124). -/
def execRingStart (issuer fn ring : Nat) (rival : Option (Nat × Nat)) (s : State) : Out := .next (s.ringOrder issuer fn ring 1 rival)
/-- RESUME of a command ring (R124). -/
def execRingResume (issuer fn ring : Nat) (rival : Option (Nat × Nat)) (s : State) : Out := .next (s.ringOrder issuer fn ring 2 rival)
/-- SUSPEND of a command ring (R124). -/
def execRingSuspend (issuer fn ring : Nat) (rival : Option (Nat × Nat)) (s : State) : Out := .next (s.ringOrder issuer fn ring 3 rival)
/-- CANCEL of a command ring (R124). -/
def execRingCancel (issuer fn ring : Nat) (rival : Option (Nat × Nat)) (s : State) : Out := .next (s.ringOrder issuer fn ring 4 rival)
/-- STOP of a command ring (R124). -/
def execRingStop (issuer fn ring : Nat) (rival : Option (Nat × Nat)) (s : State) : Out := .next (s.ringOrder issuer fn ring 5 rival)
/-- REVOKE of a command ring: no effect, reported as not valid (R124). -/
def execRingRevokeOrder (issuer fn ring : Nat) (s : State) : Out := .next (s.ringOrder issuer fn ring 6 none)
/-- START of a completion ring (R126). -/
def execCplRingStart (issuer fn ring : Nat) (rival : Option (Nat × Nat)) (s : State) : Out := .next (s.cplOrder issuer fn ring 1 rival)
/-- STOP of a completion ring (R126). -/
def execCplRingStop (issuer fn ring : Nat) (rival : Option (Nat × Nat)) (s : State) : Out := .next (s.cplOrder issuer fn ring 5 rival)

/-! ### Create and destroy (R117 to R120, R128, R162) -/

/-- The lowest non-zero command timeout: 32 µs and the contract slack (R158). -/
def State.timeoutFloor (s : State) (c : Option Nat) : Nat :=
  32 + (match c.bind s.active with
    | some t => ceilDiv t.slack 1000
    | none => 0)

/-- Clamp the command timeout of a ring (R158). -/
def State.clampTimeout (s : State) (source fn n : Nat) : State :=
  let i := ringIx fn n
  let v := s.rd .RNG_TIMEOUT i
  let lo := min (s.timeoutFloor (s.fnCmp fn)) (2 ^ 24 - 1)
  if v = 0 || decide (lo ≤ v) then s
  else
    let off := (if isMgr fn then 0x400000 else 0x10000) + 0x40 * n + 0x10
    (s.logClamp ⟨fieldId off 0, source, fn, false, v, lo, 0, false⟩).wr .RNG_TIMEOUT i lo

/-- The set-up status of a create request of a command ring; in fawn mode rings are SUBJUNCTIVE and lie in host memory (R528). -/
def State.createStatus (s : State) (fn n : Nat) (mood : Nat) : Nat :=
  let i := ringIx fn n
  let cpl := s.rd .RNG_CPL_RING i
  if s.ringState fn n != .disabled then 5
  else if (mood = 1 && s.rd .RNG_LOC i = 1) || (s.rd .BOOT_FAWN 0 = 1 && (mood = 1 || s.rd .RNG_LOC i = 0)) then 2
  else if s.rd .RNG_CSTATE (ringIx fn cpl) = 0 || (!isMgr fn && decide (s.rd .INS_CPL_RINGS fn ≤ cpl)) then 3
  else if !isMgr fn && decide (s.rd .INS_CMD_RINGS fn ≤ n) then 4
  else if s.rd .RNG_PASID_EN i = 1 && !s.pasidOk fn (s.rd .RNG_PASID i) then 6
  else 0

/-- Create a command ring. -/
def execRingCreate (fn ring : Nat) (s : State) : Out :=
  let i := ringIx fn ring
  let mood := if isMgr fn then s.rd .RNG_MOOD i else b2n (bit (s.rd .INS_RING_MOOD fn) ring)
  let st := s.createStatus fn ring mood
  if s.barsBlocked fn || decide (64 ≤ ring) then .next s
  else if st != 0 then .next (s.wr .RNG_SETUP_STATUS i st)
  else
    let s := (((s.wr .RNG_SETUP_STATUS i 0).wr .RNG_MOOD i mood).wr .RNG_CONS i 0).wr .RNG_PROD i 0
    let s := (s.clampTimeout (b2n (!isMgr fn)) fn ring).setRun fn ring RingRun.idle
    .next (s.setRing fn ring .idle)

/-- Destroy a command ring; every slot that targets it returns to UNARMED (R128, R181). -/
def execRingDestroy (fn ring : Nat) (s : State) : Out :=
  let i := ringIx fn ring
  if s.barsBlocked fn || decide (64 ≤ ring) then .next s
  else if s.ringState fn ring != .idle && s.ringState fn ring != .stopped then .next (s.wr .RNG_SETUP_STATUS i 5)
  else
    let s := { s with slots := s.slots.keep (fun _ t => !(t.fn == fn && t.ring == ring)) }
    .next (((s.wr .RNG_SETUP_STATUS i 0).setRun fn ring RingRun.idle).setRing fn ring .disabled)

/-- Create a completion ring: it runs (R126). -/
def execCplRingCreate (fn ring : Nat) (s : State) : Out :=
  let i := ringIx fn ring
  let st := if s.rd .RNG_CSTATE i != 0 then 5
    else if s.rd .BOOT_FAWN 0 = 1 && s.rd .RNG_CLOC i = 0 then 2
    else if !isMgr fn && decide (s.rd .INS_CPL_RINGS fn ≤ ring) then 4
    else if s.rd .RNG_CPASID_EN i = 1 && !s.pasidOk fn (s.rd .RNG_CPASID i) then 6
    else 0
  if s.barsBlocked fn || decide (64 ≤ ring) then .next s
  else if st != 0 then .next (s.wr .RNG_CSETUP_STATUS i st)
  else .next (((((s.wr .RNG_CSETUP_STATUS i 0).wr .RNG_CPROD i 0).wr .RNG_CCONS i 0).setCplWaits i []).wr .RNG_CSTATE i 1)

/-- A command ring outside DISABLED binds the completion ring (R128). -/
def State.cplBound (s : State) (fn n : Nat) : Bool :=
  (List.range 64).any (fun r => s.ringState fn r != .disabled && s.rd .RNG_CPL_RING (ringIx fn r) == n)

/-- Destroy a completion ring (R128). -/
def execCplRingDestroy (fn ring : Nat) (s : State) : Out :=
  let i := ringIx fn ring
  if s.barsBlocked fn || decide (64 ≤ ring) then .next s
  else if (s.rd .RNG_CSTATE i != 2 && s.rd .RNG_CSTATE i != 3) || s.cplBound fn ring then .next (s.wr .RNG_CSETUP_STATUS i 5)
  else
    let q := (s.cplWaits i).length
    .next ((((s.wr .RNG_CSETUP_STATUS i 0).setCplWaits i []).bump .RNG_CPL_DISCARDED i q).wr .RNG_CSTATE i 0)

/-! ### Doorbells (R130 to R133) -/

/-- Count a dropped doorbell. -/
def State.dropBell (s : State) (cmdRing : Option Nat) : State :=
  let s := s.bump .RNG_DB_DROPPED_TOTAL 0 1
  match cmdRing with
  | some i => s.bump .RNG_DB_DROPPED i 1
  | none => s

/-- A doorbell write that never reaches its page: the function's BARs are blocked, but for an instance reset, which counts what it drops
(R108, R556, R619). -/
def State.bellBlocked (s : State) (fn : Nat) : Bool :=
  s.retryStatus || s.ideBlocked fn || (!isMgr fn && s.rd .BOOT_FAWN 0 == 1)

/-- A doorbell of a command ring: `off` is the offset in the doorbell page, `size` the bytes written (R132, R133). -/
def execCommandDoorbell (fn ring off size count : Nat) (s : State) : Out :=
  let i := ringIx fn ring
  let v := count % 2 ^ 32
  if 64 ≤ ring || s.bellBlocked fn then .next s
  else if off != 0 || size != 4 || s.ringState fn ring = .disabled || (!isMgr fn && s.rd .INS_RESET_BUSY fn == 1)
      || decide (s.ringSlots fn ring < diff32 v (s.rd .RNG_CONS i)) || decide (s.ringSlots fn ring < diff32 v (s.rd .RNG_PROD i)) then
    .next (s.dropBell (some i))
  else .next (s.wr .RNG_PROD i v)

/-- A doorbell of a completion ring: the new consumer count (R122, R132). -/
def execCompletionDoorbell (fn ring off size count : Nat) (s : State) : Out :=
  let i := ringIx fn ring
  let v := count % 2 ^ 32
  if 64 ≤ ring || s.bellBlocked fn then .next s
  else if off != 0 || size != 4 || s.rd .RNG_CSTATE i = 0 || (!isMgr fn && s.rd .INS_RESET_BUSY fn == 1)
      || decide (s.cplSlots fn ring < diff32 (s.rd .RNG_CPROD i) v) then .next (s.dropBell none)
  else .next (s.wr .RNG_CCONS i v)

/-! ### Fetch (R118, R125, R134) -/

/-- A descriptor fetch faults or returns poison: the ring goes to ERROR (R125). -/
def State.fetchFault (s : State) (fn n : Nat) (poison : Bool) : State :=
  ((s.setRing fn n .error).setRun fn n { s.run fn n with fetched := [], released := false }).post
    (bothInc 0x0301 .job (s.fnCmp fn) n fn [s.rd .RNG_CONS (ringIx fn n), b2n poison])

/-- A list descriptor that cannot be fetched ends its list besides (R125, R148). -/
def State.listFetchFault (s : State) (p : Op) (poison : Bool) : State :=
  let st := if poison then St.poisoned.code else St.translationFault.code
  let s := s.setOp { p with listEnd := true, buf := [], inner := (if p.inner = 0 then st else p.inner), innerIdx := (if p.inner = 0 then p.listNext else p.innerIdx) }
  (s.fetchFault p.fn p.ring poison).listCheck p.id

/-- What a fetch of 64 bytes brings. -/
inductive FetchOut where
  | words (ws : List Nat)
  | wait
  | failed (poison : Bool)
  deriving DecidableEq, Repr

/-- Fetch a descriptor: from accelerator memory through the compartment's translation, or from host memory, where `words`
and `outcome` are what the host returns (R118, R210, R504). -/
def State.fetchDesc (s : State) (fn n c : Nat) (host : Bool) (pasid : Option Nat) (addr : Nat) (indic : Bool) (words : List Nat)
    (outcome : Outcome3) : FetchOut × State :=
  if host then
    match s.hostMap fn pasid (some n) addr false with
    | .missing _ => (.wait, s.atsRequest fn pasid (some n) 0x08 addr)
    | .bad _ => (.failed false, s)
    | .at a _ =>
      match outcome with
      | .ok => (.words ((List.range 8).map (fun i => word words i % 2 ^ 64)), s)
      | .fault => (.failed false, s)
      | .poison => (.failed true, s.post (bothInc 0x0005 .job (some c) (portOf fn) fn [a, 0]))
  else
    let r := s.vread 0x08 c indic .fetch false addr 64
    match r.1 with
    | .ok bs => (.words (wordsOf 8 bs), r.2.2)
    | .fault f => (.failed (f.reason == 7), r.2.2)
    | .poison => (.failed true, r.2.2)

/-- Fetch the next descriptor a doorbell covers of a running ring, or the next one of a running command list (`list` names its
CALL_LIST). -/
def execDescriptorFetch (fn ring : Nat) (list : Option Nat) (words : List Nat) (outcome : Outcome3) (s : State) : Out :=
  match s.fnCmp fn with
  | none => .next s
  | some c =>
    if !s.frontOpen fn then .next s
    else match list with
      | none =>
        let i := ringIx fn ring
        let r := s.run fn ring
        if s.ringState fn ring != .running || decide (diff32 (s.rd .RNG_PROD i) (s.rd .RNG_CONS i) ≤ r.fetched.length) then .next s
        else
          let slot := (s.rd .RNG_CONS i + r.fetched.length) % s.ringSlots fn ring
          let f := s.fetchDesc fn ring c (s.rd .RNG_LOC i == 1) (s.ringPasid fn ring) (s.rd .RNG_BASE i + 64 * slot)
            (s.indicRing fn ring) words outcome
          match f.1 with
          | .wait => .next f.2
          | .failed p => .next (f.2.fetchFault fn ring p)
          | .words ws => .next ((f.2.setRun fn ring { r with fetched := r.fetched ++ [ws] }).settle fn ring)
      | some p =>
        match s.findOp p with
        | none => .next s
        | some o =>
          let k := o.listNext + o.buf.length
          if o.fn != fn || o.ring != ring || !decide (o.wait = .list) || o.listEnd || decide (clCount o.desc ≤ k) then .next s
          else
            let f := s.fetchDesc fn ring c (clHost o.desc) (some (clPasid o.desc)) (clAddr o.desc + 64 * k) (dIndic o.desc) words outcome
            match f.1 with
            | .wait => .next f.2
            | .failed q => .next (f.2.listFetchFault o q)
            | .words ws =>
              .next (f.2.setOp { o with buf := o.buf ++ [ws], released := f.2.headReleased o.released (o.buf ++ [ws]) })

/-! ### NOP and CALL_LIST -/

/-- A NOP only waits and signals; the row also takes the descriptors whose opcode is not listed (check 1 of R140). -/
def execNop (fn ring : Nat) (s : State) : Out :=
  .next (s.startNext fn ring (fun d => dOpcode d == 0 || !opcodeListed (dOpcode d)) (fun o s => (o, s)))

/-- A CALL_LIST starts its list, fails by its place, or ends the list it stands in (R146 to R150). -/
def callListWork (o : Op) (s : State) : Op × State :=
  match o.source with
  | .list _ _ => ({ o with status := St.listNested.code }, s)
  | _ =>
    if dIndic o.desc && clHost o.desc then ({ o with status := St.listLocation.code }, s)
    else ({ o with wait := .list }, s)

/-- CALL_LIST. -/
def execCallList (fn ring : Nat) (s : State) : Out := .next (s.startNext fn ring (fun d => dOpcode d == 1) callListWork)

end Sys2Proof.Machine
end

