-- ==== Sys2Proof/Machine/Events.lean ====
section
/-! DEFINITION. The event concentrator: binding, routing, doorbells, coalescing and claims (chapter 7). -/
namespace Sys2Proof.Machine

open Sys2Proof

/-- The compartment of a source (R186). -/
def State.srcCmp (s : State) (n : Nat) : Option Nat := s.fnCmp (s.srcOwner n)

/-- A pool source. -/
def isPool (n : Nat) : Bool := decide (0x100 ≤ n) && decide (n ≤ 0x7FF)

/-- A source whose owner the manager binds: a compartment-ring source or a pool source (R185). -/
def isBindable (n : Nat) : Bool := isPool n || (decide (0xE0 ≤ n) && decide (n ≤ 0xFF))

/-- The owners a source may be bound to (R185). -/
def State.ownerOk (s : State) (n owner : Nat) : Bool :=
  isPool n || isMgr owner || (s.rd .INS_BOUND owner == 1 && s.rd .INS_CMP owner == n - 0xE0)

/-- Bind or unbind the owner of a source: a device-wide order of the primary manager (R185). -/
def execEventSourceBind (fn src owner : Nat) (bound : Bool) (s : State) : Out :=
  let off := 0xC00000 + 0x10 * src
  if s.closed fn off then .next s
  else if fn != s.primaryFn then .next (s.foreignOrder fn off 0)
  else if !isBindable src then .next s
  else if !bound then .next ((s.wr .EVT_SRC_OWNER src owner).wr .EVT_SRC_BOUND src 0)
  else if s.ownerOk src (owner % 128) then .next ((s.wr .EVT_SRC_OWNER src owner).wr .EVT_SRC_BOUND src 1)
  else .next (((s.logClamp ⟨fieldId off 0, 0, fn, true, owner % 128, 0, 0, false⟩).wr .EVT_SRC_OWNER src 0).wr .EVT_SRC_BOUND src 0)

/-- A function owns a source. -/
def State.ownsSrc (s : State) (fn n : Nat) : Bool := s.srcBound n && s.srcOwner n == fn

/-- The owner routes the source that EVT_RT_SRC names (R187); a pending source raises its new vector once (R193). -/
def execEventRouteApply (fn vec sense : Nat) (s : State) : Out :=
  let n := s.rd .EVT_RT_SRC fn
  if s.barsBlocked fn then .next s
  else
    let s := (s.wr .EVT_RT_VEC fn vec).wr .EVT_RT_SENSE fn sense
    if !s.ownsSrc fn n then .next (s.wr .EVT_RT_STATUS fn 1)
    else if vecCount fn ≤ vec then .next (s.wr .EVT_RT_STATUS fn 2)
    else
      let moved := s.rd .EVT_SRC_ROUTED n = 0 || s.rd .EVT_SRC_VEC n != vec
      let s := ((s.wr .EVT_RT_STATUS fn 0).wr .EVT_SRC_ROUTED n 1).wr .EVT_SRC_VEC n vec
      let s := if isPool n then s.wr .EVT_SRC_SENSE n sense else s
      .next (if moved && s.rd .EVT_PENDING n = 1 then s.vecRaise fn vec else s)

/-- An event doorbell write is accepted: the source is bound, in MESSAGE mode, and of the compartment of the write (R190). -/
def State.bellOk (s : State) (n : Nat) (c : Option Nat) : Bool :=
  s.srcBound n && s.rd .EVT_SRC_SENSE n == 1 && c.isSome && s.srcCmp n == c && n != 0

/-- The doorbell ports of R191. -/
def bellPorts : Nat := 7

/-- Accepted doorbell writes of one cycle: each is one raise, and a tie moves the pointer (R191). -/
def State.bellRaises (s : State) (n : Nat) (ports : List Nat) : State :=
  let a := s.arbitrate (.doorbell n) bellPorts ports
  ports.foldl (fun s _ => s.raiseSrc n) a.2

/-- An event doorbell write of a host function; `rivals` are the ports whose accepted writes to the source come in the same
cycle (R189 to R191). -/
def execEventDoorbell (fn src : Nat) (rivals : List Nat) (s : State) : Out :=
  let n := src % 2048
  if s.barsBlocked fn then .next s
  else if s.bellOk n (s.fnCmp fn) then .next (s.bellRaises n (portOf fn :: rivals))
  else .next ((s.bump .EVT_DB_DROPPED fn 1).bump .EVT_DB_DROPPED_TOTAL 0 1)

/-- The time rule of a vector: it delivers when the beat counter has passed its batch start by EVT_COAL_TIME (R194). -/
def execCoalesceTimerExpiry (fn vec : Nat) (s : State) : Out :=
  let i := vecIx fn vec
  let t := s.rd .EVT_COAL_TIME i
  if t != 0 && s.rd .EVT_VEC_BATCH i != 0 && decide (s.evt.batchStart.get 0 i + 256 * t ≤ s.beat) then .next (s.deliverOrHold fn vec)
  else .next s

/-- A write of 0 to EVT_VEC_MASK: a held delivery goes out (R196). -/
def execVectorUnmask (fn vec : Nat) (s : State) : Out :=
  let i := vecIx fn vec
  if s.barsBlocked fn || decide (vecCount fn ≤ vec) then .next s
  else
    let held := s.rd .EVT_VEC_HELD i
    let s := s.wr .EVT_VEC_MASK i 0
    .next (if held = 1 then s.deliver fn vec else s)

/-- A source can be claimed from a vector. -/
def State.claimable (s : State) (fn vec n : Nat) : Bool :=
  s.srcBound n && s.srcOwner n == fn && s.rd .EVT_SRC_ROUTED n == 1 && s.rd .EVT_SRC_VEC n == vec && s.rd .EVT_PENDING n == 1

/-- Source numbers in claim order from a claim pointer (R200). -/
def claimOrder (p : Nat) : List Nat := span p (0x800 - p) ++ span 1 (p - 1)

/-- The claim pointer of a vector, 0x001 after reset. -/
def State.claimPtr (s : State) (fn vec : Nat) : Nat := s.evt.claimPtr.get 1 (vecIx fn vec)

/-- One claim of a vector: the source number, its count and its saturation, and the state after (R200). -/
def State.claim (s : State) (fn vec : Nat) : (Nat × Nat × Nat) × State :=
  match (claimOrder (s.claimPtr fn vec)).find? (fun n => s.claimable fn vec n) with
  | none => ((0, 0, 0), s.bump .EVT_VEC_SPURIOUS (vecIx fn vec) 1)
  | some n =>
    let got := (n, s.rd .EVT_COUNT n, s.rd .EVT_SAT n)
    let s := ((s.wr .EVT_PENDING n 0).wr .EVT_COUNT n 0).wr .EVT_SAT n 0
    (got, { s with evt := { s.evt with claimPtr := Tab.set s.evt.claimPtr 1 (vecIx fn vec) (if n = 0x7FF then 1 else n + 1) } })

/-- The claim ports of R201: host ports A and B, management cores 0 to 3. -/
def claimPorts : Nat := 6

/-- Reads of EVT_CLAIM of a vector that meet in one cycle, by claim port (R200, R201); one port reads alone. -/
def execEventClaim (fn vec : Nat) (ports : List Nat) (s : State) : Out :=
  if s.barsBlocked fn || decide (vecCount fn ≤ vec) then .next s
  else
    let a := s.arbitrate (.claim (vecIx fn vec)) claimPorts ports
    let s := if 1 < ports.length then a.2.bump .EVT_CLAIM_TIES 0 1 else a.2
    .next (a.1.foldl (fun s p =>
      let r := s.claim fn vec
      r.2.emit .readValue [fn, vec, p, r.1.1 + put r.1.2.1 16 12 + put r.1.2.2 28 1]) s)

/-! ### Concord rows without a descriptor (chapter 6) -/

/-- Operations that reach one object in one cycle through the signal ports: port, operation and value (R165, R166). -/
def execConcordSignalApply (obj : Nat) (requests : List (Nat × Nat × Nat)) (s : State) : Out :=
  .next (if obj < 4096 then s.concordApply obj (requests.map (fun r => (r.1, r.2.1, r.2.2 % 2 ^ 64))) else s)

/-- A write of 0x4_8008 of a function's concord view: the signal with CON_VSIG_VALUE is applied, or refused (R163, R165). -/
def execConcordViewSignal (fn obj sigop : Nat) (s : State) : Out :=
  if s.barsBlocked fn then .next s
  else
    let op := sigop % 4
    let own := match s.fnCmp fn with
      | some c => s.ownsObj c (obj % 4096)
      | none => false
    if op = 0 then .next (s.wr .CON_VSIG_STATUS fn 2)
    else if !own then
      let s := match s.fnCmp fn with
        | some c => s.refuseUse 5 c (obj % 4096) (s.holder (·.conBlk) (obj % 4096 / 64))
        | none => s
      .next (s.wr .CON_VSIG_STATUS fn 1)
    else .next ((s.concordApply (obj % 4096) [(7 + portOf fn, op, s.rd .CON_VSIG_VALUE fn)]).wr .CON_VSIG_STATUS fn 0)

/-- A committed write of CON_VALUE: SET through the manager port, by the primary manager (R94, R165). -/
def execConcordWindowSet (fn obj high : Nat) (s : State) : Out :=
  let off := 0x2000000 + 8 * obj + 4
  if s.closed fn off || decide (4096 ≤ obj) then .next s
  else if fn != s.primaryFn then .next (s.foreignOrder fn off 0)
  else
    let low := (s.reg.staged.find (pairKey fn (off - 4))).getD (s.rd .CON_VALUE obj % 2 ^ 32)
    let s := { s with reg := { s.reg with staged := Tab.del s.reg.staged (pairKey fn (off - 4)) } }
    .next (s.concordApply obj [(9, 2, low + 2 ^ 32 * (high % 2 ^ 32))])

/-! ### CONCORD descriptors -/

/-- CON_SIGNAL returns the new value (table "CONCORD body"). -/
def conSignalWork (o : Op) (s : State) : Op × State :=
  let s := s.concordApply (cnObj o.desc) [(5, cnOp o.desc, cnValue o.desc)]
  (o.ends 0 (s.rd .CON_VALUE (cnObj o.desc)), s)

/-- CON_DISARM: an ARMED slot returns to UNARMED; the result tells what the slot was (R180). -/
def conDisarmWork (o : Op) (s : State) : Op × State :=
  match s.slots.find (cnSlot o.desc) with
  | none => (o.ends 0 0, s)
  | some t => if t.fired then (o.ends 0 2, s) else (o.ends 0 1, s.unarm (cnSlot o.desc))

/-- CON_SIGNAL. -/
def execConSignal (fn ring : Nat) (s : State) : Out := .next (s.startNext fn ring (fun d => dOpcode d == 0x50) conSignalWork)
/-- CON_READ returns the current value. -/
def execConRead (fn ring : Nat) (s : State) : Out :=
  .next (s.startNext fn ring (fun d => dOpcode d == 0x51) (fun o s => (o.ends 0 (s.rd .CON_VALUE (cnObj o.desc)), s)))
/-- CON_DISARM. -/
def execConDisarm (fn ring : Nat) (s : State) : Out := .next (s.startNext fn ring (fun d => dOpcode d == 0x53) conDisarmWork)

end Sys2Proof.Machine
end

