-- ==== Sys2Proof/Machine/Flags.lean ====
section
/-! DEFINITION. Arithmetic with flags (chapter 12): atomic operations, floating-point rounding to nearest even with subnormals,
flushing and saturation, and the sticky flags of RNG_C_FLAGS.  Values are exact rationals until they are rounded. -/
namespace Sys2Proof.Machine

open Sys2Proof

/-! ### Flags (R345) -/

/-- The sticky arithmetic flags. -/
structure Flg where
  invalid   : Bool := false
  overflow  : Bool := false
  underflow : Bool := false
  inexact   : Bool := false
  flushed   : Bool := false
  saturated : Bool := false
  deriving DecidableEq, Repr

/-- Flags OR together. -/
def Flg.or (a b : Flg) : Flg :=
  ⟨a.invalid || b.invalid, a.overflow || b.overflow, a.underflow || b.underflow, a.inexact || b.inexact,
   a.flushed || b.flushed, a.saturated || b.saturated⟩

/-- The bits of RNG_C_FLAGS. -/
def Flg.code (f : Flg) : Nat :=
  b2n f.invalid + 2 * b2n f.overflow + 4 * b2n f.underflow + 8 * b2n f.inexact + 16 * b2n f.flushed + 32 * b2n f.saturated

/-! ### Formats -/

/-- A binary interchange format: exponent bits and fraction bits. -/
structure Fmt where
  eb : Nat
  mb : Nat
  deriving DecidableEq, Repr

def binary32 : Fmt := ⟨8, 23⟩
def binary16 : Fmt := ⟨5, 10⟩
def bfloat16 : Fmt := ⟨8, 7⟩

/-- Bits of a format. -/
def Fmt.width (f : Fmt) : Nat := 1 + f.eb + f.mb

/-- The bias of a format. -/
def Fmt.bias (f : Fmt) : Nat := 2 ^ (f.eb - 1) - 1

/-- The exponent of the smallest normal number. -/
def Fmt.emin (f : Fmt) : Int := 1 - (f.bias : Int)

/-- The canonical quiet NaN (R343). -/
def Fmt.qnan (f : Fmt) : Nat := (2 ^ f.eb - 1) * 2 ^ f.mb + 2 ^ (f.mb - 1)

/-- The sign bit of a result. -/
def Fmt.sign (f : Fmt) (neg : Bool) : Nat := b2n neg * 2 ^ (f.eb + f.mb)

/-- Infinity. -/
def Fmt.inf (f : Fmt) (neg : Bool) : Nat := f.sign neg + (2 ^ f.eb - 1) * 2 ^ f.mb

/-- The largest finite value. -/
def Fmt.max (f : Fmt) (neg : Bool) : Nat := f.inf neg - 1

/-- A floating-point datum: NaN, infinity, or sign and magnitude `m` × 2^`e`. -/
inductive Num where
  | nan
  | inf (neg : Bool)
  | fin (neg : Bool) (m : Nat) (e : Int)
  deriving DecidableEq, Repr

/-- Read an operand: a signalling NaN sets INVALID (R343), a subnormal is flushed under FTZ (R342). -/
def Fmt.read (f : Fmt) (ftz : Bool) (v : Nat) : Num × Flg :=
  let neg := bit v (f.eb + f.mb)
  let e := bits v f.mb f.eb
  let m := bits v 0 f.mb
  if e = 2 ^ f.eb - 1 then
    if m = 0 then (.inf neg, {}) else (.nan, { invalid := !bit m (f.mb - 1) })
  else if e = 0 then
    if m = 0 then (.fin neg 0 0, {})
    else if ftz then (.fin neg 0 0, { flushed := true })
    else (.fin neg m (f.emin - f.mb), {})
  else (.fin neg (2 ^ f.mb + m) ((e : Int) - f.bias - f.mb), {})

/-! ### Rounding (R340 to R342) -/

/-- `num` / `den` to the nearest integer, ties to even; and whether it is inexact. -/
def rne (num den : Nat) : Nat × Bool :=
  let q := num / den
  let r := num % den
  (if den < 2 * r || (2 * r == den && q % 2 == 1) then q + 1 else q, r != 0)

/-- `num` / `den` × 2^`-k` rounded to an integer. -/
def rneAt (num den : Nat) (k : Int) : Nat × Bool :=
  if 0 ≤ k then rne num (den * 2 ^ k.toNat) else rne (num * 2 ^ (-k).toNat) den

/-- ⌊log2 (num / den)⌋ of positive numbers. -/
def floorLog (num den : Nat) : Int :=
  let l : Int := (num.log2 : Int) - den.log2
  let ge := if 0 ≤ l then decide (den * 2 ^ l.toNat ≤ num) else decide (den ≤ num * 2 ^ (-l).toNat)
  if ge then l else l - 1

/-- Round the exact value ± `num` / `den` × 2^`e` to a format. -/
def Fmt.round (f : Fmt) (ftz sat neg : Bool) (num den : Nat) (e : Int) : Nat × Flg :=
  if num = 0 || den = 0 then (f.sign neg, {})
  else
    let lg := floorLog num den + e
    let free := rneAt num den (lg - f.mb - e)
    let lgR := if free.1 = 2 ^ (f.mb + 1) then lg + 1 else lg
    let tiny := decide (lgR < f.emin)
    if tiny && ftz then (f.sign neg, { flushed := true, underflow := true, inexact := true })
    else
      let u : Int := (if lg < f.emin then f.emin else lg) - f.mb
      let r := rneAt num den (u - e)
      let top := f.emin - f.mb + ((2 ^ f.eb - 3 : Nat) : Int)
      let carry := r.1 = 2 ^ (f.mb + 1)
      if top < (if carry then u + 1 else u) then
        if sat then (f.max neg, { overflow := true, inexact := true, saturated := true })
        else (f.inf neg, { overflow := true, inexact := true })
      else
        let biased := (u - (f.emin - f.mb)).toNat
        (f.sign neg + biased * 2 ^ f.mb + r.1, { underflow := tiny && r.2, inexact := r.2 })

/-! ### Operations (R343, R344) -/

/-- An invalid operation. -/
def Fmt.invalid (f : Fmt) : Nat × Flg := (f.qnan, { invalid := true })

/-- Signed integer value of a magnitude. -/
def signed (neg : Bool) (m : Nat) : Int := if neg then -(m : Int) else m

/-- The exact sum of two finite values. -/
def addExact (n1 : Bool) (m1 : Nat) (e1 : Int) (n2 : Bool) (m2 : Nat) (e2 : Int) : Int × Int :=
  let e := min e1 e2
  (signed n1 (m1 * 2 ^ (e1 - e).toNat) + signed n2 (m2 * 2 ^ (e2 - e).toNat), e)

/-- The sum of two data. -/
def Fmt.addNum (f : Fmt) (ftz sat : Bool) : Num → Num → Nat × Flg
  | .nan, _ => (f.qnan, {})
  | _, .nan => (f.qnan, {})
  | .inf a, .inf b => if a = b then (f.inf a, {}) else f.invalid
  | .inf a, _ => (f.inf a, {})
  | _, .inf b => (f.inf b, {})
  | .fin n1 m1 e1, .fin n2 m2 e2 =>
    let x := addExact n1 m1 e1 n2 m2 e2
    if x.1 = 0 then (f.sign (n1 && n2), {}) else f.round ftz sat (decide (x.1 < 0)) x.1.natAbs 1 x.2

/-- The product of two data, in format `f`. -/
def Fmt.mulNum (f : Fmt) (ftz sat : Bool) : Num → Num → Nat × Flg
  | .nan, _ => (f.qnan, {})
  | _, .nan => (f.qnan, {})
  | .inf a, .inf b => (f.inf (a != b), {})
  | .inf a, .fin n m _ => if m = 0 then f.invalid else (f.inf (a != n), {})
  | .fin n m _, .inf b => if m = 0 then f.invalid else (f.inf (n != b), {})
  | .fin n1 m1 e1, .fin n2 m2 e2 => f.round ftz sat (n1 != n2) (m1 * m2) 1 (e1 + e2)

/-- A datum divided by a positive count. -/
def Fmt.divNum (f : Fmt) (ftz sat : Bool) (n : Nat) : Num → Nat × Flg
  | .nan => (f.qnan, {})
  | .inf a => (f.inf a, {})
  | .fin s m e => f.round ftz sat s m n e

/-- The first datum is below the second, −0 below +0. -/
def Num.below : Num → Num → Bool
  | .inf a, .inf b => a && !b
  | .inf a, _ => a
  | _, .inf b => !b
  | .fin n1 m1 e1, .fin n2 m2 e2 =>
    let x := addExact n1 m1 e1 (!n2) m2 e2
    decide (x.1 < 0) || (x.1 == 0 && n1 && !n2)
  | _, _ => false

/-- The pattern of an operand that MIN and MAX return, flushed when it was. -/
def Fmt.keepNum (f : Fmt) (v : Nat) : Num → Nat
  | .nan => f.qnan
  | .inf a => f.inf a
  | .fin neg m _ => if m = 0 then f.sign neg else v

/-- Minimum or maximum of two operands (R344). -/
def Fmt.pick (f : Fmt) (max ftz : Bool) (a b : Nat) : Nat × Flg :=
  let x := f.read ftz a
  let y := f.read ftz b
  let fl := x.2.or y.2
  if x.1 = .nan || y.1 = .nan then (f.qnan, fl)
  else if x.1.below y.1 then (if max then f.keepNum b y.1 else f.keepNum a x.1, fl)
  else (if max then f.keepNum a x.1 else f.keepNum b y.1, fl)

/-- The sum of two operands with one rounding. -/
def Fmt.add (f : Fmt) (ftz sat : Bool) (a b : Nat) : Nat × Flg :=
  let x := f.read ftz a
  let y := f.read ftz b
  let r := f.addNum ftz sat x.1 y.1
  (r.1, (x.2.or y.2).or r.2)

/-- Convert an operand of one format to another with one rounding (widening is exact). -/
def Fmt.convert (src dst : Fmt) (ftz sat : Bool) (v : Nat) : Nat × Flg :=
  let x := src.read ftz v
  match x.1 with
  | .nan => (dst.qnan, x.2)
  | .inf a => (dst.inf a, x.2)
  | .fin n m e => let r := dst.round ftz sat n m 1 e; (r.1, x.2.or r.2)

/-! ### Atomics (R328 to R331) -/

/-- The floating-point format of an atomic format code. -/
def atomFp (fmt : Nat) : Fmt :=
  match fmt with
  | 4 => binary32
  | 5 => binary16
  | 7 => binary16
  | _ => bfloat16

/-- One lane of a floating-point atomic. -/
def fpAtom (f : Fmt) (op : Nat) (ftz sat : Bool) (old operand : Nat) : Nat × Flg :=
  match op with
  | 0x10 => f.add ftz sat old operand
  | 0x11 => f.pick false ftz old operand
  | _ => f.pick true ftz old operand

/-- The new value of an element, and the flags (table "Atomic operations"; a packed pair is two lanes, R330). -/
def atomNew (op fmt : Nat) (ftz sat : Bool) (old operand compare : Nat) : Nat × Flg :=
  let w := 8 * atomBytes fmt
  match op with
  | 0x01 => ((old + operand) % 2 ^ w, {})
  | 0x02 => (old &&& operand, {})
  | 0x03 => (old ||| operand, {})
  | 0x04 => (old ^^^ operand, {})
  | 0x05 => (min old operand, {})
  | 0x06 => (max old operand, {})
  | 0x07 => (if toSigned w old ≤ toSigned w operand then old else operand, {})
  | 0x08 => (if toSigned w old ≤ toSigned w operand then operand else old, {})
  | 0x09 => (operand, {})
  | 0x0A => (if old = compare then operand else old, {})
  | _ =>
    if fmt = 7 || fmt = 8 then
      let lo := fpAtom (atomFp fmt) op ftz sat (bits old 0 16) (bits operand 0 16)
      let hi := fpAtom (atomFp fmt) op ftz sat (bits old 16 16) (bits operand 16 16)
      (lo.1 + 2 ^ 16 * hi.1, lo.2.or hi.2)
    else fpAtom (atomFp fmt) op ftz sat old operand

/-- Count the flags of a floating-point atomic in the statistics of its compartment (R345). -/
def State.atomStats (s : State) (c : Nat) (f : Flg) : State :=
  let s := if f.invalid then s.bump .COH_AT_INVALID c 1 else s
  let s := if f.overflow then s.bump .COH_AT_OVERFLOW c 1 else s
  if f.underflow then s.bump .COH_AT_UNDERFLOW c 1 else s

/-- The outcome of an atomic on an element of accelerator memory: the old value and flags, or none where its line holds
poison. -/
def State.atomAt (s : State) (c a op fmt : Nat) (ftz sat : Bool) (operand compare : Nat) : Option (Nat × Flg) × State :=
  let n := atomBytes fmt
  let s := s.bump .COH_AT_FAR c 1
  if s.poisoned a n then (none, s.bump .COH_AT_POISONED c 1)
  else
    let old := ofLE (s.accRead c a n)
    let r := atomNew op fmt ftz sat old (operand % 2 ^ (8 * n)) (compare % 2 ^ (8 * n))
    let i := s.rd .SYC_WIN_MOOD (winIx c (s.windowOf c (lineOf a))) == 1
    (some (old, r.2), (((s.touch c i false true a n).cmpWrite c a (leBytes n r.1)).atomStats c r.2))

end Sys2Proof.Machine
end

