-- ==== Sys2Proof/Machine/Coherence.lean ====
section
/-! DEFINITION. Coherent windows (chapter 11): agents, the snoop filter, blocked lines and their answers, races, ageing, host agents,
lost agents; and the atomic unit of the home (R337 to R339). -/
namespace Sys2Proof.Machine

open Sys2Proof

/-! ### Agents and windows -/

/-- A die agent. -/
def isDie (a : Nat) : Bool := decide (a < 32)

/-- A host agent. -/
def isHostAgent (a : Nat) : Bool := a == 32 || a == 33

/-- A caching agent. -/
def isCaching (a : Nat) : Bool := decide (a < 34)

/-- The compartment a die agent's stream is bound to (R24). -/
def State.streamCmp (s : State) (a : Nat) : Option Nat :=
  if s.rd .COH_AG_BOUND a = 1 then some (s.rd .COH_AG_CMP a) else none

/-- A die agent is live: its stream is bound and its link up (R297). -/
def State.agentLive (s : State) (a : Nat) : Bool := s.rd .COH_AG_LIVE a == 1

/-- Bring the agent registers up to date with stream bindings and links (R297). -/
def State.refreshAgents (s : State) : State :=
  let s := (List.range 32).foldl (fun s a =>
    match tenants.find? (fun c => (s.grants c).streams.contains a) with
    | some c => ((s.wr .COH_AG_CMP a c).wr .COH_AG_BOUND a 1).wr .COH_AG_LIVE a (b2n (s.coh.dieUp.contains (a / 8)))
    | none => ((s.wr .COH_AG_CMP a 0).wr .COH_AG_BOUND a 0).wr .COH_AG_LIVE a 0) s
  [0, 1].foldl (fun s p => (s.wr .COH_AG_BOUND (32 + p) (b2n (s.pins.hostUp.contains p))).wr .COH_AG_LIVE (32 + p)
    (b2n (s.pins.hostUp.contains p))) s

/-- The range in force of a coherent window: while a change runs, the one before it (R295). -/
def State.cohRange (s : State) (i : Nat) : Nat × Nat :=
  (s.coh.oldWin.find i).getD (s.rd .COH_WIN_BASE i, s.rd .COH_WIN_UNITS i)

/-- The coherent window of a compartment that holds a line. -/
def State.cohWindow (s : State) (c line : Nat) : Option Nat :=
  (span (8 * c) 8).find? (fun i =>
    let r := s.cohRange i
    decide (r.1 ≤ 128 * line) && decide (128 * line < r.1 + r.2 * 2 ^ 21))

/-- An agent may cache a line of a compartment (R297). -/
def State.mayCache (s : State) (a c line : Nat) : Bool :=
  match s.cohWindow c line with
  | none => false
  | some i =>
    if isDie a then true
    else if a = 32 then s.rd .COH_WIN_HOST_A i == 1
    else if a = 33 then s.rd .COH_WIN_HOST_B i == 1
    else false

/-! ### The filter -/

/-- The filter entry of a line. -/
def State.fentry (s : State) (line : Nat) : Option FEntry := s.coh.filter.find line

/-- An entry with no agent is not kept (R310). -/
def State.setEntry (s : State) (line : Nat) (e : FEntry) : State :=
  if e.owner.isNone && e.sharers.isEmpty then { s with coh := { s.coh with filter := Tab.del s.coh.filter line } }
  else { s with coh := { s.coh with filter := Tab.put s.coh.filter line { e with used := s.coh.clock }, clock := s.coh.clock + 1 } }

/-- Clear an agent from the entry of a line. -/
def State.clearAgent (s : State) (line a : Nat) : State :=
  match s.fentry line with
  | none => s
  | some e => s.setEntry line { e with owner := if e.owner = some a then none else e.owner, sharers := e.sharers.filter (fun x => x != a) }

/-- An owner becomes a sharer. -/
def State.demoteOwner (s : State) (line a : Nat) : State :=
  match s.fentry line with
  | none => s
  | some e => if e.owner = some a then s.setEntry line { e with owner := none, sharers := addOnce e.sharers a } else s

/-- Record a requester: as owner, or as sharer (R313). -/
def State.recordAgent (s : State) (line a : Nat) (own : Bool) : State :=
  let e := (s.fentry line).getD ⟨none, [], 0⟩
  if own then s.setEntry line { e with owner := some a, sharers := e.sharers.filter (fun x => x != a) }
  else s.setEntry line { e with sharers := addOnce e.sharers a }

/-- Every agent an entry records, the owner first. -/
def FEntry.holders (e : FEntry) : List Nat := e.owner.toList ++ e.sharers.filter (fun x => some x != e.owner)

/-- The agents recorded for a line. -/
def State.holders (s : State) (line : Nat) : List Nat :=
  match s.fentry line with
  | none => []
  | some e => e.holders

/-- The owner recorded for a line. -/
def State.ownerOf (s : State) (line : Nat) : Option Nat := (s.fentry line).bind (·.owner)

/-- The filter set of a line of a compartment: its slice and the hash of its local number (R310). -/
def State.filterSet (s : State) (c line : Nat) : Nat × Nat :=
  let k := max 1 (s.slicesOf c).length
  (match s.home c line with
    | some h => h.1
    | none => 0, (Config.filterHash (line % 2 ^ 36 / k)).toNat)

/-! ### Messages -/

/-- Send a coherence message to an agent: to a host agent as its CXL message, to others as it is. -/
def State.coh1 (s : State) (agent op line aux : Nat) (poison : Bool) (bs : List Byte) : State :=
  s.emit (if isHostAgent agent then .cxl else .coh) ([agent, op, 128 * line, aux, b2n poison] ++ bs.map BitVec.toNat)

/-- The home's data of a line: poison and bytes. -/
def State.homeData (s : State) (c line : Nat) : Bool × List Byte :=
  (s.linePoison line, s.accRead c (128 * line) 128)

/-- Send a line from the home to a requester. -/
def State.sendLine (s : State) (r : CohReq) (op : Nat) : State :=
  let d := s.homeData r.cmp r.line
  (s.touchLine r.cmp false false false r.line).coh1 r.agent op r.line r.txn d.1 d.2

/-- Write bytes of a line at its home, with the mood of its window so that it may always allocate (R314). -/
def State.homeWrite (s : State) (c a : Nat) (bs : List Byte) (poison : Bool) : State :=
  let mood := s.rd .SYC_WIN_MOOD (winIx c (s.windowOf c (lineOf a))) == 1
  let s := (s.touch c mood false true a bs.length).cmpWrite c a bs
  if poison then s.poisonLines [lineOf a] else s

/-- Bytes of a masked write over a line's present bytes, and the masked bytes written. -/
def maskBytes (mask : Nat) (data : List Nat) (old : List Byte) : List Byte :=
  old.mapIdx (fun i b => if bit mask i then BitVec.ofNat 8 (word data i) else b)

/-! ### Blocked lines -/

/-- A line is blocked (R308). -/
def State.blocked (s : State) (line : Nat) : Bool := s.coh.tracks.any (fun t => t.req.line == line)

/-- Replace the tracker entry of a request. -/
def State.setTrack (s : State) (t : Track) : State :=
  { s with coh := { s.coh with tracks := s.coh.tracks.map (fun (x : Track) =>
      if x.req.line == t.req.line && x.req.op == t.req.op && x.req.agent == t.req.agent && x.req.txn == t.req.txn then t else x) } }

/-- Free a tracker entry. -/
def State.dropTrack (s : State) (t : Track) : State :=
  { s with coh := { s.coh with tracks := s.coh.tracks.filter (fun (x : Track) =>
      !(x.req.line == t.req.line && x.req.op == t.req.op && x.req.agent == t.req.agent && x.req.txn == t.req.txn)) } }

/-- The tracker entry of a line that waits for an agent's answer. -/
def State.trackFor (s : State) (line agent : Nat) : Option Track :=
  s.coh.tracks.find? (fun t => t.req.line == line && t.pend.any (fun p => p.agent == agent))

/-- Send forwards to agents and wait for their answers. -/
def State.forward (s : State) (t : Track) (op : Nat) (back : Bool) (agents : List Nat) : Track × State :=
  ({ t with pend := t.pend ++ agents.map (fun a => ⟨a, op, false, false⟩) },
   agents.foldl (fun s a =>
      (s.bump (if op = 0x13 then .COH_ST_INV else if op = 0x14 then .COH_ST_BACK_INV else .COH_ST_FWD) t.req.cmp 1).coh1 a op t.req.line
        (t.req.agent + 64 * t.req.txn + 2 ^ 16 * b2n back) false []) s)

/-! ### Acting on a request (R313) -/

/-- Data from the home for a request of which no owner supplies it: the state the transition table gives. -/
def State.homeServe (s : State) (t : Track) : Track × State :=
  let r := t.req
  match r.op with
  | 1 =>
    let noE := match s.cohWindow r.cmp r.line with
      | some i => s.rd .COH_WIN_NO_E i == 1
      | none => false
    let others := (s.holders r.line).any (fun a => a != r.agent)
    if others || noE || isHostAgent r.agent then ({ t with owes := false, ends := 1 }, s.sendLine r 0x30)
    else ({ t with owes := false, ends := 2 }, s.sendLine r 0x31)
  | 4 => ({ t with owes := false, ends := 0 }, s.sendLine r 0x33)
  | _ => ({ t with owes := false, ends := 2 }, s.sendLine r 0x31)

/-- The request, its line or its filter entry free: the home's action for the state it finds. -/
def State.actOn (s : State) (t : Track) : Track × State :=
  let r := t.req
  let s := if r.op = 1 || r.op = 2 || (r.op = 3 && !(s.holders r.line).contains r.agent) then s.clearAgent r.line r.agent else s
  let others := (s.holders r.line).filter (fun a => a != r.agent)
  let owner := s.ownerOf r.line
  match r.op with
  | 1 =>
    match owner with
    | some o => s.forward { t with direct := isDie o, owes := !isDie o, ends := 1 } 0x10 false [o]
    | none => ({ t with owes := true }, s)
  | 3 =>
    if (s.holders r.line).contains r.agent then s.forward { t with ends := 2 } 0x13 false others
    else match owner with
      | some o =>
        let x := s.forward { t with req := { r with op := 2 }, direct := isDie o, owes := !isDie o, ends := 2 } 0x11 false [o]
        x.2.forward x.1 0x13 false (others.filter (fun a => a != o))
      | none => s.forward { t with req := { r with op := 2 }, owes := true, ends := 2 } 0x13 false others
  | 2 =>
    match owner with
    | some o =>
      let x := s.forward { t with direct := isDie o, owes := !isDie o, ends := 2 } 0x11 false [o]
      x.2.forward x.1 0x13 false (others.filter (fun a => a != o))
    | none => s.forward { t with owes := true, ends := 2 } 0x13 false others
  | 4 =>
    match owner with
    | some o => if o = r.agent then ({ t with owes := true }, s) else s.forward { t with direct := isDie o, owes := !isDie o } 0x12 false [o]
    | none => ({ t with owes := true }, s)
  | 8 =>
    let hs := s.holders r.line
    (if hs.isEmpty then s else s.bump .COH_ST_INV_WRITES r.cmp 1).forward t 0x13 false hs
  | _ =>
    let hs := s.holders r.line
    let s := if hs.isEmpty then s else s.bump .COH_ST_INV_WRITES r.cmp 1
    let x := s.forward t 0x13 true owner.toList
    x.2.forward x.1 0x13 false (hs.filter (fun a => some a != owner))

/-- Perform a write or atomic whose answers have all arrived (R315, R337, R339). -/
def State.performReq (s : State) (r : CohReq) : State :=
  match r.op with
  | 8 => (s.homeWrite r.cmp (128 * r.line) (toBytes 128 r.data) false).coh1 r.agent 0x27 r.line r.txn false []
  | 9 =>
    let old := s.accRead r.cmp (128 * r.line) 128
    let full := r.mask % 2 ^ 128 == 2 ^ 128 - 1
    let bad := s.linePoison r.line && !full
    let s := if r.mask % 2 ^ 128 = 0 then s else s.homeWrite r.cmp (128 * r.line) (maskBytes r.mask r.data old) bad
    s.coh1 r.agent 0x27 r.line r.txn false []
  | 0x0C =>
    let s := if isDie r.agent then s.bump .COH_AT_FAR_DIE r.cmp 1 else s
    let x := s.atomAt r.cmp r.addr r.aop r.fmt false false r.operand r.compare
    match x.1 with
    | some (old, _) => x.2.coh1 r.agent 0x36 r.line r.txn false (leBytes 8 old)
    | none => x.2.coh1 r.agent 0x36 r.line r.txn true []
  | _ => s

/-- Reserve a line for the head of its starved list (R320). -/
def State.reserveNext (s : State) (line : Nat) : State :=
  match s.coh.starved.find? (fun x => x.line == line) with
  | some x => { s with coh := { s.coh with reserved := Tab.put s.coh.reserved line (x.agent, x.txn) } }
  | none => { s with coh := { s.coh with reserved := Tab.del s.coh.reserved line } }

/-- A request has finished: its line is unblocked and reserved for the head of its starved list (R308, R320). -/
def State.unblock (s : State) (t : Track) : State := (s.dropTrack t).reserveNext t.req.line

/-- Move a request whose answers have all arrived to its next stage. -/
def State.stage (s : State) (t : Track) : State :=
  if !t.pend.isEmpty || t.wait.isSome || t.granted then s.setTrack t
  else
    let r := t.req
    let installed (s : State) (t : Track) : State := (s.recordAgent r.line r.agent (t.ends == 2)).unblock t
    match r.op with
    | 1 =>
      let x := if t.owes then s.homeServe t else (t, s)
      if isHostAgent r.agent && (!t.direct || t.got) then installed x.2 x.1 else x.2.setTrack { x.1 with granted := true }
    | 2 =>
      if t.owes then
        let x := s.homeServe t
        if isHostAgent r.agent then installed x.2 x.1 else x.2.setTrack { x.1 with granted := true }
      else
        let s := s.coh1 r.agent 0x21 r.line r.txn false []
        if isHostAgent r.agent && t.got then installed s t else s.setTrack { t with granted := true }
    | 3 => (s.coh1 r.agent 0x21 r.line r.txn false []).setTrack { t with granted := true }
    | 4 =>
      let x := if t.owes then s.homeServe t else (t, s)
      x.2.unblock x.1
    | 0x14 => s.unblock t
    | 0x15 => s.unblock t
    | _ => (s.performReq r).unblock t

/-- Lines of a filter set, with their entries. -/
def State.setLines (s : State) (c line : Nat) : List (Nat × FEntry) :=
  s.coh.filter.filter (fun e => s.filterSet c e.1 == s.filterSet c line)

/-- The victim of a full filter set: fewest presence bits, then least recently used, among lines that are not blocked (R312). -/
def State.filterVictim (s : State) (c line : Nat) : Option (Nat × FEntry) :=
  ((s.setLines c line).filter (fun e => !s.blocked e.1)).foldl (fun (b : Option (Nat × FEntry)) e =>
    match b with
    | none => some e
    | some x => if e.2.holders.length < x.2.holders.length || (e.2.holders.length == x.2.holders.length && e.2.used < x.2.used) then some e
      else b) none

/-- The request needs a filter entry that its line does not have. -/
def State.needsEntry (s : State) (r : CohReq) : Bool := (r.op == 1 || r.op == 2 || r.op == 3) && (s.fentry r.line).isNone

/-- Accept a request: block its line, make room in the filter where it needs an entry, and act (R312, R313). -/
def State.acceptReq (s : State) (r : CohReq) : State :=
  let slice := match s.home r.cmp r.line with
    | some h => h.1
    | none => 0
  let s := { s with coh := { s.coh with
      reserved := if s.coh.reserved.find r.line = some (r.agent, r.txn) then Tab.del s.coh.reserved r.line else s.coh.reserved
      starved := s.coh.starved.filter (fun x => !(x.line == r.line && x.agent == r.agent && x.txn == r.txn))
      hostQ := s.coh.hostQ.filter (fun q => !(q.line == r.line && q.agent == r.agent && q.txn == r.txn))
      retried := s.coh.retried.filter (fun q => !(q.agent == r.agent && q.txn == r.txn)) } }
  let caches := isCaching r.agent && s.mayCache r.agent r.cmp r.line
  let r := if (r.op = 1 || r.op = 2 || r.op = 3) && !caches then { r with op := 4 } else r
  let t : Track := ⟨r, slice, none, [], false, false, false, 0, false⟩
  let add (s : State) (t : Track) : State := { s with coh := { s.coh with tracks := s.coh.tracks ++ [t] } }
  let victim := if s.needsEntry r && decide (16 ≤ (s.setLines r.cmp r.line).length) then s.filterVictim r.cmp r.line else none
  match victim with
  | some v =>
    let e : Track := ⟨{ r with op := 0x14, agent := 63, txn := 0, line := v.1 }, slice, none, [], false, false, false, 0, false⟩
    let x := s.forward e 0x14 false v.2.holders
    (add (add x.2 x.1) { t with wait := some v.1 })
  | none =>
    let x := (add s t).actOn t
    ({ x.2 with coh := { x.2.coh with tracks := x.2.coh.tracks.map (fun (y : Track) => if y = t then x.1 else y) } }).stage x.1

/-- Requests that waited for the filter entry of a line go on. -/
def State.wakeVictim (s : State) (line : Nat) : State :=
  if s.blocked line then s
  else (s.coh.tracks.filter (fun t => t.wait == some line)).foldl (fun s t =>
    let t' := { t with wait := none }
    let x := s.actOn t'
    ({ x.2 with coh := { x.2.coh with tracks := x.2.coh.tracks.map (fun (y : Track) => if y = t then x.1 else y) } }).stage x.1) s

/-- Tracker entries in use in a slice (R309). -/
def State.trackCount (s : State) (slice : Nat) : Nat := (s.coh.tracks.filter (fun t => t.slice == slice)).length

/-- The slice of a request's line. -/
def State.sliceOf (s : State) (r : CohReq) : Option Nat := (s.home r.cmp r.line).map (·.1)

/-- Append a request to the starved list of its line where the table of its slice has room. -/
def State.starve (s : State) (slice : Nat) (r : CohReq) : State :=
  if s.coh.starved.any (fun x => x.line == r.line && x.agent == r.agent && x.txn == r.txn)
      || decide (16 ≤ (s.coh.starved.filter (fun x => x.slice == slice)).length) then s
  else State.bump ({ s with coh := { s.coh with starved := s.coh.starved ++ [(⟨slice, r.line, r.agent, r.txn⟩ : Starve)] } } : State) .COH_ST_STARVED r.cmp 1

/-- A request in a host queue can be accepted: its line is free and not reserved for another, and the tracker of its slice has room. -/
def State.hostReady (s : State) (q : CohReq) : Bool :=
  !s.blocked q.line && (match s.coh.reserved.find q.line with
    | some h => h == (q.agent, q.txn)
    | none => true) && (match s.sliceOf q with
    | some k => decide (s.trackCount k < 64)
    | none => false)

/-- Host requests that wait are accepted, oldest first, as soon as they can be; those the starved table had no room for enter it as its
entries free (R320, R324). -/
def State.hostsGo (s : State) : State :=
  let s := s.coh.hostQ.foldl (fun s q => if s.hostReady q then s.acceptReq q else s) s
  s.coh.hostQ.foldl (fun s q => match s.sliceOf q with
    | some k => s.starve k q
    | none => s) s

/-- What follows the unblocking of a line. -/
def State.afterUnblock (s : State) (line : Nat) : State := (s.wakeVictim line).hostsGo

/-! ### Arrival (R319, R320, R324) -/

/-- Turn a request away: RETRY; a junction requester keeps it to resend (R319). -/
def State.retryReq (s : State) (r : CohReq) : State :=
  let s := s.bump .COH_ST_RETRY r.cmp 1
  if isCaching r.agent then s.coh1 r.agent 0x28 r.line r.txn false []
  else { s with coh := { s.coh with retried := s.coh.retried.filter (fun q => !(q.agent == r.agent && q.txn == r.txn)) ++ [r] } }

/-- A request reaches its home (R320). -/
def State.arrive (s : State) (r : CohReq) : State :=
  match s.home r.cmp r.line with
  | none => s
  | some (slice, _) =>
    let other := match s.coh.reserved.find r.line with
      | some h => h != (r.agent, r.txn)
      | none => false
    let busy := s.blocked r.line || decide (64 ≤ s.trackCount slice)
    if isHostAgent r.agent then
      if !other && !busy then (s.acceptReq r).afterUnblock r.line
      else if 32 ≤ (s.coh.hostQ.filter (fun q => s.sliceOf q == some slice)).length then s
      else (({ s with coh := { s.coh with hostQ := s.coh.hostQ ++ [r] } }).bump .COH_ST_HOST_HELD r.cmp 1).starve slice r
    else if other then s.retryReq r
    else if busy then (if 15 ≤ r.age then s.starve slice r else s).retryReq r
    else (s.acceptReq r).afterUnblock r.line

/-! ### Requests of agents -/

/-- Send ERROR to a die agent. -/
def State.cohError (s : State) (agent txn status seq : Nat) : State := s.emit .coh [agent, 0x29, txn, status, seq]

/-- A request of a die agent under its stream's binding: refused while intake is closed, translated at its die port, an ERROR where it
faults (R24, R303). -/
def State.dieRequest (s : State) (agent txn va : Nat) (indic : Bool) (need : Need) (k : Nat → Nat → State → State) : State :=
  match s.streamCmp agent with
  | none => s
  | some c =>
    if !s.agentLive agent then s
    else if !s.intakeOpen c then s.cohError agent txn 3 0
    else
      let r := s.translate (agent / 8) c va indic need
      let t := if r.2.1 then r.2.2.breach c .translationLate { engine := 0xFF, ring := agent, address := va } else r.2.2
      match r.1 with
      | .error f =>
        let u := t.postFault c indic f (agent / 8) 0x7F agent 0 none
        let seq := if t.rd .INC_SEQ_NEXT 0 = u.rd .INC_SEQ_NEXT 0 then 0 else t.rd .INC_SEQ_NEXT 0
        u.cohError agent txn (if f.status = 0x09 then 2 else 1) seq
      | .ok x =>
        let a := x.out + (va - x.base)
        if x.target = 0 then k c a t else t.emit .host [x.target - 1, 5, agent, need.code, a]

/-- A request of any agent: a die agent's by virtual address, a junction agent's by APA in its compartment's granules. -/
def State.agentRequest (s : State) (agent cmp txn addr : Nat) (indic : Bool) (need : Need) (k : Nat → Nat → State → State) : State :=
  if isDie agent then s.dieRequest agent txn addr indic need k
  else if decide (40 ≤ agent) && decide (agent ≤ 44) && s.ownsExtent cmp (lineOf addr * 128) 128 then k cmp addr s
  else s

/-- A request with no data. -/
def plainReq (op agent txn c a age : Nat) : CohReq := ⟨op, agent, txn, c, lineOf a, min age 15, a, [], 0, 0, 0, 0, 0⟩

/-- GET_COPY of a die agent (R313). -/
def execGetCopy (agent txn addr : Nat) (indic : Bool) (age : Nat) (s : State) : Out :=
  if !isDie agent then .next s
  else .next (s.dieRequest agent txn addr indic .read (fun c a s => s.arrive (plainReq 1 agent txn c a age)))

/-- GET_OWN of a die agent. -/
def execGetOwn (agent txn addr : Nat) (indic : Bool) (age : Nat) (s : State) : Out :=
  if !isDie agent then .next s
  else .next (s.dieRequest agent txn addr indic .write (fun c a s => s.arrive (plainReq 2 agent txn c a age)))

/-- CLAIM_OWN of a die agent. -/
def execClaimOwn (agent txn addr : Nat) (indic : Bool) (age : Nat) (s : State) : Out :=
  if !isDie agent then .next s
  else .next (s.dieRequest agent txn addr indic .write (fun c a s => s.arrive (plainReq 3 agent txn c a age)))

/-- PEEK of any agent. -/
def execPeek (agent cmp txn addr : Nat) (indic : Bool) (age : Nat) (s : State) : Out :=
  .next (s.agentRequest agent cmp txn addr indic .read (fun c a s => s.arrive (plainReq 4 agent txn c a age)))

/-- PUT_LINE (R315). -/
def execPutLine (agent cmp txn addr : Nat) (indic : Bool) (age : Nat) (data : List Nat) (s : State) : Out :=
  .next (s.agentRequest agent cmp txn addr indic .write (fun c a s => s.arrive { plainReq 8 agent txn c a age with data := data }))

/-- PUT_BYTES (R315). -/
def execPutBytes (agent cmp txn addr : Nat) (indic : Bool) (age mask : Nat) (data : List Nat) (s : State) : Out :=
  .next (s.agentRequest agent cmp txn addr indic .write (fun c a s => s.arrive { plainReq 9 agent txn c a age with data := data, mask := mask }))

/-- ATOMIC_FAR (R329, R333, R337); a pairing or alignment the tables do not list names no atomic. -/
def execAtomicFar (agent cmp txn addr : Nat) (indic : Bool) (age op fmt operand compare : Nat) (s : State) : Out :=
  if !atomPair op fmt || addr % atomBytes fmt != 0 then .next s
  else .next (s.agentRequest agent cmp txn addr indic .atomic (fun c a s =>
    s.arrive { plainReq 0x0C agent txn c a age with aop := op, fmt := fmt, operand := operand, compare := compare }))

/-- A die-port EVENT: an event doorbell word under the stream's binding; refused while intake is closed (R189, R190, R303). -/
def execEvent (agent word : Nat) (s : State) : Out :=
  match s.streamCmp agent with
  | none => .next s
  | some c =>
    let n := word % 2048
    if !s.agentLive agent || !isDie agent then .next s
    else if !s.intakeOpen c then .next (s.cohError agent 0 3 0)
    else if s.bellOk n (some c) then .next (s.bellRaises n [2 + agent / 8])
    else .next (s.bump .EVT_DB_DROPPED_TOTAL 0 1)

/-! ### Answers -/

/-- Remove an agent's answer from a tracker entry and move it on. -/
def State.answered (s : State) (t : Track) (agent : Nat) : State :=
  (s.stage { t with pend := t.pend.filter (fun p => p.agent != agent) }).afterUnblock t.req.line

/-- INSTALLED finishes a request (R308, R309). -/
def execInstalled (agent addr : Nat) (s : State) : Out :=
  let l := lineOf addr
  match s.coh.tracks.find? (fun t => t.req.line == l && t.req.agent == agent && t.granted) with
  | some t => .next (((s.recordAgent l agent (t.ends == 2)).unblock t).afterUnblock l)
  | none => .next s

/-- The state a served owner reports: gone, sharer, or still owner. -/
def State.ownerEnds (s : State) (line agent code : Nat) : State :=
  if code = 0 then s.clearAgent line agent else if code = 1 then s.demoteOwner line agent else s

/-- RSP_SERVED (R313). -/
def State.served (s : State) (agent line code : Nat) : State :=
  match s.trackFor line agent with
  | some t => (s.ownerEnds line agent code).answered t agent
  | none => s

/-- RSP_CLEARED (R313). -/
def State.cleared (s : State) (agent line : Nat) : State :=
  match s.trackFor line agent with
  | some t => (s.clearAgent line agent).answered t agent
  | none => s

/-- RSP_MISS: the agent leaves the entry and the home serves in its place (R311). -/
def State.missed (s : State) (agent line : Nat) : State :=
  match s.trackFor line agent with
  | some t =>
    let fwd := t.pend.any (fun p => p.agent == agent && (p.op == 0x10 || p.op == 0x11 || p.op == 0x12))
    let t := if fwd && t.direct then { t with direct := false, owes := true } else t
    ((s.bump .COH_ST_RSP_MISS t.req.cmp 1).clearAgent line agent).answered t agent
  | none => s

/-- RSP_SERVED. -/
def execRspServed (agent addr code : Nat) (s : State) : Out := .next (s.served agent (lineOf addr) code)
/-- RSP_CLEARED. -/
def execRspCleared (agent addr : Nat) (s : State) : Out := .next (s.cleared agent (lineOf addr))
/-- RSP_MISS. -/
def execRspMiss (agent addr : Nat) (s : State) : Out := .next (s.missed agent (lineOf addr))

/-- Change an agent's answer in a tracker entry. -/
def Track.mark (t : Track) (agent : Nat) (f : Answer → Answer) : Track :=
  { t with pend := t.pend.map (fun p => if p.agent == agent then f p else p) }

/-- Both halves of an eviction crossing have arrived. -/
def Track.crossed (t : Track) (agent : Nat) : Bool := t.pend.any (fun p => p.agent == agent && p.evicting && p.wb)

/-- A crossing moves on once it is complete. -/
def State.crossing (s : State) (t : Track) (agent : Nat) : State :=
  if t.crossed agent then s.answered t agent else s.setTrack t

/-- RSP_EVICTING: the forward will be matched by the agent's writeback (R317). -/
def execRspEvicting (agent addr : Nat) (s : State) : Out :=
  let l := lineOf addr
  match s.trackFor l agent with
  | some t => .next ((s.bump .COH_ST_EVICT_CROSS t.req.cmp 1).crossing (t.mark agent (fun p => { p with evicting := true })) agent)
  | none => .next s

/-- A writeback taken from an agent: written to the slice, matched to an outstanding forward, and acknowledged (R313, R317). -/
def State.writeback (s : State) (agent c line : Nat) (poison : Bool) (data : List Nat) : State :=
  let w (s : State) : State := (s.homeWrite c (128 * line) (toBytes 128 data) poison).clearAgent line agent
  let done (s : State) : State := s.coh1 agent 0x26 line 0 false []
  match s.trackFor line agent with
  | some t =>
    if isHostAgent agent then done (s.homeWrite c (128 * line) (toBytes 128 data) poison)
    else
      let s := w s
      let fwd := t.pend.any (fun p => p.agent == agent && (p.op == 0x10 || p.op == 0x12))
      let own := t.pend.any (fun p => p.agent == agent && p.op == 0x11)
      let x := if fwd then s.homeServe { t with direct := false }
        else if own then ({ t with direct := false, owes := true }, s) else (t, s)
      done (x.2.crossing (x.1.mark agent (fun p => { p with wb := true })) agent)
  | none => if s.ownerOf line = some agent then done (w s) else done s

/-- LINE_WB of a die agent (R313, R317). -/
def execLineWb (agent addr : Nat) (poison : Bool) (data : List Nat) (s : State) : Out :=
  match s.streamCmp agent with
  | some c =>
    if isDie agent && s.agentLive agent && s.ownsExtent c (lineOf addr * 128) 128 then .next (s.writeback agent c (lineOf addr) poison data)
    else .next s
  | none => .next s

/-- LINE_BACK: dirty data for CLEAR with DATA_BACK or BACK_INV; it answers for its agent (R312, R315). -/
def execLineBack (agent addr : Nat) (poison : Bool) (data : List Nat) (s : State) : Out :=
  let l := lineOf addr
  match s.trackFor l agent with
  | some t => .next (((s.homeWrite t.req.cmp (128 * l) (toBytes 128 data) poison).clearAgent l agent).answered t agent)
  | none => .next s

/-- LINE_PEEK: an owner's data reaches a non-caching requester, which keeps no copy (R298). -/
def execLinePeek (agent requester addr : Nat) (poison : Bool) (data : List Nat) (s : State) : Out :=
  let l := lineOf addr
  match s.coh.tracks.find? (fun t => t.req.line == l && t.req.agent == requester && t.req.op == 4 && t.direct && !t.got) with
  | some t =>
    if s.ownerOf l = some agent then
      .next ((s.setTrack { t with got := true }).emit .data ([requester, 128 * l, b2n poison] ++ (data.take 128)))
    else .next s
  | none => .next s

/-- A junction requester resends a request that was turned away, its age one higher (R319). -/
def execRetryResend (agent txn : Nat) (s : State) : Out :=
  match s.coh.retried.find? (fun q => q.agent == agent && q.txn == txn) with
  | some q => .next (({ s with coh := { s.coh with retried := s.coh.retried.erase q } }).arrive { q with age := min (q.age + 1) 15 })
  | none => .next s

/-- A reservation expires unused and passes to the next starved request (R320). -/
def execReservationExpiry (line : Nat) (s : State) : Out :=
  match s.coh.reserved.find line with
  | none => .next s
  | some h =>
    let c := (compartments.find? (fun c => s.ownsExtent c (128 * line) 128)).getD 0
    let s := { s with coh := { s.coh with starved := s.coh.starved.filter (fun x => !(x.line == line && (x.agent, x.txn) == h)) } }
    .next (((s.bump .COH_ST_RES_EXPIRED c 1).reserveNext line).hostsGo)

/-! ### Window changes (R294, R295) -/

/-- A window's values are legal: in the granules of one tier and clear of the compartment's other windows (R294). -/
def State.cohWinOk (s : State) (i : Nat) : Bool :=
  let c := i / 8
  let b := s.rd .COH_WIN_BASE i
  let n := s.rd .COH_WIN_UNITS i * 2 ^ 21
  n == 0 || (s.ownsExtent c b n && (decide (b < t1Bytes) == decide (b + n - 1 < t1Bytes)) &&
    ((span (8 * c) 8).all (fun j => j == i ||
      (let b2 := s.rd .COH_WIN_BASE j
       let n2 := s.rd .COH_WIN_UNITS j * 2 ^ 21
       n2 == 0 || decide (b + n ≤ b2) || decide (b2 + n2 ≤ b)))))

/-- Back-invalidate the filter entries of the lines a window write removes (R295). -/
def State.removeLines (s : State) (i : Nat) (old : Nat × Nat) : State :=
  let c := i / 8
  let now := (s.rd .COH_WIN_BASE i, s.rd .COH_WIN_UNITS i)
  let inside (r : Nat × Nat) (l : Nat) : Bool := decide (r.1 ≤ 128 * l) && decide (128 * l < r.1 + r.2 * 2 ^ 21)
  let gone := s.coh.filter.filter (fun e => inside old e.1 && !inside now e.1 && s.ownsExtent c (128 * e.1) 128)
  if gone.isEmpty then s
  else
    let s := { (s.wr .COH_WIN_BUSY c 1) with coh := { s.coh with oldWin := Tab.put s.coh.oldWin i old } }
    gone.foldl (fun s e =>
      let slice := match s.home c e.1 with
        | some h => h.1
        | none => 0
      let x := s.forward ⟨{ plainReq 0x15 63 0 c (128 * e.1) 0 with line := e.1 }, slice, none, [], false, false, false, 0, false⟩ 0x14 false e.2.holders
      { x.2 with coh := { x.2.coh with tracks := x.2.coh.tracks ++ [x.1] } }) s

/-- What follows a write of a coherent window's range: an illegal window is applied with no units and logged; removed lines are
back-invalidated. -/
def State.cohWindowWritten (s : State) (source fn off i : Nat) (old : Nat × Nat) : State :=
  let s := if s.cohWinOk i then s
    else (s.logClamp ⟨fieldId off 0, source, fn, false, s.rd .COH_WIN_UNITS i % 2 ^ 32, 0, 0, false⟩).wr .COH_WIN_UNITS i 0
  if old = (s.rd .COH_WIN_BASE i, s.rd .COH_WIN_UNITS i) then s else s.removeLines i old

/-- The back-invalidation of a window change has ended: the new range takes effect (R295). -/
def execCoherentWindowChangeDone (cmp : Nat) (s : State) : Out :=
  if s.rd .COH_WIN_BUSY cmp = 0 || s.coh.tracks.any (fun t => t.req.op == 0x15 && t.req.cmp == cmp) then .next s
  else .next { (s.wr .COH_WIN_BUSY cmp 0) with coh := { s.coh with oldWin := s.coh.oldWin.keep (fun i _ => i / 8 != cmp) } }

/-! ### Lost agents (R326, R327) -/

/-- The compartment that owns a line. -/
def State.lineCmp (s : State) (line : Nat) : Nat := (compartments.find? (fun c => s.ownsExtent c (128 * line) 128)).getD 0

/-- Lines of the filter that name one of the agents as owner. -/
def State.ownedLines (s : State) (as : List Nat) : List Nat :=
  (s.coh.filter.filter (fun e => match e.2.owner with
    | some o => as.contains o
    | none => false)).map (·.1)

/-- Agents are lost: owned lines are poisoned, forwards to them answered with RSP_MISS, the agents cleared, AGENT_LOST posted for each compartment
concerned, and their own requests given up (R326). -/
def State.loseAgents (s : State) (as : List Nat) : State :=
  let lost := s.ownedLines as
  let s := as.foldl (fun s a => s.wr .COH_AG_LOST_LINES a (s.ownedLines [a]).length) s
  let first := as.headD 0
  let groups := (lost.map s.lineCmp).eraseDups.map (fun c => (c, (lost.filter (fun l => s.lineCmp l == c)).length,
    (as.find? (fun a => (s.ownedLines [a]).any (fun l => s.lineCmp l == c))).getD first))
  let s := lost.foldl (fun s l =>
    let c := s.lineCmp l
    s.homeWrite c (128 * l) (s.accRead c (128 * l) 128) true) s
  let s := s.coh.filter.foldl (fun s e => as.foldl (fun s a => s.clearAgent e.1 a) s) s
  let s := s.coh.tracks.foldl (fun s t => (t.pend.filter (fun p => as.contains p.agent)).foldl (fun s p => s.missed p.agent t.req.line) s) s
  let gone := s.coh.tracks.filter (fun t => as.contains t.req.agent)
  let s := { s with coh := { s.coh with
      starved := s.coh.starved.filter (fun x => !as.contains x.agent)
      hostQ := s.coh.hostQ.filter (fun q => !as.contains q.agent) } }
  let s := (gone.foldl (fun s t => (s.unblock t).afterUnblock t.req.line) s).hostsGo
  groups.foldl (fun s g => s.post (bothInc 0x0802 .job (some g.1) g.2.2 0 [g.2.1])) s

/-- A die port link goes down (R326). -/
def execDiePortLinkDown (port : Nat) (s : State) : Out :=
  if 4 ≤ port || !s.coh.dieUp.contains port then .next s
  else
    let t := s.loseAgents (span (8 * port) 8)
    .next (State.refreshAgents { t with coh := { t.coh with dieUp := t.coh.dieUp.filter (fun (p : Nat) => p != port) } })

/-- A die port link comes up: the agents of its bound streams live again (R297). -/
def execDiePortLinkUp (port : Nat) (s : State) : Out :=
  if 4 ≤ port then .next s
  else .next (State.refreshAgents { s with coh := { s.coh with dieUp := addOnce s.coh.dieUp port } })

/-- A warm reset loses every die and host agent, then clears the filter (R327). -/
def State.warmCoherence (s : State) : State :=
  let s := s.loseAgents (List.range 34)
  { s with coh := { s.coh with filter := [], tracks := [], starved := [], reserved := [], hostQ := [], retried := [], oldWin := [] } }

/-- A cold reset clears the filter and poisons nothing (R327). -/
def State.coldCoherence (s : State) : State :=
  { s with coh := { s.coh with filter := [], tracks := [], starved := [], reserved := [], hostQ := [], retried := [], oldWin := [] } }

/-! ### Hosts over CXL (R322 to R325) -/

/-- The coherent window a host reaches at a device physical address, and the APA there (R325). -/
def State.dpaWindow (s : State) (port dpa : Nat) : Option (Nat × Nat) :=
  match (List.range 256).find? (fun i =>
      decide (0 < (s.cohRange i).2) && s.rd (if port = 0 then .COH_WIN_HOST_A else .COH_WIN_HOST_B) i == 1
        && s.rd .CMP_SEALED (i / 8) == 0
        && decide (s.rd .COH_WIN_DPA i ≤ dpa) && decide (dpa < s.rd .COH_WIN_DPA i + (s.cohRange i).2 * 2 ^ 21)) with
  | some i => some (i / 8, (s.cohRange i).1 + (dpa - s.rd .COH_WIN_DPA i))
  | none => none

/-- A host access in no window that the host may use (R325). -/
def State.memOutside (s : State) (port dpa : Nat) (write : Bool) : State :=
  (if write then s else s.emit .cxl [32 + port, 0x33, dpa, 0, 1]).post (devInc 0x0803 .notice port 0 [dpa, b2n write])

/-- A CXL.mem request of a host (table "CXL features"): `kind` 0 MemRd with MetaValue 0 I, 1 S, 2 A; 1 MemWr; 2 MemWrPtl. -/
def execCxlM2sRequest (port kind metaV txn dpa mask : Nat) (data : List Nat) (s : State) : Out :=
  let agent := 32 + port
  if 2 ≤ port || !s.pins.hostUp.contains port || 3 ≤ kind || 3 ≤ metaV then .next s
  else match s.dpaWindow port dpa with
    | none => .next (s.memOutside port dpa (kind != 0))
    | some (c, a) =>
      match kind with
      | 0 => .next (s.arrive (plainReq (if metaV = 0 then 4 else if metaV = 1 then 1 else 2) agent txn c a 15))
      | 1 =>
        if s.ownerOf (lineOf a) = some agent then .next (s.writeback agent c (lineOf a) false data)
        else .next (s.arrive { plainReq 8 agent txn c a 15 with data := data })
      | _ => .next (s.arrive { plainReq 9 agent txn c a 15 with data := data, mask := mask })

/-- A writeback of an owner outside a back-invalidation leaves it without the line; its BIRsp tells the rest (R322, R323). -/
def execCxlBirsp (port addr : Nat) (shared : Bool) (s : State) : Out :=
  let agent := 32 + port
  let l := lineOf addr
  if 2 ≤ port then .next s
  else match s.trackFor l agent with
    | none => .next s
    | some t =>
      if !(s.holders l).contains agent then .next (s.missed agent l)
      else if t.pend.any (fun p => p.agent == agent && (p.op == 0x13 || p.op == 0x14)) then .next (s.cleared agent l)
      else .next (s.served agent l (b2n shared))

/-- An H2D snoop: the junction caches no host memory (R322). -/
def execH2dSnoop (port tag : Nat) (s : State) : Out :=
  if 2 ≤ port then .next s else .next (s.emit .cxl [32 + port, 0x100, tag])

/-- A BIConflict is answered with BIConflictAck (R322). -/
def execBiconflict (port tag : Nat) (s : State) : Out :=
  if 2 ≤ port then .next s else .next (s.emit .cxl [32 + port, 0x101, tag])

/-- A PCIe AtomicOp of the host completes with Unsupported Request (R333). -/
def execHostAtomicopRequest (port fn addr : Nat) (s : State) : Out :=
  if 2 ≤ port then .next s else .next (s.emit .unsupported [fn, addr])

/-- Direct data of a die owner reaches the host port unit for a host requester: S2M data and completion to the host, and INSTALLED
on its behalf once every grant is there (R309, R323). -/
def execLineS (port op addr : Nat) (poison : Bool) (data : List Nat) (s : State) : Out :=
  let agent := 32 + port
  let l := lineOf addr
  if 2 ≤ port || op < 0x30 || 0x33 < op then .next s
  else match s.coh.tracks.find? (fun t => t.req.line == l && t.req.agent == agent && t.direct && !t.got) with
    | none => .next s
    | some t =>
      let s := s.coh1 agent op l t.req.txn poison (toBytes 128 data)
      let t := { t with got := true }
      if t.granted then .next (((s.recordAgent l agent (t.ends == 2)).unblock t).afterUnblock l) else .next (s.setTrack t)

end Sys2Proof.Machine
end

