-- ==== Sys2Proof/Machine/Move.lean ====
section
/-! DEFINITION. The MOVE engine's copies and fills (R141, R142), the XLATE descriptors (R229, R261 to R264), and the host's
answers to host-served accesses (R210 to R228, R504). -/
namespace Sys2Proof.Machine

open Sys2Proof

/-- The client port of the MOVE engine (R249). -/
def movePort : Nat := 0x09

/-- The shape of a copy or fill: rows, their places, and which sides are host-served. -/
structure Shape where
  src     : Nat
  dst     : Nat
  rows    : Nat
  bytes   : Nat
  sStride : Nat
  dStride : Nat
  srcHost : Bool
  dstHost : Bool
  pasid   : Nat
  fill    : Bool
  deriving DecidableEq, Repr

/-- The shape a MOVE descriptor spells. -/
def shapeOf (d : List Nat) : Shape :=
  match dOpcode d with
  | 0x12 => ⟨mvSrc d, mvDst d, m2Rows d, m2RowBytes d, m2SrcStride d, m2DstStride d, false, false, 0, false⟩
  | 0x11 => ⟨mvSrc d, mvDst d, 1, mvLen d, 0, 0, false, mvDstHost d, mvPasid d, true⟩
  | _ => ⟨mvSrc d, mvDst d, 1, mvLen d, 0, 0, mvSrcHost d, mvDstHost d, mvPasid d, false⟩

/-- The next run of source bytes of an operation. -/
inductive SrcStep where
  | bytes (bs : List Byte)
  | read (port addr len : Nat) (ats : Bool)
  | ask (page : Nat)
  | stop (f : Flt)
  | poison (n : Nat)
  deriving DecidableEq, Repr

/-- Bytes of a span before its first poisoned line. -/
def State.cleanPrefix (s : State) (a n : Nat) : Nat :=
  match (linesOf a n).find? s.linePoison with
  | some l => 128 * l - a
  | none => n

/-- Pages of a span that are not translated yet, at most TRN_ATS_AHEAD of them (R214). -/
def State.askAhead (s : State) (fn : Nat) (pasid : Option Nat) (va n : Nat) (write : Bool) : List Nat :=
  let pages := (span (va / 4096) ((va + n - 1) / 4096 - va / 4096 + 1)).map (fun p => 4096 * p)
  (pages.take (s.rd .TRN_ATS_AHEAD (portOf fn))).filter (fun p => match s.hostMap fn pasid none (max p va) write with
    | .missing _ => true
    | _ => false)

/-- Ask for the translations of the pages an operation needs next (R211, R214). -/
def State.askPages (s : State) (fn : Nat) (pasid : Option Nat) (port va n : Nat) (write : Bool) : State :=
  (s.askAhead fn pasid va n write).foldl (fun s p => s.atsRequest fn pasid none port p) s

/-- The next source bytes at an address, `n` still wanted. -/
def State.srcStep (s : State) (o : Op) (h : Shape) (va n : Nat) : SrcStep × Op × State :=
  if h.srcHost then
    match s.hostMap o.fn (some h.pasid) none va false with
    | .missing _ => (.ask (va / 4096 * 4096), o, s.askPages o.fn (some h.pasid) movePort va n false)
    | .bad r => (.stop { reason := r, va := va, need := .read, host := true, pasid := some h.pasid }, o, s)
    | .at a l => (.read (portOf o.fn) a (min n l) (s.cfg o.fn .ats == 1), o, s.hostUse movePort o.fn (some h.pasid) va false)
  else
    let r := s.translate movePort o.cmp va (dIndic o.desc) .read
    let l := r.2.2.opLate o r.2.1 va
    match r.1 with
    | .error f => (.stop f, l.1, l.2)
    | .ok t =>
      let m := min n (t.base + t.size - va)
      let a := t.out + (va - t.base)
      if t.target = 0 then
        let k := l.2.cleanPrefix a m
        if k = 0 then (.poison 0, l.1, l.2)
        else (.bytes (l.2.accRead o.cmp a k), l.1, l.2.touch o.cmp (dIndic o.desc) t.nc false a k)
      else
        let b := if dIndic o.desc then l.2.opBreach l.1 .uncontractedPath { address := va } else l
        (.read (t.target - 1) a m false, b.1, b.2)

/-- The pieces of a destination span, up to its first problem. -/
def State.hostSpan (s : State) (fn : Nat) (pasid : Option Nat) : Nat → Nat → Nat → List Piece × Option HostMap
  | 0, _, _ => ([], none)
  | fuel + 1, va, n =>
    if n = 0 then ([], none)
    else match s.hostMap fn pasid none va true with
      | .at a l =>
        let m := min n l
        let r := s.hostSpan fn pasid fuel (va + m) (n - m)
        (⟨1 + portOf fn, 0, a, m, true, false⟩ :: r.1, r.2)
      | x => ([], some x)

/-- Length of a list of pieces in bytes. -/
def piecesLen (ps : List Piece) : Nat := ps.foldl (fun n p => n + p.len) 0

/-- The outcome of writing a run of bytes. -/
inductive DstOut where
  | done
  | ask (page : Nat)
  | stop (n : Nat) (f : Flt)
  deriving DecidableEq, Repr

/-- Write the bytes of a row at its destination address, from the first one not written yet; the bytes before a fault, or before a
page that is not translated, stay written, and the operation counts the latter. -/
def State.dstWrite (s : State) (o : Op) (h : Shape) (dva : Nat) (got : List Byte) : DstOut × Op × State :=
  let va := dva + o.listOk
  let bs := got.drop o.listOk
  if h.dstHost then
    let r := s.hostSpan o.fn (some h.pasid) (spanFuel bs.length) va bs.length
    let k := o.listOk + piecesLen r.1
    let pages := (span (va / 4096) ((dva + k - 1) / 4096 - va / 4096 + 1)).map (fun p => max va (4096 * p))
    let t := if piecesLen r.1 = 0 then s
      else (pages.foldl (fun s p => s.hostUse movePort o.fn (some h.pasid) p true) s).piecesWrite o.cmp (dIndic o.desc) r.1 bs
    match r.2 with
    | none => (.done, { o with listOk := 0 }, t)
    | some (.bad reason) =>
      (.stop k { reason := reason, va := dva + k, need := .write, host := true, pasid := some h.pasid }, o, t)
    | some _ => (.ask ((dva + k) / 4096 * 4096), { o with listOk := k }, t)
  else
    let r := s.mapSpan movePort o.cmp (dIndic o.desc) .write (spanFuel bs.length) va bs.length
    let l := r.2.2.2.opLate o r.2.2.1 va
    match r.2.1 with
    | none => (.done, l.1, l.2.piecesWrite o.cmp (dIndic o.desc) r.1 bs)
    | some f => (.stop (piecesLen r.1) f, l.1, l.2.piecesWrite o.cmp (dIndic o.desc) r.1 bs)

/-- Wait for the translation of a destination page, the translations ahead of it asked for. -/
def State.dstWait (s : State) (o : Op) (h : Shape) (dva : Nat) (got : List Byte) (page : Nat) : Op × State :=
  ({ o with wait := .ats page, buf := [got.map BitVec.toNat] },
   s.askPages o.fn (some h.pasid) movePort (dva + o.listOk) (got.length - o.listOk) true)

/-- Write the destination line of a poisoned source byte as poison (R505): the accelerator line, or the host line with the
EP bit. -/
def State.poisonAt (s : State) (o : Op) (h : Shape) (va : Nat) : State :=
  let ps := if h.dstHost then (s.hostSpan o.fn (some h.pasid) 2 va 1).1
    else (s.mapSpan movePort o.cmp (dIndic o.desc) .write 2 va 1).1
  match ps with
  | p :: _ =>
    if p.target = 0 then s.poisonLines [lineOf p.addr]
    else { s with mem := { s.mem with hostPoison := addOnce s.mem.hostPoison (lineOf (hostKey (p.target - 1) p.addr)) } }
  | [] => s

/-- Where a row's copy stands: bytes of the source row read so far. -/
def Op.got (o : Op) : List Byte := (o.buf.headD []).map (fun b => BitVec.ofNat 8 b)

/-- Keep the bytes read so far. -/
def Op.keep (o : Op) (bs : List Byte) : Op := { o with buf := [bs.map BitVec.toNat] }

/-- The bytes MOVE_FILL writes at an address (R141). -/
def fillBytes (pattern va : Nat) : Nat → List Byte
  | 0 => []
  | n + 1 => BitVec.ofNat 8 (bits pattern (8 * (va % 8)) 8) :: fillBytes pattern (va + 1) n

/-- End a copy at a fault `k` bytes into the row. -/
def State.moveStop (s : State) (o : Op) (done : Nat) (f : Flt) : Op × State :=
  s.opFault { o with buf := [] } movePort done f

/-- Advance a MOVE operation until it completes, stops or waits for the host.  `fuel` bounds the runs of bytes. -/
def moveRun (h : Shape) : Nat → Op → State → Op × State
  | 0, o, s => (o, s)
  | fuel + 1, o, s =>
    let row := o.listNext
    if h.rows ≤ row then ({ o with wait := .done, status := 0, buf := [] }, s)
    else
      let sva := h.src + row * h.sStride
      let dva := h.dst + row * h.dStride
      let got := if h.fill then fillBytes h.src dva h.bytes else o.got
      if got.length < h.bytes then
        let r := s.srcStep o h (sva + got.length) (h.bytes - got.length)
        match r.1 with
        | .bytes bs => moveRun h fuel (r.2.1.keep (got ++ bs)) r.2.2
        | .read port addr len ats =>
          let tag := r.2.2.ats.readTag
          let rd : HostRead := ⟨tag, o.fn, hostKey port addr, len, some o.id, ats, if ats then some h.pasid else none, sva + got.length⟩
          ({ r.2.1.keep got with wait := .engine },
           { r.2.2 with ats := { r.2.2.ats with reads := r.2.2.ats.reads ++ [rd], readTag := tag + 1 } })
        | .ask page => ({ r.2.1.keep got with wait := .ats page }, r.2.2)
        | .stop f =>
          match r.2.2.dstWrite r.2.1 h dva got with
          | (.done, o, s) => s.moveStop o (row * h.bytes + got.length) f
          | (.stop k f', o, s) => s.moveStop o (row * h.bytes + k) f'
          | (.ask page, o, s) => s.dstWait o h dva got page
        | .poison _ =>
          let bad := dva + got.length
          let k := bad / 128 * 128 - dva
          match r.2.2.dstWrite r.2.1 h dva (got.take k) with
          | (.done, o, s) =>
            ({ o with wait := .done, status := St.poisoned.code, result := row * h.bytes + k, buf := [] }, s.poisonAt o h bad)
          | (.stop k f', o, s) => s.moveStop o (row * h.bytes + k) f'
          | (.ask page, o, s) => s.dstWait o h dva got page
      else
        match s.dstWrite o h dva got with
        | (.done, o, s) => moveRun h fuel { o with listNext := row + 1, buf := [] } s
        | (.stop k f, o, s) => s.moveStop o (row * h.bytes + k) f
        | (.ask page, o, s) => s.dstWait o h dva got page

/-- Runs of bytes a copy can need. -/
def Shape.fuel (h : Shape) : Nat := h.rows * (h.bytes / 128 + 3) + 1

/-- The fault of an indicative descriptor that selects host-served translation (R228). -/
def State.notPinned (s : State) (o : Op) (port va pasid : Nat) (need : Need) : Op × State :=
  s.opFault o port 0 { reason := 6, va := va, need := need, host := true, pasid := some pasid }

/-- The effect of MOVE_COPY, MOVE_FILL and MOVE_2D. -/
def moveWork (o : Op) (s : State) : Op × State :=
  let h := shapeOf o.desc
  if dIndic o.desc && (h.srcHost || h.dstHost) then
    s.notPinned o movePort (if h.srcHost then h.src else h.dst) h.pasid (if h.srcHost then .read else .write)
  else moveRun h h.fuel o s

/-- MOVE_COPY (R141). -/
def execMoveCopy (fn ring : Nat) (s : State) : Out := .next (s.startNext fn ring (fun d => dOpcode d == 0x10) moveWork)
/-- MOVE_FILL (R141). -/
def execMoveFill (fn ring : Nat) (s : State) : Out := .next (s.startNext fn ring (fun d => dOpcode d == 0x11) moveWork)
/-- MOVE_2D (R142). -/
def execMove2d (fn ring : Nat) (s : State) : Out := .next (s.startNext fn ring (fun d => dOpcode d == 0x12) moveWork)

/-! ### XLATE -/

/-- The base-2 logarithm of a size. -/
def log2Size (n : Nat) : Nat := Nat.log2 n

/-- The host-served probe result (R229). -/
def hostProbe (h : Option Held) (va : Nat) : Nat :=
  match h with
  | none => 0
  | some h =>
    b2n (h.r || h.w) + put (b2n h.r) 1 1 + put (b2n h.w) 2 1 + put (b2n h.u) 3 1 + put (log2Size h.size) 4 6
      + (if h.u || !(h.r || h.w) then 0 else (h.out + (va - h.base)) / 4096 * 4096 % 2 ^ 64)

/-- A host-served translation held for an address in any cache (R229). -/
def State.heldFor (s : State) (fn : Nat) (pasid : Option Nat) (va : Nat) : Option Held :=
  ((s.xl.shared ++ s.xl.port.flatMap (fun e => e.2)).filterMap Trans.held).find? (fun h => h.covers fn pasid none va)

/-- The walked probe result (R262). -/
def walkProbe (t : Trans) (va : Nat) : Nat :=
  1 + put (b2n t.r) 1 1 + put (b2n t.w) 2 1 + put (b2n (t.target != 0)) 3 1
    + put (if t.range.isSome then 21 else log2Size t.size) 4 6 + put (b2n t.a) 10 1 + put (b2n t.range.isSome) 11 1
    + (t.out + (va - t.base)) / 4096 * 4096 % 2 ^ 64

/-- XLATE_PROBE: no cache filled, no fault posted (R262); host-served: one translation request when none is held (R229). -/
def probeWork (o : Op) (s : State) : Op × State :=
  let d := o.desc
  if xlHost d then
    if dIndic d then s.notPinned o 0x08 (xlVa d) (xlPasid d) .read
    else if s.cfg o.fn .pasid = 0 then
      s.opFault o 0x08 0 { reason := 0x15, va := xlVa d, need := .read, host := true, pasid := some (xlPasid d) }
    else if s.cfg o.fn .ats = 0 then (o.ends 0 0, s)
    else match s.heldFor o.fn (some (xlPasid d)) (xlVa d) with
      | some h => (o.ends 0 (hostProbe (some h) (xlVa d)), s)
      | none => ({ o with wait := .ats (xlVa d / 4096 * 4096) }, s.atsRequest o.fn (some (xlPasid d)) none 0x08 (xlVa d))
  else
    let t := match s.rangeWalk o.cmp (xlVa d) false .read with
      | some (.ok x) => some x.1
      | some (.error _) => none
      | none => match s.sharedHit o.cmp (xlVa d) with
        | some t => some t
        | none => match s.walkPages o.cmp (xlVa d) .read with
          | .ok x => some x.1
          | .error _ => none
    (o.ends 0 (match t with
      | some t => walkProbe t (xlVa d)
      | none => 0), s)

/-- Prefetch the translation of one page; one more is counted when a cache was filled (R261). -/
def State.prefetchPage (s : State) (port c va : Nat) : Nat × State :=
  match s.portHit port c va with
  | some t => (0, s.portUse port t)
  | none =>
    match s.rangeWalk c va false .read with
    | some (.ok x) => (1, s.fillRange port x.1)
    | some (.error _) => (0, s)
    | none =>
      match s.sharedHit c va with
      | some t => (1, s.fillPort port t)
      | none =>
        match s.walkPages c va .read with
        | .ok x => (1, ((s.bump .TRN_ST_WALKS c 1).fillShared x.1).fillPort port x.1)
        | .error _ => (0, s.bump .TRN_ST_WALKS c 1)

/-- Prefetch pages in address order. -/
def State.prefetch (s : State) (port c : Nat) : Nat → Nat → Nat × State
  | 0, _ => (0, s)
  | n + 1, va =>
    let a := s.prefetchPage port c va
    let b := a.2.prefetch port c n (va + 4096)
    (a.1 + b.1, b.2)

/-- Request the host's translations of every page of a range that the named port does not hold; one held in the shared cache is filled
there. -/
def State.hostPrefetch (s : State) (fn : Nat) (pasid : Option Nat) (port : Nat) : Nat → Nat → State
  | 0, _ => s
  | n + 1, va =>
    (if ((s.heldAt none port).any (fun h => h.covers fn pasid none va)) then s.hostUse port fn pasid va false
     else s.atsRequest fn pasid none port va).hostPrefetch fn pasid port n (va + 4096)

/-- Pages of a range. -/
def pagesOf (va n : Nat) : Nat := if n = 0 then 0 else (va + n - 1) / 4096 - va / 4096 + 1

/-- A host-served prefetch waits for the answers to its requests, in address order, and completes with OK (R229). -/
def State.prefetchWait (s : State) (o : Op) : Op :=
  let d := o.desc
  let pages := (span (xlVa d / 4096) (pagesOf (xlVa d) (xlLen d))).map (fun p => 4096 * p)
  match pages.find? (fun p => s.ats.reqs.any (fun q => q.fn == o.fn && q.pasid == some (xlPasid d) && q.page == p)) with
  | some p => { o with wait := .ats p }
  | none => o.ends 0 0

/-- XLATE_PREFETCH (R229, R261). -/
def prefetchWork (o : Op) (s : State) : Op × State :=
  let d := o.desc
  let n := pagesOf (xlVa d) (xlLen d)
  if xlHost d then
    if dIndic d then s.notPinned o (xlPort d) (xlVa d) (xlPasid d) .read
    else if s.cfg o.fn .pasid = 0 then
      s.opFault o (xlPort d) 0 { reason := 0x15, va := xlVa d, need := .read, host := true, pasid := some (xlPasid d) }
    else if s.cfg o.fn .ats = 0 then (o, s)
    else
      let s := s.hostPrefetch o.fn (some (xlPasid d)) (xlPort d) n (xlVa d / 4096 * 4096)
      (s.prefetchWait o, s)
  else
    let r := s.prefetch (xlPort d) o.cmp n (xlVa d / 4096 * 4096)
    (o.ends 0 r.1, r.2)

/-- XLATE_PREFETCH. -/
def execXlatePrefetch (fn ring : Nat) (s : State) : Out := .next (s.startNext fn ring (fun d => dOpcode d == 0x30) prefetchWork)
/-- XLATE_INVALIDATE (R263, R264). -/
def execXlateInvalidate (fn ring : Nat) (s : State) : Out :=
  .next (s.startNext fn ring (fun d => dOpcode d == 0x31) (fun o s => (o, s.invalidate o.cmp (xlVa o.desc) (xlLen o.desc))))
/-- XLATE_PROBE. -/
def execXlateProbe (fn ring : Nat) (s : State) : Out := .next (s.startNext fn ring (fun d => dOpcode d == 0x32) probeWork)

/-! ### The host's answers -/

/-- An operation whose host-served access has gone on continues its work. -/
def State.resumeOp (s : State) (id : Nat) : State :=
  match s.findOp id with
  | none => s
  | some o =>
    let r := match engineOf (dOpcode o.desc) with
      | 1 => moveRun (shapeOf o.desc) (shapeOf o.desc).fuel { o with wait := .engine } s
      | 3 => if dOpcode o.desc = 0x30 then (s.prefetchWait o, s) else (o.ends 0 (hostProbe (s.heldFor o.fn (dPasid o.desc) (xlVa o.desc)) (xlVa o.desc)), s)
      | _ => (o, s)
    r.2.setOp r.1

/-- Operations that wait for a page of a function and PASID. -/
def State.waitersOf (s : State) (fn : Nat) (pasid : Option Nat) (page : Nat) : List Op :=
  s.ring.ops.filter (fun o => o.fn == fn && dPasid o.desc == pasid && decide (o.wait = .ats page))

/-- The page that a MOVE waits for is of its destination. -/
def Op.dstWaits (o : Op) (page : Nat) : Bool :=
  let h := shapeOf o.desc
  let d := h.dst + o.listNext * h.dStride + o.listOk
  engineOf (dOpcode o.desc) == 1 && h.dstHost && d / 4096 * 4096 == page
    && !(h.srcHost && decide (o.got.length < h.bytes) && (h.src + o.listNext * h.sStride + o.got.length) / 4096 * 4096 == page)

/-- Write what an operation has read, then end it at a fault that follows those bytes (R221). -/
def State.flushStop (s : State) (o : Op) (f : Flt) : Op × State :=
  let h := shapeOf o.desc
  let done := o.listNext * h.bytes
  match s.dstWrite o h (h.dst + o.listNext * h.dStride) o.got with
  | (.stop k f', o, s) => s.moveStop o (done + k) f'
  | (.ask _, o, s) => s.moveStop o (done + o.listOk) f
  | (.done, o, s) => s.moveStop o (done + o.got.length) f

/-- End a waiting operation with a host-served fault; the bytes before the page stay written and are counted (R221). -/
def State.endWaiter (s : State) (o : Op) (reason page : Nat) (denied : Bool) : State :=
  let f : Flt := { reason := reason, va := page, need := if o.dstWaits page then .write else .read, host := true,
                   pasid := dPasid o.desc, denied := denied }
  let r := s.flushStop o f
  r.2.setOp r.1

/-- Pages a MOVE may still request after a page that faults: within its extent (R218). -/
def State.pagesAfter (s : State) (o : Op) (page : Nat) (write : Bool) : List Nat :=
  let h := shapeOf o.desc
  let last := (if write then h.dst else h.src) + h.bytes
  (s.askAhead o.fn (dPasid o.desc) page (min (4096 * s.rd .TRN_PRG_PAGES (portOf o.fn)) (last - page)) write).filter (fun p => p != page)

/-- After a translation completion that does not give a waiting MOVE its right: a page request, or the end of its rounds
(R217, R220, R221). -/
def State.pageFault (s : State) (o : Op) (page : Nat) (have' write : Bool) : State :=
  if engineOf (dOpcode o.desc) != 1 then s.resumeOp o.id
  else if s.cfg o.fn .pri = 0 || s.ats.blocked.contains o.fn || decide (s.rd .TRN_PRI_ROUNDS (portOf o.fn) ≤ s.roundsOf o.id page) then
    s.endWaiter o 0x13 page have'
  else (s.addRound o.id page).pageRequest o.fn (dPasid o.desc) (page :: s.pagesAfter o page write) write

/-- A waiting operation after its translation completed. -/
def State.wakeWaiter (s : State) (o : Op) (page : Nat) : State :=
  let write := o.dstWaits page
  match s.hostMap o.fn (dPasid o.desc) none page write with
  | .missing have' => s.pageFault o page have' write
  | _ => s.resumeOp o.id

/-- A ring access whose completion grants no access: the fetch or record write faults (R216). -/
def State.ringNoAccess (s : State) (fn w : Nat) : State :=
  if 0x1000 ≤ w then s.cqFault (w - 0x1000) false
  else if 64 ≤ w then
    let c := match s.cplWaits (ringIx fn (w - 64)) with
      | x :: _ => some x.op.cmp
      | [] => s.fnCmp fn
    s.cplFault fn (w - 64) c false
  else match s.callList fn w with
    | some p => s.listFetchFault p false
    | none => s.fetchFault fn w false

/-- The answer of a translation completion for one user of its request: held, or a ring access that it grants no access (R212, R216).
Window numbers of 64 and more are those of completion rings and completion queues, which are written. -/
def State.atsAnswer (s : State) (h : Held) (u : Option Nat × Nat) : State :=
  let s := if h.r || h.w then s.hold { h with win := u.1, port := u.2 } else s
  match u.1 with
  | some w => if h.allows (decide (64 ≤ w)) then s else s.ringNoAccess h.fn w
  | none => s

/-- A translation completion: held, discarded as stale and requested again, or without access (R212, R213, R215 to R217); nothing is
held for a function whose ATS Enable is clear (R210).  The waiting accesses use it before the quota of the port is applied. -/
def execAtsTranslationCompletion (fn : Nat) (pasid : Option Nat) (page size out flags : Nat) (s : State) : Out :=
  match s.ats.reqs.find? (fun q => q.sent && q.fn == fn && q.pasid == pasid && q.page == page) with
  | none => .next s
  | some q =>
    if q.stale then .next ((s.bump .TRN_ATS_STALE (portOf fn) 1).atsIssue q)
    else
      let s := { s with ats := { s.ats with reqs := s.ats.reqs.erase q } }
      let size := 2 ^ max 12 (Nat.log2 size)
      let h : Held := { fn := fn, pasid := pasid, base := page / size * size, size := size, out := out / size * size, r := bit flags 0,
                        w := bit flags 1, u := bit flags 2, global := bit flags 3, win := none, port := 0 }
      let s := q.users.foldl (fun s u => s.atsAnswer h u) s
      let s := (s.waitersOf fn pasid page).foldl (fun s o => s.wakeWaiter o page) s
      .next (q.users.foldl (fun s u => s.trimPort u.2 ((s.fnCmp fn).getD 0)) s).atsPump

/-- Operations that wait for any page of a group. -/
def State.groupWaiters (s : State) (g : PrgGroup) : List (Op × Nat) :=
  g.pages.flatMap (fun p => (s.waitersOf g.fn g.pasid p).map (fun o => (o, p)))

/-- Operations of a function that wait for a page that is requested, or whose request waits. -/
def State.pageWaiters (s : State) (fn : Nat) : List (Op × Nat) :=
  s.ring.ops.filterMap (fun o => match o.wait with
    | .ats p => if o.fn = fn && s.pageAsked fn (dPasid o.desc) p then some (o, p) else none
    | _ => none)

/-- No operation waits any longer for a page request of a function: its waiting requests are dropped, its groups only wait for their
responses. -/
def State.dropPages (s : State) (fn : Nat) : State :=
  { s with ats := { s.ats with
      prgWait := s.ats.prgWait.filter (fun a => a.fn != fn)
      groups := s.ats.groups.map (fun (g : PrgGroup) => if g.fn == fn then { g with live := false } else g) } }

/-- The codes of a page request group response. -/
inductive PrgCode where
  | success | invalid | failure
  deriving DecidableEq, Repr

/-- The response code of its PCIe encoding. -/
def PrgCode.of (n : Nat) : PrgCode := if n = 0 then .success else if n = 1 then .invalid else .failure

/-- A page request group response (R219 to R222). -/
def execPrgResponse (fn idx : Nat) (pasid : Option Nat) (code : Nat) (s : State) : Out :=
  match s.ats.groups.find? (fun g => g.fn == fn && g.idx == idx && g.pasid == pasid) with
  | none => .next (s.bump .TRN_PRG_UNEXPECTED (portOf fn) 1)
  | some g =>
    let ws := if g.live then s.groupWaiters g else []
    let s := { s with ats := { s.ats with groups := s.ats.groups.erase g } }
    if ws.isEmpty then .next ((s.bump .TRN_PRG_LATE (portOf fn) 1).prgGo fn)
    else match PrgCode.of code with
      | .success => .next ((g.pages.foldl (fun s p => s.atsRequest fn pasid none movePort p) s).prgGo fn)
      | .invalid => .next ((ws.foldl (fun s w => s.endWaiter w.1 0x11 w.2 false) s).prgGo fn)
      | .failure =>
        let s := { s with ats := { s.ats with blocked := addOnce s.ats.blocked fn } }
        let s := (ws ++ s.pageWaiters fn).foldl (fun s w => s.endWaiter w.1 0x12 w.2 false) s
        let s := s.dropPages fn
        .next ((s.bump .TRN_PRI_FAILURES (portOf fn) 1).post
          (bothInc 0x0603 .notice (s.fnCmp fn) (portOf fn) fn [pasid.getD 0, idx]))

/-- Host reads that used a translation an invalidate request removes (R226). -/
def State.readsUsing (s : State) (fn : Nat) (q : InvReq) : List Nat :=
  ((s.ats.reads.filter (fun r => r.fn == fn && r.ats)).filter (fun r => q.wide ||
    (decide (r.va < q.base + q.size) && decide (q.base < r.va + r.len) && (r.pasid == q.pasid || q.global)))).map (·.tag)

/-- An ATS invalidate request is processed: its translations are removed, and the reads that used them noted (R225, R226). -/
def State.processInv (s : State) (fn : Nat) (q : InvReq) : InvReq × State :=
  ({ q with tags := s.readsUsing fn q, late := false }, s.atsInvalidate fn q)

/-- An ATS invalidate request (R223 to R225): its translations are removed, and it is held until it can be answered; one that arrives
while 32 are held waits for their space (R224). -/
def execAtsInvalidateRequest (fn itag : Nat) (pasid : Option Nat) (global : Bool) (base size : Nat) (s : State) : Out :=
  let q := s.ats.invQ.get [] fn
  let s := s.bump .TRN_INV_RECEIVED (portOf fn) 1
  let wide := decide (32 ≤ q.length)
  let r : InvReq := { itag := itag, pasid := pasid, global := global, base := base, size := size, wide := wide, late := wide, tags := [] }
  let x := if wide then (r, (s.bump .TRN_INV_OVERFLOW (portOf fn) 1).post (devInc 0x0604 .degraded (portOf fn) fn [])) else s.processInv fn r
  .next { x.2 with ats := { x.2.ats with invQ := Tab.set x.2.ats.invQ [] fn (q ++ [x.1]) } }

/-- The oldest invalidate request of a function is answered once every read that used a removed translation is settled (R226); the first
one that waited for space is then processed (R224). -/
def execAtsInvalidateCompletion (fn : Nat) (s : State) : Out :=
  match s.ats.invQ.get [] fn with
  | [] => .next s
  | q :: rest =>
    if q.tags.any (fun t => s.ats.reads.any (fun r => r.tag == t)) then .next s
    else
      let x := match rest.find? (fun r => r.late) with
        | some r => let y := s.processInv fn r; (rest.replace r y.1, y.2)
        | none => (rest, s)
      .next (({ x.2 with ats := { x.2.ats with invQ := Tab.set x.2.ats.invQ [] fn x.1 } }).emit .host [portOf fn, 3, fn, q.itag])

/-- Write the bytes a host read returned into what the block knows of host memory. -/
def State.hostBytes (s : State) (addr : Nat) (bs : List Nat) : State :=
  { s with mem := { s.mem with host := Mem.write s.mem.host addr (bs.map (fun b => BitVec.ofNat 8 b))
                               hostPoison := s.mem.hostPoison.filter (fun l => !(linesOf addr bs.length).contains l) } }

/-- HOST_POISON (R504): argument 1 is 0 for a poisoned completion, 1 for a completion timeout. -/
def State.hostPoisonInc (s : State) (r : HostRead) (why : Nat) : State :=
  s.post (bothInc 0x0005 .job (s.fnCmp r.fn) (r.addr / 2 ^ 64) r.fn [r.addr % 2 ^ 64, why])

/-- A host read has brought poison: the operation's destination line is written poisoned and it ends (R505). -/
def State.poisonOp (s : State) (o : Op) : State :=
  let h := shapeOf o.desc
  let dva := h.dst + o.listNext * h.dStride
  let bad := dva + o.got.length
  let k := bad / 128 * 128 - dva
  match s.dstWrite o h dva (o.got.take k) with
  | (.stop k f, o', s') => let r := s'.moveStop o' (o.listNext * h.bytes + k) f; r.2.setOp r.1
  | (_, o', s') =>
    (s'.poisonAt o' h bad).setOp { o' with wait := .done, status := St.poisoned.code, result := o.listNext * h.bytes + k, buf := [] }

/-- An untranslated host read completed with Unsupported Request or Completer Abort (R210). -/
def State.refusedOp (s : State) (o : Op) (r : HostRead) : State :=
  let a := s.flushStop o { reason := 0x14, va := r.va, need := .read, host := true, pasid := r.pasid }
  a.2.setOp a.1

/-- The operation of a host read, or the counting of a completion that comes after its operation has ended (R111, R510). -/
def State.readOwner (s : State) (r : HostRead) : Option Op × State :=
  match r.op with
  | none => (none, s)
  | some id =>
    if s.ring.ended.contains id then
      (none, { (s.bump .RNG_LATE_COMPLETIONS 0 1) with ring := { s.ring with ended := s.ring.ended.filter (fun i => i != id) } })
    else (s.findOp id, s)

/-- A host read completion arrives with its data, poisoned, or refused (R210, R504, R505); one for squashed work is
discarded (R111). -/
def execHostReadCompletion (tag : Nat) (data : List Nat) (outcome : Outcome3) (s : State) : Out :=
  match s.ats.reads.find? (fun r => r.tag == tag) with
  | none => .next s
  | some r =>
    let s := { s with ats := { s.ats with reads := s.ats.reads.erase r } }
    let bs := (List.range r.len).map (fun i => word data i % 256)
    let a := s.readOwner r
    match outcome, a.1 with
    | .ok, none => .next a.2
    | .ok, some o => .next (((a.2.hostBytes r.addr bs).setOp (o.keep (o.got ++ bs.map (fun b => BitVec.ofNat 8 b)))).resumeOp o.id)
    | .poison, none => .next (a.2.hostPoisonInc r 0)
    | .poison, some o => .next ((a.2.hostPoisonInc r 0).poisonOp o)
    | .fault, none => .next a.2
    | .fault, some o => .next (a.2.refusedOp o r)

/-- The completion timeout of a host read expires: the data is poison (R504). -/
def execHostCompletionTimeout (tag : Nat) (s : State) : Out :=
  match s.ats.reads.find? (fun r => r.tag == tag) with
  | none => .next s
  | some r =>
    let s := { s with ats := { s.ats with reads := s.ats.reads.erase r } }
    let a := s.readOwner r
    match a.1 with
    | none => .next (a.2.hostPoisonInc r 1)
    | some o => .next ((a.2.hostPoisonInc r 1).poisonOp o)

/-- ATS Enable is cleared: nothing is held, and accesses that waited for a translation go on untranslated (R210). -/
def State.atsOff (s : State) (fn : Nat) : State :=
  let s := s.dropHeld (fun h => h.fn == fn)
  let s := State.atsPump { s with ats := { s.ats with reqs := s.ats.reqs.filter (fun q => q.fn != fn) } }
  s.ring.ops.foldl (fun s o => match o.wait with
    | .ats p => if o.fn = fn && !s.pageAsked fn (dPasid o.desc) p then s.wakeWaiter o p else s
    | _ => s) s

/-- PRI Enable is cleared: no page request is sent any more; the groups that no operation waits for free their indices (R210, R222). -/
def State.priOff (s : State) (fn : Nat) : State :=
  let gone := s.ats.prgWait.filter (fun a => a.fn == fn)
  let s := { s with ats := { s.ats with
    blocked := s.ats.blocked.filter (fun f => f != fn)
    prgWait := s.ats.prgWait.filter (fun a => a.fn != fn)
    groups := s.ats.groups.filter (fun (g : PrgGroup) => !(g.fn == fn && (!g.live || (s.groupWaiters g).isEmpty))) } }
  gone.foldl (fun s a => a.pages.foldl (fun s p => (s.waitersOf fn a.pasid p).foldl (fun s o =>
    if s.pageAsked fn a.pasid p then s
    else s.endWaiter o 0x13 p ((s.heldFor fn a.pasid p).isSome)) s) s) s

/-- A host configuration write to a function (R210, R222): the enables of ATS, PRI, PASID and MSI-X, the page request
allocation, VF Enable (held at 0 in fawn mode, R528) and NumVFs; turned away with Request Retry Status until a start has ended. -/
def execConfigurationWrite (fn item value : Nat) (s : State) : Out :=
  if s.retryStatus then .next s
  else match item with
  | 0 =>
    let s := s.setCfg fn .ats (value % 2)
    .next (if value % 2 = 0 then s.atsOff fn else s)
  | 1 =>
    let s := s.setCfg fn .pri (value % 2)
    .next (if value % 2 = 0 then s.priOff fn else s)
  | 2 => .next (s.setCfg fn .pasid (value % 2))
  | 3 => .next ((s.setCfg fn .pageAlloc (value % 2 ^ 32)).prgGo fn)
  | 4 =>
    let s := s.setCfg fn .msix (value % 2)
    if value % 2 = 0 then .next { s with evt := { s.evt with msixEn := s.evt.msixEn.filter (fun (f : Nat) => f != fn) } }
    else
      let s := { s with evt := { s.evt with msixEn := addOnce s.evt.msixEn fn } }
      .next ((List.range (vecCount fn)).foldl (fun s e =>
        if s.evt.msixPend.get 0 (fn * 256 + e) = 1 && word (s.evt.msix.get [0, 0, 0, 1] (fn * 256 + e)) 3 % 2 = 0 then
          ({ s with evt := { s.evt with msixPend := Tab.set s.evt.msixPend 0 (fn * 256 + e) 0 } }).emit .msix [fn, e]
        else s) s)
  | 5 => .next (if isMgr fn && s.rd .BOOT_FAWN 0 == 0 then s.setCfg fn .vfEnable (value % 2) else s)
  | 6 => .next (if isMgr fn then s.setCfg fn .numVfs (min value 63) else s)
  | _ => .next s

/-! ### MOVE_ATOMIC (R328 to R334, R339) -/

/-- The effect of MOVE_ATOMIC: always FAR, at the home of its element; the old element is the result (R331, R334). -/
def atomicWork (o : Op) (s : State) : Op × State :=
  let d := o.desc
  let r := s.translate movePort o.cmp (atAddr d) (dIndic d) .atomic
  let l := r.2.2.opLate o r.2.1 (atAddr d)
  match r.1 with
  | .error f => l.2.opFault l.1 movePort 0 f
  | .ok t =>
    let s := if atPlace d = 0 then l.2 else l.2.bump .COH_AT_PLACE_FORCED o.cmp 1
    let x := (s.clearCopies o.cmp (t.out + (atAddr d - t.base)) (atomBytes (atFmt d))).atomAt o.cmp (t.out + (atAddr d - t.base)) (atOp d) (atFmt d) (dFtz d) (dSat d) (atOperand d) (atCompare d)
    match x.1 with
    | none => (l.1.ends St.poisoned.code 0, x.2)
    | some (old, fl) => ({ l.1.ends 0 old with flags := fl.code }, x.2)

/-- MOVE_ATOMIC. -/
def execMoveAtomic (fn ring : Nat) (s : State) : Out :=
  .next (s.startNext fn ring (fun d => dOpcode d == 0x13) atomicWork)

end Sys2Proof.Machine
end

