-- ==== Sys2Proof/Machine/Gather.lean ====
section
/-! DEFINITION. Tier-one stacks and gather-reduce (chapter 13, R346 to R348): placement of addresses, GATHER_REDUCE, what stack reads report, and the
refresh and throttle steps. -/
namespace Sys2Proof.Machine

open Sys2Proof

/-! ### Placement (R353, R354) -/

/-- A granule group is in STACK mode. -/
def State.stackMode (s : State) (g : Nat) : Bool := bit (s.rd .STK_GROUP_MODE 0) g

/-- The stack of a tier-one address. -/
def State.stackOf (s : State) (a : Nat) : Nat :=
  let l := lineOf a
  if s.stackMode (bits a 33 6) then bits a 30 3 else bits l 0 3 ^^^ bits l 8 3 ^^^ bits l 16 3

/-- The stack-local line of a tier-one address. -/
def State.stackLine (s : State) (a : Nat) : Nat :=
  bits a 33 6 * 2 ^ 23 + (if s.stackMode (bits a 33 6) then bits a 7 23 else bits a 10 23)

/-- The channel of a tier-one address. -/
def State.channelOf (s : State) (a : Nat) : Nat := let m := s.stackLine a; bits m 0 4 ^^^ bits m 4 4

/-- A span lies in STACK-mode groups of one stack (R362). -/
def State.oneStack (s : State) (a n : Nat) (stack : Nat) : Bool :=
  (linesOf a n).all (fun l => s.stackMode (bits (128 * l) 33 6) && bits (128 * l) 30 3 == stack && decide (128 * l < t1Bytes))

/-- The bytes a span holds in the tier itself, dirty lines of the cache not seen (R289, R367). -/
def State.tierRead (s : State) (c a : Nat) : Nat → List Byte
  | 0 => []
  | n + 1 => ((s.tierByte c a).getD (s.accByte c a)) :: s.tierRead c (a + 1) n

/-! ### Arithmetic of rows (R346, R347) -/

/-- The floating-point format of an input format. -/
def grFp (f : Nat) : Fmt :=
  match f with
  | 1 => binary16
  | 2 => bfloat16
  | _ => binary32

/-- Elements of a row. -/
def grElems (d : List Nat) : Nat := (grRowBytes d - (if grInFmt d = 3 then 2 else 0)) / max 1 (grElem (grInFmt d))

/-- One element of a row as the accumulator format sees it. -/
def grTerm (ftz sat : Bool) (fmt : Nat) (row : List Byte) (i : Nat) : Nat × Flg :=
  match fmt with
  | 3 =>
    let sc := binary16.read ftz (ofLE (row.take 2))
    let v := toSigned 8 (ofLE ((row.drop (2 + i)).take 1))
    let r := binary32.mulNum ftz sat sc.1 (.fin (decide (v < 0)) v.natAbs 0)
    (r.1, sc.2.or r.2)
  | 4 => (ofLE ((row.drop (4 * i)).take 4), {})
  | f => (grFp f).convert binary32 ftz sat (ofLE ((row.drop (grElem f * i)).take (grElem f)))

/-- A weighted term: one rounding (R346). -/
def grWeighted (ftz sat : Bool) (w v : Nat) : Nat × Flg :=
  let a := binary32.read ftz w
  let b := binary32.read ftz v
  let r := binary32.mulNum ftz sat a.1 b.1
  (r.1, (a.2.or b.2).or r.2)

/-- Add to an int32 accumulator (R347). -/
def addInt32 (sat : Bool) (a b : Nat) : Nat × Flg :=
  let x := toSigned 32 a + toSigned 32 b
  if x < -(2 ^ 31 : Int) then (if sat then 0x80000000 else ofSigned 32 x, { overflow := true, saturated := sat })
  else if (2 ^ 31 : Int) ≤ x then (if sat then 0x7FFFFFFF else ofSigned 32 x, { overflow := true, saturated := sat })
  else (ofSigned 32 x, {})

/-- One accumulation step of an element lane. -/
def grStep (op fmt : Nat) (ftz sat : Bool) (acc v : Nat) : Nat × Flg :=
  if fmt = 4 then
    match op with
    | 4 => (if toSigned 32 acc ≤ toSigned 32 v then v else acc, {})
    | 5 => (if toSigned 32 acc ≤ toSigned 32 v then acc else v, {})
    | _ => addInt32 sat acc v
  else match op with
    | 4 => binary32.pick true ftz acc v
    | 5 => binary32.pick false ftz acc v
    | _ => binary32.add ftz sat acc v

/-- The lanes a row contributes. -/
def grLanes (d : List Nat) (row : List Byte) (weight : Nat) : List (Nat × Flg) :=
  (List.range (grElems d)).map (fun i =>
    let t := grTerm (dFtz d) (dSat d) (grInFmt d) row i
    if grOp d = 2 then
      let w := grWeighted (dFtz d) (dSat d) weight t.1
      (w.1, t.2.or w.2)
    else t)

/-- Flags of a list of lanes. -/
def lanesFlg (ls : List (Nat × Flg)) : Flg := ls.foldl (fun f l => f.or l.2) {}

/-- Apply a row to the accumulators: they start at the first term (R346). -/
def grAccumulate (d : List Nat) (acc : Option (List Nat)) (lanes : List (Nat × Flg)) : List Nat × Flg :=
  match acc with
  | none => (lanes.map (·.1), lanesFlg lanes)
  | some vs =>
    let r := vs.zipWith (fun a l => grStep (grOp d) (grInFmt d) (dFtz d) (dSat d) a l.1) lanes
    (r.map (·.1), (lanesFlg lanes).or (lanesFlg r))

/-- One lane of a result: the mean division and the narrowing. -/
def grFinish (d : List Nat) (v : Nat) : Nat × Flg :=
  let m : Nat × Flg :=
    if grOp d = 3 then
      (if grInFmt d = 4 then (ofSigned 32 (Int.tdiv (toSigned 32 v) (grCount d)), {})
       else binary32.divNum (dFtz d) (dSat d) (grCount d) (binary32.read (dFtz d) v).1)
    else (v, {})
  if grNarrow d && grInFmt d != 0 then
    let n := binary32.convert (grFp (grInFmt d)) (dFtz d) (dSat d) m.1
    (n.1, m.2.or n.2)
  else m

/-- The result of an empty list (table "Empty lists"). -/
def grEmpty (d : List Nat) : Nat × Flg :=
  let out (v : Nat) : Nat := if grNarrow d && grInFmt d != 0 then (binary32.convert (grFp (grInFmt d)) false false v).1 else v
  match grOp d, grInFmt d with
  | 3, 4 => (0, { invalid := true })
  | 4, 4 => (0x80000000, {})
  | 5, 4 => (0x7FFFFFFF, {})
  | 3, _ => (out binary32.qnan, { invalid := true })
  | 4, _ => (out (binary32.inf true), {})
  | 5, _ => (out (binary32.inf false), {})
  | _, _ => (0, {})

/-- Bytes of an output row. -/
def grRowOut (d : List Nat) (vs : List Nat) : List Nat :=
  (vs.flatMap (leBytes (grOutElem (grInFmt d) (grNarrow d)))).map BitVec.toNat

/-! ### GATHER_REDUCE (R361 to R369) -/

/-- The client port of the GATHER engine. -/
def gatherPort : Nat := 0x0A

/-- Where a GATHER_REDUCE stands while its index list is read: entries processed, accumulators, result rows, flags, lines used, its
stack. -/
structure GrRun where
  k     : Nat
  acc   : Option (List Nat)
  rows  : List (List Nat)
  flg   : Flg
  lines : Nat
  stack : Option Nat

/-- How the reading of the index list ended. -/
inductive GrEnd where
  | all
  | fault (f : Flt)
  | poison
  | held (stack : Nat)

/-- Another GATHER_REDUCE of the compartment runs on the stack (R364). -/
def State.contextBusy (s : State) (o : Op) (stack : Nat) : Bool :=
  s.ring.ops.any (fun x => x.cmp == o.cmp && x.id != o.id && decide (x.wait = .rows stack))

/-- A piece of a row: GR mapping, one stack (R362). -/
def State.rowPieces (s : State) (ps : List Piece) (stack : Nat) : Bool :=
  ps.all (fun p => p.target == 0 && p.gr && s.oneStack p.addr p.len stack)

/-- Read the index list and the rows in order; `n` entries are left. -/
def State.gatherRun (s : State) (o : Op) : Nat → GrRun → GrEnd × GrRun × Op × State
  | 0, g => (.all, g, o, s)
  | n + 1, g =>
    let d := o.desc
    let size := if grOp d = 2 then 8 else 4
    let ix := s.opRead o gatherPort .read false (grIndex d + size * g.k) size
    match ix.1 with
    | .fault f => (.fault f, g, ix.2.1, ix.2.2)
    | .poison => (.poison, g, ix.2.1, ix.2.2)
    | .ok bs =>
      let e := ofLE bs
      let va := grTable d + bits e 0 32 * grRowBytes d
      let m := ix.2.2.mapSpan gatherPort o.cmp (dIndic d) .gather (spanFuel (grRowBytes d)) va (grRowBytes d)
      let l := m.2.2.2.opLate ix.2.1 m.2.2.1 va
      match m.2.1 with
      | some f => (.fault f, g, l.1, l.2)
      | none =>
        let stack := g.stack.getD (match m.1 with
          | p :: _ => bits p.addr 30 3
          | [] => 0)
        if !l.2.rowPieces m.1 stack then (.fault { reason := 4, va := va, need := .gather }, g, l.1, l.2)
        else if g.k = 0 && l.2.contextBusy o stack then (.held stack, g, l.1, l.2)
        else
          let used := (m.1.map (fun p => (linesOf p.addr p.len).length)).foldl (· + ·) 0
          let g := { g with lines := g.lines + used, stack := some stack }
          if m.1.any l.2.piecePoison then (.poison, g, l.1, l.2)
          else
            let row := m.1.flatMap (fun p => l.2.tierRead o.cmp p.addr p.len)
            let lanes := grLanes d row (bits e 32 32)
            if grOp d = 0 then
              let out := lanes.map (fun x => let f := grFinish d x.1; (f.1, x.2.or f.2))
              l.2.gatherRun l.1 n { g with k := g.k + 1, rows := g.rows ++ [grRowOut d (out.map (·.1))], flg := g.flg.or (lanesFlg out) }
            else
              let a := grAccumulate d g.acc lanes
              l.2.gatherRun l.1 n { g with k := g.k + 1, acc := some a.1, flg := g.flg.or a.2 }

/-- The result rows wait for the base layer to return them; a row is a mark (1 for poison) and its bytes. -/
def Op.await (o : Op) (stack : Nat) (rows : List (List Nat)) : Op :=
  match rows with
  | [] => { o with wait := .done, buf := [] }
  | _ => { o with wait := .rows stack, buf := rows }

/-- The effect of GATHER_REDUCE: read the list, translate the rows, issue the row commands; the outputs follow as the base layer
returns them. -/
def gatherWork (o : Op) (s : State) : Op × State :=
  let d := o.desc
  let r := s.gatherRun o (grCount d) ⟨0, none, [], {}, 0, none⟩
  let g := r.2.1
  let o := r.2.2.1
  let s := r.2.2.2
  match r.1 with
  | .held st => ({ o with wait := .held st }, s)
  | e =>
    let st := g.stack.getD 8
    let s := (s.bump .STK_GR_ENTRIES o.cmp g.k).bump .STK_GR_LINES o.cmp g.lines
    let o := { o with flags := g.flg.code, links := (match g.stack with
      | some n => addOnce o.links (0x100 + n)
      | none => o.links) }
    let dataRows := g.rows.map (fun x => 0 :: x)
    match e with
    | .fault f =>
      let x := s.opFault o gatherPort g.k f
      (if grOp d = 0 then x.1.await st dataRows else x.1, x.2.bump .STK_GR_CMDS o.cmp 1)
    | .poison =>
      (Op.await { o with status := St.poisoned.code, result := g.k } st (dataRows ++ [[1]]), (s.bump .STK_GR_POISONED o.cmp 1).bump .STK_GR_CMDS o.cmp 1)
    | _ =>
      let s := s.bump .STK_GR_CMDS o.cmp 1
      if grOp d = 0 then (Op.await { o with status := 0, result := grCount d } st dataRows, s)
      else
        let lanes : List (Nat × Flg) := match g.acc with
          | some vs => vs.map (grFinish d)
          | none => (List.range (grElems d)).map (fun _ => grEmpty d)
        (Op.await { o with status := 0, result := grCount d, flags := (g.flg.or (lanesFlg lanes)).code } st [0 :: grRowOut d (lanes.map (·.1))], s)

/-- GATHER_REDUCE. -/
def execGatherReduce (fn ring : Nat) (s : State) : Out := .next (s.startNext fn ring (fun d => dOpcode d == 0x20) gatherWork)

/-- Bytes of one output row of a descriptor. -/
def grOutBytes (d : List Nat) : Nat := grElems d * grOutElem (grInFmt d) (grNarrow d)

/-- Write one result row: an invalidating write through port 0x0A (R368); a poisoned row poisons every line it touches (R369). -/
def State.grWrite (s : State) (o : Op) (row : List Nat) : Op × State :=
  let d := o.desc
  let n := grOutBytes d
  let va := grOut d + o.listNext * n
  let m := s.mapSpan gatherPort o.cmp (dIndic d) .write (spanFuel n) va n
  let l := m.2.2.2.opLate o m.2.2.1 va
  match m.2.1 with
  | some f => l.2.opFault { l.1 with buf := [] } gatherPort (if grOp d = 0 then o.listNext else grCount d) f
  | none =>
    let s := match row with
      | 0 :: bs => l.2.piecesWrite o.cmp (dIndic d) m.1 (bs.map (fun b => BitVec.ofNat 8 b))
      | _ => m.1.foldl (fun (s : State) (p : Piece) => if p.target = 0 then (s.clearCopies o.cmp p.addr p.len).poisonLines (linesOf p.addr p.len)
          else State.hostPoisonLines s (linesOf (hostKey (p.target - 1) p.addr) p.len)) l.2
    let rest := l.1.buf.drop 1
    ({ l.1 with buf := rest, listNext := o.listNext + 1, wait := if rest.isEmpty then .done else l.1.wait }, s)

/-- A held GATHER_REDUCE of a compartment takes the context that has become free (R364). -/
def State.wakeHeld (s : State) (c stack : Nat) : State :=
  if s.ring.ops.any (fun x => x.cmp == c && decide (x.wait = .rows stack)) then s
  else match s.ring.ops.find? (fun x => x.cmp == c && decide (x.wait = .held stack)) with
    | some o => let r := gatherWork o s; r.2.setOp r.1
    | none => s

/-- A row or result row returns from a base layer (R368).  An operation held for its context takes it here when it is free. -/
def execGrResultReturn (op : Nat) (s : State) : Out :=
  match s.findOp op with
  | none => .next s
  | some o =>
    match o.wait, o.buf with
    | .held st, _ => .next (s.wakeHeld o.cmp st)
    | .rows st, row :: _ =>
      let r := s.grWrite o row
      let s := r.2.setOp r.1
      .next (if r.1.wait = .done then s.wakeHeld o.cmp st else s)
    | _, _ => .next s

/-! ### Stack reads (R358 to R360) -/

/-- The tenant that holds the granule of an address. -/
def State.tenantAt (s : State) (a : Nat) : Option Nat := tenants.find? (fun c => s.ownsExtent c (lineOf a * 128) 128)

/-- The frame counter of MEM_CORRECTED incidents of a stack. -/
def corrKey (stack : Nat) : Nat := 0x4000 + stack

/-- MEM_UNCORRECTABLE of an address: to the tenant that holds the granule and the device ring, DEGRADED where none does. -/
def State.uncorrectable (s : State) (unit a : Nat) : State :=
  match s.tenantAt a with
  | some c => s.post (bothInc 0x0902 .job (some c) unit 0 [a])
  | none => s.post (devInc 0x0902 .degraded unit 0 [a])

/-- A tier-one line returns from its stack: `error` 0 clean, 1 corrected, 2 uncorrectable (R359, R360). -/
def execStackReadReturn (addr error : Nat) (s : State) : Out :=
  let st := s.stackOf addr
  if t1Bytes ≤ addr then .next s
  else match error with
    | 0 => .next s
    | 1 => .next ((s.bump .STK_ECC_CORR st 1).postLimited (corrKey st) (s.rd .STK_CORR_LIMIT 0)
        (devInc 0x0901 .notice st 0 [addr, s.channelOf addr]))
    | _ => .next ((((s.bump .STK_ECC_UNCORR st 1).wr .STK_ERR_APA st addr).poisonLines [lineOf addr]).uncorrectable st addr)

/-! ### Refresh and throttling (R372 to R376) -/

/-- The activity step of a count. -/
def State.actStep (s : State) (st count : Nat) : Nat :=
  if s.rd .STK_ACT_T3 st ≤ count then 3 else if s.rd .STK_ACT_T2 st ≤ count then 2 else if s.rd .STK_ACT_T1 st ≤ count then 1 else 0

/-- The thermal refresh step; `h` is what a reading must lie below a threshold by. -/
def State.refTherm (s : State) (temp h : Nat) : Nat :=
  if s.rd .STK_T_REF3 0 < temp + h then 3 else if s.rd .STK_T_REF2 0 < temp + h then 2 else 0

/-- The throttle step of a temperature. -/
def State.thrTherm (s : State) (temp h : Nat) : Nat :=
  if s.rd .STK_T_THR3 0 < temp + h then 3 else if s.rd .STK_T_THR2 0 < temp + h then 2 else if s.rd .STK_T_THR1 0 < temp + h then 1 else 0

/-- A step rises at once and falls by one after 16 windows below it: the new step and the new count of low windows. -/
def stepAfter (now up down low : Nat) : Nat × Nat :=
  if now < up then (up, 0) else if down < now then (if 16 ≤ low + 1 then (now - 1, 0) else (now, low + 1)) else (now, 0)

/-- Post a step change and count it (R376). -/
def State.stepChange (s : State) (code : Nat) (sev : Sev) (ctr : Fld) (st old new temp count : Nat) : State :=
  if old = new then s
  else (s.bump ctr st 1).post (devInc code sev st 0 [put old 0 2 + put new 2 2 + put temp 8 8, count])

/-- An activity window of a stack ends with a count of activations and its hottest reading (R372, R374, R375). -/
def execActivityWindowBoundary (stack count temp : Nat) (s : State) : Out :=
  if 8 ≤ stack then .next s
  else
    let n := min count (2 ^ 24 - 1)
    let t := min temp 255
    let h := s.rd .STK_T_HYST 0
    let s := (s.wr .STK_ACT_COUNT stack n).wr .STK_TEMP stack t
    let s := s.wr .STK_TEMP_PEAK stack (max (s.rd .STK_TEMP_PEAK stack) t)
    let lo := s.rd .STK_REF_MIN stack
    let ref := s.rd .STK_REF_STEP stack
    let thr := s.rd .STK_THR_STEP stack
    let r := stepAfter ref (max (max (s.actStep stack n) (s.refTherm t 1)) lo) (max (max (s.actStep stack n) (s.refTherm t h)) lo)
      (s.stk.refLow.get 0 stack)
    let w := stepAfter thr (s.thrTherm t 1) (s.thrTherm t h) (s.stk.thrLow.get 0 stack)
    let s := { ((s.wr .STK_REF_STEP stack r.1).wr .STK_THR_STEP stack w.1) with
      stk := { s.stk with refLow := Tab.set s.stk.refLow 0 stack r.2, thrLow := Tab.set s.stk.thrLow 0 stack w.2 } }
    let s := s.stepChange 0x0903 .notice .STK_REF_STEPS stack ref r.1 t n
    let s := s.stepChange 0x0904 .degraded .STK_THR_STEPS stack thr w.1 t n
    if s.rd .STK_T_TRIP 0 ≤ t && s.rd .STK_TRIPPED stack = 0 then
      .next ((s.wr .STK_TRIPPED stack 1).post (devInc 0x0905 .device stack 0 [t]))
    else if t + h ≤ s.rd .STK_T_TRIP 0 then .next (s.wr .STK_TRIPPED stack 0)
    else .next s

end Sys2Proof.Machine
end

