-- ==== Sys2Proof/Machine/Pools.lean ====
section
/-! DEFINITION. The free pools and share arithmetic of the compartment allocator (R34 to R39, R58, R69), the end of contracts (R82), what the house
takes (R625), and what happens when a compartment stops being ASSIGNED or becomes FREE. -/
namespace Sys2Proof.Machine

open Sys2Proof

/-! ### Free pools (R34) -/

/-- What all compartments together hold of one kind. -/
def State.taken (s : State) (f : Grants → List Nat) : List Nat := compartments.flatMap (fun c => f (s.grants c))

/-- Numbers below `n` that no compartment holds. -/
def State.freeOf (s : State) (f : Grants → List Nat) (n : Nat) : List Nat :=
  let t := s.taken f
  (List.range n).filter (fun i => !t.contains i)

/-- A slice is gated, or its ungating has not ended (R575). -/
def State.sliceGated (s : State) (n : Nat) : Bool := bit (s.rd .PWR_GATE_SLICE (n / 32)) (n % 32) || s.pwr.ungating.contains (0x100 + n)

/-- Free slices. -/
def State.freeSlices (s : State) : List Nat := (s.freeOf (·.slices) 128).filter (fun n => !s.sliceGated n)

/-- Free walkers: the overflow pool too (R34). -/
def State.freeWalkers (s : State) : Nat := 64 - compartments.foldl (fun n c => n + (s.grants c).walkers) 0

/-- A tier-two granule is in the free pools or bound: its port is ACTIVE and its capacity reaches it (R384). -/
def State.t2Usable (s : State) (g : Nat) : Bool :=
  decide (g < 4096) && s.rd .EXP_STATE (g / 512) == 2 && decide (g % 512 < s.rd .EXP_USABLE_GIB (g / 512))

/-- Free tier-two granules. -/
def State.freeT2 (s : State) : List Nat :=
  let t := s.taken (·.t2)
  (List.range 4096).filter (fun g => s.t2Usable g && !t.contains g)

/-- An instance function is free. -/
def State.freeInst (s : State) (fn : Nat) : Bool := decide (fn < 128) && !isMgr fn && s.rd .INS_BOUND fn == 0

/-- Granules of an expansion port that some compartment holds. -/
def State.boundAt (s : State) (p : Nat) : List Nat := (s.taken (·.t2)).filter (fun g => g / 512 == p)

/-! ### Share units (R35 to R39, R69) -/

/-- The arbitrated resources as lanes of the plan record: host A and B, network 0 and 1, stacks, expansion ports, die ports. -/
def lanes : Nat := 24

/-- A compartment holds fixed units: the house or a SEALED one. -/
def State.fixedUnits (s : State) (c : Nat) : Bool := c == 0 || s.rd .CMP_SEALED c == 1

/-- Compartments that are not FREE. -/
def State.held (s : State) : List Nat := compartments.filter (fun c => s.cmpState c != .free)

/-- The lane value of a compartment: units or weight. -/
def State.lane (s : State) (c l : Nat) : Nat := (s.grants c).lanes.getD l 0

/-- Units held on a lane by the house and SEALED compartments. -/
def State.unitsHeld (s : State) (l : Nat) : Nat := (s.held.filter s.fixedUnits).foldl (fun n c => n + s.lane c l) 0

/-- The SHARED remainder of a lane (R36). -/
def State.remainder (s : State) (l : Nat) : Nat := 1024 - s.unitsHeld l

/-- The weights of the SHARED compartments of a lane. -/
def State.weights (s : State) (l : Nat) : Nat := (s.held.filter (fun c => !s.fixedUnits c)).foldl (fun n c => n + s.lane c l) 0

/-- The floor of a SHARED compartment (R69). -/
def State.floor (s : State) (c l : Nat) : Nat := if s.weights l = 0 then 0 else s.remainder l * s.lane c l / s.weights l

/-- What a compartment may count on: units, or its floor. -/
def State.unitsOf (s : State) (c l : Nat) : Nat := if s.fixedUnits c then s.lane c l else s.floor c l

/-- The service slots that patterns take on a lane. -/
def State.slotsTaken (s : State) (l : Nat) : List Nat := s.held.flatMap (fun c => (s.grants c).patterns.getD l [])

/-- The widest gap a pattern of `u` units may have (R39). -/
def gapBound (u : Nat) : Nat := 2 * ceilDiv 1024 u

/-- Greedy cover: from a slot, the farthest free slot within the gap, until the period closes at `stop`. -/
def coverFrom (free : List Nat) (gap stop : Nat) : Nat → Nat → Option (List Nat)
  | 0, _ => none
  | fuel + 1, p =>
    if stop ≤ p + gap then some []
    else match (free.filter (fun q => decide (p < q) && decide (q ≤ p + gap))).getLast? with
      | some q => (coverFrom free gap stop fuel q).map (fun r => q :: r)
      | none => none

/-- A pattern of `u` units in the free slots, if one meets R39. -/
def fitPattern (u : Nat) (free : List Nat) : Option (List Nat) :=
  if u = 0 then some []
  else if free.length < u then none
  else
    let g := gapBound u
    match (free.filter (fun p => decide (p < g))).findSome? (fun p =>
        match coverFrom free g (p + 1024) (u + 1) p with
        | some r => if r.length + 1 ≤ u then some (p :: r) else none
        | none => none) with
    | none => none
    | some base => some (ascending (base ++ (free.filter (fun q => !base.contains q)).take (u - base.length)))

/-- The largest gap between consecutive slots of a pattern, around the share period. -/
def maxGap : List Nat → Nat
  | [] => 1024
  | p :: ps => ((p :: ps).zip (ps ++ [p + 1024])).foldl (fun m e => max m (e.2 - e.1)) 0

/-- A list is a pattern of `u` units in the free slots that meets R39. -/
def isPattern (u : Nat) (free ps : List Nat) : Bool :=
  ps.length == u && decide (ps = ascending ps) && ps.all (fun p => free.contains p) && ps.eraseDups.length == u
    && (u == 0 || decide (maxGap ps ≤ gapBound u))

/-- The pattern an allocator chooses: the implementation's where it is one, else the first that fits. -/
def choosePattern (lane u : Nat) (free : List Nat) : Option (List Nat) :=
  match fitPattern u free with
  | none => none
  | some p => if u = 0 then some [] else if isPattern u free (Config.pattern lane u free) then some (Config.pattern lane u free) else some p

/-- Free service slots of a lane. -/
def State.slotsFree (s : State) (l : Nat) : List Nat :=
  let t := s.slotsTaken l
  (List.range 1024).filter (fun p => !t.contains p)

/-! ### Contracts end (R82) -/

/-- The preloads of contracts that stay. -/
def preOf (k : Option Contract) : List (Nat × Nat) :=
  match k with
  | some k => k.preload
  | none => []

/-- The ACTIVE contract of a compartment ends. -/
def State.endActive (s : State) (c : Nat) : State :=
  let s := s.unpin c (preOf (s.active c)) (preOf (s.stagedC c))
  { s with cmp := { s.cmp with active := Tab.del s.cmp.active c } }

/-- The STAGED contract of a compartment is discarded. -/
def State.dropStaged (s : State) (c : Nat) : State :=
  let s := s.unpin c (preOf (s.stagedC c)) (preOf (s.active c))
  { s with cmp := { s.cmp with staged := Tab.del s.cmp.staged c } }

/-- Both contracts of a compartment end. -/
def State.endContracts (s : State) (c : Nat) : State := (s.dropStaged c).endActive c

/-! ### Leaving ASSIGNED -/

/-- Instance functions bound to a compartment. -/
def State.instancesOf (s : State) (c : Nat) : List Nat :=
  (List.range 128).filter (fun fn => !isMgr fn && s.rd .INS_BOUND fn == 1 && s.rd .INS_CMP fn == c)

/-- The TDISP interface of an instance that is locked or running goes to ERROR (R557). -/
def State.tdispError (s : State) (fn : Nat) : State :=
  if s.tdispLocked fn then { s with sec := { s.sec with tdisp := Tab.set s.sec.tdisp 0 fn 3 } } else s

/-- A compartment enters a state other than ASSIGNED: its contracts end and its interfaces fail (R82, R557). -/
def State.enterState (s : State) (c : Nat) (st : CmpState) : State :=
  let s := s.setCmpState c st
  if c = 0 || st = .assigned then s
  else (s.instancesOf c).foldl State.tdispError (s.endContracts c)

/-- A compartment becomes TAINTED with a cause; COMPARTMENT_TAINTED is DEVICE only after a failed self-verify (R49). -/
def State.taint (s : State) (c cause : Nat) : State :=
  if c = 0 then s
  else
    let s := ((s.enterState c .tainted).wr .CMP_TAINT_CAUSE c cause).wr .CMP_INTAKE_CLOSED c 0
    s.post (onCmp c (devInc 0x0101 (if cause = 4 then .device else .degraded) 0 c [cause, s.rd .CMP_SCRUB_STEP c]))

/-! ### Becoming FREE (R52, R164, R186, R293, R327, R500, R627) -/

/-- The statistics and registers of one compartment that return to reset values when it becomes FREE. -/
def freedFields : List Fld :=
  [.TRN_ST_PORT_MISS, .TRN_ST_WALKS, .TRN_ST_WALK_RESTART, .TRN_ST_MERGED, .TRN_ST_OVERFLOW,
   .NET_ST_TX_MSGS, .NET_ST_RX_MSGS, .NET_ST_REFUSED, .NET_ST_ALLOC_TIES, .NET_ST_SRQ_TIES, .NET_ST_SRQ_EMPTY, .NET_ST_RNR_DISCARD,
   .NET_ST_LATE, .NET_ST_CQ_FULL_WAITS, .NET_ST_ALLOC_EMPTY, .NET_ST_RETRANSMIT, .NET_ST_RX_FULL, .NET_ST_CNP_TX, .NET_ST_CNP_RX, .TRN_ST_RANGE_HITS, .TRN_ST_FAULTS, .TRN_ST_INV,
   .SYC_ST_HITS, .SYC_ST_MISSES, .SYC_ST_NO_ALLOC, .SYC_ST_DUP_FILL, .SYC_ST_STALE_FILL, .SYC_ST_WRITEBACKS, .SYC_ST_EVICT_STREAM,
   .SYC_ST_EVICT_NORMAL, .SYC_ST_EVICT_PERSIST, .SYC_ST_MISS_HOLD,
   .COH_ST_FWD, .COH_ST_INV, .COH_ST_BACK_INV, .COH_ST_RSP_MISS, .COH_ST_EVICT_CROSS, .COH_ST_RETRY, .COH_ST_STARVED, .COH_ST_RES_EXPIRED,
   .COH_ST_INV_WRITES, .COH_ST_HOST_HELD,
   .COH_AT_FAR, .COH_AT_FAR_DIE, .COH_AT_PLACE_FORCED, .COH_AT_INVALID, .COH_AT_OVERFLOW, .COH_AT_UNDERFLOW, .COH_AT_POISONED,
   .STK_GR_CMDS, .STK_GR_ENTRIES, .STK_GR_LINES, .STK_GR_POISONED, .CMP_CTR_BREACH_FRAME, .CMP_CTR_BREACH_TOTAL, .CMP_CTR_SUPPRESSING,
   .COH_WIN_BUSY, .COH_WIN_DROPPED,
   .INC_CRING_EN, .INC_CRING_LOC, .INC_CRING_BASE, .INC_CRING_STATE, .INC_CRING_PROD, .INC_CRING_CONS, .INC_CRING_READER,
   .INC_CRING_LOST_NOTICE, .INC_CRING_LOST_DEGRADED, .INC_CRING_LOST_JOB, .INC_CRING_LOST_DEVICE]

/-- The event sources an instance function loses when it stops being bound (R186). -/
def State.unbindSources (s : State) (fn : Nat) : State :=
  ((List.range 2048).filter (fun n => (decide (0xE0 ≤ n) && s.rd .EVT_SRC_BOUND n == 1 && s.rd .EVT_SRC_OWNER n == fn))).foldl (fun s n =>
    s.rst [.EVT_SRC_BOUND, .EVT_SRC_OWNER, .EVT_PENDING, .EVT_COUNT, .EVT_SAT, .EVT_SRC_ROUTED, .EVT_SRC_VEC, .EVT_SRC_SENSE] [n]) s

/-- An instance function stops being bound. -/
def State.unbindInstance (s : State) (fn : Nat) : State :=
  (((s.unbindSources fn).wr .INS_BOUND fn 0).wr .INS_CMP fn 0).wr .INS_ENABLE fn 0

/-- Objects and slots of the blocks of a compartment are cleared (R164). -/
def State.clearBlocks (s : State) (c : Nat) : State :=
  let g := s.grants c
  let s := g.conBlk.foldl (fun s b => (span (64 * b) 64).foldl (fun s o => s.wr .CON_VALUE o 0) s) s
  { s with slots := s.slots.keep (fun i _ => !g.conjBlk.contains (i / 256)) }

/-- A compartment becomes FREE: every grant returns to the free pools. -/
def State.freeCompartment (s : State) (c : Nat) : State :=
  let s := (s.enterState c .free).clearBlocks c
  let s := (s.instancesOf c).foldl State.unbindInstance s
  let s := (s.rst freedFields [c]).rst [.SYC_WIN_BASE, .SYC_WIN_UNITS, .SYC_WIN_PERSIST, .SYC_WIN_MOOD, .SYC_WIN_QUOTA, .SYC_WIN_PIN] (span (16 * c) 16)
  let s := (s.rst [.SEC_CMP_AUTH] (span (12 * c) 12)).rst [.STAT_F_LIVE, .STAT_F_SHADOW] (span (16 * c) 16)
  let s := s.rst [.COH_WIN_BASE, .COH_WIN_UNITS, .COH_WIN_HOST_A, .COH_WIN_HOST_B, .COH_WIN_NO_E, .COH_WIN_DPA] (span (8 * c) 8)
  let s := { (s.setGrants c Grants.none) with
    syc := { s.syc with pins := Tab.del s.syc.pins c }
    cmp := { s.cmp with suppressed := Tab.del s.cmp.suppressed c, grants := Tab.del s.cmp.grants c }
    inc := { s.inc with cmpQ := Tab.del s.inc.cmpQ c
                        frame := s.inc.frame.keep (fun k _ => !(((decide (0x1000 ≤ k) && decide (k < 0x4000)) || (decide (0x6000 ≤ k) && decide (k < 0x6300)))
                          && k % 0x100 == c)) } }
  ((((s.wr .CMP_SEALED c 0).wr .CMP_INTAKE_CLOSED c 0).wr .CMP_TAINT_CAUSE c 0).wr .CMP_SCRUB_STEP c 8).refreshAgents

/-! ### The house (R625) -/

/-- Log what the house asked for and got (R17, R625). -/
def State.logHouse (s : State) (off lo asked got : Nat) : State :=
  if asked = got then s else s.logClamp ⟨fieldId off lo, 0, 0x7F, false, asked, got, 0, false⟩

/-- The house binds the lowest-numbered free tier-two granules up to CMP_HOUSE_T2_GIB. -/
def State.houseT2 (s : State) : State :=
  let want := s.rd .CMP_HOUSE_T2_GIB 0
  let g := s.grants 0
  let t2 := g.t2 ++ s.freeT2.take (want - g.t2.length)
  (s.setGrants 0 { g with t2 := t2 }).logHouse 0x200120 0 want (min want t2.length)

/-- Keep the lowest of what is held up to a count, and bind free ones up to it. -/
def adjust (have' free : List Nat) (want : Nat) : List Nat := (ascending have').take want ++ free.take (want - have'.length)

/-- The house takes its slices, walkers, blocks and tier-one granules at INIT. -/
def State.houseGrants (s : State) : State :=
  let g := s.grants 0
  let nil : Grants := { g with walkers := 0, rangeBlk := [], conBlk := [], conjBlk := [], qpBlk := [], cqBlk := [], srqBlk := [], pdBlk := [], keyBlk := [] }
  let s := s.setGrants 0 nil
  let slices := adjust g.slices s.freeSlices (s.rd .CMP_HOUSE_SLICES 0)
  let t1 := adjust g.t1 (s.freeOf (·.t1) 384) (s.rd .CMP_HOUSE_T1_GIB 0)
  let walkers := min (s.rd .CMP_HOUSE_WALKERS 0) s.freeWalkers
  let blk (f : Grants → List Nat) (n : Nat) (r : Fld) : List Nat := (s.freeOf f n).take (s.rd r 0)
  let h : Grants := { nil with
    slices := slices, t1 := t1, walkers := walkers,
    rangeBlk := blk (·.rangeBlk) 128 .CMP_HOUSE_RANGE_BLK, conBlk := blk (·.conBlk) 64 .CMP_HOUSE_CON_BLK,
    conjBlk := blk (·.conjBlk) 128 .CMP_HOUSE_CONJ_BLK, qpBlk := blk (·.qpBlk) 128 .CMP_HOUSE_QP_BLK,
    cqBlk := blk (·.cqBlk) 128 .CMP_HOUSE_CQ_BLK, srqBlk := blk (·.srqBlk) 128 .CMP_HOUSE_SRQ_BLK,
    pdBlk := blk (·.pdBlk) 128 .CMP_HOUSE_PD_BLK, keyBlk := blk (·.keyBlk) 128 .CMP_HOUSE_KEY_BLK }
  let s := s.setGrants 0 h
  let s := (s.logHouse 0x200104 0 (s.rd .CMP_HOUSE_SLICES 0) slices.length).logHouse 0x200104 8 (s.rd .CMP_HOUSE_WALKERS 0) walkers
  s.logHouse 0x200104 16 (s.rd .CMP_HOUSE_T1_GIB 0) t1.length

/-- Units the house may take: the R37 conditions hold for `u` units, the other patterns given. -/
def State.houseFits (s : State) (u : Nat) : Bool :=
  (List.range lanes).all (fun l =>
    let others := (s.held.filter (fun c => c != 0 && s.fixedUnits c)).foldl (fun n c => n + s.lane c l) 0
    let taken := (s.held.filter (fun c => c != 0)).flatMap (fun c => (s.grants c).patterns.getD l [])
    let sharedOk := (s.held.filter (fun c => !s.fixedUnits c)).all (fun c => s.lane c l == 0 || decide (u + others < 1024))
    decide (u + others ≤ 1024) && sharedOk && (fitPattern u ((List.range 1024).filter (fun p => !taken.contains p))).isSome)

/-- The house's share units at a start: the largest value up to the one written that meets R37. -/
def State.houseUnits (s : State) : State :=
  let now := (s.grants 0).lanes.headD 0
  let want := s.rd .CMP_HOUSE_UNITS 0
  let cands := if now ≤ want then (span now (want - now + 1)).reverse else span want (now - want + 1)
  let u := (cands.find? s.houseFits).getD now
  let s := if u = want then s else s.logClamp ⟨fieldId 0x200100 0, 0, 0x7F, false, want, u, 0, false⟩
  let g := s.grants 0
  let pats := (List.range lanes).map (fun l =>
    let taken := (s.held.filter (fun c => c != 0)).flatMap (fun c => (s.grants c).patterns.getD l [])
    (choosePattern l u ((List.range 1024).filter (fun p => !taken.contains p))).getD [])
  s.setGrants 0 { g with lanes := (List.range lanes).map (fun _ => u), patterns := pats }

end Sys2Proof.Machine
end

