-- ==== Sys2Proof/Machine/Expansion.lean ====
section
/-! DEFINITION. Tier-two expansion (chapter 14): port states, enumeration and its map, link loss, and what expanders answer. -/
namespace Sys2Proof.Machine

open Sys2Proof

/-- States of an expansion port (table "Port states"). -/
inductive PortState where
  | empty | ready | active | down
  deriving DecidableEq, Repr

/-- The code of a port state. -/
def PortState.code : PortState → Nat
  | .empty => 0 | .ready => 1 | .active => 2 | .down => 3

/-- Set the state of an expansion port. -/
def State.setPort (s : State) (p : Nat) (st : PortState) : State := s.wr .EXP_STATE p st.code

/-- Some granule of an expansion port is bound. -/
def State.portBound (s : State) (p : Nat) : Bool := !(s.boundAt p).isEmpty

/-- A running enumeration. -/
def State.enumBusy (s : State) : Bool := s.rd .EXP_ENUM_BUSY 0 == 1

/-- Enumeration starts: the ports whose link is up are fixed (R382). -/
def State.enumStart (s : State) : State :=
  let up := (List.range 8).filter (fun p => s.rd .EXP_LINK_UP p == 1)
  { ((s.wr .EXP_ENUM_BUSY 0 1).wr .EXP_ENUM_BEAT 0 s.beat) with exp := ⟨up, [], [], []⟩ }

/-- EXP_ENUM_GO: a device-wide order, dropped while an enumeration runs (R382). -/
def execEnumerationStart (fn : Nat) (s : State) : Out :=
  if s.closed fn 0x900800 then .next s
  else if fn != s.primaryFn then .next (s.foreignOrder fn 0x900800 0)
  else if s.enumBusy then .next s else .next s.enumStart

/-- The next port that a running enumeration visits. -/
def State.enumNext (s : State) : Option Nat := if s.enumBusy then s.exp.start.find? (fun p => (s.exp.visited.find p).isNone) else none

/-- Usable capacity of an expander of a whole number of GiB. -/
def usableGib (gib : Nat) : Nat := min gib 512

/-- The reason code of the first enumeration check that fails, 0 when all pass (table "Enumeration checks"). -/
def State.enumReason (s : State) (p : Nat) (link hdmh : Bool) (gib serial : Nat) (ide decoder : Bool) : Nat :=
  if !link || s.rd .EXP_LINK_UP p == 0 then 1
  else if !hdmh then 2
  else if gib = 0 then 3
  else if s.portBound p && (serial % 2 ^ 64 != s.rd .EXP_BOUND_SERIAL p || (s.boundAt p).any (fun g => decide (usableGib gib ≤ g % 512))) then 4
  else if s.rd .EXP_IDE_REQUIRED 0 = 1 && !ide then 5
  else if !decoder then 6 else 0

/-- The digest of the expander's certificate chain is recorded, and key set 0 is in use (R555). -/
def State.expSession (s : State) (p serial : Nat) : State :=
  let s := (List.range 12).foldl (fun (s : State) i => s.wr .SEC_EXP_CERT_DIGEST (12 * p + i) (Config.digest [serial] i).toNat) s
  { s with sec := { s.sec with expSet := Tab.del s.sec.expSet p } }

/-- The visit of a port ends: what the port's link and expander show (capacity in whole GiB), and the checks (R382). -/
def execEnumerationPortVisit (port : Nat) (link hdmh : Bool) (gib serial : Nat) (ide decoder : Bool) (s : State) : Out :=
  if s.enumNext != some port then .next s
  else
    let r := s.enumReason port link hdmh gib serial ide decoder
    let s := if r = 0 || decide (4 ≤ r) then s.wr .EXP_SERIAL port serial else s
    let s := if r = 0 || r = 6 then s.wr .EXP_IDE_UP port (b2n ide) else s
    let s := if (r = 0 || r = 6) && ide then s.expSession port serial else s
    .next { s with exp := { s.exp with visited := Tab.put s.exp.visited port (r, usableGib gib) } }

/-- The outcome of a port in the map (R383): 0 EMPTY, 1 PRESENT, 2 LEFT_OUT, 3 WITHDRAWN, 4 ARRIVED_LATE. -/
def State.mapOutcome (s : State) (p : Nat) : Nat :=
  if s.exp.fell.contains p then 3
  else match s.exp.visited.find p with
    | some v => if v.1 = 0 then 1 else 2
    | none => if s.exp.rose.contains p then 4 else 0

/-- The state a port without a place in the map takes. -/
def State.portOut (s : State) (p : Nat) : PortState :=
  if s.portBound p then .down else if s.rd .EXP_LINK_UP p = 1 then .ready else .empty

/-- Apply the map to one port (R384). -/
def State.mapPort (s : State) (p : Nat) : State :=
  let out := s.mapOutcome p
  let v := (s.exp.visited.find p).getD (0, 0)
  let s := (s.wr .EXP_MAP_OUTCOME p out).wr .EXP_MAP_REASON p (if out = 2 then v.1 else 0)
  match out with
  | 1 => ((s.setPort p .active).wr .EXP_USABLE_GIB p v.2).wr .EXP_BOUND_SERIAL p (s.rd .EXP_SERIAL p)
  | 4 => s.setPort p .ready
  | _ => s.setPort p (s.portOut p)

/-- Every port of the walk has been visited. -/
def State.walkEnded (s : State) : Bool := s.enumBusy && s.exp.start.all (fun p => (s.exp.visited.find p).isSome)

/-- The map is applied to the allocator, the house takes its tier-two granules, and the enumeration ends (R384, R625). -/
def State.applyMap (s : State) : State :=
  let settled := (List.range 8).all (fun p => s.mapOutcome p != 3)
  let t := ((List.range 8).foldl State.mapPort s).houseT2
  let t := (t.wr .EXP_ENUM_STATUS 0 (if settled then 1 else 2)).wr .EXP_ENUM_BUSY 0 0
  ({ t with exp := ⟨[], [], [], []⟩ }).occur 3

/-- A warm reset ends a running enumeration without a map (R385). -/
def State.abortEnum (s : State) : State :=
  if s.enumBusy then { ((s.wr .EXP_ENUM_STATUS 0 3).wr .EXP_ENUM_BUSY 0 0) with exp := ⟨[], [], [], []⟩ } else s

/-- A link comes up on an expansion port (R381); a gated port holds its expander in reset (R605). -/
def execExpansionLinkUp (port : Nat) (s : State) : Out :=
  if decide (8 ≤ port) || s.rd .EXP_LINK_UP port = 1 || bit (s.rd .PWR_GATE_EXP 0) port then .next s
  else
    let s := s.wr .EXP_LINK_UP port 1
    let s := if s.rd .EXP_STATE port = 2 || s.portBound port then s else s.setPort port .ready
    let s := if s.enumBusy then { s with exp := { s.exp with rose := addOnce s.exp.rose port } } else s
    .next (s.post (devInc 0x0A01 .notice port 0 []))

/-- EXPANDER_LOST: one record for the device ring and the rings of the compartments that hold granules (R391). -/
def State.expanderLost (s : State) (p : Nat) : State :=
  let n := (s.boundAt p).length
  let holders := compartments.filter (fun c => (s.grants c).t2.any (fun g => g / 512 == p))
  if holders.any (fun c => c != 0) then
    s.post { code := 0x0A02, sev := .job, cSev := .job, cmps := holders, toC := true, unit := p, args := [n] }
  else s.post (devInc 0x0A02 .degraded p 0 [n])

/-- The link of an expansion port is lost: an ACTIVE port becomes DOWN or EMPTY (R391). -/
def State.expansionLoss (s : State) (p : Nat) : State :=
  let was := s.rd .EXP_STATE p
  let s := (s.wr .EXP_LINK_UP p 0).wr .EXP_IDE_UP p 0
  let s := if s.enumBusy then { s with exp := { s.exp with fell := addOnce s.exp.fell p } } else s
  let s := s.setPort p (if s.portBound p then .down else .empty)
  if was = 2 then s.expanderLost p else s

/-- An expansion link goes down. -/
def execExpansionLinkDown (port : Nat) (s : State) : Out :=
  if decide (8 ≤ port) || s.rd .EXP_LINK_UP port = 0 then .next s else .next (s.expansionLoss port)

/-- An expander answers a line: a slow read is counted (R380), a poisoned one poisons its line (R390). -/
def execExpanderResponse (addr : Nat) (write poison : Bool) (latency : Nat) (s : State) : Out :=
  let p := portOfLine (lineOf addr)
  if addr < t2Base || decide (t2Base + t2Bytes ≤ addr) || s.rd .EXP_STATE p != 2 || write then .next s
  else
    let s := if s.rd .EXP_LAT_LIMIT 0 < latency then s.bump .EXP_SLOW p 1 else s
    if poison then .next (((s.bump .EXP_RD_POISON p 1).poisonLine (lineOf addr)).uncorrectable (0x10 + p) addr) else .next s

/-- A CXL event record of an expander (R390): its first 32 bytes are the payload. -/
def execExpanderEvent (port : Nat) (record : List Nat) (s : State) : Out :=
  if 8 ≤ port then .next s
  else .next (s.post (devInc 0x0A03 .notice port 0 ((List.range 4).map (fun i => word record i % 2 ^ 64))))

end Sys2Proof.Machine
end

