-- ==== Sys2Proof/Machine/LongOps.lean ====
section
/-! DEFINITION. Long operations: the gate of ADMIN commands, operation slots, conflicts, progress and ends (R145, R528, R531 to R539). -/
namespace Sys2Proof.Machine

open Sys2Proof

/-- The statuses of long operations (table "Long-operation status"). -/
inductive LSt where
  | busy | noSlot | fawn | tableInvalid | cancelled | reset | notFound | notSuspendable | pastPoint | ended | range | memtestErrors
  | notValid | scrubVerifyFailed
  deriving DecidableEq, Repr

/-- The code of a status. -/
def LSt.code : LSt → Nat
  | .busy => 0x50 | .noSlot => 0x51 | .fawn => 0x52 | .tableInvalid => 0x53 | .cancelled => 0x54 | .reset => 0x55 | .notFound => 0x56
  | .notSuspendable => 0x57 | .pastPoint => 0x58 | .ended => 0x59 | .range => 0x5A | .memtestErrors => 0x5B | .notValid => 0x5C
  | .scrubVerifyFailed => 0x5D

/-- An operation that ends at once with a status; its result is left as it is. -/
def Op.fails (o : Op) (code : Nat) : Op := { o with wait := .done, status := code }

/-- The gate of ADMIN commands: only the primary manager function (R94), and in fawn mode only FW_STAGE and the OP orders (R528). -/
def adminGate (o : Op) (s : State) (k : Op → State → Op × State) : Op × State :=
  let op := dOpcode o.desc
  if o.fn != s.primaryFn then (o.fails St.admNotPrimary.code, s.foreignOrder o.fn (op + 2 ^ 63) 0)
  else if s.rd .BOOT_FAWN 0 = 1 && op != 0x68 && decide (op < 0x6A) then (o.fails LSt.fawn.code, s)
  else k o s

/-- A RUNNING or SUSPENDED operation. -/
def LongOp.live (l : LongOp) : Bool := l.state == 1 || l.state == 2

/-- The kinds that conflict on one compartment (R532). -/
def cmpKind (k : Nat) : Bool := k == 0x61 || k == 0x63 || k == 0x65 || k == 0x66 || k == 0x67

/-- A conflicting operation is RUNNING or SUSPENDED (R532). -/
def State.longBusy (s : State) (kind c : Nat) : Bool :=
  s.long.slots.any (fun e => e.2.live &&
    ((cmpKind kind && cmpKind e.2.kind && e.2.cmp == c) || (kind == e.2.kind && (kind == 0x69 || kind == 0x68))))

/-- The slot a start claims: the lowest FREE one, else the ENDED one with the oldest end (R531). -/
def State.claimSlot (s : State) : Option Nat :=
  match (List.range 16).find? (fun i => (s.long.slots.find i).isNone) with
  | some i => some i
  | none => ((s.long.slots.filter (fun e => e.2.state == 3)).foldl (fun (b : Option (Nat × LongOp)) e =>
      match b with
      | none => some e
      | some x => if e.2.endOrder < x.2.endOrder then some e else b) none).map (·.1)

/-- A long operation in a slot. -/
def State.longAt (s : State) (i : Nat) : Option LongOp := s.long.slots.find i

/-- Replace the operation in a slot. -/
def State.setLong (s : State) (i : Nat) (l : LongOp) : State :=
  { s with long := { s.long with slots := Tab.put s.long.slots i l } }

/-- Start a long operation for a descriptor: busy and slot checks, then its slot and ID. -/
def State.startLong (s : State) (o : Op) (tkind c total : Nat) (words args : List Nat) (k : Nat → Op → State → Op × State) : Op × State :=
  let kind := dOpcode o.desc
  if s.longBusy kind c then (o.fails LSt.busy.code, s)
  else match s.claimSlot with
    | none => (o.fails LSt.noSlot.code, s)
    | some i =>
      let l : LongOp := ⟨s.long.serial % 2 ^ 28 * 16 + i, kind, tkind, c, 1, 0, 0, total, s.beat, 0, 0, 0, 0, 0, some o.id, none, words, args⟩
      let s := { s with long := { s.long with slots := Tab.put s.long.slots i l, serial := s.long.serial + 1 } }
      k i { o with wait := .long i } s

/-- A long operation has reached its end: status and result wait to be reported. -/
def State.finLong (s : State) (i status result : Nat) : State :=
  match s.longAt i with
  | some l => s.setLong i { l with fin := some (status, result) }
  | none => s

/-- Record the detail of an operation (BOOT_OP_DETAIL). -/
def State.setDetail (s : State) (i d : Nat) : State :=
  match s.longAt i with
  | some l => s.setLong i { l with detail := d }
  | none => s

/-- A slot becomes ENDED and event source 0x003 is raised (R539). -/
def State.endSlot (s : State) (i status : Nat) : State :=
  match s.longAt i with
  | none => s
  | some l =>
    let s := s.setLong i { l with state := 3, status := status, endBeat := s.beat, endOrder := s.long.ends, fin := none, op := none }
    ({ s with long := { s.long with ends := s.long.ends + 1 } }).occur 3

/-- A long operation ends: its slot, its descriptor's completion (R145, R539). -/
def State.endLong (s : State) (i status result : Nat) : State :=
  match s.longAt i with
  | none => s
  | some l =>
    let s := s.endSlot i status
    match l.op.bind s.findOp with
    | none => s
    | some o =>
      let o := { o with wait := .done, status := status, result := result }
      (s.signalAll [o]).completeOps [o]

/-- The result of an end: lines for BULK_FILL and KEY_ROTATE, mismatches for MEMTEST, the ID otherwise. -/
def LongOp.result (l : LongOp) (status result : Nat) : Nat :=
  if ((l.kind = 0x65 || l.kind = 0x67) && status = 0) || (l.kind = 0x66 && status = LSt.memtestErrors.code) then result else l.id

/-- A long operation whose work has ended is reported (R539). -/
def execLongOperationEnd (slot : Nat) (s : State) : Out :=
  match s.longAt slot with
  | none => .next s
  | some l =>
    match l.fin with
    | some (st, r) => if l.live then .next (s.endLong slot st (l.result st r)) else .next s
    | none => .next s

/-- The slot of a live long operation of a kind for a compartment. -/
def State.longOf (s : State) (kind c : Nat) : Option (Nat × LongOp) :=
  s.long.slots.find? (fun e => e.2.live && e.2.kind == kind && e.2.cmp == c && e.2.fin.isNone)

/-- A reset ends a long operation with OP_RESET and no completion record (R536). -/
def State.resetLong (s : State) (i : Nat) : State :=
  match s.longAt i with
  | none => s
  | some l =>
    let s := match l.op with
      | some id => s.dropOp id
      | none => s
    s.endSlot i LSt.reset.code

/-- Read the record that an ADMIN descriptor names. -/
def State.readRecord (s : State) (o : Op) (n : Nat) : Option (List Nat) × State :=
  let r := s.adminRead false (adPtr o.desc) n
  match r.1 with
  | .ok bs => (some (wordsOf (n / 8) bs), r.2)
  | _ => (none, r.2)

end Sys2Proof.Machine
end

