-- ==== Sys2Proof/Machine/Contract.lean ====
section
/-! DEFINITION. Contracts (chapter 3): loading a contract record and its preload list (R81), its end (R82), deadlines (R87), and the
service slots of arbitrated resources (R35, R36, R64, R374, breach OVER_DEMAND). -/
namespace Sys2Proof.Machine

open Sys2Proof

/-! ### Loading (R81) -/

/-- The opcode of TABLE_LOAD. -/
def opTableLoad : Nat := 0x64

/-- A TABLE_LOAD descriptor of a kind. -/
def isLoad (k : Nat) (d : List Nat) : Bool := dOpcode d == opTableLoad && adKind d == k

/-- A TABLE_LOAD descriptor whose kind the table does not list. -/
def isBadLoad (d : List Nat) : Bool := dOpcode d == opTableLoad && (adKind d == 0 || decide (4 < adKind d))

/-- The demand lanes of a contract record. -/
def ctrLanes (ws : List Nat) : List Nat := (List.range lanes).map (fun l => fld ws (6 + l / 4) (16 * (l % 4)) 11)

/-- A contract record is a clear record. -/
def ctrClear (ws : List Nat) : Bool := fld ws 2 0 40 == 0

/-- Check 2 of a contract record. -/
def ctrRecordOk (ws : List Nat) : Bool :=
  fld ws 0 37 3 == 0 && fld ws 0 48 16 == 0 && fld ws 2 40 24 == 0 && fld ws 3 32 32 == 0 && fld ws 5 13 51 == 0
    && (List.range lanes).all (fun l => fld ws (6 + l / 4) (16 * (l % 4) + 11) 5 == 0)
    && word ws 12 == 0 && word ws 13 == 0 && word ws 14 == 0 && word ws 15 == 0
    && fld ws 0 40 8 == 1 && fld ws 0 0 32 != 0
    && (ctrClear ws || (decide (fld ws 5 0 13 ≤ 4096) && word ws 4 % 64 == 0))

/-- Check 4: the demand of a contract against what the compartment may count on. -/
def State.ctrDemandOk (s : State) (c : Nat) (ws : List Nat) : Bool :=
  let ls := ctrLanes ws
  (List.range lanes).all (fun l => decide (ls.getD l 0 ≤ s.unitsOf c l)) && ls.getD 2 0 == 0 && ls.getD 3 0 == 0

/-- A preload entry names a pinned indicative range entry of the compartment and a client port (check 5). -/
def State.preEntryOk (s : State) (c e : Nat) : Bool :=
  let r := s.xl.ranges.get [] (bits e 0 13)
  e == put e 0 13 + put (bits e 16 8) 16 8 && clientPort (bits e 16 8)
    && bit (word r 0) 0 && fld r 0 16 5 == c && bit (word r 0) 7 && bit (word r 0) 8

/-- The entries of a preload list, range entry and port. -/
def prePairs (es : List Nat) : List (Nat × Nat) := es.map (fun e => (bits e 0 13, bits e 16 8))

/-- Pinned places that a preload adds at a port (check 6). -/
def State.preNew (s : State) (c : Nat) (ps : List (Nat × Nat)) (port : Nat) : Nat :=
  (((ps.filter (fun p => p.2 == port)).map (·.1)).eraseDups.filter (fun r => !(s.xl.places.get [] port).contains (c, r))).length

/-- Check 6: at most 448 pinned places at every port. -/
def State.preRoom (s : State) (c : Nat) (ps : List (Nat × Nat)) : Bool :=
  (List.range 13).all (fun port => decide ((s.xl.places.get [] port).length + s.preNew c ps port ≤ 448))

/-- Pin one preload entry: its place is reserved and holds its translation (R251, R252). -/
def State.pinEntry (s : State) (c : Nat) (e : Nat × Nat) : State :=
  let t := reTrans e.1 (s.xl.ranges.get [] e.1)
  { s with xl := { s.xl with
      places := Tab.set s.xl.places [] e.2 (if (s.xl.places.get [] e.2).contains (c, e.1) then s.xl.places.get [] e.2
        else s.xl.places.get [] e.2 ++ [(c, e.1)])
      pinned := Tab.set s.xl.pinned [] e.2 ((s.xl.pinned.get [] e.2).filter (fun u => u != t) ++ [t]) } }

/-- The contract a checked record describes. -/
def ctrOf (ws : List Nat) (pre : List (Nat × Nat)) : Contract :=
  ⟨fld ws 0 0 32, word ws 1, fld ws 2 0 40, fld ws 3 0 32, ctrLanes ws, pre⟩

/-- Read the preload list; `none` on a fault or poison (R626). -/
def State.readPreload (s : State) (ws : List Nat) : Option (List Nat) × State :=
  let n := fld ws 5 0 13
  let r := s.adminRead true (word ws 4) (8 * n)
  match r.1 with
  | .ok bs => (some (wordsOf n bs), r.2)
  | _ => (none, r.2)

/-- The checks of R81 and the effects of a load, up to the preload; failures end the load with a status. -/
def State.loadContract (s : State) (i : Nat) (o : Op) (rec : Option (List Nat)) : State :=
  let c := adCmp o.desc
  let bad (s : State) (st : St) : State := s.finLong i st.code 0
  match rec with
  | none => if s.rd .PWR_BEAT_LOCKED 0 = 0 then bad s .ctrNotLocked else bad s .ctrBadRecord
  | some ws =>
    if !ctrClear ws && s.rd .PWR_BEAT_LOCKED 0 = 0 then bad s .ctrNotLocked
    else if !ctrRecordOk ws then bad s .ctrBadRecord
    else if fld ws 0 32 5 != c || !(s.cmpState c == .assigned || (ctrClear ws && s.cmpState c == .quiesced)) then bad s .ctrWrongCompartment
    else if ctrClear ws then (s.endContracts c).finLong i 0 0
    else if !s.ctrDemandOk c ws then bad s .ctrOverShare
    else
      let r := s.readPreload ws
      match r.1 with
      | none => bad r.2 .ctrPreloadEntry
      | some es =>
        let ps := prePairs es
        if !es.all (fun e => r.2.preEntryOk c e) then
          (r.2.setDetail i (es.takeWhile (fun e => r.2.preEntryOk c e)).length).finLong i St.ctrPreloadEntry.code 0
        else if !r.2.preRoom c ps then bad r.2 .ctrPreloadOver
        else if (r.2.stagedC c).isSome then bad r.2 .ctrBusy
        else
          let s := ps.foldl (fun s e => s.pinEntry c e) r.2
          match s.longAt i with
          | some l => s.setLong i { l with words := ws, args := es }
          | none => s

/-- The work of TABLE_LOAD of kind CONTRACT; the row also ends a TABLE_LOAD of an unlisted kind. -/
def contractLoadWork (o : Op) (s : State) : Op × State :=
  adminGate o s (fun o s =>
    if isBadLoad o.desc then (o.fails St.badDescriptor.code, s)
    else s.startLong o 1 (adCmp o.desc) 0 [] [] (fun i o s =>
      let r := s.readRecord o 128
      (o, r.2.loadContract i o r.1)))

/-- TABLE_LOAD of kind CONTRACT (R81). -/
def execTableLoadContract (fn ring : Nat) (s : State) : Out :=
  .next (s.startNext fn ring (fun d => isLoad 1 d || isBadLoad d) contractLoadWork)

/-- Give up the places of a preload that no contract keeps. -/
def State.unpinLoad (s : State) (c : Nat) (es : List Nat) : State :=
  s.unpin c (prePairs es) (preOf (s.active c) ++ preOf (s.stagedC c))

/-- One contract load whose preload has completed: check 3 again, the staged slot, check 8, then STAGED (R81, R82). -/
def State.stageContract (s : State) (c i : Nat) : State :=
  match s.longAt i with
  | none => s
  | some l =>
    if l.state != 1 || l.kind != opTableLoad || l.tkind != 1 || l.cmp != c || l.fin.isSome || l.words.isEmpty then s
    else
      let bad (st : St) : State := (s.unpinLoad c l.args).finLong i st.code 0
      if s.cmpState c != .assigned then bad .ctrWrongCompartment
      else if (s.stagedC c).isSome then bad .ctrBusy
      else if word l.words 1 ≤ s.beat then bad .ctrEpochPast
      else ({ s with cmp := { s.cmp with staged := Tab.put s.cmp.staged c (ctrOf l.words (prePairs l.args)) } }).finLong i 0 0

/-- The ring that a long operation came from. -/
def State.longRing (s : State) (i : Nat) : Nat :=
  match (s.longAt i).bind (fun l => l.op.bind s.findOp) with
  | some o => o.ring
  | none => 0

/-- Preloads of contracts of one compartment complete in one cycle: the staged slot is a pool of one, its claims ordered over the
ADMIN rings ("Corners" of chapter 3). -/
def execContractPreloadDone (cmp : Nat) (loads : List Nat) (s : State) : Out :=
  let a := s.arbitrate (.other (0x100 + cmp)) 64 (loads.map s.longRing)
  let ordered := a.1.flatMap (fun r => loads.filter (fun i => s.longRing i == r))
  .next (ordered.foldl (fun s i => s.stageContract cmp i) a.2)

/-- The ACTIVE contract ends at its epoch plus its span (R82). -/
def execContractEnd (cmp : Nat) (s : State) : Out :=
  match s.active cmp with
  | some t => if t.epoch + t.span ≤ s.beat then .next (s.endActive cmp) else .next s
  | none => .next s

/-! ### Deadlines (R86, R87) -/

/-- The deadline of an operation whose record is not visible has passed. -/
def State.lateOp (s : State) (o : Op) : Bool := o.deadline != 0 && decide (o.deadline < s.beat)

/-- Replace the operation of a waiting completion record. -/
def State.setCplOp (s : State) (o : Op) : State :=
  { s with ring := { s.ring with cplQ := s.ring.cplQ.mapVals (fun _ ws =>
      ws.map (fun (w : CplWait) => if w.op.id == o.id then { w with op := o } else w)) } }

/-- The operation of a number, outstanding or with its record waiting. -/
def State.anyOp (s : State) (id : Nat) : Option Op :=
  match s.findOp id with
  | some o => some o
  | none => (s.ring.cplQ.flatMap (fun e => e.2.map (·.op))).find? (fun o => o.id == id)

/-- The BEAT counter passes the deadline of an operation whose completion record is not visible (breach DEADLINE_MISSED). -/
def execDeadlineMissed (op : Nat) (s : State) : Out :=
  match s.anyOp op with
  | none => .next s
  | some o =>
    if s.lateOp o then
      let r := s.opBreach o .deadlineMissed { expected := o.deadline }
      .next ((r.2.setOp r.1).setCplOp r.1)
    else .next s

/-! ### Service slots (R35, R36, R39, R64, R374) -/

/-- A request that waits at an arbitrated resource: compartment, mood, engine code. -/
structure SlotReq where
  cmp    : Nat
  indic  : Bool
  engine : Nat
  deriving DecidableEq, Repr

/-- The key of a compartment at a lane. -/
def laneKey (l c : Nat) : Nat := 32 * l + c

/-- The compartment whose pattern a service slot belongs to. -/
def State.slotOwner (s : State) (l p : Nat) : Option Nat :=
  (s.held.filter s.fixedUnits).find? (fun c => ((s.grants c).patterns.getD l []).contains p)

/-- The ordinal of a slot among its compartment's slots, or among the remainder's. -/
def State.slotOrdinal (s : State) (l p : Nat) : Nat :=
  match s.slotOwner l p with
  | some c => (((s.grants c).patterns.getD l []).filter (fun q => decide (q < p))).length
  | none => ((List.range p).filter (fun q => (s.slotOwner l q).isNone)).length

/-- A throttled stack lets the slot pass idle (R374). -/
def State.slotThinned (s : State) (l p : Nat) : Bool :=
  decide (4 ≤ l) && decide (l < 12) && decide (4 - s.rd .STK_THR_STEP (l - 4) ≤ s.slotOrdinal l p % 4)

/-- An indicative request still lies within the demand lane of its contract. -/
def State.inDemand (s : State) (l : Nat) (r : SlotReq) : Bool :=
  match s.active r.cmp with
  | some t => decide (s.cmp.demand.get 0 (laneKey l r.cmp) < t.lanes.getD l 0)
  | none => true

/-- The request of a compartment that a slot serves: indicative requests within the demand first (R64). -/
def State.pickReq (s : State) (l c : Nat) (rs : List SlotReq) : Option SlotReq :=
  let mine := rs.filter (fun r => r.cmp == c)
  match mine.find? (fun r => r.indic && s.inDemand l r) with
  | some r => some r
  | none => mine.head?

/-- The compartment a SHARED-remainder slot serves: of those that wait with a weight, the one served least for its weight. -/
def State.pickShared (s : State) (l : Nat) (rs : List SlotReq) : Option Nat :=
  let cs := (rs.map (·.cmp)).eraseDups.filter (fun c => s.cmpState c != .free && !s.fixedUnits c && decide (0 < s.lane c l))
  (ascending cs).foldl (fun (b : Option Nat) c =>
    match b with
    | none => some c
    | some x => if s.cmp.served.get 0 (laneKey l c) * s.lane x l < s.cmp.served.get 0 (laneKey l x) * s.lane c l then some c else b) none

/-- Serve one request in a slot; the first excess of a compartment in a share period is the breach OVER_DEMAND. -/
def State.serveSlot (s : State) (l : Nat) (shared : Bool) (r : SlotReq) : State :=
  let k := laneKey l r.cmp
  let asIndic := r.indic && s.inDemand l r
  let s := if r.indic && !asIndic && s.cmp.overs.get 0 k = 0 then
      ({ s with cmp := { s.cmp with overs := Tab.set s.cmp.overs 0 k 1 } }).breach r.cmp .overDemand { engine := r.engine }
    else s
  let s := if l < 20 then s.stat r.cmp (if l < 2 then 9 else if l < 4 then 10 else if l < 12 then 7 else 8) 1 else s
  { s with cmp := { s.cmp with
      demand := if asIndic then Tab.set s.cmp.demand 0 k (s.cmp.demand.get 0 k + 1) else s.cmp.demand
      served := if shared then Tab.set s.cmp.served 0 k (s.cmp.served.get 0 k + 1) else s.cmp.served
      granted := Tab.set s.cmp.granted 0 l (2 * r.cmp + b2n asIndic + 1) } }

/-- A lane moves to its next service slot; a new share period begins with empty counts. -/
def State.nextSlot (s : State) (l : Nat) : State :=
  let p := (s.cmp.share.get 0 l + 1) % 1024
  let s := { s with cmp := { s.cmp with share := Tab.set s.cmp.share 0 l p } }
  if p = 0 then
    { s with cmp := { s.cmp with demand := s.cmp.demand.keep (fun k _ => k / 32 != l), overs := s.cmp.overs.keep (fun k _ => k / 32 != l) } }
  else s

/-- A service slot of an arbitrated resource (lane 0 to 23) is granted among the requests that wait: compartment, mood (1 indicative)
and engine code. -/
def execServiceSlotGrant (lane : Nat) (requests : List (Nat × Nat × Nat)) (s : State) : Out :=
  if lanes ≤ lane then .next s
  else
    let rs := requests.map (fun r => (⟨r.1, r.2.1 == 1, r.2.2⟩ : SlotReq))
    let p := s.cmp.share.get 0 lane
    let idle := { s with cmp := { s.cmp with granted := Tab.set s.cmp.granted 0 lane 0 } }
    let t :=
      if s.slotThinned lane p then idle
      else match s.slotOwner lane p with
        | some c =>
          match s.pickReq lane c rs with
          | some r => s.serveSlot lane false r
          | none => idle
        | none =>
          match (s.pickShared lane rs).bind (fun c => s.pickReq lane c rs) with
          | some r => s.serveSlot lane true r
          | none => idle
    .next (t.nextSlot lane)

end Sys2Proof.Machine
end

