-- ==== Sys2Proof/Machine/Links.lean ====
section
/-! DEFINITION. Peer links (chapter 15): link states, slots and flits, replay, credits, routing and reassembly, slot plans. -/
namespace Sys2Proof.Machine

open Sys2Proof

/-! ### Link states (R394) -/

/-- The states of a peer link. -/
inductive LinkState where
  | disabled | detect | equalize | align | init | up | failed
  deriving DecidableEq, Repr

/-- The code of a link state. -/
def LinkState.code : LinkState → Nat
  | .disabled => 0 | .detect => 1 | .equalize => 2 | .align => 3 | .init => 4 | .up => 5 | .failed => 6

/-- A link is in a state. -/
def State.linkIs (s : State) (l : Nat) (st : LinkState) : Bool := decide (l < 12) && s.rd .PLK_LINK_STATE l == st.code

/-- Set the state of a link. -/
def State.setLink (s : State) (l : Nat) (st : LinkState) : State := s.wr .PLK_LINK_STATE l st.code

/-- A link with nothing in progress. -/
def Lnk.idle : Lnk := ⟨0, 0, 0, false, false, [], none, 0, [], [], [], [], [], [], 0, 0⟩

/-- The working data of a link. -/
def State.lnk (s : State) (l : Nat) : Lnk := s.plk.link.get Lnk.idle l

/-- Replace the working data of a link. -/
def State.setLnk (s : State) (l : Nat) (x : Lnk) : State :=
  { s with plk := { s.plk with link := Tab.set s.plk.link Lnk.idle l x } }

/-! ### Slot plans (R411, R413) -/

/-- Byte `i` of a record of 64-bit words. -/
def recByte (ws : List Nat) (i : Nat) : Nat := bits (word ws (i / 8)) (8 * (i % 8)) 8

/-- The transmit owner of a slot: local compartment, INDICATIVE. -/
def txOwner (ws : List Nat) (n : Nat) : Nat × Bool := let b := recByte ws (64 + n); (b % 32, bit b 5)

/-- The receive owner of a slot: stream, INDICATIVE. -/
def rxOwner (ws : List Nat) (n : Nat) : Nat × Bool :=
  let b := recByte ws (1088 + 2 * n) + 256 * recByte ws (1089 + 2 * n)
  (b % 4096, bit b 12)

/-- The ACTIVE plan of a link; no words stand for the house plan. -/
def State.plan (s : State) (l : Nat) : List Nat := s.plk.plan.get [] l

/-- The plan identifier. -/
def planId (ws : List Nat) : Nat := bits (word ws 0) 0 32

/-- The compartments that hold a slot in a plan. -/
def planHolders (ws : List Nat) : List Nat :=
  if ws.isEmpty then [0] else compartments.filter (fun c => (List.range 1024).any (fun n => (txOwner ws n).1 == c))

/-- The stream of a compartment. -/
def State.streamOf (s : State) (c : Nat) : Nat := if c = 0 then 0 else s.rd .PLK_CMP_STREAM c

/-- The compartment a stream is bound to (R416). -/
def State.linkStreamCmp (s : State) (st : Nat) : Option Nat :=
  if st = 0 then some 0 else tenants.find? (fun c => s.rd .PLK_CMP_STREAM_VALID c == 1 && s.rd .PLK_CMP_STREAM c == st)

/-- The key of a stream, mood and class. -/
def credKey (stream : Nat) (indic : Bool) (cls : Nat) : Nat := stream * 4 + b2n indic * 2 + cls % 2

/-- Slots of a compartment and mood in a plan's transmit map, slot 0 excluded (R408). -/
def txCount (ws : List Nat) (c : Nat) (indic : Bool) : Nat :=
  if ws.isEmpty then (if c = 0 && !indic then 1023 else 0)
  else ((span 1 1023).filter (fun n => txOwner ws n == (c, indic))).length

/-- Slots of a stream and mood in a plan's receive map, slot 0 excluded (R408). -/
def rxCount (ws : List Nat) (stream : Nat) (indic : Bool) : Nat :=
  if ws.isEmpty then (if stream = 0 && !indic then 1023 else 0)
  else ((span 1 1023).filter (fun n => rxOwner ws n == (stream, indic))).length

/-- The credits a transmitter starts with when its link comes up. -/
def State.firstCredits (s : State) (l : Nat) : Tab Nat :=
  (planHolders (s.plan l)).foldl (fun t c => [false, true].foldl (fun t m => [0, 1].foldl (fun t k =>
    Tab.set t 0 (credKey (s.streamOf c) m k) (txCount (s.plan l) c m)) t) t) []

/-- Slot numbers of the domain: slot n begins at beat n × 32/25 (R397). -/
def State.slotNow (s : State) : Nat := s.beat * 25 / 32

/-! ### Losing the lock (R74, R422) -/

/-- Nothing known of the parent. -/
def TimeSt.start (hold : Nat) : TimeSt := ⟨0, false, 0, 0, 0, hold⟩

/-- PWR_BEAT_LOCKED clears: TIMEBASE_LOST. -/
def State.loseLock (s : State) : State :=
  let s := { s with plk := { s.plk with time := TimeSt.start s.plk.time.hold } }
  if s.rd .PWR_BEAT_LOCKED 0 = 0 then s
  else ((s.wr .PWR_BEAT_LOCKED 0 0).wr .PWR_BEAT_LOST 0 1).post (devInc 0x1001 .degraded 0 0 [])

/-- The time parent of a junction that is not the root. -/
def State.isParent (s : State) (l : Nat) : Bool := s.rd .PLK_TIME_ROOT 0 == 0 && s.rd .PLK_TIME_PARENT 0 == l

/-! ### Entering and leaving UP (R396) -/

/-- The owners of queue pairs in RTR or RTS that use a peer link. -/
def State.linkUsers (s : State) (l : Nat) : List Nat :=
  let hs := planHolders (s.plan l)
  ((s.net.qps.filter (fun e => !e.2.net && (e.2.state == 2 || e.2.state == 3) && hs.contains e.2.cmp)).map (fun e => e.2.owner)).eraseDups

/-- Post a PORT_DOWN or PORT_UP record to functions. -/
def State.portEvent (s : State) (fns : List Nat) (code port seq : Nat) : State := fns.foldl (fun s fn => s.aeqPost fn code port 0 seq) s

/-- Unfinished messages that came in on a link are given up in the reassembly buffers and in the queues of other links. -/
def State.dropPartial (s : State) (l : Nat) : State :=
  { s with plk := { s.plk with
      rx := s.plk.rx.mapVals (fun _ ms => ms.filter (fun m => !(m.via == l && m.msg.isNone)))
      link := s.plk.link.mapVals (fun _ (x : Lnk) => { x with txQ := x.txQ.filter (fun m => !(m.origin == some l && m.more)) }) } }

/-- A link leaves UP: LINK_DOWN, or LINK_REPLAY_EXHAUSTED on the way to FAILED, its buffers discarded, the lock lost when it was the time
parent's (R396, R406, R422). -/
def State.exitUp (s : State) (l : Nat) (st : LinkState) (exhausted : Bool) : State :=
  let hs := planHolders (s.plan l)
  let p : Post := { code := if exhausted then 0x0B03 else 0x0B01, sev := .degraded, cSev := .job, cmps := hs, unit := l,
                    args := [if exhausted then s.rd .PLK_REPLAYS l else st.code] }
  let users := s.linkUsers l
  let r := ((((s.setLink l st).wr .PLK_LAST_DOWN l s.beat).setLnk l Lnk.idle).dropPartial l).postQ p
  let s := r.2.portEvent users 4 l r.1
  if s.isParent l then s.loseLock else s

/-- A link moves to a state, leaving UP with its effects where it was UP. -/
def State.moveLink (s : State) (l : Nat) (st : LinkState) : State :=
  if s.linkIs l .up then s.exitUp l st false else s.setLink l st

/-- An enabled link leaves DISABLED, unless its block is gated or still ungating (R574). -/
def State.linkStart (s : State) (l : Nat) : State :=
  if s.linkIs l .disabled && s.rd .PLK_LINK_EN l == 1 && !bit (s.rd .PWR_GATE_PLK 0) l && !s.pwr.ungating.contains l then s.setLink l .detect
  else s

/-- A write of PLK_LINK_EN (R394). -/
def State.linkEnable (s : State) (l value : Nat) : State :=
  let s := s.wr .PLK_LINK_EN l value
  if value % 2 = 0 then s.moveLink l .disabled else s.linkStart l

/-- The value a write of PLK_LINK_EN takes: 1 is not listed for a gated link, so the reset value, which is 1, is applied and the write
logged (R574); the gated link stays DISABLED. -/
def State.linkEnValue (s : State) (source fn l value : Nat) : Nat × State :=
  if value % 2 = 1 && bit (s.rd .PWR_GATE_PLK 0) l then
    let v := Fld.PLK_LINK_EN.resetAt l
    (v, s.logClamp ⟨fieldId (0xA00000 + 0x100 * l) 8, source, fn, true, 1, v, 0, false⟩)
  else (value % 2, s)

/-- PLK_LINK_EN is written: a device-wide order. -/
def execPlkLinkEnable (fn link value : Nat) (s : State) : Out :=
  if s.closed fn (0xA00000 + 0x100 * link) || decide (12 ≤ link) then .next s
  else if fn != s.primaryFn then .next (s.foreignOrder fn (0xA00000 + 0x100 * link) 0)
  else
    let r := s.linkEnValue 0 fn link value
    .next (r.2.linkEnable link r.1)

/-- PLK_RETRAIN is written: a FAILED link returns to DETECT. -/
def execLinkRetrain (fn link : Nat) (s : State) : Out :=
  if s.closed fn (0xA00000 + 0x100 * link) || decide (12 ≤ link) then .next s
  else if fn != s.primaryFn then .next (s.foreignOrder fn (0xA00000 + 0x100 * link) 0)
  else if s.linkIs link .failed then .next (s.setLink link .detect) else .next s

/-- Move a link from one training state to another. -/
def State.train (s : State) (l : Nat) (was st : LinkState) : State := if s.linkIs l was then s.setLink l st else s

/-- Signal on all lanes. -/
def execLinkSignalDetected (link : Nat) (s : State) : Out := .next (s.train link .detect .equalize)
/-- Equalization done. -/
def execLinkEqualizeDone (link : Nat) (s : State) : Out := .next (s.train link .equalize .align)
/-- Equalization not done within 500 ms. -/
def execLinkEqualizeTimeout (link : Nat) (s : State) : Out :=
  if s.linkIs link .equalize then .next ((s.setLink link .detect).bump .PLK_TRAIN_FAIL link 1) else .next s
/-- Group lock and deskew. -/
def execLinkAlignLock (link : Nat) (s : State) : Out := .next (s.train link .align .init)
/-- No lock within 10 ms. -/
def execLinkAlignTimeout (link : Nat) (s : State) : Out := .next (s.train link .align .detect)
/-- INIT not done within 1 ms. -/
def execLinkInitTimeout (link : Nat) (s : State) : Out := .next (s.train link .init .detect)

/-- INIT done: the link is UP, its buffers empty and its credits those of its plan; INIT flits name the neighbour. -/
def execLinkInitDone (link serial far : Nat) (s : State) : Out :=
  if s.linkIs link .init then
    let s := ((s.setLink link .up).wr .PLK_LAST_UP link s.beat).setLnk link { Lnk.idle with txSlot := s.slotNow + 1, cred := s.firstCredits link }
    let s := ((s.wr .PLK_NBR_SERIAL link serial).wr .PLK_NBR_LINK link far).wr .PLK_NBR_VALID link 1
    .next (s.portEvent (s.linkUsers link) 5 link 0)
  else .next s

/-- Loss of signal or group lock on an UP link. -/
def execLinkSignalLost (link : Nat) (s : State) : Out :=
  if s.linkIs link .up then .next (s.exitUp link .detect false) else .next s

/-! ### Messages and their flits (R400, R447) -/

/-- The words of a transport header. -/
def msgHeader (m : Msg) : List Nat :=
  [put m.op 0 8 + put (b2n m.fin) 8 1 + put (b2n m.immV) 9 1 + put m.srcQp 16 16 + put m.dstQp 32 16 + put m.code 48 8,
   put m.msn 0 32 + put m.imm 32 32, m.va % 2 ^ 64, put m.keyIx 0 24 + put m.keyGen 24 8 + put m.len 32 32]

/-- The bytes of 64-bit words as numbers. -/
def wordBytes (ws : List Nat) : List Nat := (bytesOf ws).map BitVec.toNat

/-- The words of bytes given as numbers. -/
def byteWords (n : Nat) (bs : List Nat) : List Nat := wordsOf n (bs.map (fun b => BitVec.ofNat 8 b))

/-- The message a body spells: header, payload, 16-byte tag. -/
def msgOfBody (bs : List Nat) : Msg :=
  let ws := byteWords 4 bs
  { op := fld ws 0 0 8, fin := bit (word ws 0) 8, immV := bit (word ws 0) 9, srcQp := fld ws 0 16 16, dstQp := fld ws 0 32 16,
    code := fld ws 0 48 8, msn := fld ws 1 0 32, imm := fld ws 1 32 32, va := word ws 2, keyIx := fld ws 3 0 24, keyGen := fld ws 3 24 8,
    len := fld ws 3 32 32, data := (bs.drop 32).take (bs.length - 48) }

/-- A response opcode. -/
def msgIsRsp (m : Msg) : Bool := decide (0x10 ≤ m.op)

/-- Cut a body into flit bodies of 236 bytes. -/
def cutBody : Nat → List Nat → List (List Nat)
  | 0, _ => []
  | n + 1, bs => if bs.length ≤ 236 then [bs] else bs.take 236 :: cutBody n (bs.drop 236)

/-- A DATA flit before it is sent. -/
def dataFlit (stream cls dst src : Nat) (first last : Bool) (body : List Nat) : Flit :=
  { typ := 1, first := first, last := last, cls := cls, fill := false, replay := false, slot := 0, seq := 0, ack := 0, nak := false,
    stream := stream, dst := dst, src := src, credStream := 0, credMood := 0, credCls := 0, credCount := 0, gen := 0, body := body }

/-- The flits of a message. -/
def flitsOf (stream cls dst src : Nat) (body : List Nat) : List Flit :=
  let parts := cutBody (body.length + 1) body
  parts.zipIdx.map (fun e => dataFlit stream cls dst src (e.2 == 0) (e.2 + 1 == parts.length) e.1)

/-! ### Routing (R417, R418) -/

/-- The output of a compartment's routing table. -/
def State.routeOf (s : State) (c dst : Nat) (indic : Bool) : Nat :=
  let b := (s.plk.routes.get [] c).getD (dst % 256) 0
  if indic then b % 16 else b / 16 % 16

/-- An output can be taken: local delivery, or a link that is UP. -/
def State.routeOpen (s : State) (out : Nat) : Bool := out == 0xE || s.linkIs out .up

/-- Count and report a refused message (R418). -/
def State.noRoute (s : State) (c : Nat) (via : Option Nat) (out dst : Nat) (indic : Bool) : State :=
  let s := match (if out < 12 then some out else via) with
    | some l => s.bump .PLK_NO_ROUTE l 1
    | none => s
  s.post (cmpInc 0x0B06 .notice c (if out < 12 then out else 0xF) 0 [dst, b2n indic])

/-! ### Reassembly (R455) -/

/-- The reassembly buffer of a compartment. -/
def State.rxOf (s : State) (c : Nat) : List RxMsg := s.plk.rx.get [] c

/-- Replace a reassembly buffer. -/
def State.setRx (s : State) (c : Nat) (ms : List RxMsg) : State := { s with plk := { s.plk with rx := Tab.set s.plk.rx [] c ms } }

/-- A credit of a received flit is owed to its sender, unless a smaller plan withholds it (R408, R413). -/
def Lnk.owe (x : Lnk) (key n : Nat) : Lnk :=
  let hold := min n (x.kept.get 0 key)
  { x with kept := Tab.set x.kept 0 key (x.kept.get 0 key - hold), owed := Tab.set x.owed 0 key (x.owed.get 0 key + (n - hold)) }

/-- Owe one credit on a link; local delivery owes none. -/
def State.oweOne (s : State) (l key : Nat) : State := if l < 12 then s.setLnk l ((s.lnk l).owe key 1) else s

/-- The compartment holds a link key, so that a tag can be checked. -/
def State.linkKeyed (s : State) (c : Nat) : Bool := (s.sec.linkAct.find c).isSome

/-- A flit enters the reassembly buffer of its compartment; `false` when there is no room. -/
def State.enterFlit (s : State) (l c : Nat) (f : Flit) (indic tagOk : Bool) : Bool × State :=
  let ms := s.rxOf c
  let mine (m : RxMsg) : Bool := m.via == l && m.indic == indic && m.cls == f.cls && m.msg.isNone
  let key := credKey f.stream indic f.cls
  if f.first then
    let ms := ms.filter (fun m => !mine m)
    if 16 ≤ ms.length then (false, s)
    else
      let m : RxMsg := { id := s.plk.rxSerial, via := l, cmp := c, indic := indic, cls := f.cls, src := f.src, psn := 0, bytes := f.body,
                         msg := if f.last then some (msgOfBody f.body) else none }
      let s := { s with plk := { s.plk with rxSerial := s.plk.rxSerial + 1 } }
      (true, (s.setRx c (if f.last && !tagOk then ms else ms ++ [m])).oweOne l key)
  else
    match ms.find? mine with
    | none => (true, s.oweOne l key)
    | some m =>
      let bs := m.bytes ++ f.body
      let m' : RxMsg := { m with bytes := if f.last then [] else bs, msg := if f.last then some (msgOfBody bs) else none }
      let ms := if f.last && !tagOk then ms.filter (fun x => x.id != m.id) else ms.map (fun x => if x.id == m.id then m' else x)
      (true, (s.setRx c ms).oweOne l key)

/-- A flit for this junction: it enters the reassembly buffer, or stays in the buffers of its link behind those that wait. -/
def State.localFlit (s : State) (l c : Nat) (f : Flit) (indic tagOk : Bool) : State :=
  let x := s.lnk l
  let behind := x.rxHold.any (fun h => credKey h.1.stream h.2.1 h.1.cls == credKey f.stream indic f.cls)
  if behind then s.setLnk l { x with rxHold := x.rxHold ++ [(f, indic, tagOk)] }
  else
    let r := s.enterFlit l c f indic tagOk
    if r.1 then r.2 else s.setLnk l { x with rxHold := x.rxHold ++ [(f, indic, tagOk)] }

/-- The flits that wait on a link for the buffer of a compartment try again, in order. -/
def State.retryHeld (s : State) (l c : Nat) : State :=
  let hold := (s.lnk l).rxHold
  (hold.foldl (fun (a : State × List Nat) h =>
    let f := h.1
    let key := credKey f.stream h.2.1 f.cls
    let keep (t : State) : State := t.setLnk l { t.lnk l with rxHold := (t.lnk l).rxHold ++ [h] }
    if a.1.linkStreamCmp f.stream != some c || a.2.contains key then (keep a.1, a.2)
    else
      let r := a.1.enterFlit l c f h.2.1 h.2.2
      if r.1 then (r.2, a.2) else (keep a.1, key :: a.2)) (s.setLnk l { s.lnk l with rxHold := [] }, [])).1

/-- A message leaves the reassembly buffer of a compartment; flits that waited follow. -/
def State.takeRx (s : State) (c id : Nat) : State :=
  ((List.range 16).foldl (fun s l => s.retryHeld l c) (s.setRx c ((s.rxOf c).filter (fun m => m.id != id))))

/-! ### Sending a message -/

/-- Note that an operation uses a link (R508, R509). -/
def State.useLink (s : State) (op : Option Nat) (l : Nat) : State :=
  { s with ring := { s.ring with ops := s.ring.ops.map (fun (o : Op) => if some o.id == op then { o with links := addOnce o.links l } else o) } }

/-- Queue a message of this junction on its output; `false` when it has no route.  Its tag is a value of the block's choice. -/
def State.queueMsg (s : State) (c : Nat) (indic : Bool) (dst : Nat) (op : Option Nat) (m : Msg) : Bool × State :=
  let out := s.routeOf c dst indic
  if !s.routeOpen out then (false, s.noRoute c none out dst indic)
  else
    let a := s.fresh
    let b := a.2.fresh
    let cls := b2n (msgIsRsp m)
    let fs := flitsOf (s.streamOf c) cls dst (s.rd .PLK_JUNCTION_ID 0) (wordBytes (msgHeader m) ++ m.data ++ wordBytes [a.1, b.1])
    let s := b.2.bump .NET_ST_TX_MSGS c 1
    if out = 0xE then (true, fs.foldl (fun s f => s.localFlit 15 c f indic true) s)
    else
      let s := s.useLink op out
      let x := s.lnk out
      (true, s.setLnk out { x with txQ := x.txQ ++ [(⟨c, s.streamOf c, indic, cls, none, op, fs, false, false⟩ : TxMsg)] })

/-- The NAK that answers a message without a route (R418). -/
def noRouteNak (m : Msg) : Msg :=
  { m with
    op := 0x13, code := 0x0D, srcQp := m.dstQp, dstQp := m.srcQp, fin := true, immV := false, imm := 0, va := 0, keyIx := 0, keyGen := 0,
    len := 0, data := [] }

/-! ### Transmitting (R402, R405, R415) -/

/-- The BEAT and fraction at which a slot begins, in units of 1/256 beat. -/
def slotTime (n : Nat) : Nat := n * 32 * 256 / 25

/-- The body of a TIME flit (R420). -/
def State.timeBody (s : State) (l n : Nat) : List Nat :=
  let x := s.lnk l
  let t (v : Nat) : List Nat := wordBytes [v / 256, v % 256]
  t (slotTime n) ++ t x.rxTime ++ t x.rxEcho ++
    [put (s.rd .PLK_TIME_DEPTH 0) 0 4 + put (s.rd .PWR_BEAT_LOCKED 0) 4 1, s.rd .PLK_TIME_ROOT_ID 0, s.rd .PLK_JUNCTION_ID 0]

/-- A compartment's slots carry its flits (R415); a compartment without a link key sends no DATA flit (R542). -/
def State.maySend (s : State) (c : Nat) : Bool :=
  (s.cmpState c == .assigned || s.cmpState c == .quiesced) && s.linkKeyed c

/-- The oldest message of each class in a mood whose next flit is ready and has its credit. -/
def Lnk.nextMsg (x : Lnk) (c : Nat) (indic : Bool) : Option TxMsg :=
  let heads := [0, 1].filterMap (fun k => x.txQ.find? (fun m => m.cmp == c && m.indic == indic && m.cls == k))
  x.txQ.find? (fun m => heads.contains m && !m.flits.isEmpty && decide (0 < x.cred.get 0 (credKey m.stream m.indic m.cls)))

/-- The message a slot carries and whether it fills an indicative slot (R415). -/
def State.pickMsg (s : State) (l slot : Nat) : Option (TxMsg × Bool) :=
  let own := txOwner (s.plan l) slot
  let x := s.lnk l
  if !s.maySend own.1 then none
  else if own.2 then
    match x.nextMsg own.1 true with
    | some m => some (m, false)
    | none => (x.nextMsg own.1 false).map (fun m => (m, true))
  else (x.nextMsg own.1 false).map (fun m => (m, false))

/-- Replace the first occurrence of a message in a queue. -/
def replaceMsg : List TxMsg → TxMsg → Option TxMsg → List TxMsg
  | [], _, _ => []
  | x :: xs, m, n => if x = m then n.toList ++ xs else x :: replaceMsg xs m n

/-- The indicative message of a slot's owner that misses its slot (R407): ready or unfinished, and not carried. -/
def State.missedMsg (s : State) (l slot : Nat) : Option TxMsg :=
  let own := txOwner (s.plan l) slot
  if own.2 then (s.lnk l).txQ.find? (fun m => m.cmp == own.1 && m.indic && !m.missed) else none

/-- Report SLOT_MISSED for a slot: once per operation, or once per message in transit. -/
def State.slotMissed (s : State) (l n : Nat) (cause : Option Nat) : State :=
  match s.missedMsg l (n % 1024) with
  | none => s
  | some m =>
    let b : BreachAt := { path := 12, engine := 0xFE, ring := l, index := n % 1024, expected := n * 32 / 25, cause := cause }
    let x := s.lnk l
    let s := s.setLnk l { x with txQ := replaceMsg x.txQ m (some { m with missed := true }) }
    match m.op.bind s.findOp with
    | some o =>
      if o.breaches.contains Breach.slotMissed.code then s
      else (s.setOp { o with breaches := o.breaches ++ [Breach.slotMissed.code] }).breach m.cmp .slotMissed b
    | none => s.breach m.cmp .slotMissed b

/-- The numbers of a flit as it goes out. -/
def flitNums (f : Flit) : List Nat :=
  [f.typ, b2n f.first, b2n f.last, f.cls, b2n f.fill, b2n f.replay, f.slot, f.seq, f.ack, b2n f.nak, f.stream, f.dst, f.src, f.credStream,
   f.credMood, f.credCls, f.credCount, f.gen] ++ f.body

/-- A fresh flit takes the next sequence number, the acknowledgement and one credit return, and enters the replay buffer (R404). -/
def State.sendFresh (s : State) (l n : Nat) (f : Flit) : State :=
  let x := s.lnk l
  let f := { f with slot := n % 1024, seq := x.txSeq, ack := (x.rxNext + 4095) % 4096, nak := x.nak, gen := s.rd .PLK_PLAN_GEN l }
  let (f, owed) := match x.owed with
    | [] => (f, x.owed)
    | (k, v) :: _ => ({ f with credStream := k / 4, credMood := k / 2 % 2, credCls := k % 2, credCount := min v 127 }, Tab.set x.owed 0 k (v - min v 127))
  (s.setLnk l { x with txSeq := (x.txSeq + 1) % 4096, nak := false, owed := owed, buf := x.buf ++ [f], full := 0 }).emit .flit (l :: flitNums f)

/-- A flit with no content of a compartment. -/
def idleFlit (typ : Nat) (body : List Nat) : Flit := { dataFlit 0 0 0 0 false false body with typ := typ }

/-- Take the next flit of a message out of its queue; a flit in transit frees its buffer on the link it came from. -/
def State.takeFlit (s : State) (l : Nat) (m : TxMsg) : State :=
  let x := s.lnk l
  let key := credKey m.stream m.indic m.cls
  let rest := m.flits.drop 1
  let m' := if rest.isEmpty && !m.more then none else some { m with flits := rest }
  let s := s.setLnk l { x with txQ := replaceMsg x.txQ m m', cred := Tab.set x.cred 0 key (x.cred.get 0 key - 1) }
  match m.origin with
  | some i => s.oweOne i key
  | none => s

/-- The fresh flit of a slot. -/
def State.freshSlot (s : State) (l n : Nat) : State :=
  let slot := n % 1024
  if slot = 0 then s.sendFresh l n (idleFlit 2 (s.timeBody l n))
  else match s.pickMsg l slot with
    | some (m, fill) =>
      let s := if (txOwner (s.plan l) slot).2 && (fill || !m.indic) then s.slotMissed l n none else s
      let x := s.lnk l
      match x.txQ.find? (fun (y : TxMsg) => y.flits == m.flits && y.cmp == m.cmp && y.cls == m.cls && y.indic == m.indic), m.flits with
      | some y, f :: _ => ((s.stat y.cmp (if m.indic && !fill then 11 else 12) 1).takeFlit l y).sendFresh l n { f with fill := fill, replay := false }
      | _, _ => s.sendFresh l n (idleFlit 0 [])
    | none => (s.slotMissed l n none).sendFresh l n (idleFlit 0 [])

/-- The most recent LINK_REPLAY of a link. -/
def State.lastReplay (s : State) (l : Nat) : Option Nat :=
  (s.inc.recent.filter (fun e => e.2.1 == 0x0B02 && e.2.2.1 == l)).getLast?.map (·.1)

/-- The transmitter fills the present slot of an UP link: a replay round resends its flits first (R405), a full replay buffer sends none. -/
def execSlotTransmit (link : Nat) (s : State) : Out :=
  let x := s.lnk link
  let n := s.slotNow
  if !s.linkIs link .up || decide (n < x.txSlot) then .next s
  else
    let s := s.setLnk link { x with txSlot := n + 1 }
    let x := s.lnk link
    match x.round with
    | some r =>
      match r.left with
      | f :: rest =>
        let f := { f with replay := true, ack := (x.rxNext + 4095) % 4096, nak := x.nak }
        let s := (s.setLnk link { x with round := some { r with left := rest }, nak := false }).emit .flit (link :: flitNums f)
        .next (s.slotMissed link n (s.lastReplay link))
      | [] => if x.buf.length < 512 then .next (s.freshSlot link n) else .next ((s.setLnk link { x with full := x.full + 1 }).slotMissed link n none)
    | none => if x.buf.length < 512 then .next (s.freshSlot link n) else .next ((s.setLnk link { x with full := x.full + 1 }).slotMissed link n none)

/-! ### Replay rounds (R405, R406) -/

/-- The frame counter of LINK_REPLAY incidents of a link. -/
def replayKey (l : Nat) : Nat := 0x5000 + l

/-- A replay round starts: every unacknowledged flit is to be resent. -/
def State.startRound (s : State) (l failed : Nat) : State :=
  let x := s.lnk l
  match x.buf with
  | [] => s
  | f :: _ =>
    let s := (s.setLnk l { x with round := some ⟨x.buf, f.seq, s.ns, failed⟩, full := 0 }).bump .PLK_REPLAYS l 1
    s.postLimited (replayKey l) (s.rd .PLK_REPLAY_LIMIT l) (devInc 0x0B02 .notice l 0 [failed + 1, f.seq])

/-- A replay buffer full for 512 consecutive slots starts a round. -/
def execReplayBufferFullTimeout (link : Nat) (s : State) : Out :=
  if s.linkIs link .up && decide (512 ≤ (s.lnk link).full) && (s.lnk link).round.isNone then .next (s.startRound link 0) else .next s

/-- A round has not been acknowledged within 2 µs: the next starts, or the link is FAILED after 8. -/
def execReplayRoundTimeout (link : Nat) (s : State) : Out :=
  match (s.lnk link).round with
  | none => .next s
  | some r =>
    if !s.linkIs link .up || decide (s.ns < r.startNs + 2000) then .next s
    else if 8 ≤ r.failed + 1 then .next (s.exitUp link .failed true)
    else .next (s.startRound link (r.failed + 1))

/-! ### Receiving (R399, R403, R404, R410, R414, R416, R418) -/

/-- A flit keeps the rules for its slot (R402, R403): `pos` is the slot its marker names. -/
def flitLegal (ws : List Nat) (pos : Nat) (f : Flit) : Bool :=
  decide (f.typ < 4) && (f.replay || f.slot == pos) && ((f.typ == 2) == (f.slot == 0))
    && (f.typ != 0 || (f.stream == 0 && f.body.isEmpty)) && (f.typ != 3 || (f.stream == 0 && (rxOwner ws f.slot).1 == 0))
    && decide (f.body.length ≤ 236)

/-- A flit is discarded and the gap is reported once (R404). -/
def State.gapFlit (s : State) (l : Nat) : State :=
  let x := s.lnk l
  if x.gap then s else s.setLnk l { x with gap := true, nak := true }

/-- Sequence numbers up to an acknowledgement leave the replay buffer; a round whose first flit is acknowledged succeeds. -/
def Lnk.acked (x : Lnk) (ack : Nat) : Lnk :=
  match x.buf.findIdx? (fun f => f.seq == ack) with
  | none => x
  | some i =>
    let gone := (x.buf.take (i + 1)).map (·.seq)
    { x with buf := x.buf.drop (i + 1), full := 0
             round := match x.round with
               | some r => if gone.contains r.first then none else some { r with left := r.left.filter (fun f => !gone.contains f.seq) }
               | none => none }

/-- The receive map that gives the mood of a flit (R410, R413). -/
def State.mapOf (s : State) (l : Nat) (f : Flit) : List Nat :=
  if f.replay && f.gen != s.rd .PLK_PLAN_GEN l && decide (s.slotNow < s.plk.oldTo.get 0 l) then s.plk.old.get [] l else s.plan l

/-- The frame counters of the first report of a kind in a frame. -/
def mismatchKey (l : Nat) : Nat := 0x5100 + l
/-- The frame counter of PEER_UNKNOWN_STREAM. -/
def unknownKey (l : Nat) : Nat := 0x5200 + l

/-- A message in transit passes a flit on to its output link. -/
def State.passOn (s : State) (out l c : Nat) (f : Flit) (indic : Bool) : State :=
  let x := s.lnk out
  let mine (m : TxMsg) : Bool := m.origin == some l && m.stream == f.stream && m.indic == indic && m.cls == f.cls && m.more
  match (if f.first then none else x.txQ.find? mine) with
  | some m => s.setLnk out { x with txQ := replaceMsg x.txQ m (some { m with flits := m.flits ++ [f], more := !f.last }) }
  | none => s.setLnk out { x with txQ := x.txQ ++ [(⟨c, f.stream, indic, f.cls, some l, none, [f], !f.last, false⟩ : TxMsg)] }

/-- The way of a message is fixed at its first flit: an output, or refused with an error response (R418). -/
def State.wayOf (s : State) (l c : Nat) (f : Flit) (indic : Bool) : Nat × State :=
  let key := credKey f.stream indic f.cls
  let x := s.lnk l
  if f.first then
    let out := s.routeOf c f.dst indic
    if s.routeOpen out then (out, s.setLnk l { x with way := Tab.put x.way key out })
    else
      let s := (s.setLnk l { x with way := Tab.put x.way key 0x20 }).noRoute c (some l) out f.dst indic
      if f.cls = 0 then (0x20, (s.queueMsg c indic f.src none (noRouteNak (msgOfBody f.body))).2) else (0x20, s)
  else ((x.way.find key).getD 0x20, s)

/-- A DATA flit accepted in sequence. -/
def State.dataIn (s : State) (l : Nat) (f : Flit) (tagOk : Bool) : State :=
  let own := rxOwner (s.mapOf l f) f.slot
  let indic := own.2 && !f.fill
  let key := credKey f.stream indic f.cls
  if !f.replay && f.stream != own.1 then
    (s.bump .PLK_PLAN_MISMATCH l 1).postLimited (mismatchKey l) 1 (devInc 0x0B04 .degraded l 0 [f.slot, f.stream])
  else match s.linkStreamCmp f.stream with
    | none => ((s.bump .PLK_UNKNOWN_STREAM l 1).oweOne l key).postLimited (unknownKey l) 1 (devInc 0x0B05 .notice l 0 [f.stream])
    | some c =>
      let w := s.wayOf l c f indic
      if w.1 = 0xE then w.2.localFlit l c f indic (tagOk && s.linkKeyed c)
      else if w.1 < 12 then w.2.passOn w.1 l c f indic
      else w.2.oweOne l key

/-- A flit is received on an UP link in the slot its marker names; `corrected` symbols were corrected by the decoder, `lost` says that a
codeword of it could not be, `tagOk` that the message it ends verifies under a link key R548 allows. -/
def execFlitReceive (link pos corrected : Nat) (lost crcOk tagOk : Bool) (flit : Flit) (s : State) : Out :=
  if !s.linkIs link .up then .next s
  else
    let s := s.bump .PLK_FEC_CORR link corrected
    let s := if lost then s.bump .PLK_FEC_UNCORR link 1 else s
    if lost || !crcOk then .next ((s.bump .PLK_CRC_ERR link 1).gapFlit link)
    else if !flitLegal (s.mapOf link flit) pos flit then .next ((s.bump .PLK_PROTO_ERR link 1).gapFlit link)
    else
      let x := s.lnk link
      if flit.seq != x.rxNext then
        .next (if (flit.seq + 4096 - x.rxNext) % 4096 < 2048 then s.gapFlit link else s)
      else
        let key := credKey flit.credStream (flit.credMood == 1) flit.credCls
        let y := ({ x with rxNext := (x.rxNext + 1) % 4096, gap := false, cred := Tab.set x.cred 0 key (x.cred.get 0 key + flit.credCount) }).acked flit.ack
        let s := s.setLnk link y
        let s := if flit.nak && y.round.isNone then s.startRound link 0 else s
        .next (if flit.typ = 1 then s.dataIn link flit tagOk else s)

/-! ### Slot plans and routing tables (R411 to R413, R417) -/

/-- A read of an ADMIN record in the house's accelerator memory, as 64-bit words. -/
def State.tableRead (s : State) (o : Op) (n : Nat) : Option (List Nat) × State :=
  let r := s.adminRead true (adPtr o.desc) n
  match r.1 with
  | .ok bs => (some (wordsOf (n / 8) bs), r.2)
  | _ => (none, r.2)

/-- The link a plan record names. -/
def planLink (ws : List Nat) : Nat := recByte ws 4 % 16

/-- The first failing check of a slot plan and the slot it fails at (table "Slot plan checks"); reason 0 when all pass. -/
def State.planCheck (s : State) (ws : List Nat) : Nat × Nat :=
  let cmpOk (c : Nat) : Bool := c == 0 || (s.cmpState c == .assigned && s.rd .PLK_CMP_STREAM_VALID c == 1)
  let strOk (st : Nat) : Bool := st == 0 || tenants.any (fun c => s.cmpState c == .assigned && s.rd .PLK_CMP_STREAM_VALID c == 1 && s.rd .PLK_CMP_STREAM c == st)
  let badRes := (List.range 1024).find? (fun n => decide (64 ≤ recByte ws (64 + n)) || decide (32 ≤ recByte ws (1089 + 2 * n)))
  let headOk := decide (planLink ws < 12) && decide (recByte ws 4 < 16) && recByte ws 5 == 1 && recByte ws 6 == 0 && recByte ws 7 == 0 && planId ws != 0
    && (span 2 6).all (fun i => word ws i == 0)
  if !headOk || badRes.isSome then (1, badRes.getD 0)
  else if txOwner ws 0 != (0, false) || rxOwner ws 0 != (0, false) then (2, 0)
  else match (List.range 1024).find? (fun n => !cmpOk (txOwner ws n).1) with
    | some n => (3, n)
    | none => match (List.range 1024).find? (fun n => !strOk (rxOwner ws n).1) with
      | some n => (4, n)
      | none =>
        if (s.plk.next.find (planLink ws)).isSome then (5, 0) else if word ws 1 ≤ s.beat then (6, 0) else (0, 0)

/-- A slot plan is checked and staged, or its load ends with TABLE_INVALID (R412). -/
def State.loadPlan (s : State) (i : Nat) (rec : Option (List Nat)) : State :=
  match rec with
  | none => s.finLong i LSt.tableInvalid.code 0
  | some ws =>
    let r := s.planCheck ws
    if r.1 != 0 then ((s.wr .PLK_LOAD_REASON 0 r.1).wr .PLK_LOAD_SLOT 0 r.2).finLong i LSt.tableInvalid.code 0
    else ({ s with plk := { s.plk with next := Tab.put s.plk.next (planLink ws) ws } }).finLong i 0 0

/-- The work of TABLE_LOAD of kind SLOT_PLAN. -/
def slotPlanWork (o : Op) (s : State) : Op × State :=
  adminGate o s (fun o s => s.startLong o 4 (adCmp o.desc) 0 [] [] (fun i o s =>
    if adCmp o.desc != 0 || adPtr o.desc % 64 != 0 then (o, s.finLong i LSt.tableInvalid.code 0)
    else
      let r := s.tableRead o 3136
      (o, r.2.loadPlan i r.1)))

/-- TABLE_LOAD of kind SLOT_PLAN (R411, R412). -/
def execTableLoadSlotPlan (fn ring : Nat) (s : State) : Out := .next (s.startNext fn ring (isLoad 4) slotPlanWork)

/-- A routing table is valid (R417). -/
def State.routesOk (s : State) (c : Nat) (bs : List Nat) : Bool :=
  let self := s.rd .PLK_JUNCTION_ID 0
  (c == 0 || s.cmpState c == .assigned) && bs.getD self 0 == 0xEE &&
    bs.zipIdx.all (fun e => [e.1 % 16, e.1 / 16].all (fun v => v != 0xC && v != 0xD && (v != 0xE || e.2 == self)))

/-- The work of TABLE_LOAD of kind ROUTING. -/
def routingWork (o : Op) (s : State) : Op × State :=
  adminGate o s (fun o s => s.startLong o 3 (adCmp o.desc) 0 [] [] (fun i o s =>
    let r := if adPtr o.desc % 64 = 0 then s.adminRead true (adPtr o.desc) 256 else (.poison, s)
    match r.1 with
    | .ok bs =>
      let ns := bs.map BitVec.toNat
      if r.2.routesOk (adCmp o.desc) ns then
        (o, ({ r.2 with plk := { r.2.plk with routes := Tab.put r.2.plk.routes (adCmp o.desc) ns } }).finLong i 0 0)
      else (o, r.2.finLong i LSt.tableInvalid.code 0)
    | _ => (o, r.2.finLong i LSt.tableInvalid.code 0)))

/-- TABLE_LOAD of kind ROUTING (R417). -/
def execTableLoadRouting (fn ring : Nat) (s : State) : Out := .next (s.startNext fn ring (isLoad 3) routingWork)

/-- Streams a plan's receive map names. -/
def planStreams (ws : List Nat) : List Nat := if ws.isEmpty then [0] else ((List.range 1024).map (fun n => (rxOwner ws n).1)).eraseDups

/-- The receiver returns or withholds the credits by which the new plan differs (R413). -/
def State.switchCredits (s : State) (l : Nat) (old new : List Nat) : State :=
  s.setLnk l ((planStreams old ++ planStreams new).eraseDups.foldl (fun x st => [false, true].foldl (fun x m => [0, 1].foldl (fun (x : Lnk) k =>
    let a := rxCount old st m
    let b := rxCount new st m
    let key := credKey st m k
    if a < b then x.owe key (b - a) else { x with kept := Tab.set x.kept 0 key (x.kept.get 0 key + (a - b)) }) x) x) (s.lnk l))

/-- At the first cadence frame that starts at or after its epoch, a STAGED plan replaces the ACTIVE one (R413). -/
def execSlotPlanSwitch (link : Nat) (s : State) : Out :=
  match s.plk.next.find link with
  | none => .next s
  | some ws =>
    let frame := s.slotNow / 1024 * 1024
    if frame * 32 < word ws 1 * 25 then .next s
    else
      let old := s.plan link
      let s := { s with plk := { s.plk with
        plan := Tab.put s.plk.plan link ws, next := Tab.del s.plk.next link, old := Tab.set s.plk.old [] link old
        oldTo := Tab.put s.plk.oldTo link (frame + 1024) } }
      let s := s.wr .PLK_PLAN_GEN link (1 - s.rd .PLK_PLAN_GEN link)
      .next (if s.linkIs link .up then s.switchCredits link old ws else s)

end Sys2Proof.Machine
end

