-- ==== Sys2Proof/Machine/Remote.lean ====
section
/-! DEFINITION. Remote access objects and their commands (chapter 16): queue pairs, completion queues, shared receive queues, protection
domains, keys, revocation, queue pair orders, and their doorbells. -/
namespace Sys2Proof.Machine

open Sys2Proof

/-! ### Commands (table "Commands") -/

/-- The statuses of NET_CMD_STATUS. -/
inductive CmdSt where
  | ok | badArg | noResource | badState | notOwner | range | moodInvalid
  deriving DecidableEq, Repr

/-- The code of a command status. -/
def CmdSt.code : CmdSt → Nat
  | .ok => 0 | .badArg => 1 | .noResource => 2 | .badState => 3 | .notOwner => 4 | .range => 5 | .moodInvalid => 6

/-- An argument of a command. -/
def State.arg (s : State) (fn i : Nat) : Nat := s.rd .NET_ARG (8 * fn + i)

/-- A command ends: its status, its result when it has one, and its event source (NET_CMD_SRC). -/
def State.netDone (s : State) (fn : Nat) (st : CmdSt) (res : Option Nat) : State :=
  let s := (s.wr .NET_CMD_BUSY fn 0).wr .NET_CMD_STATUS fn st.code
  let s := match res with
    | some r => s.wr .NET_CMD_RESULT fn r
    | none => s
  if s.rd .NET_CMD_SRC_VALID fn = 1 then s.occur (s.rd .NET_CMD_SRC fn) else s

/-- A command may start: its function's registers are reached and no command of it runs. -/
def State.netFree (s : State) (fn : Nat) : Bool := !s.barsBlocked fn && s.rd .NET_CMD_BUSY fn == 0 && decide (fn < 128)

/-- Run a command of a function. -/
def State.netCmd (s : State) (fn : Nat) (k : State → CmdSt × Option Nat × State) : State :=
  if s.netFree fn then
    let r := k s
    r.2.2.netDone fn r.1 r.2.1
  else s

/-- A command that ends with a failure changes nothing. -/
def netFail (s : State) (st : CmdSt) : CmdSt × Option Nat × State := (st, none, s)

/-- Run the allocating commands of several functions of one compartment that reach its allocation point in one cycle (R431). -/
def State.netAlloc (s : State) (fn : Nat) (rivals : List Nat) (k : Nat → State → CmdSt × Option Nat × State) : State :=
  match s.fnCmp fn with
  | none => s.netCmd fn (fun s => netFail s .noResource)
  | some c =>
    if !s.netFree fn then s
    else
      let all := fn :: (rivals.filter (fun f => f != fn && s.netFree f && s.fnCmp f == some c)).eraseDups
      let a := s.arbitrate (.remoteAlloc c) 128 all
      let s := if 1 < all.length then a.2.bump .NET_ST_ALLOC_TIES c 1 else a.2
      a.1.foldl (fun s f => s.netCmd f (k f)) s

/-- The lowest free number of a compartment's blocks of a kind. -/
def lowestFree (blks : List Nat) (size : Nat) (used : Nat → Bool) : Option Nat :=
  (ascending blks).findSome? (fun b => (span (b * size) size).find? (fun i => !used i))

/-- The grants of the compartment of a function. -/
def State.fnGrants (s : State) (fn : Nat) : Grants :=
  match s.fnCmp fn with
  | some c => s.grants c
  | none => Grants.none

/-- An allocation finds no free number (R431). -/
def State.allocEmpty (s : State) (fn : Nat) : CmdSt × Option Nat × State :=
  (.noResource, none, match s.fnCmp fn with
    | some c => s.bump .NET_ST_ALLOC_EMPTY c 1
    | none => s)

/-! ### Objects -/

/-- Replace a queue pair. -/
def State.setQp (s : State) (n : Nat) (q : Qp) : State := { s with net := { s.net with qps := Tab.put s.net.qps n q } }

/-- Replace a completion queue. -/
def State.setCq (s : State) (n : Nat) (q : Cq) : State := { s with net := { s.net with cqs := Tab.put s.net.cqs n q } }

/-- Replace a shared receive queue. -/
def State.setSrq (s : State) (n : Nat) (q : Srq) : State := { s with net := { s.net with srqs := Tab.put s.net.srqs n q } }

/-- Replace a key entry. -/
def State.setKey (s : State) (n : Nat) (k : Key) : State := { s with net := { s.net with keys := Tab.put s.net.keys n k } }

/-- A FREE key entry never used. -/
def Key.blank : Key := ⟨0, false, false, false, false, false, 0, 0, 0, 0, 0, 0, none⟩

/-- A key entry. -/
def State.key (s : State) (i : Nat) : Key := s.net.keys.get Key.blank i

/-- A protection domain of a function. -/
def State.ownsPd (s : State) (fn pd : Nat) : Bool := s.net.pds.find pd == some (fn + 1)

/-- A queue pair that its owner may name. -/
def State.ownQp (s : State) (fn n : Nat) : Option Qp := (s.net.qps.find n).filter (fun q => q.owner == fn)

/-- A queue pair in RESET with the bindings that QP_CREATE gives; its rate limit is 800 Gb/s and alpha 1 (R489). -/
def Qp.fresh (indic net : Bool) (owner cmp pd srq cq flow : Nat) : Qp :=
  { state := 0, indic := indic, net := net, owner := owner, cmp := cmp, pd := pd, srq := srq, cq := cq, rjid := 0, rqp := 0,
    timeout := 0, rnrRetry := 0, rnrBack := 0, sendMsn := 0, ackMsn := 0, recvMsn := 0, pmtu := 0, crypt := false, ah := 0, port := 0,
    sqNext := 0, sqAck := 0, rqPsn := 0, minRnr := 0, rdAtom := 0, ackTime := 0, retryCnt := 0, retries := 0, rnrLeft := 0,
    rate := 8000, alpha := 65536, spent := false, flow := flow, sends := [], passed := [], buffer := none, rnrAt := none,
    rnrWait := none, resps := 0, atoms := [], gapNak := false, target := 8000, stage := 0, cnpNs := none, cnpRx := none, wr := none,
    rcvd := 0, lastRetry := 0 }

/-- A queue pair returns to RESET: only what QP_CREATE gave it stays. -/
def Qp.reset (q : Qp) : Qp := Qp.fresh q.indic q.net q.owner q.cmp q.pd q.srq q.cq q.flow

/-! ### Entering ERROR (R437) -/

/-- The operations of a queue pair that have not completed. -/
def State.qpOps (s : State) (n : Nat) : List Op := s.ring.ops.filter (fun o => decide (o.wait = .remote n))

/-- A queue pair enters ERROR: its operations end REMOTE_QP_ERROR, but for the one whose failure caused it, and QP_FATAL is posted. -/
def State.qpError (s : State) (n : Nat) (but : Option Nat) (seq : Nat) : State :=
  match s.net.qps.find n with
  | none => s
  | some q =>
    if q.state = 4 then s
    else
      let os := (s.qpOps n).filter (fun o => some o.id != but)
      let s := s.setQp n { q with state := 4, sends := [], buffer := none, wr := none, rnrAt := none, rnrWait := none }
      let s := os.foldl (fun s o => s.setOp { o with wait := .done, status := St.remoteQpError.code }) s
      s.aeqPost q.owner 1 0 n seq

/-! ### QP commands -/

/-- QP_CREATE (R432 to R434, R99, R62). -/
def State.qpCreate (s : State) (fn : Nat) : CmdSt × Option Nat × State :=
  let a0 := s.arg fn 0
  let n := bits a0 0 16
  let net := bit a0 16
  let pd := bits (s.arg fn 1) 0 12
  let srq := bits (s.arg fn 1) 16 12
  let cq := bits (s.arg fn 2) 0 14
  let indic := if isMgr fn then bit a0 17 else decide (n < s.rd .INS_QP_FIRST fn + s.rd .INS_QP_IND fn)
  let mine (o : Option Nat) : Bool := o == some fn
  match s.fnCmp fn with
  | none => netFail s .range
  | some c =>
    if !s.qpMine fn n then netFail s .range
    else if !isMgr fn && bit a0 17 then netFail s .badArg
    else if (s.net.qps.find n).isSome then netFail s .badState
    else if indic && net then netFail s .moodInvalid
    else if !s.ownsPd fn pd || !mine ((s.net.srqs.find srq).map (·.owner)) || !mine ((s.net.cqs.find cq).map (·.owner)) then
      netFail s .notOwner
    else (.ok, some n, s.setQp n (Qp.fresh indic net fn c pd srq cq (Config.flowHash n c).toNat))

/-- An address handle word. -/
def State.ahWord (s : State) (c port h w : Nat) : Nat :=
  let i := ((2 * c + port) * 64 + h) * 8 + 2 * w
  s.rd .NET_AH_WORD i + 2 ^ 32 * s.rd .NET_AH_WORD (i + 1)

/-- The destination IP address of an address handle: one number, the IPv4 address alone for a version 4 handle. -/
def State.ahIp (s : State) (c port h : Nat) : Nat :=
  if bit (s.ahWord c port h 0) 60 then s.ahWord c port h 2 + 2 ^ 64 * s.ahWord c port h 3 else bits (s.ahWord c port h 2) 0 32

/-- A NET queue pair's arguments at RTR are in range (R471, R472, R473, R475). -/
def State.rtrOk (s : State) (fn : Nat) (q : Qp) : Bool :=
  let p := b2n (bit (s.arg fn 7) 12)
  let mtu := bits (s.arg fn 4) 24 3
  decide (3 ≤ mtu) && decide (mtu ≤ 5) && decide (2 ^ (mtu + 7) + 118 ≤ s.rd .NET_PORT_MAX_FRAME p)
    && bit (s.ahWord q.cmp p (bits (s.arg fn 7) 0 6) 0) 61 && decide (1 ≤ bits (s.arg fn 5) 24 5)
    && (bit (s.arg fn 4) 27 || (s.rd .NET_CMP_PLAIN_OK (2 * q.cmp + p) == 1 && s.rd .CMP_SEALED q.cmp == 0))

/-- The arguments of a move to RTS are in range (table "Commands", R473). -/
def State.rtsOk (s : State) (fn : Nat) (q : Qp) : Bool :=
  let a7 := s.arg fn 7
  decide (1 ≤ bits (s.arg fn 3) 0 3) && (q.net || decide (1 ≤ bits (s.arg fn 3) 8 8))
    && (!q.net || (decide (1 ≤ bits a7 16 4) && decide (bits a7 16 4 ≤ 14) && decide (1 ≤ bits a7 20 3)))

/-- The lowest transport timeout of a queue pair in µs (R458, R481). -/
def State.qpFloor (s : State) (q : Qp) : Nat :=
  let slack := match s.active q.cmp with
    | some t => ceilDiv t.slack 1000
    | none => 0
  slack + (if q.net then ceilDiv (2 * q.retryCnt * 4096 * 2 ^ q.ackTime) 1000 else 32)

/-- Clamp the transport timeout of a queue pair and log it (R458). -/
def State.clampQp (s : State) (source fn n : Nat) (q : Qp) : State :=
  let lo := min (s.qpFloor q) (2 ^ 24 - 1)
  if lo ≤ q.timeout then s.setQp n q
  else (s.logClamp ⟨fieldId (0x3000000 + 0x80 * n + 0x0C) 0, source, fn, false, q.timeout, lo, 0, false⟩).setQp n { q with timeout := lo }

/-- A link key is needed and the compartment has none (R542). -/
def State.keyMissing (s : State) (c : Nat) (net crypt : Bool) : Bool := (!net || crypt) && !s.linkKeyed c

/-- A transition of the table "Queue pair transitions" by QP_MODIFY. -/
def State.qpMove (s : State) (fn n : Nat) (q : Qp) (target : Nat) : CmdSt × Option Nat × State :=
  match q.state, target with
  | 0, 1 => if s.sec.used.contains n then netFail s .badState else (.ok, some 1, s.setQp n { q with state := 1 })
  | 1, 2 =>
    let a4 := s.arg fn 4
    let a7 := s.arg fn 7
    if s.keyMissing q.cmp q.net (bit a4 27) then netFail s .badState
    else if q.net then
      if s.rtrOk fn q then
        (.ok, some 2, s.setQp n { q with
          state := 2, rqp := bits a4 0 24, pmtu := bits a4 24 3, crypt := bit a4 27, rqPsn := bits (s.arg fn 5) 0 24
          minRnr := bits (s.arg fn 5) 24 5, ah := bits a7 0 6, port := b2n (bit a7 12) })
      else netFail s .badArg
    else (.ok, some 2, s.setQp n { q with state := 2, rjid := bits (s.arg fn 1) 0 8, rqp := bits (s.arg fn 1) 16 16 })
  | 2, 3 =>
    let a7 := s.arg fn 7
    if !s.rtsOk fn q then netFail s .badArg
    else
      let q := { q with state := 3, timeout := bits (s.arg fn 2) 0 24, rnrRetry := bits (s.arg fn 3) 0 3, rnrLeft := bits (s.arg fn 3) 0 3
                        rnrBack := bits (s.arg fn 3) 8 8 }
      let q := if q.net then { q with sqNext := bits (s.arg fn 6) 0 24, sqAck := bits (s.arg fn 6) 0 24, rdAtom := bits (s.arg fn 6) 24 4
                                      ackTime := bits a7 16 4, retryCnt := bits a7 20 3 } else q
      (.ok, some 3, s.clampQp 4 fn n q)
  | 4, 0 => (.ok, some 0, s.setQp n q.reset)
  | 4, _ => netFail s .badState
  | _, 4 => (.ok, some 4, s.qpError n none 0)
  | _, _ => netFail s .badState

/-- QP_MODIFY (R435). -/
def State.qpModify (s : State) (fn : Nat) : CmdSt × Option Nat × State :=
  let n := bits (s.arg fn 0) 0 16
  if !s.qpMine fn n then netFail s .range
  else match s.ownQp fn n with
    | none => netFail s .notOwner
    | some q => s.qpMove fn n q (bits (s.arg fn 0) 16 3)

/-- QP_DESTROY (R435). -/
def State.qpDestroy (s : State) (fn : Nat) : CmdSt × Option Nat × State :=
  let n := bits (s.arg fn 0) 0 16
  if !s.qpMine fn n then netFail s .range
  else match s.ownQp fn n with
    | none => netFail s .notOwner
    | some q =>
      if q.state = 0 || q.state = 4 then (.ok, none, { s with net := { s.net with qps := Tab.del s.net.qps n } })
      else netFail s .badState

/-- Request messages sent and not acknowledged. -/
def Qp.outstanding (q : Qp) : Nat := (q.sends.filter (fun (m : Sent) => decide (0 < m.npsn))).length

/-- QP_QUERY. -/
def State.qpQuery (s : State) (fn : Nat) : CmdSt × Option Nat × State :=
  let n := bits (s.arg fn 0) 0 16
  if !s.qpMine fn n then netFail s .range
  else match s.ownQp fn n with
    | none => netFail s .notOwner
    | some q => (.ok, some (put q.state 0 3 + put (b2n q.indic) 3 1 + put (b2n q.net) 4 1 + put q.outstanding 16 9), s)

/-! ### Queues and protection domains -/

/-- A base of 64 bits in two arguments. -/
def State.arg2 (s : State) (fn i : Nat) : Nat := s.arg fn i + 2 ^ 32 * s.arg fn (i + 1)

/-- CQ_CREATE (R431, R451, R454). -/
def State.cqCreate (fn : Nat) (s : State) : CmdSt × Option Nat × State :=
  let base := s.arg2 fn 0
  let a2 := s.arg fn 2
  let a3 := s.arg fn 3
  let log2 := bits a2 0 5
  let slot := bits a3 0 6
  let src := bits a3 16 11
  let ok := decide (4 ≤ log2) && decide (log2 ≤ 16) && base % 1024 == 0 && (bit a2 5 || va57 base)
    && (!bit a2 6 || s.pasidOk fn (bits a2 8 20)) && s.rd .NET_CQ_SLOT_VALID (64 * fn + slot) == 0
    && (!bit a3 31 || (s.srcBound src && s.srcOwner src == fn))
  if !ok then netFail s .badArg
  else match lowestFree (s.fnGrants fn).cqBlk 128 (fun i => (s.net.cqs.find i).isSome) with
    | none => s.allocEmpty fn
    | some n =>
      let q : Cq := { owner := fn, base := base, log2 := log2, host := bit a2 5, pasid := if bit a2 6 then some (bits a2 8 20) else none,
                      slot := slot, src := if bit a3 31 then some src else none, state := 1, prod := 0, cons := 0 }
      (.ok, some n, ((s.setCq n q).wr .NET_CQ_SLOT (64 * fn + slot) n).wr .NET_CQ_SLOT_VALID (64 * fn + slot) 1)

/-- CQ_DESTROY. -/
def State.cqDestroy (fn : Nat) (s : State) : CmdSt × Option Nat × State :=
  let n := bits (s.arg fn 0) 0 14
  match s.net.cqs.find n with
  | none => netFail s .notOwner
  | some q =>
    if q.owner != fn then netFail s .notOwner
    else if s.net.qps.any (fun e => e.2.cq == n) then netFail s .badState
    else (.ok, none, { (s.wr .NET_CQ_SLOT_VALID (64 * fn + q.slot) 0) with net := { s.net with cqs := Tab.del s.net.cqs n } })

/-- SRQ_CREATE (R451). -/
def State.srqCreate (fn : Nat) (s : State) : CmdSt × Option Nat × State :=
  let base := s.arg2 fn 0
  let log2 := bits (s.arg fn 2) 0 5
  let slot := bits (s.arg fn 3) 0 6
  let ok := decide (4 ≤ log2) && decide (log2 ≤ 16) && base % 1024 == 0 && va57 base && s.rd .NET_SRQ_SLOT_VALID (64 * fn + slot) == 0
  if !ok then netFail s .badArg
  else match lowestFree (s.fnGrants fn).srqBlk 32 (fun i => (s.net.srqs.find i).isSome) with
    | none => s.allocEmpty fn
    | some n =>
      let q : Srq := { owner := fn, base := base, log2 := log2, slot := slot, limit := bits (s.arg fn 3) 16 16, prod := 0, cons := 0, told := true }
      (.ok, some n, ((s.setSrq n q).wr .NET_SRQ_SLOT (64 * fn + slot) n).wr .NET_SRQ_SLOT_VALID (64 * fn + slot) 1)

/-- SRQ_DESTROY. -/
def State.srqDestroy (fn : Nat) (s : State) : CmdSt × Option Nat × State :=
  let n := bits (s.arg fn 0) 0 12
  match s.net.srqs.find n with
  | none => netFail s .notOwner
  | some q =>
    if q.owner != fn then netFail s .notOwner
    else if s.net.qps.any (fun e => e.2.srq == n) then netFail s .badState
    else (.ok, none, { (s.wr .NET_SRQ_SLOT_VALID (64 * fn + q.slot) 0) with net := { s.net with srqs := Tab.del s.net.srqs n } })

/-- PD_ALLOC. -/
def State.pdAlloc (fn : Nat) (s : State) : CmdSt × Option Nat × State :=
  match lowestFree (s.fnGrants fn).pdBlk 32 (fun i => (s.net.pds.find i).isSome) with
  | none => s.allocEmpty fn
  | some n => (.ok, some n, { s with net := { s.net with pds := Tab.put s.net.pds n (fn + 1) } })

/-- PD_FREE. -/
def State.pdFree (fn : Nat) (s : State) : CmdSt × Option Nat × State :=
  let n := bits (s.arg fn 0) 0 12
  if !s.ownsPd fn n then netFail s .notOwner
  else if s.net.qps.any (fun e => e.2.pd == n) || s.net.keys.any (fun e => e.2.state != 0 && e.2.pd == n) then netFail s .badState
  else (.ok, none, { s with net := { s.net with pds := Tab.del s.net.pds n } })

/-! ### Keys (R438 to R440) -/

/-- The generation after a revocation; a generation of 0 is never valid. -/
def nextGen (g : Nat) : Nat := if 255 ≤ g then 1 else g + 1

/-- The generation a FREE entry is allocated with. -/
def Key.allocGen (k : Key) : Nat := if k.gen = 0 then 1 else k.gen

/-- The 32 bits of a key: index and generation. -/
def keyWord (i g : Nat) : Nat := put i 0 24 + put g 24 8

/-- Allocate the lowest FREE key index of a function's compartment. -/
def State.allocKey (s : State) (fn : Nat) (k : Key) : CmdSt × Option Nat × State :=
  match lowestFree (s.fnGrants fn).keyBlk 2048 (fun i => (s.key i).state != 0) with
  | none => s.allocEmpty fn
  | some i =>
    let g := (s.key i).allocGen
    (.ok, some (keyWord i g), s.setKey i { k with state := 1, gen := g, owner := fn })

/-- REG_REGION (R439). -/
def State.regRegion (fn : Nat) (s : State) : CmdSt × Option Nat × State :=
  let va := s.arg2 fn 0
  let len := s.arg2 fn 2
  let a4 := s.arg fn 4
  let pd := bits a4 0 12
  let ok := decide (1 ≤ len) && decide (len ≤ 2 ^ 46) && decide (va + len ≤ 2 ^ 57) && s.ownsPd fn pd
    && (!bit a4 19 || s.net.qps.any (fun e => e.2.owner == fn && e.2.indic))
  if !ok then netFail s .badArg
  else s.allocKey fn { Key.blank with r := bit a4 16, w := bit a4 17, a := bit a4 18, indic := bit a4 19, pd := pd, va := va, len := len }

/-- OPEN_WINDOW (R440). -/
def State.openWindow (fn : Nat) (s : State) : CmdSt × Option Nat × State :=
  let a0 := s.arg fn 0
  let i := bits a0 0 24
  let k := s.key i
  let off := s.arg2 fn 1
  let len := s.arg2 fn 3
  let a5 := s.arg fn 5
  let a6 := s.arg fn 6
  let qp := bits a6 0 16
  let r := bit a5 0
  let w := bit a5 1
  let a := bit a5 2
  let qpOk := bit a6 16 || (match s.ownQp fn qp with
    | some q => q.pd == k.pd
    | none => false)
  let ok := k.state == 1 && !k.window && k.gen == bits a0 24 8 && k.owner == fn && decide (1 ≤ len) && decide (off + len ≤ k.len)
    && (!r || k.r) && (!w || k.w) && (!a || k.a) && qpOk
  if !bit a6 16 && !s.qpMine fn qp then netFail s .range
  else if !ok then netFail s .badArg
  else s.allocKey fn { Key.blank with window := true, r := r, w := w, a := a, indic := k.indic, pd := k.pd, va := k.va + off, len := len,
                                      parent := i, qp := if bit a6 16 then none else some qp }

/-! ### Revocation (R443 to R445, R461) -/

/-- The VALID windows of a region. -/
def State.windowsOf (s : State) (i : Nat) : List Nat :=
  (s.net.keys.filter (fun e => e.2.state == 1 && e.2.window && e.2.parent == i)).map (·.1)

/-- Stamp keys CLOSING with their next generation. -/
def State.stampKeys (s : State) (is : List Nat) : State :=
  is.foldl (fun s i => s.setKey i { s.key i with state := 2, gen := nextGen (s.key i).gen }) s

/-- The breach of revoking an indicative key under an ACTIVE contract (R444). -/
def State.revokeBreach (s : State) (i : Nat) : State :=
  let k := s.key i
  match s.fnCmp k.owner with
  | some c =>
    if k.indic && (s.active c).isSome then s.breach c .revokedInSchedule { engine := 7, address := keyWord i k.gen } else s
  | none => s

/-- Step 1 of a revocation of a VALID key: it and its windows are stamped. -/
def State.revokeKey (s : State) (i : Nat) : State := (s.revokeBreach i).stampKeys (i :: (if (s.key i).window then [] else s.windowsOf i))

/-- No access that passed the check with one of these keys is still to become visible. -/
def State.keysQuiet (s : State) (is : List Nat) : Bool :=
  s.net.qps.all (fun e => e.2.passed.all (fun p => p.key = 0 || !is.contains (p.key - 1)))

/-- Step 3: stamped entries become FREE; their generations stay. -/
def State.freeKeys (s : State) (is : List Nat) : State :=
  is.foldl (fun s i => if (s.key i).state = 2 then s.setKey i { Key.blank with gen := (s.key i).gen } else s) s

/-- The keys a function revokes wait for their accesses. -/
def State.startRevoke (s : State) (who : Nat) (is : List Nat) : State :=
  { s with net := { s.net with revoking := Tab.put s.net.revoking who (((s.net.revoking.find who).getD []) ++ is) } }

/-- The key a manager's revoke waits under. -/
def mgrWho : Nat := 128

/-- The key an instance reset's revocation waits under. -/
def resetWho (fn : Nat) : Nat := 256 + fn

/-- REVOKE by the owner. -/
def execRevoke (fn : Nat) (s : State) : Out :=
  if !s.netFree fn then .next s
  else
    let w := s.arg fn 0
    let i := bits w 0 24
    let k := s.key i
    if 262144 ≤ i || k.owner != fn || k.state = 0 then .next (s.netDone fn .notOwner none)
    else if k.state != 1 || k.gen != bits w 24 8 then .next (s.netDone fn .badState none)
    else
      let is := i :: (if k.window then [] else s.windowsOf i)
      .next (((s.revokeKey i).startRevoke fn is).wr .NET_CMD_BUSY fn 1)

/-- A manager revokes a key of an instance of its port: a write of NET_MGR_REVOKE; `rival` says that the owner's REVOKE of the key comes in
the same cycle, and the revoke takes effect once (R445). -/
def execManagerRevoke (fn key : Nat) (rival : Bool) (s : State) : Out :=
  let i := bits key 0 24
  let k := s.key i
  if s.closed fn 0xB91000 then .next s
  else if fn != s.primaryFn then .next (s.foreignOrder fn 0xB91000 6)
  else if s.rd .NET_MGR_REV_BUSY 0 = 1 then .next s
  else if 262144 ≤ i || k.state != 1 || k.gen != bits key 24 8 || isMgr k.owner || portOf k.owner != portOf fn then
    .next (s.wr .NET_MGR_REV_STATUS 0 1)
  else
    let is := i :: (if k.window then [] else s.windowsOf i)
    let s := ((s.revokeKey i).startRevoke mgrWho is).aeqPost k.owner 6 0 (i % 2 ^ 16) 0
    let s := (s.wr .NET_MGR_REV_BUSY 0 1).wr .NET_MGR_REV_STATUS 0 0
    if rival && s.netFree k.owner && s.arg k.owner 0 == key % 2 ^ 32 then .next ((s.startRevoke k.owner is).wr .NET_CMD_BUSY k.owner 1)
    else .next s

/-- Every access that passed with the old generations is visible: the entries become FREE and the revocation completes.  `fn` is the
function whose command it is, 128 for the manager's register. -/
def execRevokeDrainDone (fn : Nat) (s : State) : Out :=
  match s.net.revoking.find fn with
  | none => .next s
  | some is =>
    if !s.keysQuiet is then .next s
    else
      let s := s.freeKeys is
      let s := { s with net := { s.net with revoking := Tab.del s.net.revoking fn } }
      if fn = mgrWho then .next (s.wr .NET_MGR_REV_BUSY 0 0)
      else if fn < 128 then .next (s.netDone fn .ok none) else .next s

/-- An instance reset revokes every key of the instance (R461). -/
def State.revokeAll (s : State) (fn : Nat) : State :=
  let is := (s.net.keys.filter (fun e => e.2.state == 1 && e.2.owner == fn)).map (·.1)
  if is.isEmpty then s else ((is.foldl State.revokeBreach s).stampKeys is).startRevoke (resetWho fn) is

/-! ### The command rows -/

/-- QP_CREATE. -/
def execQpCreate (fn : Nat) (s : State) : Out := .next (s.netCmd fn (fun s => s.qpCreate fn))
/-- QP_MODIFY. -/
def execQpModify (fn : Nat) (s : State) : Out := .next (s.netCmd fn (fun s => s.qpModify fn))
/-- QP_DESTROY. -/
def execQpDestroy (fn : Nat) (s : State) : Out := .next (s.netCmd fn (fun s => s.qpDestroy fn))
/-- QP_QUERY. -/
def execQpQuery (fn : Nat) (s : State) : Out := .next (s.netCmd fn (fun s => s.qpQuery fn))
/-- CQ_CREATE. -/
def execCqCreate (fn : Nat) (rivals : List Nat) (s : State) : Out := .next (s.netAlloc fn rivals State.cqCreate)
/-- CQ_DESTROY. -/
def execCqDestroy (fn : Nat) (s : State) : Out := .next (s.netCmd fn (State.cqDestroy fn))
/-- SRQ_CREATE. -/
def execSrqCreate (fn : Nat) (rivals : List Nat) (s : State) : Out := .next (s.netAlloc fn rivals State.srqCreate)
/-- SRQ_DESTROY. -/
def execSrqDestroy (fn : Nat) (s : State) : Out := .next (s.netCmd fn (State.srqDestroy fn))
/-- PD_ALLOC. -/
def execPdAlloc (fn : Nat) (rivals : List Nat) (s : State) : Out := .next (s.netAlloc fn rivals State.pdAlloc)
/-- PD_FREE. -/
def execPdFree (fn : Nat) (s : State) : Out := .next (s.netCmd fn (State.pdFree fn))
/-- REG_REGION. -/
def execRegRegion (fn : Nat) (rivals : List Nat) (s : State) : Out := .next (s.netAlloc fn rivals State.regRegion)
/-- OPEN_WINDOW. -/
def execOpenWindow (fn : Nat) (rivals : List Nat) (s : State) : Out := .next (s.netAlloc fn rivals State.openWindow)

/-! ### Manager orders (R436) -/

/-- The effect of an order on a queue pair; none where the code is not valid for its state. -/
def State.applyQp (s : State) (n code : Nat) : Option State :=
  match s.net.qps.find n with
  | none => none
  | some q =>
    if code = 5 then (if q.state = 4 then none else some (s.qpError n none 0))
    else if code = 1 then (if q.state = 4 then some (s.setQp n q.reset) else none)
    else none

/-- The order rank of a QP_MODIFY (table "Queue pair transitions"). -/
def modifyRank (target : Nat) : Nat := if target = 4 then 5 else 1

/-- A manager's order to a queue pair of an instance; `rival` says that the owner's QP_MODIFY of it comes in the same cycle (R115). -/
def State.qpOrder (s : State) (issuer fn n code : Nat) (rival : Bool) : State :=
  if s.closed issuer (0x30002C + 0x100 * fn) then s
  else if !entitled issuer fn || issuer == fn then s.foreignOrder issuer (0x30002C + 0x100 * fn) code
  else match s.ownQp fn n with
    | none => s.wr .INS_ORD_STATUS fn 3
    | some _ =>
      let give (s : State) : State := match s.applyQp n code with
        | some t => t.wr .INS_ORD_STATUS fn 0
        | none => s.wr .INS_ORD_STATUS fn 2
      if !(rival && s.netFree fn && bits (s.arg fn 0) 0 16 == n) then give s
      else
        let code2 := modifyRank (bits (s.arg fn 0) 16 3)
        if code2 = code then (give s).netDone fn .ok (some (bits (s.arg fn 0) 16 3))
        else if code2 < code then ((give s).netDone fn .badState none).orderConflict 2 fn n code code2 issuer fn
        else ((s.netCmd fn (fun s => s.qpModify fn)).wr .INS_ORD_STATUS fn 1).orderConflict 2 fn n code2 code fn issuer

/-- STOP of a queue pair by the manager. -/
def execQpStopOrder (issuer fn qp : Nat) (rival : Bool) (s : State) : Out := .next (s.qpOrder issuer fn qp 5 rival)
/-- START of a queue pair by the manager. -/
def execQpStartOrder (issuer fn qp : Nat) (rival : Bool) (s : State) : Out := .next (s.qpOrder issuer fn qp 1 rival)

/-! ### Doorbells (R451) -/

/-- A doorbell page of a function is reached as a ring's is. -/
def State.bellShut (s : State) (fn off size : Nat) : Bool := off != 0 || size != 4 || (!isMgr fn && s.rd .INS_RESET_BUSY fn == 1)

/-- Posted, unclaimed buffers of a shared receive queue. -/
def Srq.posted (q : Srq) : Nat := diff32 q.prod q.cons

/-- A doorbell of a shared receive queue: its new producer count. -/
def execSrqDoorbell (fn slot off size count : Nat) (s : State) : Out :=
  let i := 64 * fn + slot
  let v := count % 2 ^ 32
  if 64 ≤ slot || s.bellBlocked fn then .next s
  else if s.bellShut fn off size || s.rd .NET_SRQ_SLOT_VALID i = 0 then .next (s.dropBell none)
  else match s.net.srqs.find (s.rd .NET_SRQ_SLOT i) with
    | none => .next (s.dropBell none)
    | some q =>
      if 2 ^ q.log2 < diff32 v q.cons || 2 ^ q.log2 < diff32 v q.prod then .next (s.dropBell none)
      else
        let q := { q with prod := v }
        .next (s.setSrq (s.rd .NET_SRQ_SLOT i) { q with told := q.told && decide (q.posted < q.limit) })

/-- A doorbell of a completion queue: its new consumer count. -/
def execCqDoorbell (fn slot off size count : Nat) (s : State) : Out :=
  let i := 64 * fn + slot
  let v := count % 2 ^ 32
  if 64 ≤ slot || s.bellBlocked fn then .next s
  else if s.bellShut fn off size || s.rd .NET_CQ_SLOT_VALID i = 0 then .next (s.dropBell none)
  else match s.net.cqs.find (s.rd .NET_CQ_SLOT i) with
    | none => .next (s.dropBell none)
    | some q =>
      if 2 ^ q.log2 < diff32 q.prod v then .next (s.dropBell none) else .next (s.setCq (s.rd .NET_CQ_SLOT i) { q with cons := v })

/-- A read of NET_AEQ_LO removes the oldest record and latches its high half (R460, R11); the queue still holding records raises its
source again. -/
def execAeqRead (fn : Nat) (s : State) : Out :=
  let off := if isMgr fn then 0xB80030 else 0x50030
  if s.barsBlocked fn then .next (s.emit .unsupported [fn, off])
  else if s.closed fn off then .next (s.emit .readValue [fn, off, 0])
  else
    let q := s.aeq fn
    let r := q.headD 0
    let s := { s with net := { s.net with aeq := Tab.set s.net.aeq [] fn (q.drop 1) }
                      reg := { s.reg with shadow := Tab.put s.reg.shadow (pairKey fn off) (r / 2 ^ 32) } }
    .next ((s.emit .readValue [fn, off, r % 2 ^ 32]).aeqRaise fn)

end Sys2Proof.Machine
end

