-- ==== Sys2Proof/Machine/Wire.lean ====
section
/-! DEFINITION. Sending remote access messages (chapters 16 and 17): frames on the Ethernet ports, the requester side of queue pairs and the
REMOTE descriptors, retransmission, and arming conjunctions. -/
namespace Sys2Proof.Machine

open Sys2Proof

/-! ### Frames (R465, R484) -/

/-- The priority of a compartment's packets on an Ethernet port (R484). -/
def State.netPrio (s : State) (c p : Nat) : Nat :=
  if s.rd .NET_CMP_PRIO (2 * c + p) = 0 then s.rd .NET_PFC_PRIO_A p else s.rd .NET_PFC_PRIO_B p

/-- The key of a priority of a port. -/
def prioKey (p prio : Nat) : Nat := 8 * p + prio

/-- Frames of a priority may start: the link is up and the priority is not paused. -/
def State.mayFrame (s : State) (p prio : Nat) : Bool :=
  s.rd .NET_PORT_LINK_UP p == 1 && (s.net.pauseTo.find (prioKey p prio)).isNone

/-- Send a frame of a compartment, or hold it for transmission. -/
def State.sendFrame (s : State) (p c : Nat) (ws : List Nat) : State :=
  let prio := s.netPrio c p
  let k := prioKey p prio
  if s.mayFrame p prio then s.emit .packet (p :: ws)
  else { s with net := { s.net with held := Tab.set s.net.held [] k (s.net.held.get [] k ++ [ws]) } }

/-- The frames held for a priority leave once it may send. -/
def State.flushFrames (s : State) (p prio : Nat) : State :=
  let k := prioKey p prio
  if s.mayFrame p prio then
    let fs := s.net.held.get [] k
    fs.foldl (fun s ws => s.emit .packet (p :: ws)) { s with net := { s.net with held := Tab.del s.net.held k } }
  else s

/-- The flow hash's UDP source port (R465). -/
def udpPort (flow : Nat) : Nat := 0xC000 ||| (flow % 2 ^ 14)

/-- A packet of a queue pair: Ethernet and IP fields, UDP source port, BTH fields, then its extended headers and payload (table
"Transmitted headers"). -/
def State.frameOf (s : State) (q : Qp) (opcode : Nat) (ackReq : Bool) (psn : Nat) (ext data : List Nat) : List Nat × State :=
  let p := q.port
  let h := s.ahWord q.cmp p q.ah 0
  let vlan := bits h 48 12
  let v6 := bit h 60
  let tag := q.crypt && opcode != 0x11 && opcode != 0x81
  let a := s.fresh
  let b := a.2.fresh
  let src := (List.range 4).foldl (fun n w => n + s.rd .NET_CMP_IP ((2 * q.cmp + p) * 4 + w) * 2 ^ (32 * w)) 0
  let head := [bits h 0 48, s.rd .NET_PORT_MAC p, vlan, if vlan = 0 then 0 else s.netPrio q.cmp p, b2n v6, s.rd .NET_CMP_DSCP (2 * q.cmp + p),
    2 * s.rd .NET_PORT_ECN_EN p, bits (s.ahWord q.cmp p q.ah 1) 0 8, src, s.ahIp q.cmp p q.ah, if v6 then q.flow else 0, udpPort q.flow,
    opcode, (4 - data.length % 4) % 4, s.rd .NET_CMP_PKEY (2 * q.cmp + p), q.rqp, b2n ackReq, psn % 2 ^ 24]
  (head ++ ext ++ data ++ (if tag then [a.1, b.1] else []), if tag then b.2 else s)

/-- Send a packet of a queue pair. -/
def State.sendPacket (s : State) (q : Qp) (opcode : Nat) (ackReq : Bool) (psn : Nat) (ext data : List Nat) : State :=
  let r := s.frameOf q opcode ackReq psn ext data
  (r.2.sendFrame q.port q.cmp r.1)

/-! ### Request messages (R446, R447, R469) -/

/-- Payload bytes of a message of a queue pair. -/
def Qp.unit (q : Qp) : Nat := if q.net then 2 ^ (q.pmtu + 7) else 4096

/-- Offsets and lengths of the parts of `n` bytes. -/
def parts (n size : Nat) : List (Nat × Nat) :=
  if n = 0 then [(0, 0)] else (List.range (ceilDiv n size)).map (fun i => (i * size, min size (n - i * size)))

/-- A message that names nothing but its queue pairs. -/
def plainMsg (op src dst : Nat) : Msg := ⟨op, true, false, 0, src, dst, 0, 0, 0, 0, 0, 0, []⟩

/-- The request messages of a REMOTE descriptor on queue pair `n`. -/
def remoteMsgs (o : Op) (n : Nat) (q : Qp) : List Sent :=
  let d := o.desc
  let m (op : Nat) : Msg := plainMsg op n q.rqp
  match dOpcode d with
  | 0x43 => [⟨o.id, true, 0, { m 4 with code := raOp d, va := raRemote d, keyIx := raKeyIndex d, keyGen := raKeyGen d, len := 16,
                                        data := wordBytes [raOperand d, raCompare d] }, false, 0, 0, 0⟩]
  | 0x41 => [⟨o.id, true, 0, { m 3 with va := rmRemote d, keyIx := rmKeyIndex d, keyGen := rmKeyGen d, len := rmLen d }, false, 0, 0, 0⟩]
  | k =>
    let ps := parts (rmLen d) q.unit
    ps.zipIdx.map (fun e =>
      let fin := e.2 + 1 == ps.length
      let imm := fin && rmImmEn d
      let body := { m (if k = 0x40 then 1 else 2) with
        fin := fin, immV := imm, imm := if imm then rmImm d else 0, len := e.1.2
        va := if k = 0x40 then (rmRemote d + e.1.1) % 2 ^ 64 else e.1.1
        keyIx := if k = 0x40 then rmKeyIndex d else 0, keyGen := if k = 0x40 then rmKeyGen d else 0 }
      (⟨o.id, e.2 == 0, e.1.1, body, false, 0, 0, 0⟩ : Sent))

/-- The RoCE v2 opcode of a request packet (table "RoCE v2 opcodes"). -/
def bthOp (m : Sent) : Nat :=
  let base := if m.msg.op = 1 then 0x06 else 0x00
  match m.msg.op with
  | 3 => 0x0C
  | 4 => if m.msg.code = 0x01 then 0x14 else 0x13
  | _ => match m.first, m.msg.fin with
    | true, true => base + (if m.msg.immV then 5 else 4)
    | true, false => base
    | false, true => base + (if m.msg.immV then 3 else 2)
    | false, false => base + 1

/-- The extended headers of a request packet: RETH for the first packet of a WRITE and for a READ, AtomicETH, ImmDt. -/
def bthExt (total : Nat) (m : Sent) : List Nat :=
  let key := m.msg.keyIx + 2 ^ 24 * m.msg.keyGen
  let ext := match m.msg.op with
    | 1 => if m.first then [m.msg.va, key, total] else []
    | 3 => [m.msg.va, key, m.msg.len]
    | 4 => [m.msg.va, key] ++ byteWords 2 m.msg.data
    | _ => []
  ext ++ (if m.msg.immV then [m.msg.imm] else [])

/-- Packet sequence numbers a request takes: one, or one for each response packet of a READ. -/
def Qp.psns (q : Qp) (op len : Nat) : Nat := if op = 3 && q.net then max 1 (ceilDiv len q.unit) else 1

/-! ### Sending -/

/-- An operation of a queue pair ends; its messages are no longer kept. -/
def State.endRemote (s : State) (n : Nat) (o : Op) : State :=
  match s.net.qps.find n with
  | some q => (s.setOp o).setQp n { q with sends := q.sends.filter (fun m => m.op != o.id) }
  | none => s.setOp o

/-- An operation ends at a remote error: REMOTE_ERROR with the syndrome, and its queue pair enters ERROR (R456, R437). -/
def State.remoteFail (s : State) (n id syndrome : Nat) : State :=
  match s.findOp id with
  | none => s.qpError n none 0
  | some o =>
    (s.setOp { o with wait := .done, status := St.remoteError.code, detail := syndrome }).qpError n (some id) 0

/-- Restart the transport timer of an operation (R458). -/
def State.restartTimer (s : State) (id : Nat) : State :=
  match s.findOp id with
  | some o => s.setOp { o with startNs := s.ns }
  | none => s

/-- The payload of a message: read from the local buffer at client port 0x0B the first time it is sent (R446, R551).  `none` when the
read failed and the operation has ended (R259, R507). -/
def State.fillMsg (s : State) (n : Nat) (m : Sent) : Option Sent × State :=
  if m.msg.op != 1 && m.msg.op != 2 || m.msg.len = 0 || 0 < m.npsn then (some m, s)
  else match s.findOp m.op with
    | none => (none, s)
    | some o =>
      let r := s.opRead o 0x0B .read false (rmLocal o.desc + m.off) m.msg.len
      match r.1 with
      | .ok bs => (some { m with msg := { m.msg with data := bs.map BitVec.toNat } }, r.2.2.setOp r.2.1)
      | .fault f =>
        let e := r.2.2.opFault r.2.1 0x0B o.result f
        (none, e.2.endRemote n e.1)
      | .poison => (none, (r.2.2.setOp { r.2.1 with wait := .done, status := St.poisoned.code, detail := 0 }).qpError n (some o.id) 0)

/-- Mark a queue pair number USED under the present link key (R550). -/
def State.markUsed (s : State) (n : Nat) : State := { s with sec := { s.sec with used := addOnce s.sec.used n } }

/-- Total bytes of a message's operation. -/
def State.opLen (s : State) (m : Sent) : Nat :=
  match s.findOp m.op with
  | some o => rmLen o.desc
  | none => m.msg.len

/-- Put a numbered message on its transport; a peer message without a route ends its operation with NO_ROUTE (R418, R456). -/
def State.launch (s : State) (n : Nat) (q : Qp) (m : Sent) : State :=
  let s := s.markUsed n
  let s := if m.first then s.stat q.cmp 13 1 else s
  if q.net then
    let s := (s.useLink (some m.op) (0x10 + q.port)).bump .NET_ST_TX_MSGS q.cmp 1
    s.sendPacket q (bthOp m) (m.msg.fin || m.psn % 32 == 31) m.psn (bthExt (s.opLen m) m) (if m.msg.op = 4 then [] else m.msg.data)
  else
    let r := s.queueMsg q.cmp q.indic q.rjid (some m.op) m.msg
    if r.1 then r.2 else r.2.remoteFail n m.op 0x0D

/-- Replace the first unsent message of a list. -/
def replaceUnsent (m : Sent) : List Sent → List Sent
  | [] => []
  | x :: xs => if x.sent then x :: replaceUnsent m xs else m :: xs

/-- Give a message its sequence number (R447, R476), or keep the one it has. -/
def Qp.number (q : Qp) (m : Sent) : Sent × Qp :=
  if 0 < m.npsn then (m, q)
  else if q.net then
    let k := q.psns m.msg.op m.msg.len
    let msn := if m.first then (q.sendMsn + 1) % 2 ^ 32 else q.sendMsn
    ({ m with psn := q.sqNext, npsn := k, msg := { m.msg with msn := msn } }, { q with sqNext := q.sqNext + k, sendMsn := msn })
  else ({ m with psn := q.sendMsn, npsn := 1, msg := { m.msg with msn := q.sendMsn } }, { q with sendMsn := (q.sendMsn + 1) % 2 ^ 32 })

/-- READ and ATOMIC messages sent and unanswered. -/
def Qp.reads (q : Qp) : Nat := (q.sends.filter (fun (m : Sent) => decide (0 < m.npsn) && decide (3 ≤ m.msg.op))).length

/-- A message may be sent now: at most 256 without acknowledgement, and on the network the limits of reads and of the link key (R446, R473,
R542). -/
def State.maySendMsg (s : State) (q : Qp) (m : Sent) : Bool :=
  (decide (0 < m.npsn) || (decide (q.outstanding < 256) && !(q.net && decide (3 ≤ m.msg.op) && decide (q.rdAtom + 1 ≤ q.reads))))
    && !(q.net && q.crypt && !s.linkKeyed q.cmp)

/-- The queue pair sends its next message, if it can. -/
def State.pumpOne (s : State) (n : Nat) : Option State :=
  match s.net.qps.find n with
  | none => none
  | some q =>
    if q.state != 3 || q.rnrWait.isSome || q.spent then none
    else match q.sends.find? (fun m => !m.sent) with
      | none => none
      | some m =>
        if !s.maySendMsg q m then none
        else
          let r := s.fillMsg n m
          match r.1 with
          | none => some r.2
          | some m =>
            let x := q.number m
            let m := { x.1 with sent := true }
            if 2 ^ 39 < x.2.sqNext then some (r.2.qpError n none 0)
            else
              let q := { x.2 with sends := replaceUnsent m q.sends, lastRetry := if q.outstanding = 0 then s.ns else q.lastRetry }
              some ((r.2.setQp n q).launch n q m)

/-- The queue pair sends what it can. -/
def State.pumpN : Nat → Nat → State → State
  | 0, _, s => s
  | k + 1, n, s =>
    match s.pumpOne n with
    | some t => t.pumpN k n
    | none => s

/-- The queue pair sends what it can. -/
def State.pump (s : State) (n : Nat) : State :=
  match s.net.qps.find n with
  | some q => s.pumpN q.sends.length n
  | none => s

/-! ### REMOTE descriptors (R144, R433, R446) -/

/-- The queue pair takes a REMOTE descriptor's operation, or the descriptor ends. -/
def remoteWork (o : Op) (s : State) : Op × State :=
  let n := rmQp o.desc
  match s.ownQp o.fn n with
  | none => (o.ends St.remoteQpError.code 0, s)
  | some q =>
    if q.indic != dIndic o.desc then (o.ends St.moodMismatch.code 0, s)
    else if q.state != 3 then (o.ends St.remoteQpError.code 0, s)
    else ({ o with wait := .remote n, result := 0 }, s.setQp n { q with sends := q.sends ++ remoteMsgs o n q })

/-- Start a REMOTE descriptor and send what its queue pair can. -/
def State.startRemote (s : State) (fn ring opcode : Nat) : State :=
  let s := s.startNext fn ring (fun d => dOpcode d == opcode) remoteWork
  match s.ring.ops.getLast? with
  | some o => (match o.wait with
    | .remote n => s.pump n
    | _ => s)
  | none => s

/-- REMOTE_WRITE. -/
def execRemoteWrite (fn ring : Nat) (s : State) : Out := .next (s.startRemote fn ring 0x40)
/-- REMOTE_READ. -/
def execRemoteRead (fn ring : Nat) (s : State) : Out := .next (s.startRemote fn ring 0x41)
/-- REMOTE_SEND. -/
def execRemoteSend (fn ring : Nat) (s : State) : Out := .next (s.startRemote fn ring 0x42)
/-- REMOTE_ATOMIC. -/
def execRemoteAtomic (fn ring : Nat) (s : State) : Out := .next (s.startRemote fn ring 0x43)

/-! ### Retransmission (R479, R480) -/

/-- The frame counter of NET_RETRANSMIT incidents of a compartment. -/
def retxKey (c : Nat) : Nat := 0x6100 + c

/-- A retry period without progress ends: a round starts from a sequence number, or the retries are exhausted. -/
def State.retryPeriod (s : State) (n : Nat) (q : Qp) (frm : Nat) : State :=
  let k := q.retries + 1
  if k < q.retryCnt then
    let q := { q with retries := k, lastRetry := s.ns
                      sends := q.sends.map (fun (m : Sent) => if 0 < m.npsn && frm < m.psn + m.npsn then { m with sent := false, got := 0 } else m) }
    let s := ((s.setQp n q).bump .NET_ST_RETRANSMIT q.cmp 1).postLimited (retxKey q.cmp) (s.rd .NET_RETX_LIMIT q.port)
      (cmpInc 0x0C05 .notice q.cmp (0x10 + q.port) n [frm % 2 ^ 24, k])
    s.pump n
  else
    (s.setQp n { q with retries := q.retryCnt, spent := true, lastRetry := s.ns }).post
      (bothInc 0x0C06 .job (some q.cmp) (0x10 + q.port) n [q.sqAck % 2 ^ 24])

/-- The acknowledgement timer of a network queue pair expires (R479). -/
def execAckTimeout (qp : Nat) (s : State) : Out :=
  match s.net.qps.find qp with
  | none => .next s
  | some q =>
    if !q.net || q.state != 3 || q.spent || q.rnrWait.isSome || q.outstanding = 0 || decide (s.ns < q.lastRetry + 4096 * 2 ^ q.ackTime) then .next s
    else .next (s.retryPeriod qp q q.sqAck)

/-- The receiver-not-ready wait of a queue pair is over: it resends from the refused message (R452, R482). -/
def execRnrWaitExpiry (qp : Nat) (s : State) : Out :=
  match s.net.qps.find qp with
  | none => .next s
  | some q =>
    match q.rnrWait with
    | some t => if t ≤ s.ns then .next ((s.setQp qp { q with rnrWait := none, lastRetry := s.ns }).pump qp) else .next s
    | none => .next s

/-! ### Transport timeout (R458, R459, R508, R509) -/

/-- The unit of an incident about a queue pair's operation: the peer link it used, or its Ethernet port. -/
def Op.unitOf (o : Op) (q : Qp) : Nat := if q.net then 0x10 + q.port else (o.links.find? (fun l => decide (l < 12))).getD 0xF

/-- The transport timeout of an operation fires; it is held during a recovery run. -/
def execTransportTimeout (op : Nat) (s : State) : Out :=
  match s.findOp op with
  | none => .next s
  | some o =>
    match o.wait with
    | .remote n =>
      (match s.net.qps.find n with
      | none => .next s
      | some q =>
        if s.inRecovery o || decide (s.ns < o.startNs + 1000 * q.timeout) then .next s
        else
          let sev := if dIndic o.desc then Sev.job else .notice
          let msn := match q.sends.find? (fun m => m.op == op && decide (0 < m.npsn)) with
            | some m => m.msg.msn
            | none => q.sendMsn
          let p : Post := { cmpInc 0x0C02 sev o.cmp (o.unitOf q) n [msn, q.timeout] with cause := s.timeoutCause o }
          let r := s.postQ p
          .next ((r.2.setOp { o with wait := .done, status := St.timeout.code, detail := 0x0F }).qpError n (some op) r.1))
    | _ => .next s

/-! ### CON_ARM (R170 to R173) -/

/-- Checks 1 to 5 of a CON_ARM. -/
def State.armCheck (s : State) (o : Op) : Option St :=
  let d := o.desc
  let k := cnRing d
  let n := bits (cnValue d) 32 16
  if s.ringState o.fn k = .disabled then some .badDescriptor
  else if s.indicRing o.fn k != dIndic d then some .moodMismatch
  else if (if cnTrigger d then cnObj d != 0 || cnOp d != 0 || bits (cnValue d) 48 16 != 0 else cnOp d == 0) then some .badDescriptor
  else if cnTrigger d && !s.qpMine o.fn n then some .conNotOwned
  else if cnTrigger d && dIndic d && !((s.net.qps.find n).any (fun q => q.indic)) then some .moodMismatch
  else none

/-- Check 7 of a CON_ARM: the fire descriptor passes checks 1 to 6 as if it sat in the target ring. -/
def State.fireCheck (s : State) (o : Op) (d : List Nat) : Option St :=
  if isAdmin d then some .engineDenied else s.checkSix o.fn o.cmp (s.indicRing o.fn (cnRing o.desc)) d

/-- The claim of a slot: it is armed, or found taken (R171, R172). -/
def State.armSlot (s : State) (o : Op) (d : List Nat) : Op × State :=
  let i := cnSlot o.desc
  match s.slots.find i with
  | some _ =>
    let s := s.bump .CON_ARM_BUSY 0 1
    let o := o.ends St.bufferEmpty.code 0
    if dIndic o.desc && !o.breaches.contains Breach.bufferEmpty.code then
      ({ o with breaches := o.breaches ++ [Breach.bufferEmpty.code] },
        s.breach o.cmp .bufferEmpty { engine := 5, ring := o.ring, index := i, list := o.listIdx, cause := s.causeOf o })
    else (o, s)
  | none =>
    let t : Slot := ⟨false, cnTrigger o.desc, cnOp o.desc, cnObj o.desc, cnValue o.desc, o.fn, cnRing o.desc, dIndic o.desc, s.beat, 0, d⟩
    let s := { (s.bump .CON_ARMS 0 1) with slots := Tab.put s.slots i t }
    let hit := !cnTrigger o.desc && waitHolds (cnOp o.desc) (cnValue o.desc) (s.rd .CON_VALUE (cnObj o.desc)) && s.mayFire t
    (o.ends 0 i, if hit then s.fireSlot i else s)

/-- CON_ARM reads its fire descriptor, checks it and arms its slot. -/
def armWork (o : Op) (s : State) : Op × State :=
  match s.armCheck o with
  | some st =>
    let n := bits (cnValue o.desc) 32 16
    let t := if st = .conNotOwned then s.refuseUse 7 o.cmp n (s.holder (·.qpBlk) (n / 512)) else s
    ({ o.ends st.code 0 with detail := detailOf s t }, t)
  | none =>
    let r := s.opRead o 0x08 .read true (cnFire o.desc) 64
    match r.1 with
    | .fault f => r.2.2.opFault r.2.1 0x08 0 f
    | .poison => (r.2.1.ends St.poisoned.code 0, r.2.2)
    | .ok bs =>
      let d := wordsOf 8 bs
      match r.2.2.fireCheck r.2.1 d with
      | some st =>
        let t := if st = .conNotOwned then r.2.2.refuseConcord o.cmp d else r.2.2
        ({ r.2.1.ends st.code 0 with detail := detailOf r.2.2 t }, t)
      | none => r.2.2.armSlot r.2.1 d

/-- CON_ARM. -/
def execConArm (fn ring : Nat) (s : State) : Out := .next (s.startNext fn ring (fun d => dOpcode d == 0x52) armWork)

end Sys2Proof.Machine
end

