-- ==== Sys2Proof/Machine/Receive.lean ====
section
/-! DEFINITION. Receiving remote access messages (chapters 16 and 17): the protection check, performing requests, receive buffers and
completion queue entries, visibility, and the response check. -/
namespace Sys2Proof.Machine

open Sys2Proof

/-! ### Answers -/

/-- The AETH NAK code of a remote syndrome on a network queue pair (R483); 0x100 and above are standard codes as they stand. -/
def nakCode (crypt : Bool) (syn : Nat) : Nat :=
  if 0x100 ≤ syn then syn - 0x100
  else if crypt then 0x10 + syn
  else if syn = 0x02 || syn = 0x09 then 1 else if syn = 0x05 || syn = 0x06 || syn = 0x07 || syn = 0x08 then 2 else 3

/-- The syndrome a requester takes from a received NAK code (R483). -/
def nakSyndrome (code : Nat) : Nat :=
  if 0x11 ≤ code then code - 0x10 else if code = 1 then 0x02 else if code = 2 then 0x08 else 0x01

/-- The RoCE v2 opcode of a response. -/
def rspOp (m : Msg) : Nat :=
  match m.op with
  | 0x10 => if m.va = 0 then (if m.fin then 0x10 else 0x0D) else (if m.fin then 0x0F else 0x0E)
  | 0x11 => 0x12
  | _ => 0x11

/-- The AETH syndrome of a response. -/
def rspSynd (q : Qp) (m : Msg) : Nat :=
  match m.op with
  | 0x13 => 0x60 + nakCode q.crypt m.code
  | 0x14 => 0x20 + q.minRnr
  | _ => 0

/-- A queue pair sends a response; on the network `imm` carries its packet sequence number. -/
def State.respond (s : State) (n : Nat) (m : Msg) : State :=
  match s.net.qps.find n with
  | none => s
  | some q =>
    let s := s.markUsed n
    if 2 ^ 39 ≤ q.resps + 1 then s.qpError n none 0
    else
      let s := s.setQp n { q with resps := q.resps + 1 }
      if q.net then
        let op := rspOp m
        let ext := (if op = 0x0E then [] else [rspSynd q m, m.msn % 2 ^ 24]) ++ (if op = 0x12 then [m.va] else [])
        (s.bump .NET_ST_TX_MSGS q.cmp 1).sendPacket q op false m.imm ext m.data
      else (s.queueMsg q.cmp q.indic q.rjid none m).2

/-- A response of a queue pair to a request message. -/
def rspTo (r : RxMsg) (m : Msg) (op : Nat) : Msg := { plainMsg op m.dstQp m.srcQp with msn := m.msn, imm := if 16 ≤ r.via then r.psn else 0 }

/-- Where a message came in: link, 0xF for this junction, 0x10 + Ethernet port. -/
def RxMsg.unit (r : RxMsg) : Nat := r.via

/-- The frame counter of REMOTE_REFUSED incidents of a compartment. -/
def refuseKey (c : Nat) : Nat := 0x6000 + c

/-- Refuse a request message: counted, reported, and answered with a NAK (R456, R457). -/
def State.refuse (s : State) (c : Nat) (r : RxMsg) (m : Msg) (syn : Nat) (toDev : Bool) : State :=
  let s := s.bump .NET_ST_REFUSED c 1
  let args := [syn, keyWord m.keyIx m.keyGen, r.src]
  let s := if s.underLimit (refuseKey c) (s.rd .NET_REFUSE_LIMIT 0) then
      (s.countFrame (refuseKey c)).post (if toDev then onCmp c (devInc 0x0C01 .notice r.unit m.dstQp args) else cmpInc 0x0C01 .notice c r.unit m.dstQp args)
    else s.countFrame (refuseKey c)
  let nak := { rspTo r m 0x13 with code := syn }
  match s.net.qps.find m.dstQp with
  | some q =>
    if r.via < 16 && (q.net || q.cmp != c || q.rjid != r.src || q.rqp != m.srcQp || q.state < 2) then (s.queueMsg c r.indic r.src none nak).2
    else if 16 ≤ r.via && (!q.net || q.cmp != c || q.state < 2) then s
    else s.respond m.dstQp nak
  | none => if r.via < 16 then (s.queueMsg c r.indic r.src none nak).2 else s

/-! ### The tests (R441) -/

/-- A remote event doorbell (R189). -/
def isBell (m : Msg) : Bool := m.op == 1 && m.va == 0xFFFFFFFFFFFFF000 && m.len == 4 && m.keyIx == 0 && m.keyGen == 0

/-- Test 2: the queue pair takes messages of this source. -/
def State.bindingOk (s : State) (c : Nat) (r : RxMsg) (m : Msg) (q : Qp) : Bool :=
  q.cmp == c && (q.state == 2 || q.state == 3) &&
    (if r.via < 16 then !q.net && q.rjid == r.src && q.rqp == m.srcQp
     else q.net && q.port == r.via - 16 && s.ahIp c q.port q.ah == r.src)

/-- Tests 5 to 9: the syndrome of the first that fails.  The code of BOUNDS is not stated: a free value. -/
def State.keyTest (s : State) (c n : Nat) (q : Qp) (op va len ki kg : Nat) : Option Nat :=
  let k := s.key ki
  if !(s.grants c).keyBlk.contains (ki / 2048) || kg = 0 then some 0x05
  else if k.state != 1 || k.gen != kg then some 0x06
  else if k.pd != q.pd || (k.qp.isSome && k.qp != some n) then some 0x07
  else if !(if op = 1 then k.w else if op = 3 then k.r else k.a) then some 0x08
  else if va < k.va || k.va + k.len < va + len then some Config.boundsSyndrome.toNat
  else none

/-- Test 4: an INDICATIVE message needs an INDICATIVE queue pair and names no SUBJUNCTIVE key. -/
def State.moodTest (s : State) (q : Qp) (r : RxMsg) (keyed : Bool) (ki kg : Nat) : Bool :=
  !r.indic || (q.indic && !(keyed && (s.key ki).state == 1 && (s.key ki).gen == kg && !(s.key ki).indic))

/-! ### Accesses of the receive pipeline (client port 0x0C) -/

/-- Map a span for the receive pipeline: its pieces, or the fault; an indicative miss is the breach TRANSLATION_LATE. -/
def State.rxMap (s : State) (c n : Nat) (indic : Bool) (need : Need) (va len : Nat) : Option (List Piece) × State :=
  let r := s.mapSpan 0x0C c indic need (spanFuel len) va len
  let t := if r.2.2.1 then r.2.2.2.breach c .translationLate { engine := 7, ring := n, address := va } else r.2.2.2
  match r.2.1 with
  | some f => (none, t.postFault c indic f 0x0C 0x7F n 0 none)
  | none => (some r.1, t)

/-- Bytes of pieces before their first poisoned line, and whether there is one. -/
def State.piecesClean (s : State) (c : Nat) : List Piece → List Byte × Bool
  | [] => ([], false)
  | p :: ps =>
    if p.target = 0 then
      let k := s.cleanPrefix p.addr p.len
      if k < p.len then (s.accRead c p.addr k, true)
      else let r := s.piecesClean c ps; (s.pieceRead c p ++ r.1, r.2)
    else if s.piecePoison p then ([], true)
    else let r := s.piecesClean c ps; (s.pieceRead c p ++ r.1, r.2)

/-- What performing a request gives: refused with a syndrome (and whether an incident follows), or passed with its responses. -/
inductive Done where
  | refused (syn : Nat)
  | passed (rsp : List Msg)

/-- Write bytes for a request. -/
def State.rxWrite (s : State) (c n : Nat) (indic : Bool) (va : Nat) (data : List Nat) : Bool × State :=
  let r := s.rxMap c n indic .write va data.length
  match r.1 with
  | none => (false, r.2)
  | some ps => (true, r.2.piecesWrite c indic ps (data.map (fun b => BitVec.ofNat 8 b)))

/-- The acknowledgement of a message: always on a peer link; on the network when asked for and at every 64th packet (R448, R478). -/
def ackOf (r : RxMsg) (m : Msg) (msn : Nat) : List Msg :=
  if r.via < 16 || r.ack || r.psn % 64 == 63 then [{ rspTo r m 0x12 with msn := msn }] else []

/-- The READ_RSP messages of read bytes; a poisoned line ends them with a NAK (R446, R456, R507). -/
def readRsps (r : RxMsg) (m : Msg) (unit : Nat) (bs : List Nat) (poison : Bool) : List Msg :=
  let ps := parts bs.length unit
  let ps := if poison && bs.isEmpty then [] else ps
  let data := ps.zipIdx.map (fun e => { rspTo r m 0x10 with
    va := e.1.1, len := e.1.2, fin := !poison && e.2 + 1 == ps.length, data := (bs.drop e.1.1).take e.1.2
    imm := if 16 ≤ r.via then r.psn + e.2 else 0 })
  if poison then data ++ [{ rspTo r m 0x13 with code := 0x0A, imm := if 16 ≤ r.via then r.psn + ps.length else 0 }] else data

/-- Perform a READ_REQ. -/
def State.doRead (s : State) (c n : Nat) (q : Qp) (r : RxMsg) (m : Msg) : Done × State :=
  let x := s.rxMap c n r.indic .read m.va m.len
  match x.1 with
  | none => (.refused 0x0B, x.2)
  | some ps =>
    let b := x.2.piecesClean c ps
    (.passed (readRsps r m q.unit (b.1.map BitVec.toNat) b.2), x.2.touchPieces c r.indic ps)

/-- Perform an ATOMIC_REQ as an ATOMIC_FAR of agent 42 (R332, R450). -/
def State.doAtomic (s : State) (c n : Nat) (r : RxMsg) (m : Msg) : Option Nat × Done × State :=
  let x := s.rxMap c n r.indic .atomic m.va 8
  match x.1 with
  | some [p] =>
    if p.target != 0 then (none, .refused 0x08, x.2)
    else
      let ws := byteWords 2 m.data
      let a := (x.2.clearCopies c p.addr 8).atomAt c p.addr m.code 1 false false (word ws 0) (word ws 1)
      (match a.1 with
      | some (old, _) => (some old, .passed [{ rspTo r m 0x11 with va := old }], a.2)
      | none => (none, .refused 0x0A, a.2))
  | _ => (none, .refused 0x0B, x.2)

/-! ### Receive buffers (R451 to R454) -/

/-- How a claim of a receive buffer ends. -/
inductive Claim where
  | got (addr len tag : Nat)
  | empty
  | failed (syn : Nat)
  deriving DecidableEq, Repr

/-- Claim the next buffer of a shared receive queue; SRQ_LIMIT is posted when the posted count falls below the limit. -/
def State.claimBuffer (s : State) (c n srq : Nat) (indic : Bool) : Claim × State :=
  match s.net.srqs.find srq with
  | none => (.empty, s.bump .NET_ST_SRQ_EMPTY c 1)
  | some q =>
    if q.posted = 0 then (.empty, s.bump .NET_ST_SRQ_EMPTY c 1)
    else
      let r := s.rxMap c n indic .read (q.base + 16 * (q.cons % 2 ^ q.log2)) 16
      match r.1 with
      | none => (.failed 0x0B, r.2)
      | some ps =>
        let b := r.2.piecesClean c ps
        if b.2 then (.failed 0x0A, r.2)
        else
          let ws := wordsOf 2 b.1
          let q := { q with cons := (q.cons + 1) % 2 ^ 32 }
          let low := decide (q.posted < q.limit)
          let s := (r.2.touchPieces c indic ps).setSrq srq { q with told := q.told || low }
          (.got (bits (word ws 0) 0 57) (bits (word ws 1) 0 32) (bits (word ws 1) 48 16),
            if low && !q.told then s.aeqPost q.owner 2 0 srq 0 else s)

/-- The words of a CQ entry, its phase and beat left to the write. -/
def cqeOf (tag qp op status len imm srq : Nat) : List Nat :=
  [put tag 0 16 + put qp 16 16 + put op 40 8 + put status 48 8, put len 0 32 + put imm 32 32, 0, put srq 0 12]

/-- Perform a SEND message at an offset of the queue pair's buffer; the context of the queue pair after it, the outcome, and the entry of
its completion queue. -/
def State.doSend (s : State) (c n : Nat) (q : Qp) (r : RxMsg) (m : Msg) (off : Nat) : Qp × Done × Option (List Nat) × State :=
  match q.buffer with
  | none => (q, .refused 0x09, none, s)
  | some (addr, len, tag, srq) =>
    let stop := { q with buffer := none, rcvd := 0 }
    if len < off + m.data.length then (stop, .refused 0x09, some (cqeOf tag n (if m.immV then 2 else 1) 1 off (if m.immV then m.imm else 0) srq), s)
    else
      let w := s.rxWrite c n r.indic (addr + off) m.data
      if !w.1 then (stop, .refused 0x0B, none, w.2)
      else
        let total := off + m.data.length
        if m.fin then (stop, .passed [], some (cqeOf tag n (if m.immV then 2 else 1) 0 total (if m.immV then m.imm else 0) srq), w.2)
        else ({ q with rcvd := total }, .passed [], none, w.2)

/-! ### One request message -/

/-- The claim step of a SEND's first message: its queue pair with the buffer, or how it is refused; `rnr` for receiver not ready. -/
inductive Tenth where
  | ready (q : Qp)
  | rnr
  | refuse (syn : Nat)

/-- Test 10 for a SEND message (R452, table "Empty buffer outcomes"). -/
def State.tenth (s : State) (c n : Nat) (q : Qp) (r : RxMsg) (first : Bool) : Tenth × State :=
  if !first then (.ready q, s)
  else
    let x := s.claimBuffer c n q.srq r.indic
    match x.1 with
    | .got a l t => (.ready { q with buffer := some (a, l, t, q.srq), rcvd := 0 }, x.2)
    | .failed syn => (.refuse syn, x.2)
    | .empty =>
      if q.indic then (.refuse 0x0C, x.2.breach c .bufferEmpty { engine := 7, ring := n })
      else (.rnr, x.2)

/-- Note a message that has been performed. -/
def State.pass (s : State) (n : Nat) (p : Passed) : State :=
  match s.net.qps.find n with
  | some q => s.setQp n { q with passed := q.passed ++ [p] }
  | none => s

/-- Packets a received request message counts for in its queue pair's sequence. -/
def Qp.span (q : Qp) (m : Msg) : Nat := if m.op = 3 then max 1 (ceilDiv m.len q.unit) else 1

/-- The queue pair's expected sequence number advances past a message (R442, R469). -/
def Qp.advance (q : Qp) (m : Msg) : Qp :=
  if q.net then { q with rqPsn := (q.rqPsn + q.span m) % 2 ^ 24, gapNak := false
                         recvMsn := if m.fin then (q.recvMsn + 1) % 2 ^ 32 else q.recvMsn }
  else { q with recvMsn := (q.recvMsn + 1) % 2 ^ 32 }

/-- The span a WRITE message covers: its own on a peer link, the next part of its RETH's on the network. -/
def writeSpan (q : Qp) (r : RxMsg) (m : Msg) : Option (Nat × Nat × Nat) :=
  if r.via < 16 || r.first then some (m.va, m.keyIx, m.keyGen) else q.wr

/-- The queue pair once a message has been taken. -/
def Qp.taken (q : Qp) (m : Msg) (advance : Bool) : Qp := if advance then q.advance m else q

/-- The number a performed message carries: the network counts its messages itself. -/
def Qp.msnOf (q : Qp) (m : Msg) (advance : Bool) : Nat := if q.net then (q.taken m advance).recvMsn else m.msn

/-- A request message is refused with a syndrome. -/
def State.recvStop (s : State) (c n : Nat) (q : Qp) (r : RxMsg) (m : Msg) (advance : Bool) (msn syn : Nat) : State :=
  (s.setQp n (q.taken m advance)).refuse c r { m with msn := msn } syn false

/-- A request message has been performed, or has failed with a syndrome; a completion queue entry is written either way. -/
def State.recvDone (s : State) (c n : Nat) (q : Qp) (r : RxMsg) (m : Msg) (advance : Bool) (msn key : Nat) (d : Done) (tag : Option Nat)
    (cqe : Option (List Nat)) : State :=
  match d with
  | .refused syn =>
    let t := s.recvStop c n q r m advance msn syn
    match cqe with
    | some e => t.pass n ⟨msn, r.psn, [], 0, none, some e, r.indic, false⟩
    | none => t
  | .passed rsp => (s.setQp n (q.taken m advance)).pass n ⟨msn, r.psn, rsp, key, tag, cqe, r.indic, false⟩

/-- An access that a revoked key refuses in an indicative message is a breach (R90). -/
def State.revokedBreach (s : State) (c n : Nat) (r : RxMsg) (syn word : Nat) : State :=
  if syn = 0x06 && r.indic then s.breach c .revokedInSchedule { engine := 7, ring := n, address := word } else s

/-- The acknowledgement of a SEND that has passed. -/
def Done.acked (d : Done) (r : RxMsg) (m : Msg) (msn : Nat) : Done :=
  match d with
  | .passed _ => .passed (ackOf r m msn)
  | .refused syn => .refused syn

/-- A SEND message. -/
def State.performSend (s : State) (c n : Nat) (q : Qp) (r : RxMsg) (m : Msg) (advance : Bool) (msn : Nat) (imm : Option Nat) : State :=
  if !s.moodTest q r false 0 0 then s.recvStop c n q r m advance msn 0x04
  else
    let x := s.tenth c n q r (if r.via < 16 then m.va == 0 else r.first)
    match x.1 with
    | .refuse syn => x.2.recvStop c n q r m advance msn syn
    | .rnr => (x.2.setQp n { q with rnrAt := some (if q.net then r.psn else m.msn) }).respond n { rspTo r m 0x14 with msn := msn }
    | .ready q =>
      let y := x.2.doSend c n q r m (if r.via < 16 then m.va else q.rcvd)
      y.2.2.2.recvDone c n y.1 r m advance msn 0 (y.2.1.acked r m msn) imm y.2.2.1

/-- A WRITE message to the event doorbell. -/
def State.performBell (s : State) (c n : Nat) (q : Qp) (r : RxMsg) (m : Msg) (advance : Bool) (msn : Nat) (imm : Option Nat) : State :=
  if !s.moodTest q r false 0 0 then s.recvStop c n q r m advance msn 0x04
  else
    let w := ofLE (m.data.map (fun b => BitVec.ofNat 8 b)) % 2048
    if s.bellOk w (some c) then (s.bellRaises w [6]).recvDone c n q r m advance msn 0 (.passed (ackOf r m msn)) imm none
    else ((s.bump .EVT_DB_DROPPED_TOTAL 0 1).setQp n (q.taken m advance)).respond n { rspTo r { m with msn := msn } 0x13 with code := 0x08 }

/-- A WRITE message to memory. -/
def State.performWrite (s : State) (c n : Nat) (q : Qp) (r : RxMsg) (m : Msg) (advance : Bool) (msn : Nat) (imm : Option Nat) : State :=
  match writeSpan q r m with
  | none => s.recvStop c n q r m advance msn 0x02
  | some (va, ki, kg) =>
    let q := { q with wr := if q.net && !m.fin then some (va + m.data.length, ki, kg) else none }
    if !s.moodTest q r true ki kg then s.recvStop c n { q with wr := none } r m advance msn 0x04
    else match s.keyTest c n q 1 va m.data.length ki kg with
      | some syn => (s.revokedBreach c n r syn (keyWord ki kg)).recvStop c n { q with wr := none } r m advance msn syn
      | none =>
        let w := s.rxWrite c n r.indic va m.data
        let total := q.rcvd + m.data.length
        let q := { q with rcvd := if m.fin then 0 else total }
        if w.1 then
          w.2.recvDone c n q r m advance msn (ki + 1) (.passed (ackOf r m msn)) imm (imm.map (fun i => cqeOf 0 n 3 0 total i 0))
        else w.2.recvStop c n { q with wr := none } r m advance msn 0x0B

/-- A READ_REQ or ATOMIC_REQ message. -/
def State.performRead (s : State) (c n : Nat) (q : Qp) (r : RxMsg) (m : Msg) (advance : Bool) (msn : Nat) : State :=
  let len := if m.op = 3 then m.len else 8
  if !s.moodTest q r true m.keyIx m.keyGen then s.recvStop c n q r m advance msn 0x04
  else match s.keyTest c n q m.op m.va len m.keyIx m.keyGen with
    | some syn => (s.revokedBreach c n r syn (keyWord m.keyIx m.keyGen)).recvStop c n q r m advance msn syn
    | none =>
      if m.op = 3 then
        let x := s.doRead c n q r { m with msn := msn }
        x.2.recvDone c n q r m advance msn (m.keyIx + 1) x.1 none none
      else if !atomOk m.code 1 (word (byteWords 2 m.data) 0) (if m.code = 0x0A then word (byteWords 2 m.data) 1 else 0) m.va || !decide (m.code ≤ 0x0A) then
        s.recvStop c n q r m advance msn 0x08
      else
        let x := s.doAtomic c n r { m with msn := msn }
        let q := match x.1 with
          | some old => { q with atoms := ((r.psn, old) :: q.atoms).take 16 }
          | none => q
        x.2.2.recvDone c n q r m advance msn (m.keyIx + 1) x.2.1 none none

/-- Tests 4 to 10 and the request itself: the message is performed or refused, the sequence advanced but after an RNR (R442).  `advance` is
false for a repeated READ. -/
def State.perform (s : State) (c n : Nat) (q : Qp) (r : RxMsg) (m : Msg) (advance : Bool) : State :=
  let msn := q.msnOf m advance
  let imm := if m.fin && m.immV then some m.imm else none
  if m.op = 2 then s.performSend c n q r m advance msn imm
  else if m.op = 1 then
    if isBell m then s.performBell c n q r m advance msn imm else s.performWrite c n q r m advance msn imm
  else s.performRead c n q r m advance msn

/-- The last sequence number whose effects are visible. -/
def Qp.visible (q : Qp) : Nat :=
  match q.passed with
  | p :: _ => (p.psn + 2 ^ 24 - 1) % 2 ^ 24
  | [] => (q.rqPsn + 2 ^ 24 - 1) % 2 ^ 24

/-- A network packet behind the expected one (R477). -/
def State.duplicate (s : State) (c n : Nat) (q : Qp) (r : RxMsg) (m : Msg) : State :=
  if m.op = 3 then s.perform c n q r m false
  else if m.op = 4 then
    match q.atoms.find? (fun a => a.1 == r.psn) with
    | some a => s.respond n { rspTo r m 0x11 with va := a.2, msn := q.recvMsn }
    | none => s.respond n { rspTo r m 0x13 with code := 0x101, msn := q.recvMsn }
  else s.respond n { rspTo r m 0x12 with imm := q.visible, msn := q.recvMsn }

/-- A request message reaches the protection check (R441). -/
def State.checkRequest (s : State) (c : Nat) (r : RxMsg) (m : Msg) : State :=
  let s := (s.bump .NET_ST_RX_MSGS c 1).stat c 13 1
  let n := m.dstQp
  if !s.intakeOpen c then s.refuse c r m 0x01 true
  else match s.net.qps.find n with
    | none => s.refuse c r m 0x02 false
    | some q =>
      if q.cmp == c && !isMgr q.owner && s.rd .INS_RESET_BUSY q.owner = 1 then s.refuse c r m 0x01 false
      else if !s.bindingOk c r m q then s.refuse c r m 0x02 false
      else
        let here := if q.net then r.psn else m.msn
        let want := if q.net then q.rqPsn else q.recvMsn
        if q.rnrAt.isSome && q.rnrAt != some here && !(q.net && decide (2 ^ 23 ≤ (here + 2 ^ 24 - want) % 2 ^ 24)) then
          s.bump .NET_ST_RNR_DISCARD c 1
        else if here = want then s.perform c n { q with rnrAt := none } r m true
        else if !q.net then s.refuse c r m 0x03 false
        else if 2 ^ 23 ≤ (here + 2 ^ 24 - want) % 2 ^ 24 then s.duplicate c n q r m
        else if q.gapNak then s
        else ((s.setQp n { q with gapNak := true }).bump .NET_PORT_SEQ_NAK q.port 1).respond n
          { rspTo r m 0x13 with code := 0x100, imm := want, msn := q.recvMsn }

/-- Packets that wait in a compartment's allotment enter its reassembly buffer as it has room (R486). -/
def State.drainAllot (s : State) (c : Nat) : State :=
  [0, 1].foldl (fun s p =>
    let k := 2 * c + p
    let q := s.net.allot.get [] k
    let room := 16 - (s.rxOf c).length
    if q.isEmpty || room = 0 then s
    else ({ s with net := { s.net with allot := Tab.set s.net.allot [] k (q.drop room) } }).setRx c (s.rxOf c ++ q.take room)) s

/-- A message leaves the reassembly buffer. -/
def State.leaveRx (s : State) (c id : Nat) : State := (s.takeRx c id).drainAllot c

/-- The queue pair's completion queue has no free slot, so its next message stays in the buffer (R455). -/
def State.cqBlocked (s : State) (n : Nat) : Bool :=
  match (s.net.qps.find n).bind (fun q => s.net.cqs.find q.cq) with
  | some q => q.state == 1 && decide (2 ^ q.log2 ≤ diff32 q.prod q.cons)
  | none => false

/-- The next complete request message of its queue pair and port in a buffer. -/
def State.nextRequest (s : State) (c id : Nat) : Option (RxMsg × Msg) :=
  let same (a : RxMsg) (m : Msg) (b : RxMsg) : Bool := a.via == b.via && (match b.msg with
    | some x => !msgIsRsp x && x.dstQp == m.dstQp
    | none => false)
  match (s.rxOf c).find? (fun r => r.id == id) with
  | none => none
  | some r => match r.msg with
    | none => none
    | some m =>
      if msgIsRsp m || ((s.rxOf c).find? (same r m)).any (fun b => b.id != id) || s.cqBlocked m.dstQp then none else some (r, m)

/-- The shared receive queue a message claims a buffer of, if it is the first of a SEND, and its receive port. -/
def State.claimOf (s : State) (c id : Nat) : Option (Nat × Nat) :=
  match s.nextRequest c id with
  | some (r, m) =>
    if m.op = 2 && (if r.via < 16 then m.va = 0 else r.first) then
      (s.net.qps.find m.dstQp).map (fun q => (q.srq, if r.via = 16 then 12 else if r.via = 17 then 13 else min r.via 14))
    else none
  | none => none

/-- Order the messages of one cycle: those that claim buffers of one shared receive queue go in the rotating order of their ports (R452). -/
def State.orderClaims (s : State) (c : Nat) (ids : List Nat) : List Nat × State :=
  let cl := ids.filterMap (fun i => (s.claimOf c i).map (fun e => (i, e.1, e.2)))
  let rest := ids.filter (fun i => !cl.any (fun e => e.1 == i))
  (cl.map (fun e => e.2.1)).eraseDups.foldl (fun (a : List Nat × State) q =>
    let mine := cl.filter (fun e => e.2.1 == q)
    match mine with
    | _ :: _ :: _ =>
      let x := a.2.arbitrate (.srq q) 15 (mine.map (fun e => e.2.2)).eraseDups
      (a.1 ++ x.1.flatMap (fun p => (mine.filter (fun e => e.2.2 == p)).map (·.1)), x.2.bump .NET_ST_SRQ_TIES c 1)
    | _ => (a.1 ++ mine.map (·.1), a.2)) (rest, s)

/-- Request messages of a compartment reach the protection check in one cycle: each is performed or refused (R441 to R457). -/
def execRemoteRequestReceive (cmp : Nat) (ids : List Nat) (s : State) : Out :=
  let o := s.orderClaims cmp ids.eraseDups
  .next (o.1.foldl (fun s id =>
    match s.nextRequest cmp id with
    | some (r, m) => (s.checkRequest cmp r m).leaveRx cmp id
    | none => s) o.2)

/-! ### Visibility (R173 to R175, R448, R454, R455) -/

/-- The slots a tagged message fires, ascending. -/
def State.tagHits (s : State) (n tag : Nat) : List Nat :=
  (s.slots.filter (fun e => !e.2.fired && e.2.tagged && bits e.2.operand 0 32 == tag && bits e.2.operand 32 16 == n && s.mayFire e.2)).map (·.1)

/-- A tagged message is matched against the armed slots (R174). -/
def State.tagged (s : State) (n : Nat) (tag : Option Nat) : State :=
  match tag with
  | none => s
  | some t => match s.tagHits n t with
    | [] => s.bump .CON_TAG_UNMATCHED 0 1
    | is => is.foldl State.fireSlot s

/-- An entry as it is written: with its phase bit and the beat. -/
def State.cqStamp (s : State) (q : Cq) (ws : List Nat) : List Byte :=
  let phase := 1 - (q.prod / 2 ^ q.log2) % 2
  bytesOf [word ws 0 + put phase 32 1, word ws 1, s.beat, word ws 3]

/-- An entry has been written: the producer count advances and the event source is raised (R454). -/
def State.cqWritten (s : State) (n : Nat) (q : Cq) : State :=
  let s := s.setCq n { q with prod := (q.prod + 1) % 2 ^ 32 }
  match q.src with
  | some e => s.occur e
  | none => s

/-- Write an entry of a completion queue; false while it must wait. -/
def State.cqWrite (s : State) (n c qn : Nat) (indic : Bool) (ws : List Nat) (outcome : Outcome3) : Bool × State :=
  match s.net.cqs.find n with
  | none => (true, s)
  | some q =>
    if q.state != 1 then (true, s)
    else if 2 ^ q.log2 ≤ diff32 q.prod q.cons then (false, s)
    else
      let addr := q.base + 32 * (q.prod % 2 ^ q.log2)
      let bs := s.cqStamp q ws
      if q.host then
        match s.hostMap q.owner q.pasid (some (0x1000 + n)) addr true with
        | .missing _ => (false, s.atsRequest q.owner q.pasid (some (0x1000 + n)) 0x0C addr)
        | .bad _ => (true, s.cqFault n false)
        | .at a _ =>
          match outcome with
          | .ok => (true, (s.hostWrite (portOf q.owner) a bs).cqWritten n q)
          | .fault => (true, s.cqFault n false)
          | .poison => (true, s.cqFault n true)
      else
        let r := s.rxMap c qn indic .write addr 32
        match r.1 with
        | none => (true, r.2.cqFault n false)
        | some ps =>
          if ps.any r.2.piecePoison then (true, r.2.cqFault n true)
          else (true, (r.2.piecesWrite c indic ps bs).cqWritten n q)

/-- A completion queue entry waits for room: counted once, and RING_FULL when its message is indicative (R455). -/
def State.cqWaits (s : State) (n : Nat) (q : Qp) (p : Passed) : State :=
  if p.waited || !s.cqBlocked n then s
  else
    let s := (s.setQp n { q with passed := { p with waited := true } :: q.passed.drop 1 }).bump .NET_ST_CQ_FULL_WAITS q.cmp 1
    if p.indic then s.breach q.cmp .ringFull { engine := 7, ring := n } else s

/-- The oldest message a queue pair has performed becomes visible: its completion queue entry is written, its tag matched, its responses
sent.  `outcome` says how a write to host memory went. -/
def execRemoteMessageVisible (qp : Nat) (outcome : Outcome3) (s : State) : Out :=
  match s.net.qps.find qp with
  | none => .next s
  | some q =>
    match q.passed with
    | [] => .next s
    | p :: _ =>
      let w := match p.cqe with
        | none => (true, s)
        | some ws => s.cqWrite q.cq q.cmp qp p.indic ws outcome
      if !w.1 then .next (w.2.cqWaits qp q p)
      else
        let s := w.2.setQp qp { q with passed := q.passed.drop 1 }
        let s := s.tagged qp p.tag
        .next (if q.state = 2 || q.state = 3 then p.rsp.foldl (fun s m => s.respond qp m) s else s)

/-! ### Responses (R437, R449, R450, R453, R456, R479, R480) -/

/-- A response that fails the response check (R449, R437). -/
def State.lateRsp (s : State) (c : Nat) (old : Bool) : State :=
  let s := s.bump .NET_ST_LATE c 1
  if old then s.bump .RNG_LATE_COMPLETIONS 0 1 else s

/-- Add acknowledged bytes to an operation's result. -/
def State.addBytes (s : State) (id n : Nat) : State :=
  match s.findOp id with
  | some o => s.setOp { o with result := o.result + n, startNs := s.ns }
  | none => s

/-- An operation none of whose messages is left is complete (R449). -/
def State.finishOp (s : State) (n id : Nat) : State :=
  match s.net.qps.find n, s.findOp id with
  | some q, some o => if q.sends.any (fun m => m.op == id) || o.wait != .remote n then s else s.setOp (o.ends 0 o.result)
  | _, _ => s

/-- Exhausted retries end when every outstanding operation has completed (R480). -/
def State.unspend (s : State) (n : Nat) : State :=
  match s.net.qps.find n with
  | some q => if q.spent && q.outstanding = 0 then s.setQp n { q with spent := false, retries := 0 } else s
  | none => s

/-- Messages that an acknowledgement covers are freed: WRITE and SEND messages up to it (`upTo` selects). -/
def State.acknowledge (s : State) (n : Nat) (upTo : Sent → Bool) : State :=
  match s.net.qps.find n with
  | none => s
  | some q =>
    let gone := q.sends.filter (fun m => decide (0 < m.npsn) && decide (m.msg.op ≤ 2) && upTo m)
    if gone.isEmpty then s
    else
      let q := { q with sends := q.sends.filter (fun m => !gone.contains m), retries := 0, rnrLeft := q.rnrRetry, lastRetry := s.ns
                        ackMsn := (gone.getLast?.map (fun m => m.msg.msn)).getD q.ackMsn }
      let s := gone.foldl (fun s m => s.addBytes m.op m.msg.len) (s.setQp n q)
      (gone.map (·.op)).eraseDups.foldl (fun s id => s.finishOp n id) s

/-- The oldest packet sequence number not acknowledged (R479). -/
def State.moveAck (s : State) (n : Nat) : State :=
  match s.net.qps.find n with
  | some q =>
    let a := match q.sends.find? (fun m => decide (0 < m.npsn)) with
      | some m => m.psn
      | none => q.sqNext
    s.setQp n { q with sqAck := a }
  | none => s

/-- What follows progress of a queue pair's requests. -/
def State.progress (s : State) (n : Nat) : State := ((s.moveAck n).unspend n).pump n

/-- Receiver not ready for a message: it and the later ones wait, or its retries are exhausted (R452, R453, R482). -/
def State.notReady (s : State) (n : Nat) (q : Qp) (m : Sent) (wait : Nat) : State :=
  if q.rnrLeft = 0 then s.remoteFail n m.op 0x0E
  else
    let q := { q with rnrLeft := q.rnrLeft - 1, rnrWait := some (s.ns + wait)
                      sends := q.sends.map (fun (x : Sent) => if 0 < x.npsn && m.psn ≤ x.psn then { x with sent := false } else x) }
    (s.setQp n q).restartTimer m.op

/-- The time an RNR NAK timer code names in RoCE, in ns. -/
def rnrTime (code : Nat) : Nat :=
  10000 * ([65536, 1, 2, 3, 4, 6, 8, 12, 16, 24, 32, 48, 64, 96, 128, 192, 256, 384, 512, 768, 1024, 1536, 2048, 3072, 4096, 6144, 8192, 12288,
    16384, 24576, 32768, 49152].getD (code % 32) 1)

/-- Bytes of a READ arrive: written to the local buffer by invalidating writes at client port 0x0B (R450). -/
def State.readArrives (s : State) (n : Nat) (q : Qp) (m : Sent) (off : Nat) (data : List Nat) : State :=
  match s.findOp m.op with
  | none => s
  | some o =>
    let va := rmLocal o.desc + off
    let r := s.mapSpan 0x0B o.cmp q.indic .write (spanFuel data.length) va data.length
    let l := r.2.2.2.opLate o r.2.2.1 va
    match r.2.1 with
    | some f =>
      let e := l.2.opFault l.1 0x0B (o.result) f
      (e.2.endRemote n e.1)
    | none =>
      let s := l.2.piecesWrite o.cmp q.indic r.1 (data.map (fun b => BitVec.ofNat 8 b))
      let got := off + data.length
      let o := { l.1 with result := got, startNs := s.ns }
      if got < m.msg.len then
        (s.setOp o).setQp n { q with sends := q.sends.map (fun (x : Sent) => if x.psn = m.psn && 0 < x.npsn then { x with got := got } else x), lastRetry := s.ns, retries := 0 }
      else
        ((s.setOp o).setQp n { q with sends := q.sends.filter (fun x => !(x.psn == m.psn && decide (0 < x.npsn))), ackMsn := m.msg.msn, retries := 0, lastRetry := s.ns }).finishOp n m.op

/-- The result of an atomic arrives. -/
def State.atomArrives (s : State) (n : Nat) (q : Qp) (m : Sent) (old : Nat) : State :=
  let s := s.setQp n { q with sends := q.sends.filter (fun x => !(x.psn == m.psn && decide (0 < x.npsn))), ackMsn := m.msg.msn, retries := 0, lastRetry := s.ns }
  match s.findOp m.op with
  | some o => (s.setOp { o with result := old, startNs := s.ns }).finishOp n m.op
  | none => s

/-- A response on a peer link. -/
def State.peerRsp (s : State) (c n : Nat) (q : Qp) (m : Msg) : State :=
  let old := decide (m.msn < q.sendMsn)
  match q.sends.find? (fun x => decide (0 < x.npsn) && x.msg.msn == m.msn) with
  | none => s.lateRsp c old
  | some x =>
    match m.op with
    | 0x10 => if x.msg.op = 3 && m.va = x.got then (s.readArrives n q x m.va m.data).progress n else s.lateRsp c old
    | 0x11 => if x.msg.op = 4 then (s.atomArrives n q x m.va).progress n else s.lateRsp c old
    | 0x12 => if x.msg.op ≤ 2 then (s.acknowledge n (fun y => decide (y.psn ≤ x.psn))).progress n else s.lateRsp c old
    | 0x13 => s.remoteFail n x.op m.code
    | 0x14 => s.notReady n q x (1000 * q.rnrBack)
    | _ => s.lateRsp c old

/-- The extended sequence number of a 24-bit one near the oldest unacknowledged. -/
def Qp.extend (q : Qp) (psn : Nat) : Nat :=
  let d := (psn + 2 ^ 24 - q.sqAck % 2 ^ 24) % 2 ^ 24
  if d < 2 ^ 23 then q.sqAck + d else q.sqAck + d - 2 ^ 24

/-- A response on the network: read data, atomic results, and Acknowledge packets (`code` is the AETH syndrome). -/
def State.netRsp (s : State) (c n : Nat) (q : Qp) (psn : Nat) (m : Msg) : State :=
  let p := q.extend psn
  let at? := q.sends.find? (fun x => decide (0 < x.npsn) && decide (x.psn ≤ p) && decide (p < x.psn + x.npsn))
  let old := decide (p < q.sqNext)
  match m.op with
  | 0x10 =>
    (match at? with
    | some x => if x.msg.op = 3 && p = x.psn + x.got / q.unit then (s.readArrives n q x x.got m.data).progress n else s
    | none => s.lateRsp c old)
  | 0x11 =>
    (match at? with
    | some x => if x.msg.op = 4 then (s.atomArrives n q x m.va).progress n else s.lateRsp c old
    | none => s.lateRsp c old)
  | _ =>
    if m.code < 0x20 then
      if q.outstanding = 0 then s.lateRsp c old
      else (s.acknowledge n (fun y => decide (y.psn + y.npsn ≤ p + 1))).progress n
    else if m.code < 0x40 then
      (match at? with
      | some x => s.notReady n q x (rnrTime (m.code % 32))
      | none => s.lateRsp c old)
    else if m.code = 0x60 then
      let s := (s.acknowledge n (fun y => decide (y.psn + y.npsn ≤ p))).moveAck n
      (match s.net.qps.find n with
      | some q => if q.outstanding = 0 || q.spent then s else s.retryPeriod n q p
      | none => s)
    else
      let s := (s.acknowledge n (fun y => decide (y.psn + y.npsn ≤ p))).moveAck n
      (match at? with
      | some x => s.remoteFail n x.op (nakSyndrome (m.code % 32))
      | none => s.lateRsp c old)

/-- A response message leaves the reassembly buffer for its queue pair. -/
def execRemoteResponseReceive (cmp id : Nat) (s : State) : Out :=
  match (s.rxOf cmp).find? (fun r => r.id == id) with
  | none => .next s
  | some r => match r.msg with
    | none => .next s
    | some m =>
      if !msgIsRsp m then .next s
      else
        let s := s.bump .NET_ST_RX_MSGS cmp 1
        let t := match s.net.qps.find m.dstQp with
          | none => s.lateRsp cmp false
          | some q =>
            if q.cmp != cmp || q.net != decide (16 ≤ r.via) || !(q.state == 2 || q.state == 3) then
              s.lateRsp cmp (if q.net then decide (q.extend r.psn < q.sqNext) else decide (m.msn < q.sendMsn))
            else if q.net then s.netRsp cmp m.dstQp q r.psn m else s.peerRsp cmp m.dstQp q m
        .next (t.leaveRx cmp id)

end Sys2Proof.Machine
end

