-- ==== Sys2Proof/Machine/Net.lean ====
section
/-! DEFINITION. The Ethernet ports (chapter 17): received packets and their checks, congestion notification and rate control, priority flow
control, and link changes. -/
namespace Sys2Proof.Machine

open Sys2Proof

/-! ### Received packets (R464 to R468) -/

/-- The IP address of a compartment on a port, as one number. -/
def State.cmpIp (s : State) (c p : Nat) : Nat :=
  let w (i : Nat) : Nat := s.rd .NET_CMP_IP ((2 * c + p) * 4 + i)
  if s.rd .NET_CMP_IPV6 (2 * c + p) = 1 then w 0 + 2 ^ 32 * w 1 + 2 ^ 64 * w 2 + 2 ^ 96 * w 3 else w 0

/-- The compartment a packet's destination address names. -/
def State.ipCmp (s : State) (p ip : Nat) : Option Nat := compartments.find? (fun c => s.cmpIp c p == ip)

/-- A priority is enabled on a port (R484). -/
def State.prioOn (s : State) (p prio : Nat) : Bool :=
  (bit (s.rd .NET_PFC_EN p) 0 && s.rd .NET_PFC_PRIO_A p == prio) || (bit (s.rd .NET_PFC_EN p) 1 && s.rd .NET_PFC_PRIO_B p == prio)

/-- Send a PFC frame. -/
def State.pfcSend (s : State) (p prio quanta : Nat) : State := (s.bump .NET_PORT_PFC_TX p 1).emit .pfc [p, prio, quanta]

/-- The occupancy of a priority's intake buffer, in KiB, reaches NET_PFC_XOFF (R485). -/
def State.intake (s : State) (p prio occupancy : Nat) : State :=
  if s.prioOn p prio && decide (s.rd .NET_PFC_XOFF p ≤ occupancy) && !s.net.pfcOn.contains (prioKey p prio) then
    { (s.pfcSend p prio 0xFFFF) with net := { s.net with pfcOn := s.net.pfcOn ++ [prioKey p prio] } }
  else s

/-- The opcodes the junction accepts (table "RoCE v2 opcodes"). -/
def opListed (o : Nat) : Bool := decide (o ≤ 0x14) || o == 0x81

/-- The message a packet spells. -/
def msgOf (k : Packet) : Msg :=
  let m : Msg := { plainMsg 0 0 k.dstQp with msn := k.msn, len := k.data.length, data := k.data }
  let o := k.opcode
  let key (m : Msg) : Msg := { m with va := k.va, keyIx := bits k.rkey 0 24, keyGen := bits k.rkey 24 8 }
  let imm (b : Bool) (m : Msg) : Msg := if b then { m with immV := true, imm := k.imm } else m
  if o < 0x06 then imm (o == 3 || o == 5) { m with op := 2, fin := decide (2 ≤ o) }
  else if o < 0x0C then imm (o == 0x09 || o == 0x0B) (key { m with op := 1, fin := decide (0x08 ≤ o) })
  else if o = 0x0C then key { m with op := 3, len := k.len }
  else if o < 0x11 then { m with op := 0x10 }
  else if o = 0x11 then { m with op := 0x12, code := k.synd }
  else if o = 0x12 then { m with op := 0x11, va := k.operand }
  else key { m with op := 4, code := if o = 0x14 then 0x01 else 0x0A, len := 16, data := wordBytes [k.operand, k.compare] }

/-- The packet is the first of its message. -/
def opFirst (o : Nat) : Bool := o == 0 || o == 4 || o == 5 || o == 6 || o == 0x0A || o == 0x0B || decide (0x0C ≤ o)

/-- A packet goes to its compartment's reassembly buffer, to its allotment, or is not accepted (R486). -/
def State.allotIn (s : State) (c p : Nat) (k : Packet) : State :=
  let r : RxMsg := { id := s.plk.rxSerial, via := 16 + p, cmp := c, indic := false, cls := b2n (msgIsRsp (msgOf k)), src := k.srcIp,
                     psn := k.psn, bytes := [], msg := some (msgOf k), first := opFirst k.opcode, ack := k.ackReq }
  let s := { s with plk := { s.plk with rxSerial := s.plk.rxSerial + 1 } }
  let q := s.net.allot.get [] (2 * c + p)
  let used := q.foldl (fun n r => n + (match r.msg with
    | some m => m.data.length
    | none => 0)) 0
  if q.isEmpty && decide ((s.rxOf c).length < 16) then s.setRx c (s.rxOf c ++ [r])
  else if used + k.data.length ≤ 1024 * s.rd .NET_CMP_RXBUF (2 * c + p) then
    { s with net := { s.net with allot := Tab.set s.net.allot [] (2 * c + p) (q ++ [r]) } }
  else s.bump .NET_ST_RX_FULL c 1

/-- A CE mark makes the queue pair send a CNP, at most one in NET_CNP_INTERVAL µs (R488). -/
def State.ceMark (s : State) (n : Nat) (k : Packet) : State :=
  match s.net.qps.find n with
  | none => s
  | some q =>
    let due := match q.cnpNs with
      | some t => decide (t + 1000 * s.rd .NET_CNP_INTERVAL q.port ≤ s.ns)
      | none => true
    if q.net && k.ce && s.rd .NET_PORT_ECN_EN q.port == 1 && decide (2 ≤ q.state) && due then
      ((s.setQp n { q with cnpNs := some s.ns }).bump .NET_ST_CNP_TX q.cmp 1).sendPacket q 0x81 false 0 [] (List.replicate 16 0)
    else s

/-- The frame counter of NET_TAG_FAIL incidents of a compartment. -/
def tagKey (c : Nat) : Nat := 0x6200 + c

/-- A packet's tag fails: discarded and counted; the first in a frame of its compartment is reported (R474). -/
def State.tagFail (s : State) (c p n : Nat) : State :=
  (s.bump .NET_PORT_TAG_FAIL p 1).postLimited (tagKey c) 1 (cmpInc 0x0C04 .notice c (0x10 + p) n [])

/-- The checks every received frame passes, ending with its compartment (R464, R466, R467, R485). -/
def State.packetIn (s : State) (p occupancy : Nat) (k : Packet) (next : State → Nat → State) : State :=
  if 2 ≤ p || s.rd .NET_PORT_LINK_UP p = 0 then s
  else
    let s := s.intake p k.prio occupancy
    if !k.fcsOk then s.bump .NET_PORT_FCS_ERR p 1
    else if !k.roce then s.bump .NET_PORT_OTHER p 1
    else if !s.prioOn p k.prio && decide (256 ≤ occupancy) then s.bump .NET_PORT_LOSSY_DROP p 1
    else if !k.icrcOk then s.bump .NET_PORT_ICRC_ERR p 1
    else if !k.hdrOk then s.bump .NET_PORT_BAD_HDR p 1
    else match s.ipCmp p k.dstIp with
      | none => s.bump .NET_PORT_NO_DEST p 1
      | some c =>
        if 65536 ≤ k.dstQp || !(s.grants c).qpBlk.contains (k.dstQp / 512) then s.bump .NET_PORT_NO_DEST p 1
        else if k.pkey % 2 ^ 15 != s.rd .NET_CMP_PKEY (2 * c + p) % 2 ^ 15 then s.bump .NET_PORT_PKEY_DROP p 1
        else next s c

/-- A RoCE v2 packet is received; `occupancy` is the KiB its intake buffer holds with it. -/
def execRocePacketReceive (port occupancy : Nat) (packet : Packet) (s : State) : Out :=
  .next (s.packetIn port occupancy packet (fun s c =>
    let n := packet.dstQp
    let q := s.net.qps.find n
    if packet.opcode = 0x81 then s
    else if !opListed packet.opcode then
      (if q.isSome then (s.bump .NET_PORT_BAD_OP port 1).respond n { plainMsg 0x13 n 0 with code := 0x101, imm := packet.psn, msn := packet.msn } else s)
    else
      let crypt := q.any (fun q => q.crypt)
      if crypt && packet.opcode != 0x11 && !(packet.tagOk && s.linkKeyed c) then s.tagFail c port n
      else (s.ceMark n packet).allotIn c port packet))

/-! ### Rate control (R489) -/

/-- A CNP is received: the rate limit of its queue pair falls. -/
def Qp.onCnp (q : Qp) (g minRate now : Nat) : Qp :=
  { q with target := q.rate, rate := max (q.rate - q.rate * q.alpha / 131072) minRate
           alpha := min 65536 (q.alpha - q.alpha * g / 1024 + 64 * g), stage := 0, cnpRx := some now }

/-- A congestion notification packet is received. -/
def execCnpReceive (port : Nat) (packet : Packet) (s : State) : Out :=
  .next (s.packetIn port 0 packet (fun s c =>
    match s.net.qps.find packet.dstQp with
    | none => s
    | some q =>
      if packet.opcode = 0x81 && q.net && q.cmp == c then
        (s.setQp packet.dstQp (q.onCnp (s.rd .NET_CC_G port) (s.rd .NET_CC_MIN port) s.ns)).bump .NET_ST_CNP_RX c 1
      else s))

/-- NET_CC_ALPHA_US have passed without a CNP: alpha decays. -/
def execCcAlphaTimer (qp : Nat) (s : State) : Out :=
  match s.net.qps.find qp with
  | none => .next s
  | some q =>
    let quiet := match q.cnpRx with
      | some t => decide (t + 1000 * s.rd .NET_CC_ALPHA_US q.port ≤ s.ns)
      | none => true
    if q.net && quiet then .next (s.setQp qp { q with alpha := q.alpha - q.alpha * s.rd .NET_CC_G q.port / 1024 }) else .next s

/-- A step of NET_CC_TIMER_US or NET_CC_BYTES without a CNP: the rate rises toward its target. -/
def execCcRateTimer (qp : Nat) (s : State) : Out :=
  match s.net.qps.find qp with
  | none => .next s
  | some q =>
    if !q.net then .next s
    else
      let stage := q.stage + 1
      let target := if 5 < stage then min (q.target + s.rd .NET_CC_RAI q.port) 8000 else q.target
      .next (s.setQp qp { q with stage := stage, target := target, rate := (q.rate + target) / 2 })

/-! ### Priority flow control (R484, R485, R487) -/

/-- A PFC frame is received: an enabled priority is paused for its quanta, or resumed by 0; others are ignored. -/
def execPfcFrameReceive (port prio quanta : Nat) (s : State) : Out :=
  if 2 ≤ port || s.rd .NET_PORT_LINK_UP port = 0 then .next s
  else
    let s := s.bump .NET_PORT_PFC_RX port 1
    let k := prioKey port prio
    if !s.prioOn port prio then .next s
    else if quanta % 2 ^ 16 = 0 then
      let s := { s with net := { s.net with pauseTo := Tab.del s.net.pauseTo k, pauseAt := Tab.del s.net.pauseAt k
                                            stormed := s.net.stormed.filter (fun x => x != k) } }
      .next (s.flushFrames port prio)
    else
      let at' := (s.net.pauseAt.find k).getD s.ns
      .next { s with net := { s.net with pauseTo := Tab.put s.net.pauseTo k (s.ns + ceilDiv (quanta % 2 ^ 16 * 64) 100)
                                         pauseAt := Tab.put s.net.pauseAt k at' } }

/-- The pause time of a priority has elapsed. -/
def execPfcPauseExpiry (port prio : Nat) (s : State) : Out :=
  let k := prioKey port prio
  match s.net.pauseTo.find k with
  | none => .next s
  | some t =>
    if s.ns < t then .next s
    else
      let s := { s with net := { s.net with pauseTo := Tab.del s.net.pauseTo k, pauseAt := Tab.del s.net.pauseAt k
                                            stormed := s.net.stormed.filter (fun x => x != k) } }
      .next (s.flushFrames port prio)

/-- A priority has stayed paused for NET_PFC_STORM_US without a break: reported once. -/
def execPfcStorm (port prio : Nat) (s : State) : Out :=
  let k := prioKey port prio
  match s.net.pauseAt.find k with
  | none => .next s
  | some t =>
    if s.net.stormed.contains k || decide (s.ns < t + 1000 * s.rd .NET_PFC_STORM_US port) then .next s
    else
      .next (State.post { s with net := { s.net with stormed := s.net.stormed ++ [k] } }
        (devInc 0x0C07 .degraded (0x10 + port) 0 [prio]))

/-- 0x8000 quanta have passed with the occupancy at or above NET_PFC_XON: the pause is repeated. -/
def execPfcRefreshTimer (port prio : Nat) (s : State) : Out :=
  if s.net.pfcOn.contains (prioKey port prio) then .next (s.pfcSend port prio 0xFFFF) else .next s

/-- The occupancy falls below NET_PFC_XON: quanta 0. -/
def execIntakeBelowXon (port prio : Nat) (s : State) : Out :=
  if s.net.pfcOn.contains (prioKey port prio) then
    .next { (s.pfcSend port prio 0) with net := { s.net with pfcOn := s.net.pfcOn.filter (fun x => x != prioKey port prio) } }
  else .next s

/-! ### Links (R463) -/

/-- The owners of queue pairs in RTR or RTS on an Ethernet port. -/
def State.portUsers (s : State) (p : Nat) : List Nat :=
  ((s.net.qps.filter (fun e => e.2.net && e.2.port == p && (e.2.state == 2 || e.2.state == 3))).map (fun e => e.2.owner)).eraseDups

/-- The link of an Ethernet port goes down. -/
def State.netDown (s : State) (p : Nat) : State :=
  if s.rd .NET_PORT_LINK_UP p = 0 then s
  else
    let r := (s.wr .NET_PORT_LINK_UP p 0).postQ (devInc 0x0C03 .degraded (0x10 + p) 0 [])
    let s := r.2.portEvent (r.2.portUsers p) 4 (0x10 + p) r.1
    { s with net := { s.net with held := s.net.held.keep (fun k _ => k / 8 != p) } }

/-- An Ethernet link goes down. -/
def execNetLinkDown (port : Nat) (s : State) : Out := .next (if port < 2 then s.netDown port else s)

/-- An Ethernet link of an enabled port comes up. -/
def execNetLinkUp (port : Nat) (s : State) : Out :=
  if 2 ≤ port || s.rd .NET_PORT_LINK_UP port = 1 || s.rd .NET_PORT_EN port = 0 || bit (s.rd .PWR_GATE_NET 0) port then .next s
  else
    let s := s.wr .NET_PORT_LINK_UP port 1
    let s := s.portEvent (s.portUsers port) 5 (0x10 + port) 0
    .next ((List.range 8).foldl (fun s prio => s.flushFrames port prio) s)

end Sys2Proof.Machine
end

