-- ==== Sys2Proof/Machine/Functions.lean ====
section
/-! DEFINITION. Host functions (chapter 4): mailboxes and the management windows, instance reset and manager reset, and events forwarded by
the management cores. -/
namespace Sys2Proof.Machine

open Sys2Proof

/-! ### Squashing work in flight (R108 step 2, R109) -/

/-- The rings of a function, as keys. -/
def ringKeys (fn : Nat) : List Nat := span (64 * fn) 64

/-- The descriptors of a function that have not completed: started, fetched (in rings and lists) and fired. -/
def State.squashable (s : State) (fn : Nat) : List (List Nat) :=
  let ops := s.ring.ops.filter (fun o => o.fn == fn && !decide (o.wait = .done))
  let runs := s.ring.run.keep (fun k _ => k / 64 == fn)
  ops.map (·.desc) ++ ops.flatMap (fun o => if dOpcode o.desc = 1 then o.buf else [])
    ++ runs.flatMap (fun e => e.2.fetched ++ e.2.fire.map (·.2))

/-- Remove the work of a function: operations, fetched and fired descriptors, waiting records, the flits of its operations not sent yet;
reads keep their tags and page requests their index (R111, R222).  No record is written and nothing is signalled. -/
def State.squash (s : State) (fn : Nat) : State :=
  let gone := s.ring.ops.filter (fun o => o.fn == fn)
  let ids := gone.map (·.id)
  let held := gone.filterMap (fun (o : Op) => match o.wait with
    | .rows st => some (o.cmp, st)
    | _ => none)
  let s := (List.range 64).foldl (fun s n => s.dropFired fn n) s
  let s := { s with
    ring := { s.ring with
      ops := s.ring.ops.filter (fun (o : Op) => o.fn != fn)
      run := s.ring.run.keep (fun k _ => k / 64 != fn)
      cplQ := s.ring.cplQ.keep (fun k _ => k / 64 != fn) }
    long := { s.long with slots := s.long.slots.mapVals (fun _ l => match l.op with
      | some i => if ids.contains i then { l with op := none } else l
      | none => l) }
    net := { s.net with qps := s.net.qps.mapVals (fun _ q => { q with sends := q.sends.filter (fun (m : Sent) => !ids.contains m.op) }) }
    plk := { s.plk with link := s.plk.link.mapVals (fun _ x => { x with txQ := x.txQ.filter (fun (m : TxMsg) => match m.op with
      | some i => !ids.contains i
      | none => true) }) }
    ats := { s.ats with
      groups := s.ats.groups.map (fun (g : PrgGroup) => if g.fn == fn then { g with live := false } else g)
      prgWait := s.ats.prgWait.filter (fun (a : PrgAsk) => a.fn != fn)
      reads := s.ats.reads.map (fun (r : HostRead) => if r.fn == fn then { r with op := none } else r)
      rounds := s.ats.rounds.filter (fun r => !ids.contains r.1) } }
  held.foldl (fun s e => s.wakeHeld e.1 e.2) s

/-! ### Instance reset (R108 to R111, R204, R461) -/

/-- Ring set-up and state (chapter 5) that a reset returns to reset values; statistics are kept. -/
def ringSetUp : List Fld :=
  [.RNG_BASE, .RNG_LOG2_SIZE, .RNG_LOC, .RNG_PASID_EN, .RNG_PASID, .RNG_CPL_RING, .RNG_MOOD, .RNG_STATE, .RNG_TIMEOUT, .RNG_CONS, .RNG_PROD,
   .RNG_SETUP_STATUS, .RNG_ORD_RESULT, .RNG_CBASE, .RNG_CLOG2_SIZE, .RNG_CLOC, .RNG_CPASID_EN, .RNG_CPASID, .RNG_CPL_EVT_ALL, .RNG_CSTATE,
   .RNG_CPROD, .RNG_CCONS, .RNG_CSETUP_STATUS, .RNG_CORD_RESULT]

/-- The registers of a vector. -/
def vectorFields : List Fld :=
  [.EVT_COAL_COUNT, .EVT_TARGETS, .EVT_VEC_MASK, .EVT_COAL_TIME, .EVT_ALT1, .EVT_ALT2, .EVT_ALT3, .EVT_VEC_BATCH, .EVT_VEC_HELD,
   .EVT_VEC_DELIVERIES, .EVT_VEC_SPURIOUS]

/-- Return fields to their reset values at the entries listed, all at once. -/
def State.rstKeys (s : State) (fs : List Fld) (p : Nat → Bool) : State :=
  let ns := fs.map Fld.num
  { s with reg := { s.reg with vals := s.reg.vals.keep (fun k _ => !(ns.contains (k % 1024) && p (k / 1024))) } }

/-- The mailbox of an index returns to SENDER, its buffer and numbers to their reset values. -/
def State.clearMailbox (s : State) (i : Nat) : State :=
  let s := ((s.wr .INS_MB_HOLDER i 0).wr .INS_MB_NEXT_SEQ i 1).wr .INS_MB_NOTICE i 0
  { s with fns := { s.fns with
    mbox := s.fns.mbox.keep (fun k _ => k / 1024 != i)
    mbBell := s.fns.mbBell.filter (fun e => e.1 != i)
    mbDone := Tab.del s.fns.mbDone i } }

/-- Rings, vectors, MSI-X table and event sources of a function return to their reset values; sources keep their owner (R204).  Staged halves of
its register pairs are discarded (R13). -/
def State.clearFunction (s : State) (fn : Nat) : State :=
  let mine (n : Nat) : Bool := s.srcBound n && s.srcOwner n == fn
  let s := s.rstKeys ringSetUp (fun i => i / 64 == fn)
  let s := s.rstKeys [.EVT_CPL_SRC, .EVT_CPL_SRC_VALID] (fun i => i / 64 == fn)
  let s := s.rstKeys vectorFields (fun i => i / 256 == fn)
  let s := s.rstKeys [.EVT_SRC_SENSE, .EVT_SRC_ROUTED, .EVT_SRC_VEC, .EVT_PENDING, .EVT_COUNT, .EVT_SAT] mine
  { s with
    reg := { s.reg with staged := s.reg.staged.keep (fun k _ => k / 2 ^ 32 != fn) }
    slots := s.slots.keep (fun _ t => t.fn != fn)
    net := { s.net with aeq := Tab.del s.net.aeq fn }
    ring := { s.ring with ordPend := s.ring.ordPend.keep (fun k _ => k / 64 != fn) }
    evt := { s.evt with
      batchStart := s.evt.batchStart.keep (fun k _ => k / 256 != fn)
      claimPtr := s.evt.claimPtr.keep (fun k _ => k / 256 != fn)
      msix := s.evt.msix.keep (fun k _ => k / 256 != fn)
      msixPend := s.evt.msixPend.keep (fun k _ => k / 256 != fn) } }

/-- Every queue pair of a function enters ERROR (R108 step 4). -/
def State.qpsError (s : State) (fn : Nat) : State :=
  (s.net.qps.filter (fun e => e.2.owner == fn)).foldl (fun s e => s.qpError e.1 none 0) s

/-- Steps 1 and 2 of an instance reset, and the revocation that begins step 3: intake closes and the reset cut squashes what does not
drain. -/
def State.resetCut (s : State) (i : Nat) : State :=
  let ds := s.squashable i
  let ind := ds.any dIndic
  let s := (((s.wr .INS_RESET_BUSY i 1).wr .INS_RESET_SQUASHED i ds.length).squash i).revokeAll i
  let s := s.tdispError i
  { s with fns := { s.fns with resetInd := if ind then addOnce s.fns.resetInd i else s.fns.resetInd.filter (fun x => x != i) } }

/-- Steps 3 to 8 of an instance reset, once `writes` drained writes are visible. -/
def State.resetEnd (s : State) (i writes : Nat) : State :=
  let s := (s.qpsError i).atsForget i
  let s := ((s.clearFunction i).clearMailbox i).wr .INS_RESET_DRAINED i writes
  let sev := if s.fns.resetInd.contains i then Sev.job else .notice
  let s := s.post (bothInc 0x0201 sev (s.fnCmp i) (portOf i) i [writes % 2 ^ 32, s.rd .INS_RESET_SQUASHED i])
  let s := (s.bump .INS_RESET_COUNT i 1).wr .INS_RESET_BUSY i 0
  { s with fns := { s.fns with resetInd := s.fns.resetInd.filter (fun x => x != i) } }

/-- A function-level reset of an instance function begins (R108). -/
def execInstanceReset (idx : Nat) (s : State) : Out :=
  if isMgr idx || decide (128 ≤ idx) || s.rd .INS_RESET_BUSY idx = 1 || decide (0 < s.boot.warmStep) then .next s else .next (s.resetCut idx)

/-- Every drained write of an instance under reset is visible: the remaining steps run (R108, R110, R111). -/
def execInstanceResetDrained (idx writes : Nat) (s : State) : Out :=
  if isMgr idx || s.rd .INS_RESET_BUSY idx = 0 then .next s else .next (s.resetEnd idx writes)

/-! ### Manager reset (R112) -/

/-- INS registers that a manager reset returns to reset values (R112): the binding, and the count of resets since cold reset, stay. -/
def insFields : List Fld :=
  [.INS_RESET_DRAINED, .INS_RESET_SQUASHED, .INS_ENABLE, .INS_CMD_RINGS, .INS_CPL_RINGS, .INS_ENGINES, .INS_RING_MOOD, .INS_QP_FIRST, .INS_QP_COUNT, .INS_QP_IND, .INS_PASID_BASE,
   .INS_PASID_COUNT, .INS_ORD_STATUS, .INS_MB_DROPPED, .INS_MB_REPLY_REJECT]

/-- Instance functions of a port. -/
def instancesAt (port : Nat) : List Nat := span (64 * port + 1) 63

/-- Instance reset of every enabled instance of a port, and of those already under reset. -/
def State.resetInstances (s : State) (port : Nat) (drained : List (Nat × Nat)) : State :=
  (instancesAt port).foldl (fun s i =>
    if s.rd .INS_RESET_BUSY i = 1 then s.resetEnd i (Tab.get drained 0 i)
    else if s.rd .INS_ENABLE i = 1 then (s.resetCut i).resetEnd i (Tab.get drained 0 i)
    else s) s

/-- The functions of a port lose what a manager reset takes: VF Enable, instances, INS registers, the manager's own rings, queue pairs and
events, and on the secondary port the relay mailbox. -/
def State.managerClear (s : State) (port : Nat) (drained : List (Nat × Nat)) : State :=
  let m := 64 * port
  let s := (s.setCfg m .vfEnable 0).resetInstances port drained
  let s := s.rstKeys insFields (fun i => portOf i == port)
  let s := (instancesAt port).foldl (fun s i => s.clearFunction i) s
  let s := ((s.squash m).qpsError m).atsForget m
  let s := (s.clearFunction m).clearMailbox m
  s.wr .INS_MB_RELAY_NOTICE m 0

/-- A function-level reset of a manager function; `drained` tells, for its instances, the writes drained. -/
def execManagerReset (port : Nat) (drained : List (Nat × Nat)) (s : State) : Out :=
  if 2 ≤ port || decide (0 < s.boot.warmStep) then .next s
  else .next ((s.managerClear port drained).post (devInc 0x0202 .degraded port 0 []))

/-! ### Mailboxes (R102 to R107) -/

/-- The event source of a mailbox's sender. -/
def mailboxSrc (i : Nat) : Nat := 0x40 + i

/-- The event source of the server of a mailbox. -/
def State.serviceSrc (s : State) (i : Nat) : Nat := 0xC0 + portOf (s.server i)

/-- A mailbox exists: every index but the primary manager's (R102). -/
def State.hasMailbox (s : State) (i : Nat) : Bool := decide (i < 128) && i != s.primaryFn

/-- The compartment whose management window processes a mailbox (R104). -/
def State.mailboxCmp (s : State) (i : Nat) : Nat := (s.fnCmp i).getD 0

/-- A 64-bit word of a mailbox. -/
def State.mbWord (s : State) (i w : Nat) : Nat := s.fns.mbox.get 0 (1024 * i + 2 * w) + 2 ^ 32 * s.fns.mbox.get 0 (1024 * i + 2 * w + 1)

/-- Write a 64-bit word of a mailbox. -/
def State.setMbWord (s : State) (i w v : Nat) : State :=
  let k := 1024 * i + 2 * w
  { s with fns := { s.fns with mbox := Tab.set (Tab.set s.fns.mbox 0 k (v % 2 ^ 32)) 0 (k + 1) (v / 2 ^ 32 % 2 ^ 32) } }

/-- Write consecutive words of a mailbox. -/
def State.setMbWords (s : State) (i : Nat) : Nat → List Nat → State
  | _, [] => s
  | w, v :: vs => State.setMbWords (s.setMbWord i w v) i (w + 1) vs

/-- Ring the doorbell of a mailbox for the junction. -/
def State.mbRing (s : State) (i : Nat) (reply : Bool) : State :=
  { (s.wr .INS_MB_HOLDER i 1) with fns := { s.fns with mbBell := s.fns.mbBell ++ [(i, reply)] } }

/-- A send doorbell: taken when the sender holds the mailbox, else dropped and counted. -/
def State.mbSend (s : State) (i : Nat) : State :=
  if s.barsBlocked i || !s.hasMailbox i then s
  else if s.rd .INS_MB_HOLDER i = 0 then s.mbRing i false else s.bump .INS_MB_DROPPED i 1

/-- The sender of a mailbox rings its send doorbell; doorbells of one cycle within one compartment are ordered over instance indices. -/
def execMailboxSend (fn : Nat) (rivals : List Nat) (s : State) : Out :=
  let c := s.mailboxCmp fn
  let claims := fn :: (rivals.filter (fun r => r != fn && s.mailboxCmp r == c)).eraseDups
  let a := s.arbitrate (.mailbox c) 128 (claims.filter (fun i => s.hasMailbox i && s.rd .INS_MB_HOLDER i == 0))
  .next ((claims.filter (fun i => !a.1.contains i)).foldl State.mbSend (a.1.foldl State.mbSend a.2))

/-- The mailbox whose turn it is in its compartment's window, with its kind. -/
def State.mbTurn (s : State) (i : Nat) : Option Bool :=
  match s.fns.mbBell.find? (fun e => s.mailboxCmp e.1 == s.mailboxCmp i) with
  | some (j, reply) => if j = i then some reply else none
  | none => none

/-- A mailbox has been processed: its next holder waits for the end of the window. -/
def State.mbProcessed (s : State) (i next : Nat) : State :=
  { s with fns := { s.fns with mbBell := s.fns.mbBell.filter (fun e => e.1 != i), mbDone := Tab.put s.fns.mbDone i next } }

/-- The reserved bits of word 0 and words 4 to 7 are zero. -/
def State.mbReserved (s : State) (i : Nat) : Bool :=
  let w := s.mbWord i 0
  bits w 45 3 == 0 && bits w 56 8 == 0 && s.mbWord i 4 == 0 && s.mbWord i 5 == 0 && s.mbWord i 6 == 0 && s.mbWord i 7 == 0

/-- The checks of a request, in order (table "Request checks"); 0 where all pass.  The flag tells whether check 2 was passed. -/
def State.mbCheck (s : State) (i : Nat) : Nat × Bool :=
  let w := s.mbWord i 0
  let code := bits w 16 16
  if !s.mbReserved i || bit w 44 || bits w 48 8 != 0 || s.mbWord i 1 != 0 || s.mbWord i 2 != 0 then (1, false)
  else if bits w 0 16 != s.rd .INS_MB_NEXT_SEQ i then (2, false)
  else if 4032 < bits w 32 12 then (3, true)
  else if !((decide (1 ≤ code) && decide (code ≤ 3)) || decide (0x100 ≤ code)) then (4, true)
  else if !(i == s.secondaryFn || (!isMgr i && s.rd .INS_BOUND i == 1)) then (5, true)
  else (0, true)

/-- The next request number: 1 follows 65,535 (R105). -/
def mbNext (n : Nat) : Nat := if n = 65535 then 1 else n + 1

/-- The number before an expected one. -/
def mbPrev (n : Nat) : Nat := if n ≤ 1 then 65535 else n - 1

/-- Write the junction's reply: a status and a payload (R104, R107). -/
def State.mbReplyWith (s : State) (i status len : Nat) (payload : List Nat) : State :=
  let w := s.mbWord i 0
  let s := s.setMbWord i 0 (bits w 0 32 + put len 32 12 + 2 ^ 44 + put status 48 8)
  (((s.setMbWord i 1 0).setMbWord i 2 s.beat).setMbWords i 8 payload).mbProcessed i 1

/-- Check a request and, where it passes, let `k` serve its code; a code outside `served` is left to another row. -/
def State.mbServe (s : State) (i : Nat) (served : Nat → Bool) (k : State → State) : State :=
  if s.mbTurn i != some false then s
  else
    let r := s.mbCheck i
    let code := bits (s.mbWord i 0) 16 16
    if r.1 = 0 && !served code then s
    else
      let s := if r.2 then s.wr .INS_MB_NEXT_SEQ i (mbNext (s.rd .INS_MB_NEXT_SEQ i)) else s
      if r.1 = 0 then k s else s.mbReplyWith i r.1 0 []

/-- A request is checked in its window; one with a relayed code passes to the server (R105, R107). -/
def execMailboxRequestProcess (idx : Nat) (s : State) : Out :=
  .next (s.mbServe idx (fun code => decide (0x100 ≤ code)) (fun s =>
    let w1 := put (idx % 64) 0 6 + put (portOf idx) 8 1 + put (s.mailboxCmp idx) 16 5
    ((s.setMbWord idx 1 w1).setMbWord idx 2 s.beat).mbProcessed idx 3))

/-- A junction-served request that fails a check is answered by MAILBOX_REQUEST_PROCESS; the rows of the three codes act on those that
pass. -/
def State.mbQuery (s : State) (i code len : Nat) (payload : State → List Nat) : State :=
  if (s.mbCheck i).1 = 0 then s.mbServe i (fun c => c == code) (fun s => s.mbReplyWith i 0 len (payload s)) else s

/-- The contract identity of an ACTIVE or STAGED contract. -/
def contractId (k : Option Contract) : Nat := match k with
  | some t => t.schedId
  | none => 0

/-- QUERY_STATE. -/
def execQueryState (idx : Nat) (s : State) : Out :=
  .next (s.mbQuery idx 1 16 (fun s =>
    let c := s.mailboxCmp idx
    [put (s.cmpState c).code 0 3 + put (s.rd .CMP_SEALED c) 3 1 + put (s.rd .CMP_INTAKE_CLOSED c) 4 1 + put (contractId (s.active c)) 32 32,
      contractId (s.stagedC c) % 2 ^ 32]))

/-- The share lanes of a compartment as four words of a plan record each. -/
def State.laneWords (s : State) (c : Nat) : List Nat :=
  (List.range 6).map (fun j => put (s.lane c (4 * j)) 0 16 + put (s.lane c (4 * j + 1)) 16 16 + put (s.lane c (4 * j + 2)) 32 16
    + put (s.lane c (4 * j + 3)) 48 16)

/-- QUERY_GRANTS: a relay sender has no instance grants. -/
def execQueryGrants (idx : Nat) (s : State) : Out :=
  .next (s.mbQuery idx 2 80 (fun s =>
    let c := s.mailboxCmp idx
    let m := s.rd .INS_RING_MOOD idx
    (if isMgr idx then [0, 0, 0, 0]
     else [put (s.rd .INS_CMD_RINGS idx) 0 8 + put (s.rd .INS_CPL_RINGS idx) 8 8 + put (s.rd .INS_ENGINES idx) 16 8 + put m 32 32,
       m / 2 ^ 32 + put (s.rd .INS_QP_FIRST idx) 32 32, s.rd .INS_QP_COUNT idx + put (s.rd .INS_QP_IND idx) 32 32,
       s.rd .INS_PASID_BASE idx + put (s.rd .INS_PASID_COUNT idx) 32 32]) ++ s.laneWords c))

/-- QUERY_IDENTITY. -/
def execQueryIdentity (idx : Nat) (s : State) : Out :=
  .next (s.mbQuery idx 3 16 (fun s =>
    [s.rd .HST_PART_NUMBER 0 + put (s.rd .HST_PACKAGE_CODE 0) 16 16 + put (s.rd .HST_STEP_MINOR 0) 32 4 + put (s.rd .HST_STEP_MAJOR 0) 36 4,
      s.rd .HST_SERIAL 0]))

/-- The server writes INS_MB_REPLY at an index (R95, R103, R104). -/
def execMailboxReply (fn idx : Nat) (s : State) : Out :=
  if s.closed fn (0x300024 + 0x100 * idx) || !isMgr fn || !s.hasMailbox idx then .next s
  else if fn != s.server idx then .next (s.foreignOrder fn (0x300024 + 0x100 * idx) 0)
  else if s.rd .INS_MB_HOLDER idx = 2 then .next (s.mbRing idx true) else .next (s.bump .INS_MB_DROPPED idx 1)

/-- A reply is checked in its window (R106): one that passes returns to the sender, one that fails stays with the server. -/
def execMailboxReplyProcess (idx : Nat) (s : State) : Out :=
  if s.mbTurn idx != some true then .next s
  else
    let w := s.mbWord idx 0
    let st := bits w 48 8
    let w1 := s.mbWord idx 1
    let ok := s.mbReserved idx && bits w1 6 2 == 0 && bits w1 9 7 == 0 && w1 / 2 ^ 21 == 0 && bit w 44
      && bits w 0 16 == mbPrev (s.rd .INS_MB_NEXT_SEQ idx) && decide (bits w 32 12 ≤ 4032) && (st == 0 || decide (0x40 ≤ st))
    if ok then .next (((s.setMbWord idx 1 0).setMbWord idx 2 s.beat).mbProcessed idx 1)
    else .next (((s.bump .INS_MB_REPLY_REJECT idx 1).post (devInc 0x0203 .notice 0 idx [w])).mbProcessed idx 2)

/-- The management window of a compartment ends: every mailbox processed in it takes its holder, and the event of its new holder is
raised (R43, R104). -/
def execManagementWindowEnd (cmp : Nat) (s : State) : Out :=
  let done := s.fns.mbDone.filter (fun e => s.mailboxCmp e.1 == cmp)
  .next (done.foldl (fun (s : State) (e : Nat × Nat) =>
    let s := { (s.wr .INS_MB_HOLDER e.1 (if e.2 = 1 then 0 else 2)) with fns := { s.fns with mbDone := Tab.del s.fns.mbDone e.1 } }
    if e.2 = 1 then (s.emit .mailbox [e.1]).occur (mailboxSrc e.1)
    else if e.2 = 3 then s.occur (s.serviceSrc e.1) else s) s)

/-- The server writes a notice for the sender of a mailbox (R107). -/
def execMailboxNoticeSet (fn idx value : Nat) (s : State) : Out :=
  if s.closed fn (0x300028 + 0x100 * idx) || !isMgr fn || !s.hasMailbox idx then .next s
  else if fn != s.server idx then .next (s.foreignOrder fn (0x300028 + 0x100 * idx) 0)
  else .next ((s.wr (if isMgr idx then .INS_MB_RELAY_NOTICE else .INS_MB_NOTICE) idx value).occur (mailboxSrc idx))

end Sys2Proof.Machine
end

