-- ==== Sys2Proof/Machine/Compartment.lean ====
section
/-! DEFINITION. Compartment commands (chapter 2): ASSIGN and its claim at the allocator, QUIESCE, REOPEN, and SCRUB with its steps. -/
namespace Sys2Proof.Machine

open Sys2Proof

/-! ### The plan record (table "Compartment plan record") -/

/-- An extent of a plan: first granule and count. -/
def plExtent (ws : List Nat) (i : Nat) : Nat × Nat := (fld ws i 0 16, fld ws i 16 16)

/-- The extents of a tier that are used, from their first word. -/
def plExtents (ws : List Nat) (i0 : Nat) : List (Nat × Nat) := ((span i0 8).map (plExtent ws)).filter (fun e => e.2 != 0)

/-- The granules of a tier that a plan names. -/
def plGranules (ws : List Nat) (i0 : Nat) : List Nat := (plExtents ws i0).flatMap (fun e => span e.1 e.2)

/-- The extents of a tier of `n` granules are in range and do not overlap. -/
def plExtentsOk (ws : List Nat) (i0 n : Nat) : Bool :=
  (span i0 8).all (fun i => fld ws i 32 32 == 0 && decide ((plExtent ws i).1 < n) && decide ((plExtent ws i).2 ≤ n)
    && ((plExtent ws i).2 == 0 || decide ((plExtent ws i).1 + (plExtent ws i).2 ≤ n)))
  && (plGranules ws i0).eraseDups.length == (plGranules ws i0).length

/-- The bits set in a mask of `n` bits. -/
def maskBits (m n : Nat) : List Nat := (List.range n).filter (fun i => bit m i)

/-- What a plan names, in the form of grants: instance functions, and the counts of the block kinds of word 5. -/
def plSealed (ws : List Nat) : Bool := bit (word ws 0) 8
/-- Walkers of a plan. -/
def plWalkers (ws : List Nat) : Nat := fld ws 0 16 7
/-- Slices of a plan. -/
def plSlices (ws : List Nat) : List Nat := maskBits (word ws 1 + 2 ^ 64 * word ws 2) 128
/-- Instance functions of a plan. -/
def plInst (ws : List Nat) : List Nat := maskBits (word ws 3 + 2 ^ 64 * word ws 4) 128
/-- Blocks of one kind of a plan: range, concord, conjunction, queue pair, completion queue, shared receive queue, protection domain, key. -/
def plBlk (ws : List Nat) (k : Nat) : Nat := fld ws 5 (8 * k) 8
/-- Streams of a plan. -/
def plStreams (ws : List Nat) : List Nat := maskBits (fld ws 6 0 32) 32
/-- Share fields of a plan by lane. -/
def plLanes (ws : List Nat) : List Nat := (List.range lanes).map (fun l => fld ws (24 + l / 4) (16 * (l % 4)) 11)

/-- Blocks in each pool. -/
def plPool (k : Nat) : Nat := if k = 1 then 64 else 128

/-- Check 3 of ASSIGN (R57). -/
def planOk (c : Nat) (ws : List Nat) : Bool :=
  fld ws 0 0 5 == c && fld ws 0 5 3 == 0 && fld ws 0 9 7 == 0 && fld ws 0 23 41 == 0
    && decide (2 ≤ plWalkers ws) && decide (plWalkers ws ≤ 64) && !bit (word ws 3) 0 && !bit (word ws 4) 0
    && (List.range 8).all (fun k => decide (plBlk ws k ≤ plPool k))
    && fld ws 6 32 32 == 0 && word ws 7 == 0 && plExtentsOk ws 8 384 && plExtentsOk ws 16 4096
    && (List.range lanes).all (fun l => decide (fld ws (24 + l / 4) (16 * (l % 4)) 16 ≤ 1024))
    && word ws 30 == 0 && word ws 31 == 0

/-- Check 4: the minimums of the table "Compartment resources" (R33). -/
def planMin (ws : List Nat) : Bool := !(plInst ws).isEmpty && !(plSlices ws).isEmpty && decide (2 ≤ plWalkers ws)

/-! ### Shares (R38, R39) -/

/-- The patterns of a new compartment, lane by lane; none where a unit sum or a pattern does not fit. -/
def State.planPatterns (s : State) (ws : List Nat) : Option (List (List Nat)) :=
  let sealed := plSealed ws
  (List.range lanes).mapM (fun l =>
    let v := (plLanes ws).getD l 0
    let units := s.unitsHeld l + (if sealed then v else 0)
    let weighted := s.held.any (fun c => !s.fixedUnits c && s.lane c l != 0) || (!sealed && v != 0)
    if 1024 < units || (weighted && units == 1024) then none
    else if sealed then choosePattern l v (s.slotsFree l) else some [])

/-! ### The claim (R58, R628) -/

/-- Check 6: every resource of the plan is in the free pools. -/
def State.planFree (s : State) (ws : List Nat) : Bool :=
  (plSlices ws).all (fun x => s.freeSlices.contains x) && (plInst ws).all s.freeInst && decide (plWalkers ws ≤ s.freeWalkers)
    && decide (plBlk ws 0 ≤ (s.freeOf (·.rangeBlk) 128).length) && decide (plBlk ws 1 ≤ (s.freeOf (·.conBlk) 64).length)
    && decide (plBlk ws 2 ≤ (s.freeOf (·.conjBlk) 128).length) && decide (plBlk ws 3 ≤ (s.freeOf (·.qpBlk) 128).length)
    && decide (plBlk ws 4 ≤ (s.freeOf (·.cqBlk) 128).length) && decide (plBlk ws 5 ≤ (s.freeOf (·.srqBlk) 128).length)
    && decide (plBlk ws 6 ≤ (s.freeOf (·.pdBlk) 128).length) && decide (plBlk ws 7 ≤ (s.freeOf (·.keyBlk) 128).length)
    && (plStreams ws).all (fun x => (s.freeOf (·.streams) 32).contains x)
    && (plGranules ws 8).all (fun x => (s.freeOf (·.t1) 384).contains x) && (plGranules ws 16).all (fun x => s.freeT2.contains x)

/-- The grants of a plan: blocks are the lowest-numbered free ones. -/
def State.planGrants (s : State) (ws : List Nat) (pats : List (List Nat)) : Grants where
  slices := plSlices ws
  walkers := plWalkers ws
  rangeBlk := (s.freeOf (·.rangeBlk) 128).take (plBlk ws 0)
  conBlk := (s.freeOf (·.conBlk) 64).take (plBlk ws 1)
  conjBlk := (s.freeOf (·.conjBlk) 128).take (plBlk ws 2)
  qpBlk := (s.freeOf (·.qpBlk) 128).take (plBlk ws 3)
  cqBlk := (s.freeOf (·.cqBlk) 128).take (plBlk ws 4)
  srqBlk := (s.freeOf (·.srqBlk) 128).take (plBlk ws 5)
  pdBlk := (s.freeOf (·.pdBlk) 128).take (plBlk ws 6)
  keyBlk := (s.freeOf (·.keyBlk) 128).take (plBlk ws 7)
  streams := plStreams ws
  t1 := plGranules ws 8
  t2 := plGranules ws 16
  lanes := plLanes ws
  patterns := pats

/-- The largest demand of a compartment's contracts on a lane. -/
def State.demandOf (s : State) (c l : Nat) : Nat :=
  [s.active c, s.stagedC c].foldl (fun n k => match k with
    | some t => max n (t.lanes.getD l 0)
    | none => n) 0

/-- CONTRACT_FLOOR_LOWERED for every floor that a change from `old` brought below a demand (R70). -/
def State.floorsLowered (s old : State) : State :=
  (tenants.flatMap (fun c => (List.range lanes).map (fun l => (c, l)))).foldl (fun (s : State) (e : Nat × Nat) =>
    let (c, l) := e
    if old.cmpState c != .free && !old.fixedUnits c && decide (s.floor c l < old.floor c l) && decide (s.floor c l < s.demandOf c l) then
      s.post (onCmp c (devInc 0x0104 .degraded l c [old.floor c l, s.floor c l, s.demandOf c l]))
    else s) s

/-- Bind a plan to a compartment. -/
def State.bindPlan (s : State) (c : Nat) (ws : List Nat) (pats : List (List Nat)) : State :=
  let t := s.setGrants c (s.planGrants ws pats)
  let t := (plInst ws).foldl (fun t i => (t.wr .INS_BOUND i 1).wr .INS_CMP i c) t
  let t := ((t.setCmpState c .assigned).wr .CMP_SEALED c (b2n (plSealed ws))).wr .CMP_INTAKE_CLOSED c 0
  ((t.wr .CMP_TAINT_CAUSE c 0).clearBlocks c).refreshAgents.floorsLowered s

/-- Whether a compartment number names a tenant in a state. -/
def State.isTenantIn (s : State) (c : Nat) (st : CmpState) : Bool := decide (1 ≤ c) && decide (c ≤ 31) && s.cmpState c == st

/-- The claim of one ASSIGN at the allocator: checks 1, 5 and 6 against what earlier claims left (R628). -/
def State.claimPlan (s : State) (c : Nat) (ws : List Nat) : Nat × State :=
  if !s.isTenantIn c .free then (St.cmpBadState.code, s)
  else match s.planPatterns ws with
    | none => (St.cmpShareOver.code, s)
    | some pats => if s.planFree ws then (0, s.bindPlan c ws pats) else (St.cmpNoResource.code, s)

/-! ### ASSIGN (R59) -/

/-- Checks 1 to 5 of ASSIGN; an operation that passes them waits for its claim with its plan at hand. -/
def assignWork (o : Op) (s : State) : Op × State :=
  adminGate o s (fun o s =>
    let c := adCmp o.desc
    if !s.isTenantIn c .free then (o.fails St.cmpBadState.code, s)
    else
      let r := s.readRecord o 256
      match r.1 with
      | none => (o.fails St.cmpPlanInvalid.code, r.2)
      | some ws =>
        if !planOk c ws || !planMin ws then (o.fails St.cmpPlanInvalid.code, r.2)
        else if (r.2.planPatterns ws).isNone then (o.fails St.cmpShareOver.code, r.2)
        else ({ o with wait := .engine, buf := [ws] }, r.2))

/-- An operation that waits for its claim at the allocator. -/
def isClaim (o : Op) : Bool := dOpcode o.desc == 0x60 && decide (o.wait = .engine)

/-- The claim of one waiting ASSIGN. -/
def State.claimAssign (s : State) (o : Op) : State :=
  let r := s.claimPlan (adCmp o.desc) (o.buf.headD [])
  r.2.setOp { o with wait := .done, status := r.1, buf := [] }

/-- Start the ASSIGN at the head of each of the listed rings of a function. -/
def State.startAssigns (s : State) (fn : Nat) (rings : List Nat) : State :=
  rings.foldl (fun s r => s.startNext fn r (fun d => dOpcode d == 0x60) assignWork) s

/-- The claims of one cycle in rotating order: of the waiting ASSIGNs by ADMIN ring, and of an enumeration map (65th claimant). -/
def State.claimRound (s : State) (map : Bool) : State :=
  let ops := s.ring.ops.filter isClaim
  let claims := ops.map (·.ring) ++ (if map then [64] else [])
  let a := s.arbitrate .allocator 65 claims
  let t := if 1 < a.1.length then { a.2 with cmp := { a.2.cmp with allocTies := a.2.cmp.allocTies + 1 } } else a.2
  a.1.foldl (fun t r => if r = 64 then t.applyMap else
    match ops.find? (fun o => o.ring == r) with
    | some o => t.claimAssign o
    | none => t) t

/-- ASSIGN on a ring, with the ASSIGNs on other ADMIN rings that reach the allocator in the same cycle (R59, R628). -/
def execAssign (fn ring : Nat) (rivals : List Nat) (s : State) : Out :=
  .next ((s.startAssigns fn (ring :: rivals.filter (fun r => r != ring)).eraseDups).claimRound false)

/-- The map of a finished enumeration is applied as one claim at the allocator, with the ASSIGNs of the same cycle (R384, R625). -/
def execEnumerationMapApply (rings : List Nat) (s : State) : Out :=
  if s.walkEnded then .next ((s.startAssigns s.primaryFn rings.eraseDups).claimRound true) else .next s

/-! ### QUIESCE and REOPEN (R46 to R48) -/

/-- QUIESCE of an ASSIGNED tenant: intake closes (R47). -/
def quiesceWork (o : Op) (s : State) : Op × State :=
  adminGate o s (fun o s =>
    let c := adCmp o.desc
    if !s.isTenantIn c .assigned then (o.fails St.cmpBadState.code, s)
    else s.startLong o 0 c 0 [] [] (fun _ o s => (o, s.wr .CMP_INTAKE_CLOSED c 1)))

/-- REOPEN of a QUIESCED tenant (R46). -/
def reopenWork (o : Op) (s : State) : Op × State :=
  adminGate o s (fun o s =>
    let c := adCmp o.desc
    if !s.isTenantIn c .quiesced then (o.fails St.cmpBadState.code, s)
    else ({ o with wait := .done }, (s.setCmpState c .assigned).wr .CMP_INTAKE_CLOSED c 0))

/-- A REOPEN that a QUIESCE of the same cycle discards. -/
def reopenDiscarded (o : Op) (s : State) : Op × State := adminGate o s (fun o s => (o.fails St.cmpBadState.code, s))

/-- QUIESCE, with a REOPEN of the same compartment on another ring in the same cycle: QUIESCE has the higher rank (R115). -/
def execQuiesce (fn ring : Nat) (rival : Option Nat) (s : State) : Out :=
  let c := match s.nextCand fn ring with
    | some k => adCmp k.desc
    | none => 0
  let isReopen (d : List Nat) : Bool := dOpcode d == 0x62 && adCmp d == c
  let t := s.startNext fn ring (fun d => dOpcode d == 0x61) quiesceWork
  match rival with
  | none => .next t
  | some r =>
    let met := match s.nextCand fn r with
      | some k => r != ring && isReopen k.desc
      | none => false
    if !met then .next t
    else if s.rd .CMP_INTAKE_CLOSED c = 0 && t.rd .CMP_INTAKE_CLOSED c = 1 then
      let t := t.startNext fn r isReopen reopenDiscarded
      .next (t.post (bothInc 0x0003 .notice (some c) 3 c [put 5 0 4 + put 1 4 4, put fn 0 7 + put fn 8 7]))
    else .next (t.startNext fn r isReopen reopenWork)

/-- Nothing that QUIESCE drains is left: every operation of the compartment is complete, but for CALL_LISTs whose started list descriptors
are (R47), and no cache or coherence request of it is open. -/
def State.drained (s : State) (c : Nat) : Bool :=
  (s.ring.ops.filter (fun o => o.cmp == c)).all (fun o => decide (o.wait = .list))
    && s.syc.misses.all (fun m => m.cmp != c) && s.coh.tracks.all (fun t => t.req.cmp != c)

/-- The drain of a QUIESCE completes: the compartment is QUIESCED and its contracts end (R47, R82). -/
def execQuiesceDrainComplete (cmp : Nat) (s : State) : Out :=
  match s.longOf 0x61 cmp with
  | some (i, _) => if s.drained cmp then .next (((s.enterState cmp .quiesced).wr .CMP_INTAKE_CLOSED cmp 1).finLong i 0 0) else .next s
  | none => .next s

/-- REOPEN (R46). -/
def execReopen (fn ring : Nat) (s : State) : Out := .next (s.startNext fn ring (fun d => dOpcode d == 0x62) reopenWork)

/-! ### SCRUB (R50 to R55) -/

/-- The link keys and tier keys of a compartment are destroyed (step 1). -/
def State.destroyKeys (s : State) (c : Nat) : State :=
  { s with sec := { s.sec with
      t1Key := Tab.put s.sec.t1Key c 0
      t2Key := Tab.put s.sec.t2Key c 0
      rot := s.sec.rot.keep (fun k _ => k / 2 != c)
      linkAct := Tab.del s.sec.linkAct c
      linkStg := Tab.del s.sec.linkStg c
      linkPrev := Tab.del s.sec.linkPrev c } }

/-- Fresh tier keys for a compartment (R542); none once the entropy source has failed (R541). -/
def State.freshKeys (s : State) (c : Nat) : State :=
  let k := s.sec.keySerial
  if s.sec.entropyBad then s
  else { s with sec := { s.sec with
      t1Key := Tab.put s.sec.t1Key c k, t2Key := Tab.put s.sec.t2Key c (k + 1), keySerial := k + 2,
      rot := s.sec.rot.keep (fun x _ => x / 2 != c) } }

/-- All translations of a compartment leave the caches and its range entries are cleared (step 2). -/
def State.scrubTranslations (s : State) (c : Nat) : State :=
  let s := s.dropTrans (fun t => t.cmp == c) (fun _ => false)
  let blks := (s.grants c).rangeBlk
  { s with xl := { s.xl with
      ranges := s.xl.ranges.keep (fun i _ => !blks.contains (i / 64))
      walks := s.xl.walks.filter (fun w => w.cmp != c)
      waiting := s.xl.waiting.filter (fun h => h.cmp != c) } }

/-- A slice's tags are emptied, and the snoop filter entries and reservations of its lines with them (step 3). -/
def State.scrubSlices (s : State) (c : Nat) : State :=
  let s := s.scrubCache c
  { s with coh := { s.coh with
      filter := s.coh.filter.keep (fun l _ => !s.inGranules c (128 * l) 1)
      tracks := s.coh.tracks.filter (fun t => t.req.cmp != c) } }

/-- Zero is written, as stored, to every byte of a list of spans of lines: no key reads it as data (steps 4 and 5, R55). -/
def State.zeroLines (s : State) (p : Nat → Bool) : State :=
  { s with mem := { s.mem with
      acc := s.mem.acc.filter (fun e => !p (lineOf e.1))
      lineKey := s.mem.lineKey.keep (fun l _ => !p l)
      poison := s.mem.poison.filter (fun l => !p l)
      t2Poison := s.mem.t2Poison.mapVals (fun _ ls => ls.filter (fun l => !p l)) } }

/-- A line lies in one of the listed tier-one granules. -/
def inT1 (gs : List Nat) (l : Nat) : Bool := decide (128 * l < t1Bytes) && gs.contains (128 * l / 2 ^ 30)

/-- A line lies in one of the listed tier-two granules. -/
def inT2 (gs : List Nat) (l : Nat) : Bool := isT2Line l && gs.contains ((128 * l - t2Base) / 2 ^ 30)

/-- Lines of a granule. -/
def granuleSize : Nat := 8388608

/-- Step 5: ports that are not ACTIVE discard and count the writes (R391). -/
def State.scrubT2 (s : State) (c : Nat) : State :=
  let gs := (s.grants c).t2
  let live := gs.filter (fun g => s.rd .EXP_STATE (g / 512) == 2)
  let dead := gs.filter (fun g => s.rd .EXP_STATE (g / 512) != 2)
  dead.foldl (fun s g => s.bump .EXP_WR_DISCARD (g / 512) granuleSize) (s.zeroLines (inT2 live))

/-- Step 6: the link state of a compartment is cleared: stream binding, routing table, objects and keys of its blocks, messages held. -/
def State.scrubLinks (s : State) (c : Nat) : State :=
  let g := s.grants c
  let s := s.rst [.PLK_CMP_STREAM, .PLK_CMP_STREAM_VALID] [c]
  { s with
    plk := { s.plk with routes := Tab.del s.plk.routes c, rx := Tab.del s.plk.rx c }
    net := { s.net with
      qps := s.net.qps.keep (fun i _ => !g.qpBlk.contains (i / 512))
      cqs := s.net.cqs.keep (fun i _ => !g.cqBlk.contains (i / 128))
      srqs := s.net.srqs.keep (fun i _ => !g.srqBlk.contains (i / 32))
      pds := s.net.pds.keep (fun i _ => !g.pdBlk.contains (i / 32))
      keys := s.net.keys.keep (fun i _ => !g.keyBlk.contains (i / 2048))
      allot := Tab.del s.net.allot c }
    sec := { s.sec with used := s.sec.used.filter (fun q => !g.qpBlk.contains (q / 512)) } }

/-- The action of a SCRUB step (table "SCRUB steps"). -/
def State.scrubAction (s : State) (c step : Nat) : State :=
  match step with
  | 1 => s.destroyKeys c
  | 2 => s.scrubTranslations c
  | 3 => s.scrubSlices c
  | 4 => s.zeroLines (inT1 (s.grants c).t1)
  | 5 => s.scrubT2 c
  | 6 => s.scrubLinks c
  | 7 => s.freshKeys c
  | _ => s

/-- SCRUB of a QUIESCED or TAINTED tenant: SCRUBBING first, then step 1 (R51). -/
def scrubWork (o : Op) (s : State) : Op × State :=
  adminGate o s (fun o s =>
    let c := adCmp o.desc
    if !(s.isTenantIn c .quiesced || s.isTenantIn c .tainted) then (o.fails St.cmpBadState.code, s)
    else
      let g := s.grants c
      s.startLong o 0 c (granuleSize * (g.t1.length + g.t2.length)) [] [] (fun _ o s =>
        (o, ((((s.enterState c .scrubbing).wr .CMP_INTAKE_CLOSED c 0).wr .CMP_SCRUB_STEP c 0).scrubAction c 1))))

/-- SCRUB (R50, R51). -/
def execScrub (fn ring : Nat) (s : State) : Out := .next (s.startNext fn ring (fun d => dOpcode d == 0x63) scrubWork)

/-- The functions of a compartment that becomes FREE lose what is left of their work. -/
def State.releaseFunctions (s : State) (c : Nat) : State :=
  (s.instancesOf c).foldl (fun s i => ((s.squash i).clearFunction i).clearMailbox i) s

/-- Lines written once a step has completed. -/
def State.scrubLines (s : State) (c step : Nat) : Nat :=
  let g := s.grants c
  granuleSize * ((if 4 ≤ step then g.t1.length else 0)
    + (if 5 ≤ step then (g.t2.filter (fun x => s.rd .EXP_STATE (x / 512) == 2)).length else 0))

/-- Every line count of step 8 matches. -/
def LongOp.counted (l : LongOp) : Bool := l.done == l.total

/-- A SCRUB step meets its completion condition: the next step starts; step 8 frees the compartment, or taints it where the self-verify
fails (R50, R52). -/
def execScrubStepComplete (cmp : Nat) (verified : Bool) (s : State) : Out :=
  match s.longOf 0x63 cmp with
  | none => .next s
  | some (i, l) =>
    let step := s.rd .CMP_SCRUB_STEP cmp + 1
    if l.state != 1 || s.cmpState cmp != .scrubbing then .next s
    else if step < 8 then
      let done := if step = 4 then s.scrubLines cmp 4 else if step = 5 then s.scrubLines cmp 5 else l.done
      .next (((s.setLong i { l with done := done, detail := step }).wr .CMP_SCRUB_STEP cmp step).scrubAction cmp (step + 1))
    else if verified && l.counted then
      .next ((((s.setLong i { l with detail := 8 }).releaseFunctions cmp).freeCompartment cmp).finLong i 0 0)
    else .next ((s.taint cmp 4).finLong i LSt.scrubVerifyFailed.code 0)

end Sys2Proof.Machine
end

