-- ==== Sys2Proof/Machine/Frames.lean ====
section
/-! DEFINITION. Contracts that become ACTIVE (R82, R158, R458) and frame boundaries (R585 to R589, R89, R260). -/
namespace Sys2Proof.Machine

open Sys2Proof

/-! ### Activation -/

/-- Functions whose compartment is `c`. -/
def State.functionsOf (s : State) (c : Nat) : List Nat := (List.range 128).filter (fun fn => decide (s.fnCmp fn = some c))

/-- The upper timeouts of a compartment are clamped again: rings that exist, queue pairs in RTS (R158, R458). -/
def State.reclamp (s : State) (c : Nat) : State :=
  let s := (s.functionsOf c).foldl (fun s fn => (List.range 64).foldl (fun s n =>
    if s.ringState fn n = .disabled then s else s.clampTimeout 3 fn n) s) s
  (s.net.qps.filter (fun e => e.2.cmp == c && e.2.state == 3)).foldl (fun s e => s.clampQp 3 e.2.owner e.1 e.2) s

/-- A STAGED contract becomes ACTIVE and replaces the ACTIVE one. -/
def State.activate (s : State) (c : Nat) (t : Contract) : State :=
  let s := s.unpin c (preOf (s.active c)) t.preload
  let s := { s with cmp := { s.cmp with active := Tab.put s.cmp.active c t, staged := Tab.del s.cmp.staged c } }
  (s.wr .CMP_CTR_BREACH_TOTAL c 0).reclamp c

/-- The beat of a STAGED contract's epoch is reached (R82). -/
def execContractActivate (cmp : Nat) (s : State) : Out :=
  match s.stagedC cmp with
  | some t => if t.epoch ≤ s.beat then .next (s.activate cmp t) else .next s
  | none => .next s

/-! ### Frames -/

/-- The frame length in force. -/
def State.frameK (s : State) : Nat := s.rd .STAT_FRAME_K_ACTIVE 0

/-- The frame number of a beat under a frame length. -/
def frameNo (k beat : Nat) : Nat := beat / 2 ^ k

/-- A boundary has been reached since the last one. -/
def State.atBoundary (s : State) : Bool := frameNo s.frameK s.beat != frameNo s.frameK s.pwr.frameBeat

/-- The frame length after the boundary (R585). -/
def State.nextK (s : State) : Nat :=
  let k := s.rd .STAT_FRAME_K 0
  let m := max s.frameK k
  if frameNo m s.beat != frameNo m s.pwr.frameBeat then k else s.frameK

/-- Frame counters copy to their shadows and restart from zero (R586). -/
def State.latchFrame (s : State) : State :=
  let s := (List.range 512).foldl (fun s i => (s.wr .STAT_F_SHADOW i (s.rd .STAT_F_LIVE i)).wr .STAT_F_LIVE i 0) s
  (s.wr .STAT_SHADOW_FRAME 0 (frameNo s.frameK s.pwr.frameBeat)).wr .STAT_SHADOW_K 0 s.frameK

/-- BREACH_SUPPRESSED and FAULTS_SUPPRESSED of one compartment (R89, R260). -/
def State.postSuppressed (s : State) (c frame : Nat) : State :=
  let n := s.cmp.suppressed.get 0 c
  let m := s.inc.frame.get 0 (faultLostKey c)
  let s := if n = 0 then s else s.post (cmpInc 0x0103 .degraded c 0 0 [n, frame])
  if m = 0 then s else s.post (cmpInc 0x0602 .notice c 0 0 [m])

/-- The per-frame counts of incident limits begin again. -/
def State.newLimits (s : State) : State :=
  let s := s.rst [.CMP_CTR_BREACH_FRAME, .CMP_CTR_SUPPRESSING, .TRN_FAULT_FRAME] compartments
  { s with inc := { s.inc with frame := [] }, cmp := { s.cmp with suppressed := [] } }

/-- A frame boundary: one latch, the new frame length, the summaries, and new limits (R585 to R589). -/
def execFrameBoundary (s : State) : Out :=
  if !s.atBoundary then .next s
  else
    let frame := frameNo s.frameK s.pwr.frameBeat
    let k := s.nextK
    let t := compartments.foldl (fun t c => t.postSuppressed c frame) s.latchFrame
    let t := t.newLimits.wr .STAT_FRAME_K_ACTIVE 0 k
    .next { t with pwr := { t.pwr with frameBeat := s.beat } }

end Sys2Proof.Machine
end

