-- ==== Sys2Proof/Machine/Incidents.lean ====
section
/-! DEFINITION. The incident rings (chapter 18): writing a queued record into its ring, losses, ring errors, the effects that wait for the
device ring, and the clearing of INC_DEVICE_PENDING. -/
namespace Sys2Proof.Machine

open Sys2Proof

/-! ### The rings, numbered: 0 the device ring, 1 + c the ring of compartment c (R499) -/

/-- Records of a ring. -/
def incSize (ring : Nat) : Nat := if ring = 0 then 4096 else 1024

/-- A field of a ring: its device form and its compartment form. -/
def State.incRd (s : State) (dev cmp : Fld) (ring : Nat) : Nat := if ring = 0 then s.rd dev 0 else s.rd cmp (ring - 1)

/-- Write a field of a ring. -/
def State.incWr (s : State) (dev cmp : Fld) (ring v : Nat) : State := if ring = 0 then s.wr dev 0 v else s.wr cmp (ring - 1) v

/-- The posting queue of a ring. -/
def State.incQ (s : State) (ring : Nat) : List Incident := if ring = 0 then s.inc.devQ else s.inc.cmpQ.get [] (ring - 1)

/-- Replace the posting queue of a ring. -/
def State.setIncQ (s : State) (ring : Nat) (q : List Incident) : State :=
  if ring = 0 then { s with inc := { s.inc with devQ := q } }
  else { s with inc := { s.inc with cmpQ := Tab.set s.inc.cmpQ [] (ring - 1) q } }

/-- The ring runs and has room (R500, R501). -/
def State.incRoom (s : State) (ring : Nat) : Bool :=
  s.incRd .INC_DRING_STATE .INC_CRING_STATE ring == 1
    && decide (diff32 (s.incRd .INC_DRING_PROD .INC_CRING_PROD ring) (s.incRd .INC_DRING_CONS .INC_CRING_CONS ring) < incSize ring)

/-! ### The record (R493, R495) -/

/-- Word 0 of a record written at a producer count: the phase is that of R123. -/
def Incident.header (r : Incident) (ring prod : Nat) : Nat :=
  put r.code 0 16 + put r.severity 16 2 + put (1 - prod / incSize ring % 2) 18 1 + put (b2n r.both) 19 1
    + put (r.cmp.getD 0) 20 5 + put (b2n r.cmp.isSome) 25 1 + put r.seq 32 32

/-- The eight words of a record. -/
def Incident.words (r : Incident) (ring prod : Nat) : List Nat :=
  r.header ring prod :: (List.range 7).map (fun i => word r.payload i % 2 ^ 64)

/-! ### Losses (R501) -/

/-- Records lost at a ring, by severity. -/
def State.lostAt (s : State) (ring : Nat) : List Nat := (List.range 4).map (fun v => s.incRd (lostDev v) (lostCmp v) ring)

/-- The highest severity lost. -/
def topLost (ls : List Nat) : Nat := (List.range 4).foldl (fun m v => if ls.getD v 0 = 0 then m else v) 0

/-- Once the posting queue has room, one INCIDENTS_LOST record carries the counts so far, and they are cleared. -/
def State.reportLost (s : State) (ring : Nat) : State :=
  let ls := s.lostAt ring
  if ls.all (fun n => n == 0) then s
  else
    let seq := s.rd .INC_SEQ_NEXT 0
    let top := topLost ls
    let arg := put (ls.getD 0 0) 0 16 + put (ls.getD 1 0) 16 16 + put (ls.getD 2 0) 32 16 + put (ls.getD 3 0) 48 16
    let r : Incident := ⟨0x0D01, top, false, if ring = 0 then none else some (ring - 1), seq, [0, arg, 0, 0, 0, 0, s.beat]⟩
    let s := s.wr .INC_SEQ_NEXT 0 (seqAfter seq)
    let s := (List.range 4).foldl (fun s v => s.incWr (lostDev v) (lostCmp v) ring 0) s
    let s := s.setIncQ ring (s.incQ ring ++ [r])
    if top = 3 then s.wr .INC_DEVICE_PENDING 0 1 else s

/-! ### Writing a record -/

/-- The record is in memory: the producer count advances, the queue moves up, and the event source of the ring is raised. -/
def State.incWritten (s : State) (ring : Nat) : State :=
  let s := s.incWr .INC_DRING_PROD .INC_CRING_PROD ring ((s.incRd .INC_DRING_PROD .INC_CRING_PROD ring + 1) % 2 ^ 32)
  let s := s.setIncQ ring ((s.incQ ring).drop 1)
  (s.occur (if ring = 0 then 1 else 0xE0 + (ring - 1))).reportLost ring

/-- A record write faults or returns poison: ERROR; INCIDENT_RING_FAULT for a compartment ring, INC_DEVICE_PENDING for the device ring
(R502). -/
def State.incError (s : State) (ring : Nat) (poison : Bool) : State :=
  let s := s.incWr .INC_DRING_STATE .INC_CRING_STATE ring 2
  if ring = 0 then s.wr .INC_DEVICE_PENDING 0 1 else s.post (onCmp (ring - 1) (devInc 0x0D03 .degraded 0 (ring - 1) [b2n poison]))

/-- Store the record at the front of the queue in its slot of the ring: accelerator memory of the ring's compartment, or host memory of the
primary port (R499). -/
def State.incStore (s : State) (ring : Nat) (r : Incident) : State :=
  let prod := s.incRd .INC_DRING_PROD .INC_CRING_PROD ring
  let addr := s.incRd .INC_DRING_BASE .INC_CRING_BASE ring + 64 * (prod % incSize ring)
  let bs := bytesOf (r.words ring prod)
  let c := ring - 1
  if s.incRd .INC_DRING_LOC .INC_CRING_LOC ring = 1 then s.hostWrite s.pins.primary addr bs
  else ((s.clearCopies c addr 64).touch c false false true addr 64).cmpWrite c addr bs

/-- The incident unit writes the next record of a ring: 0 the device ring, 1 + c the ring of compartment c (R501, R502). -/
def execIncidentRecordWrite (ring : Nat) (outcome : Outcome3) (s : State) : Out :=
  if 33 ≤ ring || !s.incRoom ring then .next s
  else match s.incQ ring with
  | [] => .next s
  | r :: _ =>
    match outcome with
    | .ok => .next ((s.incStore ring r).incWritten ring)
    | .fault => .next (s.incError ring false)
    | .poison => .next (s.incError ring true)

/-- A write of 1 to INC_DEVICE_PENDING: only by the primary manager function (R503). -/
def execDevicePendingClear (fn : Nat) (s : State) : Out :=
  if s.barsBlocked fn || !isMgr fn then .next s
  else if fn != s.primaryFn then .next (s.foreignOrder fn 0xD00024 0)
  else .next (s.wr .INC_DEVICE_PENDING 0 0)

end Sys2Proof.Machine
end

