-- ==== Sys2Proof/Machine/Roll.lean ====
section
/-! DEFINITION. Time distribution over the peer links (R420 to R422) and roll call (R424 to R428). -/
namespace Sys2Proof.Machine

open Sys2Proof

/-! ### Time -/

/-- The offset θ of an exchange in units of 1/256 beat (R421). -/
def theta (b : TimeBody) (asym : Int) : Int :=
  (((b.rxLast : Int) - b.rxEcho) - ((b.recv : Int) - b.tx)) / 2 - asym

/-- The one-way delay of an exchange (R421). -/
def flight (b : TimeBody) : Int := (((b.recv : Int) - b.rxEcho) - ((b.tx : Int) - b.rxLast)) / 2

/-- Step the BEAT counter by an offset: forward at once; backward by holding its value until domain time reaches it (R71, R72). -/
def State.stepBeat (s : State) (th : Int) : State :=
  let d := (th + 128) / 256
  if 0 ≤ d then s.wr .PWR_BEAT 0 (s.beat + d.toNat)
  else { s with plk := { s.plk with time := { s.plk.time with hold := s.plk.time.hold + (-d).toNat } } }

/-- The parent may be followed: it is locked, names the configured root and its depth is at most 7 (R422). -/
def State.parentGood (s : State) (b : TimeBody) : Bool := b.locked && b.rootId == s.rd .PLK_TIME_ROOT_ID 0 && decide (b.depth ≤ 7)

/-- An exchange with the parent (R422). -/
def State.exchange (s : State) (b : TimeBody) (th : Int) : State :=
  let t := s.plk.time
  let set (s : State) (t : TimeSt) : State := { s with plk := { s.plk with time := t } }
  if s.rd .PWR_BEAT_LOCKED 0 = 1 then
    if !s.parentGood b then s.loseLock
    else
      let bad := if 51 < th.natAbs then t.bad + 1 else 0
      if 4 ≤ bad then s.loseLock else set s { t with bad := bad, last := s.beat }
  else if !s.parentGood b then set s (TimeSt.start t.hold)
  else if !t.stepped then
    if 4 ≤ t.seen + 1 then
      let u := s.stepBeat th
      set u { u.plk.time with seen := t.seen + 1, stepped := true, last := u.beat }
    else set s { t with seen := t.seen + 1, last := s.beat }
  else
    let good := if th.natAbs ≤ 25 then t.good + 1 else 0
    let s := set s { t with seen := t.seen + 1, good := good, last := s.beat, bad := 0 }
    if 16 ≤ good then (s.wr .PLK_TIME_DEPTH 0 (b.depth + 1)).wr .PWR_BEAT_LOCKED 0 1 else s

/-- A TIME flit is received: the neighbour's ID and the times of the exchange; at the time parent's link the offset (R420 to R422). -/
def execTimeFlitReceive (link : Nat) (replayed : Bool) (body : TimeBody) (s : State) : Out :=
  if !s.linkIs link .up || replayed then .next s
  else
    let s := (s.setLnk link { s.lnk link with rxTime := body.recv, rxEcho := body.tx }).wr .PLK_NBR_ID link body.selfId
    if !s.isParent link then .next s
    else
      let th := theta body (toSigned 16 (s.rd .PLK_TIME_ASYM link))
      let s := (s.wr .PLK_TIME_OFFSET 0 (ofSigned 16 th)).wr .PLK_FLIGHT link (ofSigned 16 (flight body))
      .next (s.exchange body th)

/-- 8 cadence frames (10,485.76 beats) without an exchange clear the lock (R422). -/
def execTimeExchangeTimeout (s : State) : Out :=
  if s.rd .PWR_BEAT_LOCKED 0 = 1 && s.rd .PLK_TIME_ROOT 0 == 0 && decide (8 * 1024 * 32 ≤ (s.beat - s.plk.time.last) * 25) then .next s.loseLock
  else .next s

/-! ### Roll call -/

/-- What this junction answers of one of its links: events after `since` and, in the closing pass, before `stop`. -/
def State.linkSeen (s : State) (since : Nat) (stop : Option Nat) (l : Nat) : LinkSeen :=
  let within (b : Nat) : Bool := decide (since < b) && (match stop with
    | some e => decide (b < e)
    | none => true)
  { link := l, up := s.linkIs l .up, serial := s.rd .PLK_NBR_SERIAL l, far := s.rd .PLK_NBR_LINK l,
    down := within (s.rd .PLK_LAST_DOWN l), rose := within (s.rd .PLK_LAST_UP l) }

/-- The answer of this junction (R424, R425). -/
def State.rollAnswer (s : State) (since : Nat) (stop : Option Nat) : List LinkSeen := (List.range 12).map (s.linkSeen since stop)

/-- The outcome a link takes from one answer: 0 not recorded, 1 UP, 2 WITHDRAWN, 3 ARRIVED_LATE (R426). -/
def seenOutcome (x : LinkSeen) : Nat := if x.down then 2 else if x.rose then 3 else if x.up then 1 else 0

/-- The outcome of a link from both ends. -/
def joinOutcome (a b : Nat) : Nat := if a = 2 || b = 2 then 2 else if a = 3 || b = 3 then 3 else a

/-- The serial of a junction of the map. -/
def Roll.serialOf (r : Roll) (j : Nat) : Nat := match r.js[j]? with
  | some x => x.serial
  | none => 0

/-- A record is of the link that junction `j` reports. -/
def Roll.same (r : Roll) (j : Nat) (x : LinkSeen) (l : RollL) : Bool :=
  (l.ja == j && l.la == x.link) || (r.serialOf l.ja == x.serial && l.la == x.far && l.serial == r.serialOf j && l.lb == x.link)

/-- Record a link with its outcome, each link once. -/
def Roll.record (r : Roll) (j : Nat) (x : LinkSeen) (out : Nat) : Roll :=
  if r.ls.any (r.same j x) then
    { r with ls := r.ls.map (fun (l : RollL) => if r.same j x l then { l with outcome := joinOutcome l.outcome out } else l) }
  else
    let jb := (r.js.findIdx? (fun y => y.serial == x.serial))
    { r with ls := r.ls ++ [⟨j, x.link, jb, x.far, out, x.serial⟩] }

/-- The outcome recorded for a link that junction `j` reports. -/
def Roll.outcomeOf (r : Roll) (j : Nat) (x : LinkSeen) : Nat := match r.ls.find? (r.same j x) with
  | some l => l.outcome
  | none => 0

/-- One link of an answer in the walk: recorded, and its far junction added when it is UP and new (R425). -/
def Roll.walkLink (j : Nat) (r : Roll) (x : LinkSeen) : Roll :=
  let out := seenOutcome x
  if out = 0 then r
  else
    let r := r.record j x out
    if r.outcomeOf j x != 1 || r.js.any (fun y => y.serial == x.serial) then r
    else match r.js[j]? with
      | none => r
      | some me =>
        if 256 ≤ r.js.length || me.hops == r.limit then { r with cut := true }
        else
          let k := r.js.length
          { r with
            js := r.js ++ [⟨x.serial, 0, me.hops + 1, me.path + x.link * 16 ^ me.hops, true⟩]
            queue := r.queue ++ [k]
            ls := r.ls.map (fun (l : RollL) => if l.serial == x.serial && l.jb.isNone then { l with jb := some k } else l) }

/-- One link of an answer in the closing pass: its outcome is updated (R425). -/
def Roll.closeLink (j : Nat) (r : Roll) (x : LinkSeen) : Roll :=
  let out := if x.down then 2 else if x.rose then 3 else 0
  if out = 0 then r else r.record j x out

/-- Take an answer of the junction that is awaited. -/
def Roll.take (r : Roll) (j jid : Nat) (xs : List LinkSeen) : Roll :=
  let r := { r with queue := r.queue.drop 1, js := r.js.zipIdx.map (fun e => if e.2 == j then { e.1 with jid := jid } else e.1) }
  if r.closing then xs.foldl (Roll.closeLink j) r else xs.foldl (Roll.walkLink j) r

/-- The status of a map (R427). -/
def Roll.status (r : Roll) : Nat :=
  if r.cut then 4 else if r.ls.any (fun l => l.outcome == 2) || r.js.any (fun j => !j.reached) then 2 else 1

/-- The words of a roll call map and where they lie from the buffer up (tables "Roll call map header" and following). -/
def Roll.map (r : Roll) (status : Nat) : List (Nat × List Nat) :=
  [(0, [put status 0 3 + put r.js.length 16 9 + put r.ls.length 32 11, r.start, r.stop, put r.limit 0 5, 0, 0, 0, 0]),
   (64, r.js.flatMap (fun j => [j.serial, put j.jid 0 8 + put j.hops 8 5 + put (b2n j.reached) 16 1, j.path % 2 ^ 64, 0])),
   (8256, r.ls.flatMap (fun l => [put l.ja 0 8 + put l.la 8 4 + put (l.jb.getD 0) 16 8 + put l.lb 24 4 + put l.outcome 28 3 + put (b2n l.jb.isSome) 31 1,
     l.serial]))]

/-- Write bytes at a house address in accelerator memory through client port 0x08; `false` on a fault. -/
def State.adminWrite (s : State) (va : Nat) (bs : List Byte) : Bool × State :=
  let r := s.mapSpan 0x08 0 false .write (spanFuel bs.length) va bs.length
  match r.2.1 with
  | some _ => (false, r.2.2.2)
  | none =>
    if r.1.any (fun p => p.target != 0) then (false, r.2.2.2) else (true, r.2.2.2.piecesWrite 0 false r.1 bs)

/-- The walk ends: the map is written with its status, and ROLL_CALL can complete (R427). -/
def State.rollFinish (s : State) (r : Roll) (status opStatus : Nat) : State :=
  let s := { s with plk := { s.plk with roll := none } }
  let s := (((s.wr .PLK_ROLL_STATUS 0 status).wr .PLK_ROLL_BUSY 0 0).wr .PLK_ROLL_START 0 r.start).wr .PLK_ROLL_END 0 r.stop
  match (s.longAt r.slot).bind (fun l => l.op.bind s.findOp) with
  | none => s
  | some o =>
    let w := (r.map status).foldl (fun (a : Bool × State) e =>
      if a.1 && !e.2.isEmpty then a.2.adminWrite (adPtr o.desc + e.1) (bytesOf e.2) else a) (true, s)
    w.2.finLong r.slot (if w.1 then opStatus else LSt.range.code) 0

/-- Send the query that is awaited next, or turn to the closing pass, or finish. -/
def State.rollGo (s : State) (r : Roll) : State :=
  let ask (s : State) (r : Roll) : State :=
    match r.queue with
    | j :: _ =>
      let (path, hops) := match r.js[j]? with
        | some x => (x.path, x.hops)
        | none => (0, 0)
      ({ s with plk := { s.plk with roll := some r } }).emit .control [1, j, path, hops, r.start, b2n r.closing, r.stop]
    | [] => s.rollFinish r r.status 0
  match r.queue with
  | _ :: _ => ask s r
  | [] =>
    if r.closing then s.rollFinish r r.status 0
    else
      let js := (List.range r.js.length).filter (fun j => match r.js[j]? with
        | some x => x.reached
        | none => false)
      let c := { r with stop := s.beat, closing := true, queue := js }
      let c := c.take 0 (s.rd .PLK_JUNCTION_ID 0) (s.rollAnswer r.start (some s.beat))
      ask s c

/-- The work of ROLL_CALL: this junction is the first of the map, and its own links are read at once (R425). -/
def rollWork (o : Op) (s : State) : Op × State :=
  adminGate o s (fun o s => s.startLong o 0 0 0 [] [] (fun i o s =>
    let limit := bits (adArg0 o.desc) 0 5
    if limit = 0 || decide (16 < limit) || adPtr o.desc % 64 != 0 then (o, s.finLong i LSt.range.code 0)
    else
      let r : Roll := { slot := i, limit := limit, start := s.beat, stop := 0, ls := [], queue := [0], closing := false, cut := false,
                        js := [⟨s.rd .HST_SERIAL 0, s.rd .PLK_JUNCTION_ID 0, 0, 0, true⟩] }
      let s := (s.wr .PLK_ROLL_BUSY 0 1).wr .PLK_ROLL_START 0 s.beat
      let r := r.take 0 (s.rd .PLK_JUNCTION_ID 0) (s.rollAnswer r.start none)
      (o, { s with plk := { s.plk with roll := some r } })))

/-- ROLL_CALL.  The first query goes out once the operation stands in its ring. -/
def execRollCall (fn ring : Nat) (s : State) : Out :=
  let t := s.startNext fn ring (fun d => dOpcode d == 0x69) rollWork
  match s.plk.roll, t.plk.roll with
  | none, some r => .next (t.rollGo r)
  | _, _ => .next t

/-- A query of another junction's roll call arrives: this junction answers from its own link state (R424). -/
def execRollQueryReceive (link since : Nat) (stop : Option Nat) (s : State) : Out :=
  if !s.linkIs link .up then .next s
  else .next (s.emit .control ([2, link, s.rd .PLK_JUNCTION_ID 0, s.rd .HST_SERIAL 0] ++
    (s.rollAnswer since stop).flatMap (fun x => [x.link, b2n x.up, x.serial, x.far, b2n x.down, b2n x.rose])))

/-- The answer of the junction that is awaited arrives (R425, R426). -/
def execRollAnswerReceive (junction jid : Nat) (links : List LinkSeen) (s : State) : Out :=
  match s.plk.roll with
  | none => .next s
  | some r => if r.queue.head? = some junction then .next (s.rollGo (r.take junction jid links)) else .next s

/-- The junction that is awaited does not answer within PLK_ROLL_TIMEOUT: UNREACHED (R425). -/
def execRollQueryTimeout (junction : Nat) (s : State) : Out :=
  match s.plk.roll with
  | none => .next s
  | some r =>
    if r.queue.head? = some junction then
      .next (s.rollGo { r with queue := r.queue.drop 1, js := r.js.zipIdx.map (fun e => if e.2 == junction then { e.1 with reached := false } else e.1) })
    else .next s

end Sys2Proof.Machine
end

