-- ==== Sys2Proof/Machine/Walks.lean ====
section
/-! DEFINITION. Walks (R255 to R258, R265), manager invalidation (R267) and range table loads (R242 to R244). -/
namespace Sys2Proof.Machine

open Sys2Proof

/-! ### Walkers (R34, R41, R256) -/

/-- Walkers that run now for a compartment: its own, and from the overflow pool. -/
def State.walkersBusy (s : State) (c : Nat) (ovf : Bool) : Nat :=
  (s.xl.walks.filter (fun w => w.cmp == c && !w.queued && w.overflow == ovf)).length

/-- Overflow walkers that run now. -/
def State.overflowBusy (s : State) : Nat := (s.xl.walks.filter (fun w => !w.queued && w.overflow)).length

/-- The walker a request of a compartment can take: its own (`some false`), one of the overflow pool, or none. -/
def State.freeWalker (s : State) (c : Nat) : Option Bool :=
  if s.walkersBusy c false < (s.grants c).walkers then some false
  else if !s.fixedUnits c && decide (s.overflowBusy < s.freeWalkers) then some true
  else none

/-- What an access code asks for. -/
def needOf (a : Nat) : Need :=
  match a with
  | 1 => .write | 2 => .atomic | 3 => .fetch | _ => .read

/-- Replace a walk. -/
def State.setWalk (s : State) (w : Walk) : State :=
  { s with xl := { s.xl with walks := s.xl.walks.map (fun (x : Walk) => if x.id == w.id then w else x) } }

/-- Remove a walk. -/
def State.dropWalk (s : State) (id : Nat) : State :=
  { s with xl := { s.xl with walks := s.xl.walks.filter (fun (x : Walk) => x.id != id) } }

/-- One request receives the translation a walk found: its port cache is filled and its right is checked; `f` is the fault record of a
missing right (R255, R257). -/
def State.giveTrans (s : State) (w : Walk) (t : Trans) (f : Flt) (q : WalkReq) : State :=
  let s := s.fillRange q.port t
  if t.allows (needOf q.access) then s
  else s.postFault w.cmp w.indic { f with va := q.va, need := needOf q.access } q.port 0x7F q.stream 0 none

/-- The result of a walk reaches every request it serves: a fault is posted once a request (R259). -/
def State.walkResult (s : State) (w : Walk) (r : Except Flt (Trans × Flt)) : State :=
  match r with
  | .ok (t, f) => w.reqs.foldl (fun s q => s.giveTrans w t f q) (s.dropWalk w.id)
  | .error f => w.reqs.foldl (fun s q =>
      s.postFault w.cmp w.indic { f with va := q.va, need := needOf q.access } q.port 0x7F q.stream 0 none) (s.dropWalk w.id)

/-- A walker searches the range entries, and reads the first page table entry where none maps the address (R255). -/
def State.walkBegin (s : State) (w : Walk) : State :=
  let need := needOf w.access
  let root := s.rd .TRN_ROOT w.cmp
  match s.rangeWalk w.cmp w.va w.indic need with
  | some r => (s.bump .TRN_ST_RANGE_HITS w.cmp 1).walkResult w r
  | none =>
    if w.indic then s.walkResult w (.error { reason := 6, va := w.va, need := need })
    else if s.rd .TRN_ROOT_VALID w.cmp = 0 then s.walkResult w (.error { reason := 8, va := w.va, need := need })
    else
      let e := root + 8 * ptIndex w.va 4
      if s.ownsExtent w.cmp root 4096 then s.setWalk { w with level := 4, entry := e, restart := false }
      else s.walkResult w (.error { reason := 5, va := w.va, need := need, level := 4, addr := e })

/-- Requests in the walk queue of a compartment. -/
def State.walksQueued (s : State) (c : Nat) : Nat := (s.xl.walks.filter (fun w => w.cmp == c && w.queued)).length

/-- The request that a free walker takes next: the oldest indicative one, else the oldest (R256). -/
def State.nextQueued (s : State) (c : Nat) : Option Walk :=
  let q := s.xl.walks.filter (fun (w : Walk) => w.cmp == c && w.queued)
  match q.find? (fun w => w.indic) with
  | some w => some w
  | none => q.head?

/-- Free walkers of a compartment take waiting requests, until no walker is free or none waits. -/
def State.serveQueue (s : State) (c : Nat) : Nat → State
  | 0 => s
  | n + 1 =>
    match s.freeWalker c, s.nextQueued c with
    | some ovf, some w =>
      let w := { w with queued := false, overflow := ovf }
      let s := (s.setWalk w).bump .TRN_ST_WALKS c 1
      let s := if ovf then s.bump .TRN_ST_OVERFLOW c 1 else s
      (s.walkBegin w).serveQueue c n
    | _, _ => s

/-- A request uses a cached translation: a missing right faults (R246, R259). -/
def State.useTrans (s : State) (c : Nat) (indic : Bool) (t : Trans) (r : WalkReq) : State :=
  match s.rightCheck t r.va (needOf r.access) with
  | .ok _ => s
  | .error f => s.postFault c indic f r.port 0x7F r.stream 0 none

/-- A request hits its port cache with a translation it may use. -/
def State.walkHit (s : State) (port cmp va : Nat) (indic : Bool) : Option Trans :=
  (s.portHit port cmp va).filter (fun t => !indic || t.pinInd)

/-- A port miss is counted; of an indicative request it is a breach. -/
def State.walkMiss (s : State) (cmp stream va : Nat) (indic : Bool) : State :=
  let s := s.bump .TRN_ST_PORT_MISS cmp 1
  if indic then s.breach cmp .translationLate { engine := 0xFF, ring := stream, address := va } else s

/-- A request looks in its port cache and, when subjunctive, in the shared cache (R255); true when one served it. -/
def State.walkLookup (s : State) (c : Nat) (indic : Bool) (r : WalkReq) : Bool × State :=
  match s.walkHit r.port c r.va indic with
  | some t => (true, (s.portUse r.port t).useTrans c indic t r)
  | none =>
    let s := s.walkMiss c r.stream r.va indic
    match (if indic then none else s.sharedHit c r.va) with
    | some t => (true, (s.fillPort r.port t).useTrans c indic t r)
    | none => (false, s)

/-- The walk in progress that a request joins: of its page and mood, serving fewer than 16 (R257). -/
def State.walkToJoin (s : State) (c va : Nat) (indic : Bool) : Option Walk :=
  s.xl.walks.find? (fun (w : Walk) => !w.queued && w.cmp == c && w.va / 4096 == va / 4096 && w.indic == indic && decide (w.reqs.length < 16))

/-- A request that has missed joins a walk, enters the walk queue of its compartment, or is held at its port by a full one (R256 to
R258). -/
def State.walkQueue (s : State) (c : Nat) (indic : Bool) (r : WalkReq) : State :=
  match s.walkToJoin c r.va indic with
  | some w => (s.setWalk { w with reqs := w.reqs ++ [r] }).bump .TRN_ST_MERGED c 1
  | none =>
    if 64 ≤ s.walksQueued c then { s with xl := { s.xl with waiting := s.xl.waiting ++ [⟨c, indic, true, r⟩] } }
    else
      let w : Walk := ⟨s.xl.serial, c, r.va, indic, r.access, [r], true, false, 0, 0, false⟩
      let s := { s with xl := { s.xl with walks := s.xl.walks ++ [w], serial := s.xl.serial + 1 } }
      s.serveQueue c (s.walksQueued c)

/-- The oldest request of a compartment that a port need not hold any longer: the first one held at its port, once the walk queue has
room, or at once where it has not been looked up yet (R258). -/
def State.heldReady (s : State) (c : Nat) : Option HeldReq :=
  s.xl.waiting.find? (fun h => h.cmp == c && s.xl.waiting.find? (fun x => x.cmp == c && x.req.port == h.req.port) == some h
    && (!h.missed || decide (s.walksQueued c < 64)))

/-- Let held requests of a compartment go on, oldest first. -/
def State.serveHeld (s : State) (c : Nat) : Nat → State
  | 0 => s
  | n + 1 =>
    match s.heldReady c with
    | none => s
    | some h =>
      let out (s : State) (l : List HeldReq) : State := { s with xl := { s.xl with waiting := l } }
      if h.missed then ((out s (s.xl.waiting.erase h)).walkQueue c h.indic h.req).serveHeld c n
      else
        let x := s.walkLookup c h.indic h.req
        let l := if x.1 then x.2.xl.waiting.erase h else x.2.xl.waiting.replace h { h with missed := true }
        (out x.2 l).serveHeld c n

/-- Free walkers take waiting requests, and those held at the ports take the queue places that free; requests of other SHARED
compartments may take a freed overflow walker. -/
def State.serveWalks (s : State) : State :=
  compartments.foldl (fun s c => (s.serveQueue c (s.walksQueued c)).serveHeld c (2 * s.xl.waiting.length)) s

/-- A request of a compartment at a client port: it hits the port cache or the shared cache, joins a walk, or waits for a walker (R255 to
R258); behind a request of its compartment that its port holds, it is held. -/
def execWalkStart (port cmp stream va : Nat) (indic : Bool) (access : Nat) (s : State) : Out :=
  let r : WalkReq := ⟨port, stream, va, access⟩
  if 32 ≤ cmp || !clientPort port then .next s
  else if s.xl.waiting.any (fun h => h.cmp == cmp && h.req.port == port) then
    .next { s with xl := { s.xl with waiting := s.xl.waiting ++ [⟨cmp, indic, false, r⟩] } }
  else
    let x := s.walkLookup cmp indic r
    .next (if x.1 then x.2 else (x.2.walkQueue cmp indic r).serveWalks)

/-- A page table entry that a walk awaits returns (R235, R255); a walk that an invalidation reached restarts (R265). -/
def execWalkEntryReturn (id : Nat) (poison : Bool) (s : State) : Out :=
  match s.xl.walks.find? (fun (w : Walk) => w.id == id && !w.queued) with
  | none => .next s
  | some w =>
    let need := needOf w.access
    if w.restart then .next (((s.bump .TRN_ST_WALK_RESTART w.cmp 1).walkBegin { w with restart := false }).serveWalks)
    else if poison || s.poisoned w.entry 8 then
      .next (s.walkResult w (.error { reason := 7, va := w.va, need := need, level := w.level, addr := w.entry })).serveWalks
    else
      let e := ofLE (s.accRead w.cmp w.entry 8)
      match s.checkPte w.cmp w.va w.level e with
      | .fault r => .next (s.walkResult w (.error { reason := r, va := w.va, need := need, level := w.level, entry := e, addr := w.entry })).serveWalks
      | .table b =>
        if w.level = 0 then .next s else .next (s.setWalk { w with level := w.level - 1, entry := b + 8 * ptIndex w.va (w.level - 1) })
      | .leaf t =>
        .next (((s.fillShared t).walkResult w
          (.ok (t, { reason := 4, va := w.va, need := need, level := w.level, entry := e, addr := w.entry }))).serveWalks)

/-! ### Manager invalidation (R267) -/

/-- TRN_MGR_INV_GO with its compartment: a device-wide order. -/
def execManagerInvalidation (fn cmp : Nat) (s : State) : Out :=
  if s.closed fn 0x500800 then .next s
  else if fn != s.primaryFn then .next (s.foreignOrder fn 0x500800 0)
  else .next (((s.wr .TRN_MGR_INV_CMP 0 cmp).wr .TRN_MGR_INV_BUSY 0 1).invalidate (cmp % 32) 0 0)

/-- Every access through a removed translation is visible (R264). -/
def execManagerInvalidationDone (s : State) : Out := .next (s.wr .TRN_MGR_INV_BUSY 0 0)

/-! ### Range table loads -/

/-- First index and count of a load (R242). -/
def rlFirst (o : Op) : Nat := bits (adArg0 o.desc) 0 13
/-- Entries of a load. -/
def rlCount (o : Op) : Nat := bits (adArg0 o.desc) 16 14

/-- The reserved bits of a range entry are zero (R239). -/
def reReserved (e : List Nat) : Bool :=
  bit (word e 0) 1 || fld e 0 11 5 != 0 || fld e 0 21 3 != 0 || fld e 0 31 33 != 0 || fld e 1 0 21 != 0 || fld e 1 57 7 != 0
    || fld e 2 20 44 != 0 || fld e 3 0 21 != 0

/-- Two extents share an address. -/
def reOverlap (e f : List Nat) : Bool := decide (reBase e < reBase f + reBytes f) && decide (reBase f < reBase e + reBytes e)

/-- The entry indices that contracts of a compartment preload. -/
def State.preIndices (s : State) (c : Nat) : List Nat := (preOf (s.active c) ++ preOf (s.stagedC c)).map (·.1)

/-- The first failing check of list entry `k` (table "Range load checks", reasons 1 to 7); 0 when all pass. -/
def State.rangeReason (s : State) (c first : Nat) (es : List (List Nat)) (k : Nat) : Nat :=
  let e := es.getD k []
  let i := first + k
  let valid := bit (word e 0) 0
  let units := bits (word e 2) 0 20
  let fn := fld e 0 24 7
  let other := (es.zipIdx.filter (fun x => x.2 != k && bit (word x.1 0) 0)).map (·.1)
    ++ (s.xl.ranges.filter (fun x => fld x.2 0 16 5 == c && bit (word x.2 0) 0 && !(decide (first ≤ x.1) && decide (x.1 < first + es.length)))).map (·.2)
  if !(s.grants c).rangeBlk.contains (i / 64) then 1
  else if !valid then (if word e 0 = 0 && word e 1 = 0 && word e 2 = 0 && word e 3 = 0 then (if (s.preIndices c).contains i then 7 else 0) else 2)
  else if reReserved e || fld e 0 16 5 != c || units = 0 || decide (524288 < units) || reTarget e = 3 then 2
  else if !attrsOk (reTrans i e) then 3
  else if reTarget e = 0 && !s.ownsExtent c (reOut e) (reBytes e) then 4
  else if reTarget e != 0 && !(portOf fn + 1 == reTarget e && decide (s.fnCmp fn = some c)) then 5
  else if 2 ^ 57 < reBase e + reBytes e || other.any (reOverlap e) then 6
  else if (s.preIndices c).contains i then 7 else 0

/-- Read the list: the entries before the first one that cannot be read. -/
def State.readRanges (s : State) (ptr : Nat) : Nat → Nat → List (List Nat) × State
  | 0, _ => ([], s)
  | n + 1, k =>
    let r := s.adminRead true (ptr + 32 * k) 32
    match r.1 with
    | .ok bs => let t := r.2.readRanges ptr n (k + 1); (wordsOf 4 bs :: t.1, t.2)
    | _ => ([], r.2)

/-- The first failing position and reason of a load whose readable entries are `es`. -/
def State.rangeFail (s : State) (c first count : Nat) (es : List (List Nat)) : Option (Nat × Nat) :=
  match (List.range es.length).find? (fun k => s.rangeReason c first es k != 0) with
  | some k => some (k, s.rangeReason c first es k)
  | none => if es.length < count then some (es.length, 9) else none

/-- Write a checked list: translations from the indices leave the caches, then the entries are written (R244, R265). -/
def State.writeRanges (s : State) (c first : Nat) (es : List (List Nat)) : State :=
  let mine (i : Nat) : Bool := decide (first ≤ i) && decide (i < first + es.length)
  let ext := (es.filter (fun e => bit (word e 0) 0)) ++ (s.xl.ranges.filter (fun x => mine x.1)).map (·.2)
  let s := s.dropTrans (fun t => t.cmp == c && (match t.range with
      | some i => mine i
      | none => false)) (fun w => w.cmp == c && ext.any (fun e => w.overlaps (reBase e) (reBytes e)))
  { s with xl := { s.xl with ranges := es.zipIdx.foldl (fun t x =>
      if bit (word x.1 0) 0 then Tab.put t (first + x.2) x.1 else Tab.del t (first + x.2)) s.xl.ranges } }

/-- The work of TABLE_LOAD of kind RANGE_TABLE. -/
def rangeLoadWork (o : Op) (s : State) : Op × State :=
  adminGate o s (fun o s =>
    let c := adCmp o.desc
    let first := rlFirst o
    let count := rlCount o
    s.startLong o 2 c count [] [] (fun i o s =>
      let fail (s : State) (p : Nat × Nat) : State :=
        (((s.wr .TRN_LOAD_INDEX 0 p.1).wr .TRN_LOAD_REASON 0 p.2).setDetail i p.1).finLong i LSt.tableInvalid.code 0
      if count = 0 || decide (8192 < first + count) || adPtr o.desc % 64 != 0 then (o, fail s (0, 8))
      else
        let r := s.readRanges (adPtr o.desc) count 0
        match r.2.rangeFail c first count r.1 with
        | some p => (o, fail r.2 p)
        | none =>
          let s := r.2.writeRanges c first r.1
          let s := match s.longAt i with
            | some l => s.setLong i { l with done := count }
            | none => s
          (o, s.finLong i 0 0)))

/-- TABLE_LOAD of kind RANGE_TABLE (R242 to R244). -/
def execTableLoadRangeTable (fn ring : Nat) (s : State) : Out := .next (s.startNext fn ring (isLoad 2) rangeLoadWork)

end Sys2Proof.Machine
end

