-- ==== Sys2Proof/Machine/Resets.lean ====
section
/-! DEFINITION. Host-link reset and warm reset (R513 to R518), and the pins that belong to them (R608, R522). -/
namespace Sys2Proof.Machine

open Sys2Proof

/-- The state a command leaves: the state before where it stops. -/
def Out.state (s : State) : Out → State
  | .next t => t
  | _ => s

/-! ### Host-link reset (R515) -/

/-- Level of a port's PERST_x_N pin; there are two. -/
def State.perst (s : State) (port : Nat) : Bool := if port = 0 then s.pins.perstA else decide (port = 1) && s.pins.perstB

/-- Set the level of a port's PERST_x_N pin. -/
def State.setPerst (s : State) (port : Nat) (v : Bool) : State :=
  { s with pins := if port = 0 then { s.pins with perstA := v } else { s.pins with perstB := v } }

/-- The link of a host port is up, or down. -/
def State.setHostUp (s : State) (port : Nat) (up : Bool) : State :=
  State.refreshAgents { s with pins := { s.pins with
    hostUp := if up then addOnce s.pins.hostUp port else s.pins.hostUp.filter (fun p => p != port) } }

/-- Write the records that wait for one completion ring in accelerator memory, as far as it has room. -/
def State.writeRecords (fn ring : Nat) : Nat → State → State
  | 0, s => s
  | n + 1, s => State.writeRecords fn ring n ((execCompletionRecordWrite fn ring .ok s).state s)

/-- Operations that wait on a page request of a port end with reason HOST_LINK_DOWN; the records of those whose completion rings lie in
accelerator memory are written. -/
def State.endPageWaits (s : State) (port : Nat) : State :=
  let ws := (span (64 * port) 64).flatMap s.pageWaiters
  let s := ws.foldl (fun s w => s.endWaiter w.1 0x16 w.2 false) s
  let s := (execOperationComplete (ws.map (fun w => w.1.id)).eraseDups s).state s
  let keys := (ws.map (fun w => s.cplKey w.1.fn w.1.ring)).eraseDups.filter (fun k => s.rd .RNG_CLOC k == 0)
  keys.foldl (fun s k => State.writeRecords (k / 64) (k % 64) (s.cplWaits k).length s) s

/-- Compartments with an instance on a port. -/
def State.cmpsAt (s : State) (port : Nat) : List Nat :=
  tenants.filter (fun c => (s.instancesOf c).any (fun i => portOf i == port))

/-- The configuration space of every function of a port returns to its reset values. -/
def State.clearConfig (s : State) (port : Nat) : State :=
  { s with
    fns := { s.fns with configs := s.fns.configs.keep (fun k _ => portOf (k / 8) != port) }
    evt := { s.evt with msixEn := s.evt.msixEn.filter (fun (f : Nat) => portOf f != port) }
    ats := { s.ats with
      blocked := s.ats.blocked.filter (fun (f : Nat) => portOf f != port)
      groups := s.ats.groups.filter (fun (g : PrgGroup) => portOf g.fn != port)
      prgWait := s.ats.prgWait.filter (fun (a : PrgAsk) => portOf a.fn != port)
      invQ := s.ats.invQ.keep (fun f _ => portOf f != port) } }

/-- The IDE streams of a host link and their keys are gone, and the SPDM connection and sessions of its port. -/
def State.dropIde (s : State) (port : Nat) : State :=
  { s with sec := { s.sec with
      ide := s.sec.ide.keep (fun k _ => k / 8 != port)
      spdm := Tab.del s.sec.spdm port
      sessions := s.sec.sessions.filter (fun (x : Session) => x.port != port) } }

/-- The effects of a host-link reset on everything but the pins. -/
def State.hostLink (s : State) (port : Nat) (drained : List (Nat × Nat)) : State :=
  let cs := s.cmpsAt port
  let s := (s.endPageWaits port).managerClear port drained
  let s := (span (64 * port) 64).foldl State.atsForget s
  let s := ((s.clearConfig port).dropIde port).loseAgents [32 + port]
  s.post { code := 0x0004, sev := .degraded, cSev := .job, cmps := cs, toC := true, unit := port }

/-- A host link is reset: PERST_x_N asserted, or the link left L0 (it is retrained at once).  `drained` tells, for the instances of the
port, the writes drained.  A reset during a warm reset is contained in it, and its link is retrained afterwards (R514). -/
def execHostLinkReset (port : Nat) (perst : Bool) (drained : List (Nat × Nat)) (s : State) : Out :=
  if 2 ≤ port || !s.pins.pwrgood || (perst && !s.perst port) || (!perst && !s.pins.hostUp.contains port) then .next s
  else
    let pins (s : State) : State := if perst then (s.setPerst port false).setHostUp port false else s
    if 0 < s.boot.warmStep then
      let t := pins s
      .next { t with boot := { t.boot with hostAfter := addOnce t.boot.hostAfter port } }
    else if s.retryStatus then .next (pins s)
    else .next (pins (s.hostLink port drained))

/-- PERST_x_N deasserts: the port trains its link, at once where CLOCKS has ended (R522). -/
def execPerstDeassert (port : Nat) (s : State) : Out :=
  if 2 ≤ port || s.perst port then .next s
  else
    let t := s.setPerst port true
    if t.pins.pwrgood && decide (t.boot.warmStep = 0) && (decide (2 ≤ t.rd .BOOT_PHASE 0) || !t.retryStatus) then .next (t.setHostUp port true) else .next t

/-! ### What a warm reset clears (table "State across resets") -/

/-- Statistics counters: those that count events and those that a frame or a contract restarts. -/
def statistics : List Fld :=
  [.RNG_DB_DROPPED, .RNG_CPL_FULL_WAITS, .RNG_CPL_CLAIM_TIES, .RNG_CPL_DISCARDED, .RNG_LATE_COMPLETIONS, .RNG_DB_DROPPED_TOTAL,
   .CON_SIG_TIES, .CON_ARMS, .CON_ARM_BUSY, .CON_TAG_UNMATCHED, .CON_FIRED, .EVT_DB_DROPPED, .EVT_DB_DROPPED_TOTAL, .EVT_CLAIM_TIES,
   .TRN_ATS_REQS, .TRN_ATS_STALE, .TRN_PRG_SENT, .TRN_PRG_LATE, .TRN_PRG_UNEXPECTED, .TRN_INV_RECEIVED, .TRN_INV_OVERFLOW, .TRN_PRI_FAILURES,
   .TRN_FAULT_FRAME, .CMP_CTR_BREACH_FRAME, .CMP_CTR_SUPPRESSING, .CMP_CTR_BREACH_TOTAL, .COH_WIN_DROPPED, .COH_AG_LOST_LINES,
   .STK_ECC_CORR, .STK_ECC_UNCORR, .STK_REF_STEPS, .STK_THR_STEPS, .EXP_RD_POISON, .EXP_WR_DISCARD, .EXP_SLOW,
   .PLK_FEC_CORR, .PLK_FEC_UNCORR, .PLK_CRC_ERR, .PLK_PROTO_ERR, .PLK_REPLAYS, .PLK_UNKNOWN_STREAM, .PLK_PLAN_MISMATCH, .PLK_NO_ROUTE,
   .PLK_TRAIN_FAIL, .NET_PORT_FCS_ERR, .NET_PORT_ICRC_ERR, .NET_PORT_BAD_HDR, .NET_PORT_NO_DEST, .NET_PORT_PKEY_DROP, .NET_PORT_BAD_OP,
   .NET_PORT_SEQ_NAK, .NET_PORT_TAG_FAIL, .NET_PORT_OTHER, .NET_PORT_LOSSY_DROP, .NET_PORT_PFC_TX, .NET_PORT_PFC_RX,
   .PWR_IBI_DROPPED, .STAT_F_LIVE, .STAT_F_SHADOW,
   .TRN_ST_PORT_MISS, .TRN_ST_WALKS, .TRN_ST_RANGE_HITS, .TRN_ST_MERGED, .TRN_ST_FAULTS, .TRN_ST_INV, .TRN_ST_WALK_RESTART, .TRN_ST_OVERFLOW,
   .SYC_ST_HITS, .SYC_ST_MISSES, .SYC_ST_NO_ALLOC, .SYC_ST_DUP_FILL, .SYC_ST_STALE_FILL, .SYC_ST_WRITEBACKS, .SYC_ST_EVICT_STREAM,
   .SYC_ST_EVICT_NORMAL, .SYC_ST_EVICT_PERSIST, .SYC_ST_MISS_HOLD,
   .COH_ST_FWD, .COH_ST_INV, .COH_ST_BACK_INV, .COH_ST_RSP_MISS, .COH_ST_EVICT_CROSS, .COH_ST_RETRY, .COH_ST_STARVED, .COH_ST_RES_EXPIRED,
   .COH_ST_INV_WRITES, .COH_ST_HOST_HELD, .COH_AT_FAR, .COH_AT_FAR_DIE, .COH_AT_PLACE_FORCED, .COH_AT_INVALID, .COH_AT_OVERFLOW,
   .COH_AT_UNDERFLOW, .COH_AT_POISONED, .STK_GR_CMDS, .STK_GR_ENTRIES, .STK_GR_LINES, .STK_GR_POISONED,
   .NET_ST_TX_MSGS, .NET_ST_RX_MSGS, .NET_ST_REFUSED, .NET_ST_ALLOC_TIES, .NET_ST_SRQ_TIES, .NET_ST_SRQ_EMPTY, .NET_ST_RNR_DISCARD,
   .NET_ST_LATE, .NET_ST_CQ_FULL_WAITS, .NET_ST_ALLOC_EMPTY, .NET_ST_RETRANSMIT, .NET_ST_RX_FULL, .NET_ST_CNP_TX, .NET_ST_CNP_RX]

/-- Registers of orders and commands in progress, in blocks that a warm reset does not keep. -/
def inProgress : List Fld :=
  [.CON_VSIG_STATUS, .EVT_RT_STATUS, .TRN_MGR_INV_BUSY, .TRN_LOAD_INDEX, .TRN_LOAD_REASON, .COH_WIN_BUSY, .NET_CMD_BUSY, .NET_CMD_STATUS,
   .NET_CMD_RESULT, .NET_SRQ_SLOT, .NET_SRQ_SLOT_VALID, .NET_CQ_SLOT, .NET_CQ_SLOT_VALID, .NET_MGR_REV_BUSY, .NET_MGR_REV_STATUS,
   .INS_RESET_BUSY, .INS_MB_RELAY_NOTICE]

/-- Work in flight of a function is squashed as the reset cut of R108 squashes it; an enabled instance loses its keys and its TDISP state. -/
def State.warmSquash (s : State) (fn : Nat) : State :=
  let on := !isMgr fn && (s.rd .INS_ENABLE fn == 1 || s.rd .INS_RESET_BUSY fn == 1)
  let s := s.squash fn
  if on then (s.revokeAll fn).tdispError fn else s

/-- Every queued record of a ring that has room is written (step 3). -/
def State.drainRing (ring : Nat) : Nat → State → State
  | 0, s => s
  | n + 1, s => State.drainRing ring n ((execIncidentRecordWrite ring .ok s).state s)

/-- Step 3, first half: the incident posting queues. -/
def State.drainIncidents (s : State) : State :=
  (List.range 33).foldl (fun s ring => State.drainRing ring (s.incQ ring).length s) s

/-- A roll call that a warm reset ends leaves its status ABORTED (R427). -/
def State.abortRoll (s : State) : State :=
  match s.plk.roll with
  | none => s
  | some _ => { ((s.wr .PLK_ROLL_STATUS 0 3).wr .PLK_ROLL_BUSY 0 0) with plk := { s.plk with roll := none } }

/-- Step 3, second half: every RUNNING or SUSPENDED long operation ends with OP_RESET (R536). -/
def State.resetLongs (s : State) : State :=
  (List.range 16).foldl (fun s i => match s.longAt i with
    | some l => if l.live then s.resetLong i else s
    | none => s) s.abortRoll

/-- Compartments across a warm reset (R56). -/
def State.warmCompartments (s : State) : State :=
  tenants.foldl (fun s c => match s.cmpState c with
    | .assigned => (s.enterState c .quiesced).wr .CMP_INTAKE_CLOSED c 1
    | .scrubbing => s.taint c 1
    | _ => s) s

/-- Step 4: rings, events, mailboxes and INS set-up of both ports (R112), translation caches and walks, contexts, contracts, statistics, and
every rotating pointer (R623).  The configuration space is kept. -/
def State.warmBlocks (s : State) : State :=
  let s := (List.range 128).foldl (fun s fn => (((s.qpsError fn).atsForget fn).clearFunction fn).clearMailbox fn) s
  let s := s.rstKeys (statistics ++ inProgress ++ insFields) (fun _ => true)
  let s := tenants.foldl State.endContracts s
  let s := (s.endPinFlush).abortEnum
  { s with
    slots := []
    reg := { s.reg with shadow := [], staged := [], ptrs := [] }
    fns := { s.fns with mbBell := [], mbDone := [], resetInd := [] }
    cmp := { s.cmp with share := [], demand := [], served := [], overs := [], granted := [], suppressed := [] }
    xl := { s.xl with port := [], pinned := [], places := [], shared := [], walks := [], waiting := [] }
    inc := { s.inc with frame := [] } }

/-- Steps 1 to 5 of a warm reset. -/
def State.warmSteps (s : State) : State :=
  let s := (List.range 128).foldl State.warmSquash s
  let s := s.drainIncidents.resetLongs
  (s.warmBlocks.warmCompartments.warmCoherence).refreshAgents

/-! ### Starts (R518, R519, R529) -/

/-- The next start enters fawn mode. -/
def State.fawnNext (s : State) : Bool := s.rd .BOOT_FAWN_REQ 0 == 1 || decide (s.rd .BOOT_ATTEMPT_LIMIT 0 ≤ s.rd .BOOT_ATTEMPTS 0)

/-- The type and cause of a finished start are kept, and RESET_RECORD waits for the device incident ring. -/
def State.recordStart (s : State) (typ cause : Nat) : State :=
  let s := (s.wr .BOOT_LAST_TYPE 0 typ).wr .BOOT_LAST_CAUSE 0 cause
  State.flushBoot { s with boot := { s.boot with record := some (typ, cause) } }

/-- Fawn mode is entered: by request or after too many attempts. -/
def State.enterFawn (s : State) (cause : Nat) : State :=
  let why := if s.rd .BOOT_FAWN_REQ 0 = 1 then 2 else 1
  let s := (((s.wr .BOOT_FAWN 0 1).wr .BOOT_FAWN_REASON 0 why).wr .BOOT_FAWN_REQ 0 0).wr .BOOT_READY 0 0
  State.recordStart { s with boot := { s.boot with running := false, failed := false, warmStep := 0 } } 4 cause

/-- A start counts as one more attempt (R519). -/
def State.attempt (s : State) : State := s.wr .BOOT_ATTEMPTS 0 (s.rd .BOOT_ATTEMPTS 0 + 1)

/-- A start has reached READY after `ms` milliseconds (R518, R519). -/
def State.reachReady (s : State) (typ cause ms : Nat) : State :=
  let s := (((s.wr .BOOT_READY 0 1).wr .BOOT_PHASE 0 6).wr .BOOT_ATTEMPTS 0 0).wr .BOOT_READY_MS 0 ms
  State.recordStart { s with boot := { s.boot with running := false, failed := false, warmStep := 0, powerOn := false } } typ cause

/-- Host links whose reset fell in the warm reset are retrained: those whose PERST_x_N is high come up (R514). -/
def State.retrainHosts (s : State) : State :=
  let ps := s.boot.hostAfter
  let s := { s with boot := { s.boot with hostAfter := [] } }
  ps.foldl (fun s p => if s.perst p then s.setHostUp p true else s) s

/-! ### Warm reset (R517) -/

/-- What a warm reset that begins notes of itself: whether it enters fawn mode, its type, cause and start, and the hosts it resets. -/
def BootSt.warm (b : BootSt) (fawn : Bool) (cause ns : Nat) (hosts : List Nat) : BootSt :=
  { b with warmStep := if fawn then 6 else 5, typ := 3, cause := cause, startNs := ns, failed := false, hostAfter := hosts.eraseDups }

/-- Steps 1 to 5 of a warm reset: the attempt is counted, or fawn mode chosen. -/
def State.warmRun (s : State) (fawn : Bool) : State :=
  let t := ((s.wr .BOOT_READY 0 0).wr .BOOT_FAWN 0 0).wr .BOOT_PHASE 0 0
  (if fawn then t else t.attempt).warmSteps

/-- A warm reset begins with `hosts` whose PERST_x_N asserts in the same cycle: the attempt is counted, or fawn mode chosen, and steps 1 to
5 run; step 6 comes with the next beat on which no command waits. -/
def State.warmBegin (s : State) (cause : Nat) (hosts : List Nat) : State :=
  let t := (hosts.foldl (fun s p => (s.setPerst p false).setHostUp p false) s).warmRun s.fawnNext
  { t with boot := t.boot.warm s.fawnNext cause s.ns hosts }

/-- Step 6 of a warm reset: READY, or fawn mode. -/
def State.warmEnd (s : State) : State :=
  let ms := (s.ns - s.boot.startNs) / 1000000
  (if s.boot.warmStep = 6 then s.enterFawn s.boot.cause else s.reachReady 3 s.boot.cause ms).retrainHosts

/-- An order in BOOT_RESET_REQ: device-wide, dropped and counted without its key (R513). -/
def State.resetOrder (s : State) (fn key : Nat) (k : State → State) : State :=
  if s.barsBlocked fn then s
  else if fn != s.primaryFn then s.foreignOrder fn 0x100010 0
  else if key != 0xB007 then s.bump .BOOT_RESET_BAD_KEY 0 1
  else k s

/-- A warm reset: cause 3 SYS_RST_N held low while PWRGOOD is high, 4 BOOT_RESET_REQ written 1.  A running cold start contains it (R514). -/
def execWarmReset (cause fn key : Nat) (hosts : List Nat) (s : State) : Out :=
  if cause = 3 then
    let t := { s with pins := { s.pins with sysRstN := false } }
    if !s.pins.pwrgood || s.boot.running || s.boot.sysHeld || decide (0 < s.boot.warmStep) then .next t else .next (t.warmBegin 3 (hosts.filter (fun p => decide (p < 2))))
  else if cause = 4 then .next (s.resetOrder fn key (fun s => s.warmBegin 4 (hosts.filter (fun p => decide (p < 2)))))
  else .next s

end Sys2Proof.Machine
end

