-- ==== Sys2Proof/Machine/BulkOps.lean ====
section
/-! DEFINITION. The long operations on memory, keys and flash (R537, R538, R544, R545, R559), and the orders to long operations (R533 to
R536).  Each row that starts an operation also moves it on: with a slot, it is the next part of the work of the operation there. -/
namespace Sys2Proof.Machine

open Sys2Proof

/-! ### Ranges (BULK_FILL and MEMTEST) -/

/-- Length of a range in bytes. -/
def bulkLen (d : List Nat) : Nat := fld d 7 0 40

/-- A range is aligned, not empty, a multiple of a line long, and lies in one tier. -/
def rangeForm (d : List Nat) : Bool :=
  let a := adArg0 d
  let n := bulkLen d
  a % 128 == 0 && n != 0 && n % 128 == 0 && isAcc a && isAcc (a + n - 1) && (decide (a < t1Bytes) == decide (a + n - 1 < t1Bytes))

/-- The expansion ports of a tier-two range are ACTIVE. -/
def State.rangeActive (s : State) (a n : Nat) : Bool :=
  a < t1Bytes || (span ((a - t2Base) / 2 ^ 39) ((a + n - 1 - t2Base) / 2 ^ 39 - (a - t2Base) / 2 ^ 39 + 1)).all (fun p => s.rd .EXP_STATE p == 2)

/-- A range of a compartment can be worked on. -/
def State.rangeOk (s : State) (c : Nat) (d : List Nat) : Bool :=
  rangeForm d && s.inGranules c (adArg0 d) (bulkLen d) && s.rangeActive (adArg0 d) (bulkLen d)

/-- Every granule of a range is in the free pools. -/
def State.rangeFree (s : State) (a n : Nat) : Bool :=
  let gs (base : Nat) := span ((a - base) / 2 ^ 30) ((a + n - 1 - base) / 2 ^ 30 - (a - base) / 2 ^ 30 + 1)
  if a < t1Bytes then let t := s.taken (·.t1); (gs 0).all (fun g => !t.contains g)
  else let t := s.taken (·.t2); (gs t2Base).all (fun g => s.t2Usable g && !t.contains g)

/-- A live, unsuspended operation of a kind in a slot whose work has not ended. -/
def State.runningAt (s : State) (slot kind : Nat) : Option LongOp :=
  (s.longAt slot).filter (fun l => l.kind == kind && l.state == 1 && l.fin.isNone)

/-! ### BULK_FILL (R537) -/

/-- A full-line invalidating write of agent 44 through the compartment's slices. -/
def State.fillLine (s : State) (c l : Nat) (bs : List Byte) : State :=
  ((s.clearCopies c (128 * l) 128).touch c false false true (128 * l) 128).cmpWrite c (128 * l) bs

/-- Checks and start of BULK_FILL: the 128 bytes of the pattern are read once. -/
def bulkFillWork (o : Op) (s : State) : Op × State :=
  adminGate o s (fun o s =>
    let c := adCmp o.desc
    let st := s.cmpState c
    if st != .assigned && st != .quiesced then (o.fails St.cmpBadState.code, s)
    else if !s.rangeOk c o.desc || adPtr o.desc % 128 != 0 then (o.fails LSt.range.code, s)
    else
      let begin (o : Op) (s : State) (ws : List Nat) := s.startLong o 0 c (bulkLen o.desc / 128) ws [lineOf (adArg0 o.desc)] (fun _ o s => (o, s))
      if adPtr o.desc = 0 then begin o s (List.replicate 16 0)
      else
        match s.opRead o 0x08 .read false (adPtr o.desc) 128 with
        | (.ok bs, o, s) => begin o s (wordsOf 16 bs)
        | (.poison, o, s) => (o.fails St.poisoned.code, s)
        | (.fault f, o, s) => s.opFault o 0x08 0 f)

/-- The next lines of a BULK_FILL are written. -/
def State.fillMore (s : State) (slot : Nat) (l : LongOp) (lines : Nat) : State :=
  let n := min lines (l.total - l.done)
  let first := word l.args 0 + l.done
  let s := (span first n).foldl (fun s x => s.fillLine l.cmp x (bytesOf l.words)) s
  let s := s.setLong slot { l with done := l.done + n }
  if l.done + n = l.total then s.finLong slot 0 l.total else s

/-- BULK_FILL. -/
def execBulkFill (fn ring : Nat) (slot : Option Nat) (lines : Nat) (s : State) : Out :=
  match slot with
  | none => .next (s.startNext fn ring (fun d => dOpcode d == 0x65) bulkFillWork)
  | some i => match s.runningAt i 0x65 with
    | some l => .next (s.fillMore i l lines)
    | none => .next s

/-! ### MEMTEST (R538) -/

/-- MEMTEST of the free granules is asked for. -/
def testsFree (d : List Nat) : Bool := adCmp d == 0 && bit (word d 7) 63

/-- Checks and start of MEMTEST. -/
def memtestWork (o : Op) (s : State) : Op × State :=
  adminGate o s (fun o s =>
    let c := adCmp o.desc
    let d := o.desc
    let st := s.cmpState c
    let free := testsFree d
    if !(st == .quiesced || st == .tainted || (free && s.rangeFree (adArg0 d) (bulkLen d))) then (o.fails St.cmpBadState.code, s)
    else if !(if free then rangeForm d && s.rangeActive (adArg0 d) (bulkLen d) else s.rangeOk c d) then (o.fails LSt.range.code, s)
    else s.startLong o 0 c (bulkLen d / 128) [] [lineOf (adArg0 d)] (fun _ o s => (o, s)))

/-- What MEMTEST leaves of a span of lines: zero, as stored, and no cached copy. -/
def State.testLines (s : State) (c first n : Nat) : State :=
  let here (l : Nat) : Bool := decide (first ≤ l) && decide (l < first + n)
  let s := (s.clearCopies c (128 * first) (128 * n)).zeroLines here
  { s with syc := { s.syc with sets := s.syc.sets.mapVals (fun _ ls => ls.filter (fun (x : CLine) => !here x.line)) } }

/-- The next lines are tested, in address order; the environment tells how many reads were corrected and which lines mismatched. -/
def State.testMore (s : State) (slot : Nat) (l : LongOp) (lines corrected : Nat) (mismatched : List Nat) : State :=
  let n := min lines (l.total - l.done)
  let first := word l.args 0 + l.done
  let bad := (mismatched.filter (fun x => decide (first ≤ x) && decide (x < first + n))).eraseDups
  let s := s.testLines l.cmp first n
  let detail := if l.mismatch = 0 then (match ascending bad with
      | x :: _ => 128 * x
      | [] => l.detail) else l.detail
  let l' : LongOp := { l with done := l.done + n, corr := l.corr + corrected, mismatch := l.mismatch + bad.length, detail := detail }
  let s := s.setLong slot l'
  if l'.done = l.total then s.finLong slot (if l'.mismatch = 0 then 0 else LSt.memtestErrors.code) l'.mismatch else s

/-- MEMTEST. -/
def execMemtest (fn ring : Nat) (slot : Option Nat) (lines corrected : Nat) (mismatched : List Nat) (s : State) : Out :=
  match slot with
  | none => .next (s.startNext fn ring (fun d => dOpcode d == 0x66) memtestWork)
  | some i => match s.runningAt i 0x66 with
    | some l => .next (s.testMore i l lines corrected mismatched)
    | none => .next s

/-! ### KEY_ROTATE (R544, R545) -/

/-- First byte of a granule of a tier. -/
def granuleBase (tier g : Nat) : Nat := if tier = 0 then g * 2 ^ 30 else t2Base + g * 2 ^ 30

/-- The granules of a compartment in a tier, ascending. -/
def State.tierGranules (s : State) (c tier : Nat) : List Nat := ascending (if tier = 0 then (s.grants c).t1 else (s.grants c).t2)

/-- The first line of the granules at or above an address. -/
def nextLine (tier : Nat) (gs : List Nat) (a : Nat) : Option Nat :=
  gs.findSome? (fun g => if a < granuleBase tier g + 2 ^ 30 then some (lineOf (max a (granuleBase tier g))) else none)

/-- Lines of the granules at or above an address. -/
def linesFrom (tier : Nat) (gs : List Nat) (a : Nat) : Nat :=
  gs.foldl (fun n g => n + (granuleBase tier g + 2 ^ 30 - max a (granuleBase tier g)) / 128) 0

/-- What a line holds under an old key, written under a new one. -/
def rekeyed (old addr key : Nat) (bs : List Byte) : List Byte :=
  if key = old then bs else (List.range 128).map (fun i => Config.staleByte old (addr + i))

/-- A line is read under the old key and written under the new one; so is what lies beneath a dirty cached line. -/
def State.rekeyLine (s : State) (old new l : Nat) : State :=
  if s.lineLost l then s.bump .EXP_WR_DISCARD (portOfLine l) 1
  else
    let a := 128 * l
    let bs := rekeyed old a (s.mem.lineKey.get 0 l) (Mem.read s.mem.acc a 128)
    { s with
      mem := { s.mem with acc := Mem.write s.mem.acc a bs, lineKey := Tab.set s.mem.lineKey 0 l new }
      syc := { s.syc with sets := s.syc.sets.mapVals (fun _ ls => ls.map (fun (x : CLine) =>
        if x.line == l then { x with dirty := x.dirty.map (fun u => { u with bytes := rekeyed old a u.key u.bytes, key := new }) } else x)) } }

/-- Move the boundary of a rotation up to an address. -/
def State.setBoundary (s : State) (c tier old a : Nat) : State :=
  { s with sec := { s.sec with rot := Tab.put s.sec.rot (2 * c + tier) (old, a) } }

/-- Re-encrypt up to `n` lines, the boundary moving past each. -/
def State.rotateLines (c tier : Nat) (gs : List Nat) : Nat → State → Nat × State
  | 0, s => (0, s)
  | n + 1, s =>
    match s.sec.rot.find (2 * c + tier) with
    | none => (0, s)
    | some (old, b) =>
      match nextLine tier gs b with
      | none => (0, s)
      | some l =>
        let r := State.rotateLines c tier gs n ((s.rekeyLine old (s.keyOf c tier) l).setBoundary c tier old (128 * l + 128))
        (r.1 + 1, r.2)

/-- A new key for a tier of a compartment, and the rotation from the old one begins. -/
def State.newTierKey (s : State) (c tier : Nat) : State :=
  let old := s.keyOf c tier
  let k := s.sec.keySerial
  let start := granuleBase tier ((s.tierGranules c tier).headD 0)
  let sec := if tier = 0 then { s.sec with t1Key := Tab.put s.sec.t1Key c k } else { s.sec with t2Key := Tab.put s.sec.t2Key c k }
  { s with sec := { sec with keySerial := k + 1, rot := Tab.put s.sec.rot (2 * c + tier) (old, start) } }

/-- The last line is written: the old key is destroyed and the operation can end. -/
def State.rotated (s : State) (slot : Nat) (l : LongOp) : State :=
  let s := { s with sec := { s.sec with rot := Tab.del s.sec.rot (2 * l.cmp + word l.args 0) } }
  s.finLong slot 0 l.done

/-- Checks and start of KEY_ROTATE: a pending rotation continues; a new key is generated unless the entropy source has failed (R541). -/
def keyRotateWork (o : Op) (s : State) : Op × State :=
  adminGate o s (fun o s =>
    let c := adCmp o.desc
    let tier := b2n (bit (adArg0 o.desc) 0)
    let st := s.cmpState c
    if st != .assigned && st != .quiesced then (o.fails 0x60, s)
    else
      let gs := s.tierGranules c tier
      let pending := s.sec.rot.find (2 * c + tier)
      let from' := match pending with
        | some e => e.2
        | none => 0
      s.startLong o 0 c (linesFrom tier gs from') [] [tier] (fun i o s =>
        let s := if pending.isNone && !s.sec.entropyBad then s.newTierKey c tier else s
        match s.longAt i with
        | some l => if l.total = 0 && (s.sec.rot.find (2 * c + tier)).isSome then (o, s.rotated i l) else (o, s)
        | none => (o, s)))

/-- The next lines are re-encrypted. -/
def State.rotateMore (s : State) (slot : Nat) (l : LongOp) (lines : Nat) : State :=
  let tier := word l.args 0
  let gs := s.tierGranules l.cmp tier
  let r := State.rotateLines l.cmp tier gs (min lines (l.total - l.done)) s
  let l' : LongOp := { l with done := l.done + r.1 }
  let s := r.2.setLong slot l'
  if l'.done = l.total && (s.sec.rot.find (2 * l.cmp + tier)).isSome then s.rotated slot l' else s

/-- KEY_ROTATE. -/
def execKeyRotate (fn ring : Nat) (slot : Option Nat) (lines : Nat) (s : State) : Out :=
  match slot with
  | none => .next (s.startNext fn ring (fun d => dOpcode d == 0x67) keyRotateWork)
  | some i => match s.runningAt i 0x67 with
    | some l => .next (s.rotateMore i l lines)
    | none => .next s

/-! ### FW_STAGE (R559) -/

/-- One step of the CRC-32 of R401, bit by bit from the least significant bit (the reflected polynomial). -/
def crcBits : Nat → Nat → Nat
  | 0, c => c
  | n + 1, c => crcBits n (if c % 2 = 1 then (c / 2) ^^^ 0xEDB88320 else c / 2)

/-- The CRC-32 over bytes. -/
def crc32 (bs : List Nat) : Nat := (bs.foldl (fun c b => crcBits 8 (c ^^^ (b % 256))) 0xFFFFFFFF) ^^^ 0xFFFFFFFF

/-- A little-endian number in a byte list. -/
def leAt (bs : List Nat) (i n : Nat) : Nat := (List.range n).foldl (fun v k => v + 256 ^ k * (bs.getD (i + k) 0 % 256)) 0

/-- A boot record copy is valid (R523). -/
def recordValid (bs : List Nat) : Bool :=
  bs.length == 8192 && leAt bs 0 4 == 0x42445243 && leAt bs 4 2 == 1 && decide (leAt bs 6 2 ≤ 510)
    && (span 16 16).all (fun i => bs.getD i 0 % 256 == 0)
    && crc32 (bs.take 12 ++ [0, 0, 0, 0] ++ bs.drop 16) == leAt bs 12 4

/-- The sequence number of a record copy. -/
def recordSeq (bs : List Nat) : Nat := leAt bs 8 4

/-- Length of the source, and whether it lies in host memory. -/
def fwLen (d : List Nat) : Nat := fld d 7 0 32
/-- The source of FW_STAGE is host memory. -/
def fwHost (d : List Nat) : Bool := bit (adArg0 d) 0
/-- The target of FW_STAGE is a boot record copy. -/
def fwRecord (d : List Nat) : Bool := bit (adArg0 d) 1

/-- An image passes R558: its facts are header well formed, digest matches, signature verifies, key slot, SVN.  The status is that of the
first check that fails, 0 when it verifies. -/
def State.imageStatus (s : State) (facts : List Nat) : Nat :=
  if word facts 0 = 0 then 0x61
  else if word facts 1 = 0 || word facts 2 = 0 || decide (4 ≤ word facts 3) || bit (s.rd .SEC_FW_KEY_REVOKED 0) (word facts 3) then 0x62
  else if word facts 4 < s.rd .SEC_MIN_SVN 0 then 0x63 else 0

/-- The slot an image is written to: the one that is not running, or slot A. -/
def State.imageTarget (s : State) : Nat := if s.boot.imageUp then 1 - s.rd .BOOT_IMAGE 0 else 0

/-- The copy a record is written to: the invalid one, or the one with the lower sequence number. -/
def recordTarget (seqA seqB : Option Nat) : Nat :=
  match seqA, seqB with
  | none, _ => 0
  | some _, none => 1
  | some a, some b => if a < b then 0 else 1

/-- Largest length of a target. -/
def fwMax (record : Bool) : Nat := if record then 8192 else 15 * 2 ^ 20

/-- Checks and start of FW_STAGE: a walked source is read through the house's translation.  The target goes to the slot's arguments, the
source bytes of a record to its words. -/
def fwWork (target : Nat) (data : List Nat) (o : Op) (s : State) : Op × State :=
  adminGate o s (fun o s =>
    let d := o.desc
    let n := fwLen d
    let begin (o : Op) (s : State) (ws : List Nat) := s.startLong o 0 0 n ws [target] (fun i o s =>
      if n = 0 || decide (fwMax (fwRecord d) < n) then (o, s.finLong i 0x61 0) else (o, s))
    if fwHost d || n = 0 || decide (fwMax (fwRecord d) < n) then begin o s data
    else if fwRecord d then
      match s.opRead o 0x08 .read false (adPtr d) n with
      | (.ok bs, o, s) => begin o s (bs.map BitVec.toNat)
      | (.poison, o, s) => (o.fails St.poisoned.code, s)
      | (.fault f, o, s) => s.opFault o 0x08 0 f
    else
      let r := s.mapSpan 0x08 0 false .read (spanFuel n) (adPtr d) n
      match r.2.1 with
      | some f => r.2.2.2.opFault o 0x08 0 f
      | none => if r.1.any r.2.2.2.piecePoison then (o.fails St.poisoned.code, r.2.2.2) else begin o r.2.2.2 data)

/-- The next bytes are programmed; at the end the target is read back and verified, with `check` its outcome. -/
def State.stageMore (s : State) (slot : Nat) (l : LongOp) (record : Bool) (n : Nat) (flashOk : Bool) (check : Nat) : State :=
  let n := min n (l.total - l.done)
  let l' : LongOp := { l with done := l.done + n }
  let s := s.setLong slot l'
  let ends (st : Nat) : State := (s.emit .flash [b2n record, word l.args 0, l'.done, st]).finLong slot st 0
  if !flashOk then ends 0x64 else if l'.done = l.total then ends check else s

/-- FW_STAGE of an image; `data` holds the facts of the source (see `State.imageStatus`), `flashOk` that erasing, programming and reading back
went well. -/
def execFwStageImage (fn ring : Nat) (slot : Option Nat) (bytes : Nat) (flashOk : Bool) (data : List Nat) (s : State) : Out :=
  match slot with
  | none => .next (s.startNext fn ring (fun d => dOpcode d == 0x68 && !fwRecord d) (fwWork s.imageTarget data))
  | some i => match s.runningAt i 0x68 with
    | some l => if word l.args 0 < 2 then .next (s.stageMore i l false bytes flashOk (s.imageStatus l.words)) else .next s
    | none => .next s

/-- FW_STAGE of a boot record copy; `data` holds the bytes of a source in host memory, `seqA` and `seqB` the sequence numbers of the copies
that are valid. -/
def execFwStageRecord (fn ring : Nat) (slot : Option Nat) (bytes : Nat) (flashOk : Bool) (data : List Nat) (seqA seqB : Option Nat) (s : State) : Out :=
  match slot with
  | none => .next (s.startNext fn ring (fun d => dOpcode d == 0x68 && fwRecord d) (fwWork (2 + recordTarget seqA seqB) data))
  | some i => match s.runningAt i 0x68 with
    | some l => if 2 ≤ word l.args 0 then .next (s.stageMore i l true bytes flashOk (if recordValid l.words then 0 else 0x61)) else .next s
    | none => .next s

/-! ### Orders to long operations (R533 to R536) -/

/-- Kinds that cannot be suspended: QUIESCE, TABLE_LOAD, ROLL_CALL. -/
def notSuspendable (kind : Nat) : Bool := kind == 0x61 || kind == 0x64 || kind == 0x69

/-- The effects of OP_CANCEL on an operation, before its slot ends (table "Long operations under orders and resets"). -/
def State.cancelEffects (s : State) (l : LongOp) : State :=
  match l.kind with
  | 0x61 => s.wr .CMP_INTAKE_CLOSED l.cmp 0
  | 0x63 => s.taint l.cmp 3
  | 0x68 => s.emit .flash [b2n (decide (2 ≤ word l.args 0)), word l.args 0, l.done, LSt.cancelled.code]
  | 0x69 => match s.plk.roll with
    | some r => s.rollFinish r 3 LSt.cancelled.code
    | none => s
  | _ => s

/-- Apply an order to the operation in a slot: 3 SUSPEND, 2 RESUME, 4 CANCEL (R114); the status the order completes with. -/
def State.opOrder (s : State) (i : Nat) (l : LongOp) (code : Nat) : Nat × State :=
  if l.fin.isSome then (LSt.ended.code, s)
  else match code with
  | 3 =>
    if l.state != 1 then (LSt.notValid.code, s)
    else if notSuspendable l.kind then (LSt.notSuspendable.code, s)
    else (0, s.setLong i { l with state := 2 })
  | 2 => if l.state != 2 then (LSt.notValid.code, s) else (0, s.setLong i { l with state := 1 })
  | _ =>
    if l.kind = 0x64 then (LSt.pastPoint.code, s)
    else (0, (s.cancelEffects l).endLong i LSt.cancelled.code l.id)

/-- The slot and operation that an order names, if it is RUNNING or SUSPENDED. -/
def State.opNamed (s : State) (d : List Nat) : Option (Nat × LongOp) :=
  let i := adOpId d % 16
  match s.longAt i with
  | some l => if l.id = adOpId d && l.live then some (i, l) else none
  | none => none

/-- The work of an order. -/
def opOrderWork (code : Nat) (o : Op) (s : State) : Op × State :=
  adminGate o s (fun o s =>
    match s.opNamed o.desc with
    | none => (o.fails LSt.notFound.code, s)
    | some e => let r := s.opOrder e.1 e.2 code; (o.fails r.1, r.2))

/-- An order that one of higher rank discards. -/
def opDiscardWork (o : Op) (s : State) : Op × State := adminGate o s (fun o s => (o.fails LSt.notValid.code, s))

/-- The order code of an opcode: OP_SUSPEND 0x6A, OP_RESUME 0x6B, OP_CANCEL 0x6C. -/
def opCode (opcode : Nat) : Nat := if opcode = 0x6A then 3 else if opcode = 0x6B then 2 else 4

/-- The descriptor that would start next on a ring, where it is an order to the same operation. -/
def State.rivalOrder (s : State) (fn ring : Nat) (rival : Option Nat) : Option (Nat × Nat) :=
  match rival, s.nextCand fn ring with
  | some r, some k => match s.nextCand fn r with
    | some k2 => if r != ring && decide (0x6A ≤ dOpcode k2.desc) && decide (dOpcode k2.desc ≤ 0x6C) && adOpId k2.desc == adOpId k.desc
        then some (r, dOpcode k2.desc) else none
    | none => none
  | _, _ => none

/-- An order to a long operation on a ring, with one on another ring that reaches the operation in the same cycle: the higher rank takes
effect, the other is discarded and ORDER_CONFLICT posted; equal codes take effect once (R115, R535). -/
def State.longOrder (s : State) (fn ring opcode : Nat) (rival : Option Nat) : State :=
  let at' (op : Nat) (d : List Nat) : Bool := dOpcode d == op
  match s.nextCand fn ring with
  | none => s
  | some k =>
    if dOpcode k.desc != opcode then s
    else match s.rivalOrder fn ring rival with
    | none => s.startNext fn ring (at' opcode) (opOrderWork (opCode opcode))
    | some (r, op2) =>
      let mine := opCode opcode
      let other := opCode op2
      let slot := adOpId k.desc % 16
      let clash (s : State) (a b : Nat) : State := s.post (bothInc 0x0003 .notice (some 0) 4 slot [put a 0 4 + put b 4 4, put fn 0 7 + put fn 8 7])
      if mine = other then (s.startNext fn ring (at' opcode) (opOrderWork mine)).startNext fn r (at' op2) (fun o s => (o.fails 0, s))
      else if other < mine then
        clash ((s.startNext fn ring (at' opcode) (opOrderWork mine)).startNext fn r (at' op2) opDiscardWork) mine other
      else clash ((s.startNext fn r (at' op2) (opOrderWork other)).startNext fn ring (at' opcode) opDiscardWork) other mine

/-- OP_SUSPEND. -/
def execOpSuspend (fn ring : Nat) (rival : Option Nat) (s : State) : Out := .next (s.longOrder fn ring 0x6A rival)
/-- OP_RESUME. -/
def execOpResume (fn ring : Nat) (rival : Option Nat) (s : State) : Out := .next (s.longOrder fn ring 0x6B rival)
/-- OP_CANCEL. -/
def execOpCancel (fn ring : Nat) (rival : Option Nat) (s : State) : Out := .next (s.longOrder fn ring 0x6C rival)

end Sys2Proof.Machine
end

