-- ==== Sys2Proof/Machine/Power.lean ====
section
/-! DEFINITION. Clocks, power and the management bus (chapter 21): rack time at the root, gating, telemetry and alarms, and the I3C target. -/
namespace Sys2Proof.Machine

open Sys2Proof

/-! ### Rack time at the root (R569 to R571) -/

/-- The root of the scale-up domain. -/
def State.isRoot (s : State) : Bool := s.rd .PLK_TIME_ROOT 0 == 1

/-- The BEAT counter is set to a value in one step, or holds until the value is reached (R72). -/
def State.setBeat (s : State) (v : Nat) : State :=
  if s.beat ≤ v then { (s.wr .PWR_BEAT 0 v) with plk := { s.plk with time := { s.plk.time with hold := 0 } } }
  else { s with plk := { s.plk with time := { s.plk.time with hold := s.beat - v } } }

/-- The written root time is applied. -/
def State.applyRootTime (s : State) : State :=
  let t := s.setBeat (s.rd .PWR_ROOT_TIME 0)
  { t with pwr := { t.pwr with rootWait := false, rootSet := true } }

/-- The root loses the reference: the lock and the counts begin again. -/
def State.rootLost (s : State) : State :=
  let t := s.loseLock
  { t with pwr := { t.pwr with tsGood := 0, tsBad := 0, tsMiss := 0 } }

/-- Edges of TSYNC count at a root that follows them. -/
def State.followsTsync (s : State) : Bool := s.isRoot && s.rd .PWR_TSYNC_EN 0 == 1 && s.pins.pwrgood

/-- A TSYNC rising edge with its phase error in 1/256 beat, 16 bits two's complement: at most 0.1 beat is good, above 0.2 beat bad. -/
def execTsyncEdge (err : Nat) (s : State) : Out :=
  if !s.followsTsync then .next s
  else
    let s := s.wr .PWR_TSYNC_ERR 0 err
    let s := if s.pwr.rootWait then s.applyRootTime else s
    let m := (toSigned 16 err).natAbs
    let good := if m ≤ 25 then s.pwr.tsGood + 1 else 0
    let bad := if 52 ≤ m then s.pwr.tsBad + 1 else 0
    let s := { s with pwr := { s.pwr with tsGood := good, tsBad := bad, tsMiss := 0 } }
    if 4 ≤ bad then .next s.rootLost
    else if 16 ≤ good && s.pwr.rootSet then .next (s.wr .PWR_BEAT_LOCKED 0 1) else .next s

/-- A TSYNC edge does not come: 8 in a row lose the lock. -/
def execTsyncEdgeMissing (s : State) : Out :=
  if !s.followsTsync then .next s
  else
    let n := s.pwr.tsMiss + 1
    let s := { s with pwr := { s.pwr with tsMiss := n, tsGood := 0, tsBad := 0 } }
    if 8 ≤ n then .next s.rootLost else .next s

/-- The high half of PWR_ROOT_TIME is written: the low half staged by the function commits with it (R12); dropped and logged while locked
(R571); a root without TSYNC applies it at once and locks (R570). -/
def execRootTimeSet (fn high : Nat) (s : State) : Out :=
  if s.closed fn 0xF0002C || !isMgr fn then .next s
  else if fn != s.primaryFn then .next (s.foreignOrder fn 0xF0002C 0)
  else
    let low := (s.reg.staged.find (pairKey fn 0xF00028)).getD (s.rd .PWR_ROOT_TIME 0 % 2 ^ 32)
    let v := low + 2 ^ 32 * (high % 2 ^ 32)
    let s := { s with reg := { s.reg with staged := Tab.del s.reg.staged (pairKey fn 0xF00028) } }
    if s.rd .PWR_BEAT_LOCKED 0 = 1 then .next (s.logClamp ⟨fieldId 0xF00028 0, 0, fn, true, v, 0, 0, false⟩)
    else
      let s := s.wr .PWR_ROOT_TIME 0 v
      if !s.isRoot then .next s
      else if s.rd .PWR_TSYNC_EN 0 = 0 then .next (s.applyRootTime.wr .PWR_BEAT_LOCKED 0 1)
      else .next { s with pwr := { s.pwr with rootWait := true } }

/-! ### Gating (R574, R575) -/

/-- A block may be gated (table "Gateable blocks"). -/
def State.gateable (s : State) (f : Fld) (i : Nat) : Bool :=
  match f with
  | .PWR_GATE_PLK => s.rd .PLK_LINK_EN i == 0 && s.linkIs i .disabled
  | .PWR_GATE_NET => s.rd .NET_PORT_EN i == 0
  | .PWR_GATE_EXP => s.rd .EXP_STATE i == 0 && s.rd .EXP_LINK_UP i == 0 && !s.portBound i
  | _ => !(s.taken (·.slices)).contains i

/-- A slice loses its tags and data. -/
def State.dropSlice (s : State) (n : Nat) : State := { s with syc := { s.syc with sets := s.syc.sets.keep (fun k _ => k / 1024 != n) } }

/-- Write one gate field: bit `b` of entry `i` stands for block `first + b` and is known as block number `code + b` while it ungates.  Bits of
blocks that may not be gated take their reset value, and the write is logged. -/
def State.gateField (s : State) (source fn off : Nat) (f : Fld) (i first code v : Nat) : State :=
  let p := f.spec
  let old := s.rd f i
  let v := v % 2 ^ p.width
  let new := (List.range p.width).foldl (fun n b => if bit v b && s.gateable f (first + b) then n + 2 ^ b else n) 0
  let s := if new = v then s else s.logClamp ⟨fieldId off p.lo, source, fn, true, v, new, 0, false⟩
  let s := s.wr f i new
  let up := (List.range p.width).filter (fun b => bit old b && !bit new b)
  let down := (List.range p.width).filter (fun b => bit new b && !bit old b)
  let s := if f == .PWR_GATE_SLICE then down.foldl (fun s b => s.dropSlice (first + b)) s else s
  { s with pwr := { s.pwr with ungating := (s.pwr.ungating.filter (fun x => !(down.map (fun b => code + b)).contains x)) ++ up.map (fun b => code + b) } }

/-- Write a register of PWR_GATE. -/
def State.gateWrite (s : State) (source fn off val : Nat) : State :=
  if off = 0xF00100 then
    let s := s.gateField source fn off .PWR_GATE_PLK 0 0 0 val
    let s := s.gateField source fn off .PWR_GATE_NET 0 0 16 (val / 2 ^ 16)
    s.gateField source fn off .PWR_GATE_EXP 0 0 24 (val / 2 ^ 24)
  else
    let k := (off - 0xF00104) / 4
    s.gateField source fn off .PWR_GATE_SLICE k (32 * k) (0x100 + 32 * k) val

/-- A register of PWR_GATE is written: a device-wide order. -/
def execBlockGate (fn off val : Nat) (s : State) : Out :=
  let here := [0xF00100, 0xF00104, 0xF00108, 0xF0010C, 0xF00110].contains off
  if s.closed fn off || !isMgr fn || !here then .next s
  else if fn != s.primaryFn then .next (s.foreignOrder fn off 0)
  else .next (s.gateWrite 0 fn off val)

/-- A block has been ungated: a slice comes back with every tag invalid (R575). -/
def execUngateDone (block : Nat) (s : State) : Out :=
  if !s.pwr.ungating.contains block then .next s
  else
    let t := if 0x100 ≤ block then s.dropSlice (block - 0x100) else s
    let t := { t with pwr := { t.pwr with ungating := t.pwr.ungating.filter (fun x => x != block) } }
    .next (if block < 12 then t.linkStart block else t)

/-! ### Telemetry and alarms (R576 to R580) -/

/-- Nominal values of the rails but VDD_CORE, in mV. -/
def railNominal : List Nat := [0, 800, 900, 1200, 1800, 750]

/-- A value lies within a percentage of a nominal value. -/
def within (v nominal percent : Nat) : Bool := decide (nominal * (100 - percent) ≤ 100 * v) && decide (100 * v ≤ nominal * (100 + percent))

/-- Raise or clear an alarm: `over` raises it, `under` counts towards clearing it, which takes `need` samples in a row. -/
def State.alarm (s : State) (code need : Nat) (ovf under : Bool) : State :=
  let up := bit (s.rd .PWR_ALARM_STATE 0) (code - 1)
  let calm := if under then s.pwr.calm.get 0 code + 1 else 0
  let s := { s with pwr := { s.pwr with calm := Tab.set s.pwr.calm 0 code (if up then calm else 0) } }
  if !up && ovf then
    ((s.wr .PWR_ALARM_STATE 0 (s.rd .PWR_ALARM_STATE 0 + 2 ^ (code - 1))).occur 4).post (devInc 0x1002 .degraded 0 0 [code])
  else if up && decide (need ≤ calm) then
    let s := { s with pwr := { s.pwr with calm := Tab.del s.pwr.calm code } }
    (s.wr .PWR_ALARM_STATE 0 (s.rd .PWR_ALARM_STATE 0 - 2 ^ (code - 1))).occur 4
  else s

/-- The junction's own overheat alert (R579). -/
def State.overheat (s : State) : State :=
  let t := s.rd .PWR_TEMP_MAX 0
  if s.rd .PWR_ALERT_JUNCTION 0 = 0 then
    if s.rd .PWR_T_CRIT 0 ≤ t then ((s.wr .PWR_ALERT_JUNCTION 0 1).post (devInc 0x1003 .device 0 0 [])).occur 4 else s
  else if t + s.rd .PWR_T_HYST 0 ≤ s.rd .PWR_T_CRIT 0 then s.wr .PWR_ALERT_JUNCTION 0 0 else s

/-- The core voltage target moves towards what process data and temperature ask for: by at most 10 mV, within 650 to 850 mV (R576). -/
def avsNext (now want : Nat) : Nat := clampTo 650 850 (clampTo (now - 10) (now + 10) want)

/-- The telemetry registers at a sampling point. -/
def State.sample (s : State) (temps rails : List Nat) (power energy : Nat) : State :=
  let s := (List.range 16).foldl (fun (s : State) i => s.wr .PWR_TEMP i (word temps i)) s
  let hot := (List.range 16).foldl (fun m i => max m (s.rd .PWR_TEMP i)) 0
  let s := (s.wr .PWR_TEMP_MAX 0 hot).wr .PWR_TEMP_PEAK 0 (max hot (s.rd .PWR_TEMP_PEAK 0))
  let s := (List.range 6).foldl (fun (s : State) r => s.wr .PWR_RAIL_MV r (word rails r)) s
  let last : List Nat := (s.pwr.samples ++ [power]).drop ((s.pwr.samples.length + 1) - 16)
  let s : State := { s with pwr := { s.pwr with samples := last, peak := max s.pwr.peak hot } }
  (s.wr .PWR_POWER_MW 0 (last.foldl (fun a b => a + b) 0 / last.length)).wr .PWR_ENERGY_MJ 0 (s.rd .PWR_ENERGY_MJ 0 + energy)

/-- The alarms at a sampling point, VDD_CORE held against the target that was in force. -/
def State.alarms (s : State) (target : Nat) : State :=
  let hot := s.rd .PWR_TEMP_MAX 0
  let ovf := decide (s.rd .PWR_LIMIT_W 0 * 1000 < s.rd .PWR_POWER_MW 0)
  let core := within (s.rd .PWR_RAIL_MV 0) target 3
  let other := (span 1 5).all (fun r => within (s.rd .PWR_RAIL_MV r) (word railNominal r) 5)
  let warm := decide (s.rd .PWR_T_WARN 0 ≤ hot)
  let cool := decide (hot + s.rd .PWR_T_HYST 0 ≤ s.rd .PWR_T_WARN 0)
  ((((s.alarm 1 16 ovf (!ovf)).alarm 2 16 (!core) core).alarm 3 16 (!other) other).alarm 4 1 warm cool).overheat

/-- A sampling point: 16 temperatures, six rails in mV, the power of the interval in mW, its energy in mJ, and the target computed. -/
def execTelemetrySample (temps rails : List Nat) (power energy avs : Nat) (s : State) : Out :=
  if !s.pins.pwrgood then .next s
  else
    let target := s.rd .PWR_AVS_TARGET_MV 0
    .next (((s.sample temps rails power energy).wr .PWR_AVS_TARGET_MV 0 (avsNext target avs)).alarms target)

/-- The causes of THERM_ALERT_N: bit 0 the junction, bit 1 + s stack s (R580). -/
def State.alertCause (s : State) : Nat :=
  s.rd .PWR_ALERT_JUNCTION 0 + (List.range 8).foldl (fun n i => n + put (s.rd .STK_TRIPPED i) (1 + i) 1) 0

/-- THERM_ALERT_N is driven low (R580, R593). -/
def State.thermAlert (s : State) : Bool := s.pins.pwrgood && s.pins.sysRstN && s.alertCause != 0

/-- FAULT_N is driven low (R503, R521, R528, R593). -/
def State.faultPin (s : State) : Bool :=
  s.pins.pwrgood && s.pins.sysRstN && (s.rd .INC_DEVICE_PENDING 0 == 1 || s.boot.failed || s.rd .BOOT_FAWN 0 == 1)

/-- EXP_PERST_N of an expansion port is high (R605). -/
def State.expPerst (s : State) (p : Nat) : Bool :=
  s.pins.pwrgood && (s.rd .BOOT_READY 0 == 1 || decide (0 < s.boot.warmStep)) && !bit (s.rd .PWR_GATE_EXP 0) p

/-! ### The I3C target (R582 to R584) -/

/-- The register at BOOT_PHASE as the host reads it. -/
def State.bootWord0 (s : State) : Nat :=
  put (s.rd .BOOT_PHASE 0) 0 3 + put (s.rd .BOOT_READY 0) 4 1 + put (s.rd .BOOT_FAWN 0) 5 1 + put (s.rd .BOOT_IMAGE 0) 6 1
    + put (s.rd .BOOT_RECORD_STATUS 0) 8 2 + put (s.rd .BOOT_READY_MS 0) 16 16

/-- The register at BOOT_ATTEMPTS. -/
def State.bootWord1 (s : State) : Nat :=
  put (s.rd .BOOT_ATTEMPT_LIMIT 0) 0 3 + put (s.rd .BOOT_ATTEMPTS 0) 8 3 + put (s.rd .BOOT_FAWN_REQ 0) 17 1

/-- The register at BOOT_FAIL_REASON. -/
def State.bootWord2 (s : State) : Nat :=
  put (s.rd .BOOT_FAIL_REASON 0) 0 8 + put (s.rd .BOOT_FAIL_PHASE 0) 8 3 + put (s.rd .BOOT_FAWN_REASON 0) 16 2

/-- A value of the table "I3C telemetry map"; zero at an index that it does not list. -/
def State.i3cValue (s : State) (index : Nat) : Nat :=
  match index with
  | 0x00 => put (s.rd .PWR_TEMP_MAX 0) 0 8 + put s.pwr.peak 8 8 + put (s.rd .PWR_ALARM_STATE 0) 16 4 + put s.alertCause 20 9
  | 0x01 => s.rd .PWR_POWER_MW 0
  | 0x02 => s.rd .PWR_AVS_TARGET_MV 0
  | 0x03 => s.rd .PWR_ENERGY_MJ 0 % 2 ^ 32
  | 0x04 => s.pwr.energyHi
  | 0x08 => s.bootWord0
  | 0x09 => s.bootWord1
  | 0x0A => s.bootWord2
  | 0x0B => s.rd .INC_DEVICE_PENDING 0 + put (s.rd .BOOT_FAWN 0) 1 1
  | 0x0C => s.rd .HST_SERIAL 0 % 2 ^ 32
  | 0x0D => s.rd .HST_SERIAL 0 / 2 ^ 32
  | n => if 0x10 ≤ n ∧ n < 0x16 then s.rd .PWR_RAIL_MV (n - 0x10) else if 0x20 ≤ n ∧ n < 0x30 then s.rd .PWR_TEMP (n - 0x20) else 0

/-- A private write of an index and a private read of 4 bytes (R583). -/
def execI3cTelemetryRead (index : Nat) (s : State) : Out :=
  if !s.pins.pwrgood then .next s
  else
    let t := s.emit .i3c [1, index, s.i3cValue index]
    match index with
    | 0x00 => .next { t with pwr := { t.pwr with peak := 0 } }
    | 0x03 => .next { t with pwr := { t.pwr with energyHi := s.rd .PWR_ENERGY_MJ 0 / 2 ^ 32 } }
    | _ => .next t

/-- The one private write with effect: 0x0000_FA3E at index 0x40 sets BOOT_FAWN_REQ (R583). -/
def execI3cFawnRequest (index val : Nat) (s : State) : Out :=
  if s.pins.pwrgood && index == 0x40 && val == 0xFA3E then .next (s.wr .BOOT_FAWN_REQ 0 1) else .next s

/-- The target's static address. -/
def i3cStatic : Nat := 0x2C

/-- The address of the target. -/
def State.setAddress (s : State) (a : Option Nat) : State := { s with pwr := { s.pwr with address := a } }

/-- ENTDAA: a target without a dynamic address takes the one that is assigned. -/
def execEntdaa (addr : Nat) (s : State) : Out :=
  if s.pins.pwrgood && s.pwr.address.isNone then .next ((s.emit .i3c [2, s.rd .HST_SERIAL 0 % 2 ^ 48]).setAddress (some (addr % 128))) else .next s

/-- SETDASA: the static address becomes the dynamic address. -/
def execSetdasa (s : State) : Out :=
  if s.pins.pwrgood && s.pwr.address.isNone then .next (s.setAddress (some i3cStatic)) else .next s

/-- RSTDAA: the dynamic address is given up. -/
def execRstdaa (s : State) : Out := if s.pins.pwrgood then .next (s.setAddress none) else .next s

/-- An in-band interrupt: the mandatory byte 0x01 and the source number, low byte first (R584). -/
def State.ibi (s : State) (src : Nat) : State := s.emit .i3c [3, 1, src % 256, src / 256]

/-- ENEC: in-band interrupts are enabled and the sources held go out in order. -/
def execEnec (s : State) : Out :=
  if !s.pins.pwrgood then .next s
  else
    let t := s.pwr.ibiQ.foldl State.ibi s
    .next { t with pwr := { t.pwr with ibiOn := true, ibiQ := [] } }

/-- DISEC: in-band interrupts are disabled. -/
def execDisec (s : State) : Out := if s.pins.pwrgood then .next { s with pwr := { s.pwr with ibiOn := false } } else .next s

/-- GETPID: the provisional ID, taken from HST_SERIAL (R582). -/
def execGetpid (s : State) : Out := if s.pins.pwrgood then .next (s.emit .i3c [4, s.rd .HST_SERIAL 0 % 2 ^ 48]) else .next s

/-- A value of the target that the spec does not state: fixed for the part. -/
def State.i3cConst (s : State) (code : Nat) : State := s.emit .i3c [code, (Config.i3cConst code).toNat]

/-- GETBCR. -/
def execGetbcr (s : State) : Out := if s.pins.pwrgood then .next (s.i3cConst 5) else .next s

/-- GETDCR. -/
def execGetdcr (s : State) : Out := if s.pins.pwrgood then .next (s.i3cConst 6) else .next s

/-- GETSTATUS: the status word is not stated and may change. -/
def execGetstatus (s : State) : Out :=
  if s.pins.pwrgood then let r := s.fresh; .next (r.2.emit .i3c [7, r.1 % 2 ^ 16]) else .next s

/-- GETMXDS. -/
def execGetmxds (s : State) : Out := if s.pins.pwrgood then .next (s.i3cConst 8) else .next s

/-! ### Events forwarded by the management cores (R198, R584) -/

/-- Forward a claimed source: an in-band interrupt, or held while they are not enabled; a full queue drops it. -/
def State.forwardIbi (s : State) (src : Nat) : State :=
  if s.pwr.ibiOn then s.ibi src
  else if s.pwr.ibiQ.length < 16 then { s with pwr := { s.pwr with ibiQ := s.pwr.ibiQ ++ [src] } }
  else s.bump .PWR_IBI_DROPPED 0 1

/-- Firmware on a core claims a source of a vector that targets the core, and forwards it. -/
def execMgmtCoreEventForward (core vec : Nat) (s : State) : Out :=
  let fn := s.primaryFn
  if 4 ≤ core || decide (256 ≤ vec) || s.retryStatus || !bit (s.rd .EVT_TARGETS (vecIx fn vec)) (4 + core) then .next s
  else
    let r := s.claim fn vec
    if r.1.1 = 0 then .next r.2 else .next (r.2.forwardIbi r.1.1)

end Sys2Proof.Machine
end

