-- ==== Sys2Proof/Machine/Security.lean ====
section
/-! DEFINITION. Link keys, SPDM and attestation, IDE, TDISP, fuses and the debug lock (chapter 20). -/
namespace Sys2Proof.Machine

open Sys2Proof

/-! ### SPDM (R552, R553) -/

/-- An SPDM or TDISP response: where it goes (port, or 0x100 + instance), its code and its operands. -/
def State.answer (s : State) (whom code : Nat) (args : List Nat) : State := s.emit .spdm (whom :: code :: args)

/-- An SPDM error: 0x03 busy, 0x04 unexpected request, 0x06 decryption failed, 0x0A session limit, 0x0B session required, 0x01 invalid request
(codes of the SPDM standard). -/
def State.spdmError (s : State) (port why : Nat) : State := s.answer port 0x7F [why]

/-- The responder of a port runs: after READY, outside fawn mode. -/
def State.spdmUp (s : State) (port : Nat) : Bool := decide (port < 2) && !s.retryStatus && s.rd .BOOT_FAWN 0 == 0

/-- The connection state of a port: 1 version, 2 capabilities, 3 algorithms. -/
def State.conn (s : State) (port : Nat) : Nat := s.sec.spdm.get 0 port

/-- Set the connection state of a port. -/
def State.setConn (s : State) (port n : Nat) : State := { s with sec := { s.sec with spdm := Tab.set s.sec.spdm 0 port n } }

/-- A request on a port: answered by `k` where the responder runs and the connection state is one of `ok`, else with an error. -/
def State.spdmReq (s : State) (port : Nat) (ok : Nat → Bool) (k : State → State) : State :=
  if !s.spdmUp port then s else if ok (s.conn port) then k s else s.spdmError port 4

/-- GET_VERSION. -/
def execGetVersion (port : Nat) (s : State) : Out := .next (s.spdmReq port (fun _ => true) (fun s => (s.setConn port 1).answer port 0x04 [0x13]))

/-- GET_CAPABILITIES. -/
def execGetCapabilities (port : Nat) (s : State) : Out :=
  .next (s.spdmReq port (fun n => n == 1) (fun s => (s.setConn port 2).answer port 0x61 []))

/-- NEGOTIATE_ALGORITHMS: `offered` tells that the requester offers the only algorithms the junction has. -/
def execNegotiateAlgorithms (port : Nat) (offered : Bool) (s : State) : Out :=
  .next (s.spdmReq port (fun n => n == 2) (fun s => if offered then (s.setConn port 3).answer port 0x63 [] else s.spdmError port 1))

/-- A digest of six 64-bit words. -/
def digestOf (ws : List Nat) : List Nat := (List.range 6).map (fun i => (Config.digest ws i).toNat)

/-- GET_DIGESTS: the digest of the chain in slot 0. -/
def execGetDigests (port : Nat) (s : State) : Out :=
  .next (s.spdmReq port (fun n => n == 3) (fun s => s.answer port 0x01 (1 :: digestOf [0, s.rd .HST_SERIAL 0, s.sec.digest, s.sec.recDigest])))

/-- GET_CERTIFICATE: a portion of the chain in slot 0, the one slot there is. -/
def execGetCertificate (port slot offset len : Nat) (s : State) : Out :=
  .next (s.spdmReq port (fun n => n == 3) (fun s =>
    if slot != 0 then s.spdmError port 1
    else s.answer port 0x02 [offset, len, (Config.digest [1, s.rd .HST_SERIAL 0, s.sec.digest, s.sec.recDigest, offset, len] 0).toNat]))

/-- A signature by the alias key: a value of the block's own. -/
def State.sign (s : State) (k : Nat → State → State) : State := let r := s.fresh; k r.1 r.2

/-- CHALLENGE. -/
def execChallenge (port slot : Nat) (s : State) : Out :=
  .next (s.spdmReq port (fun n => n == 3) (fun s =>
    if slot != 0 then s.spdmError port 1 else s.sign (fun sig s => s.answer port 0x03 [sig])))

/-- The fields whose access code is RWL, in ascending offset. -/
def rwlFields : List Fld := Fld.all.filter (fun f => f.spec.access == .RWL)

/-- The values of every entry of every RWL field. -/
def State.rwlValues (s : State) : List Nat := rwlFields.flatMap (fun f => (List.range f.spec.count).map (fun i => s.rd f i))

/-- A measurement block (table "Measurements"). -/
def State.measurement (s : State) (index : Nat) : List Nat :=
  match index with
  | 1 => digestOf [2, s.sec.digest]
  | 2 => if s.rd .BOOT_RECORD_STATUS 0 = 2 then List.replicate 6 0 else digestOf [3, s.sec.recDigest]
  | 3 => [s.rd .SEC_LIFECYCLE 0, s.rd .SEC_MIN_SVN 0, s.rd .SEC_IMAGE_SVN 0, s.rd .SEC_FW_KEY_REVOKED 0]
  | 4 => [s.rd .SEC_DBG_OPENED_SINCE_POWER 0, s.rd .SEC_DBG_FAILURES 0]
  | _ => digestOf (4 :: s.rwlValues)

/-- GET_MEASUREMENTS: index 0 asks for their number, 0xFF for all of them. -/
def execGetMeasurements (port index : Nat) (s : State) : Out :=
  .next (s.spdmReq port (fun n => n == 3) (fun s =>
    if index = 0 then s.answer port 0x60 [5]
    else if 1 ≤ index && index ≤ 5 then s.sign (fun sig s => s.answer port 0x60 (index :: s.measurement index ++ [sig]))
    else if index = 0xFF then s.sign (fun sig s => s.answer port 0x60 ((span 1 5).flatMap (fun i => i :: s.measurement i) ++ [sig]))
    else s.spdmError port 1))

/-- KEY_EXCHANGE opens a session, of at most 8 across both ports; `digest` is the digest of the requester's leaf public key where it is
authenticated. -/
def execKeyExchange (port slot : Nat) (mutualAuth : Bool) (digest : Nat) (s : State) : Out :=
  .next (s.spdmReq port (fun n => n == 3) (fun s =>
    if slot != 0 then s.spdmError port 1
    else if 8 ≤ s.sec.sessions.length then s.spdmError port 0x0A
    else
      let x : Session := { id := s.sec.sessSerial, port := port, established := false, mutualAuth := mutualAuth, digest := digest }
      let s := { s with sec := { s.sec with sessions := s.sec.sessions ++ [x], sessSerial := s.sec.sessSerial + 1 } }
      s.sign (fun sig s => s.answer port 0x64 [x.id, sig])))

/-- An open session. -/
def State.session (s : State) (id : Nat) : Option Session := s.sec.sessions.find? (fun x => x.id == id)

/-- Close a session. -/
def State.closeSession (s : State) (id : Nat) : State :=
  { s with sec := { s.sec with sessions := s.sec.sessions.filter (fun (x : Session) => x.id != id) } }

/-- A request in an established session. -/
def State.inSession (s : State) (id : Nat) (k : Session → State → State) : State :=
  match s.session id with
  | none => s
  | some x => if !s.spdmUp x.port then s else if x.established then k x s else s.spdmError x.port 4

/-- FINISH: the requester's proof verifies, or the session is closed. -/
def execFinish (session : Nat) (verified : Bool) (s : State) : Out :=
  match s.session session with
  | none => .next s
  | some x =>
    if !s.spdmUp x.port then .next s
    else if x.established then .next (s.spdmError x.port 4)
    else if !verified then .next ((s.closeSession session).spdmError x.port 6)
    else
      let t := { s with sec := { s.sec with sessions := s.sec.sessions.map (fun (y : Session) =>
        if y.id == session then { y with established := true } else y) } }
      .next (t.answer x.port 0x65 [session])

/-- KEY_UPDATE. -/
def execKeyUpdate (session op : Nat) (s : State) : Out := .next (s.inSession session (fun x s => s.answer x.port 0x69 [session, op]))
/-- HEARTBEAT. -/
def execHeartbeat (session : Nat) (s : State) : Out := .next (s.inSession session (fun x s => s.answer x.port 0x68 [session]))
/-- END_SESSION. -/
def execEndSession (session : Nat) (s : State) : Out :=
  .next (s.inSession session (fun x s => (s.closeSession session).answer x.port 0x6C [session]))

/-! ### Link keys (R546 to R548) -/

/-- SEC_CMP_AUTH of a compartment as one number. -/
def State.cmpAuth (s : State) (c : Nat) : Nat := (List.range 12).foldl (fun n i => n + s.rd .SEC_CMP_AUTH (12 * c + i) * 2 ^ (32 * i)) 0

/-- LINK_KEY_SET, a vendor-defined request: a key, its sender tag and its activation beat for a compartment. -/
def execLinkKeySet (session cmp key tag beat : Nat) (s : State) : Out :=
  .next (s.inSession session (fun x s =>
    if x.mutualAuth && decide (cmp < 32) && x.digest == s.cmpAuth cmp && s.cmpState cmp == .assigned then
      ({ s with sec := { s.sec with linkStg := Tab.put s.sec.linkStg cmp (key, tag % 2 ^ 32, beat % 2 ^ 64) } }).answer x.port 0x7E [session, cmp]
    else s.spdmError x.port 1))

/-- The beat of the first cadence frame boundary at or after a beat (R397). -/
def frameFrom (beat : Nat) : Nat := ceilDiv (ceilDiv (beat * 25) 32768 * 32768) 25

/-- A STAGED link key takes effect (R548); the numbers marked USED under the old key are free again (R550). -/
def State.activateKey (s : State) (c : Nat) (k : Nat × Nat × Nat) : State :=
  let b := frameFrom k.2.2
  let prev := match s.sec.linkAct.find c with
    | some a => Tab.put s.sec.linkPrev c (a.1, a.2.1, b)
    | none => s.sec.linkPrev
  let mine := (s.grants c).qpBlk
  { s with sec := { s.sec with
      linkAct := Tab.put s.sec.linkAct c (k.1, k.2.1, b)
      linkStg := Tab.del s.sec.linkStg c
      linkPrev := prev
      used := s.sec.used.filter (fun q => !mine.contains (q / 512)) } }

/-- The cadence frame boundary of a STAGED link key is reached. -/
def execLinkKeyActivate (cmp : Nat) (s : State) : Out :=
  match s.sec.linkStg.find cmp with
  | some k => if frameFrom k.2.2 ≤ s.beat then .next (s.activateKey cmp k) else .next s
  | none => .next s

/-- 1,048,576 beats after the boundary the PREVIOUS key is destroyed. -/
def execLinkKeyPreviousExpiry (cmp : Nat) (s : State) : Out :=
  match s.sec.linkPrev.find cmp with
  | some k => if k.2.2 + 1048576 ≤ s.beat then .next { s with sec := { s.sec with linkPrev := Tab.del s.sec.linkPrev cmp } } else .next s
  | none => .next s

/-! ### PCIe IDE (R554 to R556) -/

/-- The streams of a host port: the link stream and 4 selective streams. -/
def ideStreams : Nat := 5

/-- A stream before any key is programmed. -/
def IdeStream.none : IdeStream := ⟨0, 0, false⟩

/-- Replace an IDE stream of a host port. -/
def State.setIde (s : State) (port stream : Nat) (x : IdeStream) : State :=
  { s with sec := { s.sec with ide := Tab.set s.sec.ide IdeStream.none (8 * port + stream) x } }

/-- An IDE_KM request in an established session of the port: 0 programs key set `set`, 1 starts it or switches to it, 2 stops it. -/
def execIdeKm (port session stream op set : Nat) (s : State) : Out :=
  .next (s.inSession session (fun x s =>
    if x.port != port || decide (ideStreams ≤ stream) || decide (2 ≤ set) then s.spdmError x.port 1
    else
      let i := s.sec.ide.get IdeStream.none (8 * port + stream)
      match op with
      | 0 => (s.setIde port stream { i with keys := if bit i.keys set then i.keys else i.keys + 2 ^ set }).answer port 0x7E [0, stream, set]
      | 1 =>
        if bit i.keys set then (s.setIde port stream { i with active := set + 1, insecure := false }).answer port 0x7E [1, stream, set]
        else s.spdmError port 1
      | 2 =>
        let i' : IdeStream := { i with keys := if bit i.keys set then i.keys - 2 ^ set else i.keys, active := if i.active = set + 1 then 0 else i.active }
        (s.setIde port stream i').answer port 0x7E [2, stream, set]
      | _ => s.spdmError port 1))

/-- The record of an IDE failure. -/
def State.ideIncident (s : State) (unit : Nat) (cs : List Nat) : State :=
  s.post { code := 0x0F02, sev := .degraded, cSev := .job, cmps := cs, toC := true, unit := unit }

/-- An IDE stream enters Insecure: on a host port its keys are destroyed, its traffic blocked, and the interfaces bound to a selective stream
fail; on an expansion port the link is lost (R391). -/
def execIdeFailure (exp : Bool) (port stream : Nat) (s : State) : Out :=
  if exp then
    if 8 ≤ port || s.rd .EXP_IDE_UP port = 0 then .next s
    else
      let cs := tenants.filter (fun c => (s.grants c).t2.any (fun g => g / 512 == port))
      .next ((s.ideIncident (0x10 + port) cs).expansionLoss port)
  else
    let i := s.sec.ide.get IdeStream.none (8 * port + stream)
    if 2 ≤ port || decide (ideStreams ≤ stream) || i.active = 0 || i.insecure then .next s
    else
      let t := s.setIde port stream ⟨0, 0, true⟩
      let hit := if stream = 0 then [] else (instancesAt port).filter (fun f => s.sec.ifStream.get 0 f == stream)
      .next ((hit.foldl State.tdispError t).ideIncident (0x20 + port) (t.cmpsAt port))

/-- SEC_EXP_IDE_REKEY is written: fresh keys in the unused key set, and a switch to it; a device-wide order. -/
def execExpIdeRekey (fn port : Nat) (s : State) : Out :=
  if s.barsBlocked fn || !isMgr fn || decide (8 ≤ port) then .next s
  else if fn != s.primaryFn then .next (s.foreignOrder fn (0xE02000 + 0x40 * port) 0)
  else if s.rd .EXP_IDE_UP port = 0 || s.sec.entropyBad then .next s
  else .next { s with sec := { s.sec with expSet := Tab.set s.sec.expSet 0 port (1 - s.sec.expSet.get 0 port) } }

/-! ### TDISP (R557) -/

/-- The state of an interface: 0 CONFIG_UNLOCKED, 1 CONFIG_LOCKED, 2 RUN, 3 ERROR. -/
def State.tdi (s : State) (i : Nat) : Nat := s.sec.tdisp.get 0 i

/-- Move an interface to a state, bound to a selective stream (0 none). -/
def State.setTdi (s : State) (i st stream : Nat) : State :=
  { s with sec := { s.sec with tdisp := Tab.set s.sec.tdisp 0 i st, ifStream := Tab.set s.sec.ifStream 0 i stream } }

/-- A TDISP request to an interface, answered by `k` where its port's responder runs. -/
def State.tdispReq (s : State) (i : Nat) (k : State → State) : State := if isMgr i || !s.spdmUp (portOf i) then s else k s

/-- A TDISP error. -/
def State.tdispErr (s : State) (i : Nat) : State := s.answer (0x100 + i) 0x7F []

/-- LOCK_INTERFACE_REQUEST: a bound and enabled instance in CONFIG_UNLOCKED locks, bound to the selective stream named (0 none). -/
def execLockInterfaceRequest (idx stream : Nat) (s : State) : Out :=
  .next (s.tdispReq idx (fun s =>
    if s.tdi idx = 0 && s.rd .INS_BOUND idx == 1 && s.rd .INS_ENABLE idx == 1 && decide (stream < ideStreams) then
      (s.setTdi idx 1 stream).answer (0x100 + idx) 0x03 []
    else s.tdispErr idx))

/-- What the interface report carries of an instance. -/
def State.interfaceReport (s : State) (i : Nat) : List Nat :=
  let c := s.rd .INS_CMP i
  [0x100000, 0x100000, c, s.rd .CMP_SEALED c, s.rd .INS_CMD_RINGS i, s.rd .INS_CPL_RINGS i, s.rd .INS_ENGINES i, s.rd .INS_RING_MOOD i,
   s.rd .INS_QP_FIRST i, s.rd .INS_QP_COUNT i, s.rd .INS_QP_IND i, s.rd .INS_PASID_BASE i, s.rd .INS_PASID_COUNT i]
    ++ (List.range 12).map (fun k => s.rd .SEC_CMP_AUTH (12 * c + k))

/-- GET_DEVICE_INTERFACE_REPORT of a locked or running interface. -/
def execGetDeviceInterfaceReport (idx : Nat) (s : State) : Out :=
  .next (s.tdispReq idx (fun s => if s.tdispLocked idx then s.answer (0x100 + idx) 0x04 (s.interfaceReport idx) else s.tdispErr idx))

/-- GET_DEVICE_INTERFACE_STATE. -/
def execGetDeviceInterfaceState (idx : Nat) (s : State) : Out := .next (s.tdispReq idx (fun s => s.answer (0x100 + idx) 0x05 [s.tdi idx]))

/-- START_INTERFACE_REQUEST: CONFIG_LOCKED to RUN. -/
def execStartInterfaceRequest (idx : Nat) (s : State) : Out :=
  .next (s.tdispReq idx (fun s =>
    if s.tdi idx = 1 then (s.setTdi idx 2 (s.sec.ifStream.get 0 idx)).answer (0x100 + idx) 0x06 [] else s.tdispErr idx))

/-- STOP_INTERFACE_REQUEST: any state to CONFIG_UNLOCKED. -/
def execStopInterfaceRequest (idx : Nat) (s : State) : Out :=
  .next (s.tdispReq idx (fun s => (s.setTdi idx 0 0).answer (0x100 + idx) 0x07 []))

/-! ### Fuses (R560, R561) -/

/-- SEC_SVN_COMMIT is written: the SEC_MIN_SVN fuses rise to the SVN of the running image. -/
def execSvnCommit (fn : Nat) (s : State) : Out :=
  if s.barsBlocked fn || !isMgr fn then .next s
  else if fn != s.primaryFn then .next (s.foreignOrder fn 0xE0000C 0)
  else .next (s.wr .SEC_MIN_SVN 0 (max (s.rd .SEC_MIN_SVN 0) (s.rd .SEC_IMAGE_SVN 0)))

/-- SEC_SEAL is written: 0x5EA1 on a LAB part blows the seal fuse, which takes effect at the next cold reset. -/
def execSeal (fn value : Nat) (s : State) : Out :=
  if s.barsBlocked fn || !isMgr fn then .next s
  else if fn != s.primaryFn then .next (s.foreignOrder fn 0xE00004 0)
  else if value = 0x5EA1 && s.rd .SEC_LIFECYCLE 0 = 0 then .next { s with sec := { s.sec with sealNext := true } }
  else .next s

/-! ### The debug lock (R562 to R565) -/

/-- The challenge record as 32-bit words (table "Challenge record"). -/
def State.challengeWords (s : State) (rnd : List Nat) : List Nat :=
  let serial := s.rd .HST_SERIAL 0
  [0x4C444A50, 1 + put (s.rd .SEC_LIFECYCLE 0) 8 8 + put (s.rd .SEC_DBG_FAILURES 0) 16 16, serial % 2 ^ 32, serial / 2 ^ 32,
   s.beat % 2 ^ 32, s.beat / 2 ^ 32] ++ rnd.flatMap (fun r => [r % 2 ^ 32, r / 2 ^ 32]) ++ [0, 0]

/-- A new challenge is issued; an earlier one is discarded. -/
def State.issueChallenge (s : State) : State :=
  let a := s.fresh
  let b := a.2.fresh
  let c := b.2.fresh
  let d := c.2.fresh
  let ws := d.2.challengeWords [a.1, b.1, c.1, d.1]
  let t := (List.range 16).foldl (fun (t : State) i => t.wr .SEC_DBG_CHALLENGE i (word ws i)) d.2
  { (t.wr .SEC_DBG_STATUS 0 1) with sec := { t.sec with challenge := some t.ns } }

/-- A challenge request on a path, 0 the registers and 1 the test port, with one on the other path in the same cycle (R562). -/
def execDebugChallengeRequest (path fn : Nat) (rival : Bool) (s : State) : Out :=
  if 2 ≤ path || !s.pins.pwrgood || (path = 0 && (s.barsBlocked fn || !isMgr fn)) then .next s
  else if path = 0 && fn != s.primaryFn then .next (s.foreignOrder fn 0xE01000 0)
  else if s.rd .SEC_DBG_LOCKOUT 0 = 1 then .next (s.wr .SEC_DBG_STATUS 0 7)
  else if s.sec.entropyBad then .next s
  else
    let a := s.arbitrate (.other 0x200) 2 (if rival then [0, 1] else [path])
    let t := a.2.issueChallenge
    .next (if rival && a.1.headD 0 != 0 then t.wr .SEC_DBG_STATUS 0 6 else t)

/-- A response fails or its challenge expires: 8 failures in a row lock the port until power loss (R564). -/
def State.debugFailed (s : State) (status : Nat) : State :=
  let n := min 15 (s.rd .SEC_DBG_FAILURES 0 + 1)
  let s := (s.wr .SEC_DBG_FAILURES 0 n).wr .SEC_DBG_STATUS 0 status
  if 8 ≤ n then s.wr .SEC_DBG_LOCKOUT 0 1 else s

/-- Every running or suspended long operation ends with SEC_DEBUG_ENDED; the work of its descriptor has been squashed. -/
def State.debugEndLongs (s : State) : State :=
  (List.range 16).foldl (fun s i => match s.longAt i with
    | some l => if l.live then s.endSlot i 0x65 else s
    | none => s) s.abortRoll

/-- What the junction does before it opens the debug port (R565). -/
def State.openDebug (s : State) : State :=
  let s := (List.range 128).foldl State.squash s
  let s := s.debugEndLongs
  let s := compartments.foldl State.destroyKeys s
  let s := (List.range 8).foldl (fun (s : State) p => s.wr .EXP_IDE_UP p 0) s
  let s := { s with sec := { s.sec with expSet := [], ide := s.sec.ide.mapVals (fun _ _ => ⟨0, 0, true⟩) } }
  let s := (tenants.foldl (fun s c => s.taint c 5) s).freshKeys 0
  ((s.wr .SEC_DBG_OPEN 0 1).wr .SEC_DBG_OPENED_SINCE_POWER 0 1).post (devInc 0x0F01 .device 0 0 [])

/-- A response passes (R563): mode 0 by signature; mode 1 by the lab password, on LAB parts only, its last 160 bytes zero. -/
def State.responseOk (s : State) (mode : Nat) (ws : List Nat) : Bool :=
  if mode = 0 then Config.verify 1 ((List.range 16).map (fun i => s.rd .SEC_DBG_CHALLENGE i) ++ ws)
  else s.rd .SEC_LIFECYCLE 0 == 0 && (span 8 40).all (fun i => word ws i == 0) && Config.verify 2 (ws.take 8)

/-- A response is submitted: on the register path with the words and the mode in the registers, on the test port with those given. -/
def execDebugResponseSubmit (path fn mode : Nat) (words : List Nat) (s : State) : Out :=
  if 2 ≤ path || !s.pins.pwrgood || (path = 0 && (s.barsBlocked fn || !isMgr fn)) then .next s
  else if path = 0 && fn != s.primaryFn then .next (s.foreignOrder fn 0xE01000 0)
  else match s.sec.challenge with
  | none => .next s
  | some _ =>
    let m := if path = 0 then s.rd .SEC_DBG_MODE 0 else mode % 2
    let ws := (List.range 48).map (fun i => if path = 0 then s.rd .SEC_DBG_RESPONSE i else word words i % 2 ^ 32)
    let ok := s.responseOk m ws
    let t := { s with sec := { s.sec with challenge := none } }
    if ok then .next ((t.openDebug.wr .SEC_DBG_FAILURES 0 0).wr .SEC_DBG_STATUS 0 3) else .next (t.debugFailed 4)

/-- 60 s after its issue a challenge expires. -/
def execDebugChallengeExpiry (s : State) : Out :=
  match s.sec.challenge with
  | none => .next s
  | some t =>
    let u := { s with sec := { s.sec with challenge := none }, ns := max s.ns (t + 60000000000) }
    .next (u.debugFailed 5)

end Sys2Proof.Machine
end

