-- ==== Sys2Proof/Machine/Boot.lean ====
section
/-! DEFINITION. Start-up (chapter 19): power, cold reset, the boot phases, the boot configuration record, and the orders of the BOOT block. -/
namespace Sys2Proof.Machine

open Sys2Proof

/-! ### What a cold reset clears (tables "State across resets" and "Compartment state across resets") -/

/-- Fuses and straps, and the mood of a compartment, beside the fields of the always-on domain: none of them is cleared by a cold reset. -/
def coldKept (f : Fld) : Bool :=
  f.spec.aon || [Fld.HST_PART_NUMBER, .HST_PACKAGE_CODE, .HST_STEP_MINOR, .HST_STEP_MAJOR, .HST_SERIAL, .HST_PRIMARY_SEL, .CMP_SEALED].contains f

/-- Fuses: what a power loss leaves. -/
def fuses : List Fld :=
  [.HST_PART_NUMBER, .HST_PACKAGE_CODE, .HST_STEP_MINOR, .HST_STEP_MAJOR, .HST_SERIAL, .SEC_LIFECYCLE, .SEC_MIN_SVN, .SEC_FW_KEY_REVOKED]

/-- Only the listed fields keep their values; staged and shadowed halves, the clamp log and the rotating pointers start anew. -/
def RegSt.only (r : RegSt) (fs : List Fld) : RegSt :=
  let ns := fs.map Fld.num
  { vals := r.vals.keep (fun k _ => ns.contains (k % 1024)), shadow := [], staged := [], clamp := [], ptrs := [] }

/-- What a compartment that is not FREE, and the house, keep of their grants (R56, R625). -/
def Grants.cold (g : Grants) : Grants :=
  { Grants.none with slices := g.slices, t1 := g.t1, t2 := g.t2, lanes := g.lanes, patterns := g.patterns }

/-- Grants across a cold reset. -/
def CmpSt.cold (c : CmpSt) : CmpSt := { State.reset.cmp with grants := c.grants.map (fun e => (e.1, e.2.cold)) }

/-- Accelerator memory keeps its contents; the expansion poison tables are cleared (R506). -/
def MemSt.cold (m : MemSt) : MemSt := { m with poison := m.poison.filter (fun l => !isT2Line l), t2Poison := [] }

/-- Every key, session, stream and interface state is gone; a seal that waited takes effect (R56, R561). -/
def SecSt.cold (x : SecSt) : SecSt := { State.reset.sec with keySerial := x.keySerial }

/-- Tier keys of every compartment are destroyed. -/
def State.destroyAll (s : State) : State := compartments.foldl State.destroyKeys s

/-- A waiting seal takes effect. -/
def State.sealIfOrdered (s : State) (ordered : Bool) : State := if ordered then s.wr .SEC_LIFECYCLE 0 1 else s

/-- The state across a cold reset, before compartments and expansion ports take their states. -/
def State.coldClear (s : State) : State :=
  let t := s.resetLongs.coldCache
  let u := { State.reset with
    pending := t.pending, sent := t.sent, ns := t.ns, free := t.free
    reg := t.reg.only (Fld.all.filter coldKept)
    mem := t.mem.cold
    pins := { t.pins with hostUp := [] }
    cmp := t.cmp.cold
    long := t.long
    sec := t.sec.cold
    boot := { State.reset.boot with powerOn := t.boot.powerOn } }
  (u.destroyAll).sealIfOrdered t.sec.sealNext

/-- Compartments across a cold reset (R56). -/
def State.coldCompartment (s : State) (c : Nat) : State :=
  match s.cmpState c with
  | .assigned | .quiesced => s.taint c 6
  | .scrubbing => s.taint c 2
  | _ => s

/-- Links are down after a cold reset: a port with bound granules is DOWN, another EMPTY (R391, R516). -/
def State.coldPorts (s : State) : State := (List.range 8).foldl (fun (s : State) p => s.setPort p (s.portOut p)) s

/-! ### A start begins (R518 to R520) -/

/-- A start that a reset ends before READY is recorded (R520). -/
def State.interrupt (s : State) : State :=
  if s.boot.running || decide (0 < s.boot.warmStep) then
    (s.wr .BOOT_FAIL_REASON 0 9).wr .BOOT_FAIL_PHASE 0 (s.rd .BOOT_PHASE 0)
  else s

/-- The links of host ports whose PERST_x_N is high are trained (R522). -/
def State.hostsUp (s : State) : State := [0, 1].foldl (fun (s : State) p => if s.perst p then s.setHostUp p true else s) s

/-- A cold or power-on start begins: fawn mode, or phase CLOCKS of a counted attempt (R519). -/
def State.beginStart (s : State) (cause : Nat) : State :=
  let powerOn := s.boot.powerOn
  let cause := if powerOn then 1 else cause
  let s := { s with boot := { s.boot with powerOn := false } }
  if s.fawnNext then (s.enterFawn cause).hostsUp
  else
    let t := s.attempt.wr .BOOT_PHASE 0 1
    { t with boot := { t.boot with running := true, typ := if powerOn then 1 else 2, cause := cause, startNs := t.ns } }

/-- A cold reset and the start that follows it. -/
def State.coldStart (s : State) (cause : Nat) : State :=
  ((tenants.foldl State.coldCompartment s.interrupt.coldClear).coldPorts).beginStart cause

/-- A cold reset: cause 2 PWRGOOD rises while VDD_AON is good, held while SYS_RST_N is low (R608); cause 5 BOOT_RESET_REQ written 2. -/
def execColdReset (cause fn key : Nat) (s : State) : Out :=
  if cause = 2 then
    if !s.pins.vddAon || s.pins.pwrgood then .next s
    else
      let t := { s with pins := { s.pins with pwrgood := true } }
      if t.pins.sysRstN then .next (t.coldStart 2) else .next { t with boot := { t.boot with sysHeld := true } }
  else if cause = 5 then .next (s.resetOrder fn key (fun s => s.coldStart 5))
  else .next s

/-- SYS_RST_N is taken high: a cold start that it held begins (R608). -/
def execSysRstNRelease (s : State) : Out :=
  let t := { s with pins := { s.pins with sysRstN := true } }
  if t.boot.sysHeld then .next (t.coldStart 2) else .next t

/-- PWRGOOD falls: the junction is held in reset, and a start that ran is recorded as interrupted (R520, R608). -/
def execPwrgoodFall (s : State) : Out :=
  if !s.pins.pwrgood then .next s
  else
    let t := s.interrupt.coldClear
    .next { t with pins := { t.pins with pwrgood := false } }

/-! ### Power (R594, R595) -/

/-- VDD_AON is lost: every key, grant and always-on state is lost; fuses remain. -/
def execPowerLoss (s : State) : Out :=
  if !s.pins.vddAon then .next s
  else
    let t := s.coldCache
    let u := { State.reset with
      pending := t.pending, sent := t.sent, ns := t.ns, free := t.free
      reg := t.reg.only fuses
      mem := t.mem.cold
      pins := { t.pins with vddAon := false, pwrgood := false, hostUp := [] }
      sec := t.sec.cold }
    .next ((u.destroyAll).sealIfOrdered t.sec.sealNext)

/-- VDD_AON becomes good: PRIMARY_SEL is sampled and the always-on domain starts. -/
def execPowerOn (sel : Nat) (s : State) : Out :=
  if s.pins.vddAon then .next s
  else
    let t := s.wr .HST_PRIMARY_SEL 0 sel
    .next { t with
      pins := { t.pins with vddAon := true, primary := sel % 2, primarySel := sel % 2 == 1 }
      boot := { t.boot with powerOn := true } }

/-! ### A start fails (R521) -/

/-- The running start fails. -/
def State.bootFail (s : State) (reason : Nat) : State :=
  let s := (s.wr .BOOT_FAIL_REASON 0 reason).wr .BOOT_FAIL_PHASE 0 (s.rd .BOOT_PHASE 0)
  State.recordStart { s with boot := { s.boot with running := false, failed := true } } s.boot.typ s.boot.cause

/-- A phase exceeds its limit. -/
def execBootPhaseTimeout (s : State) : Out :=
  if s.boot.running then .next (s.bootFail Config.timeoutReason.toNat) else .next s

/-- A management core faults, or (`entropy`) the entropy source fails its health test (R541): the start fails, or MGMT_CORE_FAULT. -/
def execMgmtCoreFault (core : Nat) (entropy : Bool) (s : State) : Out :=
  let t := if entropy then { s with sec := { s.sec with entropyBad := true } } else s
  if t.boot.running then .next (t.bootFail (if entropy then 4 else 8))
  else if t.rd .BOOT_READY 0 = 1 then .next (t.post (devInc 0x0E02 .device core 0 []))
  else .next t

/-! ### Phase CLOCKS -/

/-- Every rail, read once in mV, is within its recommended range (R598); the telemetry registers change only at sampling points (R577). -/
def State.railsOk (s : State) (rails : List Nat) : Bool :=
  within (word rails 0) (s.rd .PWR_AVS_TARGET_MV 0) 3 && (span 1 5).all (fun r => within (word rails r) (word railNominal r) 5)

/-- The rails are read, and the PLLs have locked: `reason` 1 or 2 where a clock or fuse failed. -/
def State.phaseClocks (s : State) (rails : List Nat) (reason : Nat) : State :=
  if reason = 1 || reason = 2 then s.bootFail reason
  else if !s.railsOk rails then s.bootFail 7
  else ((s.wr .PWR_PLL_LOCK 0 0x3FF).hostsUp).wr .BOOT_PHASE 0 2

/-! ### Phase IMAGE (R558) -/

/-- Slot A is tried before slot B: higher SVN, then higher build number, then A.  Facts as in `State.imageStatus`, then build and digest. -/
def firstIsA (a b : List Nat) : Bool := if word a 4 = word b 4 then decide (word b 5 ≤ word a 5) else decide (word b 4 < word a 4)

/-- An image slot has been verified and runs. -/
def State.runImage (s : State) (slot : Nat) (facts : List Nat) : State :=
  let s := ((s.wr .BOOT_IMAGE 0 slot).wr .SEC_IMAGE_SVN 0 (word facts 4)).wr .SEC_FW_KEY_USED 0 (word facts 3)
  { s with boot := { s.boot with imageUp := true }, sec := { s.sec with digest := word facts 6 } }

/-- An image slot fails: FW_IMAGE_REJECTED is posted once the device ring is enabled. -/
def State.rejectImage (s : State) (slot : Nat) : State := { s with boot := { s.boot with rejected := s.boot.rejected ++ [slot] } }

/-- The image slots are tried in order. -/
def State.phaseImage (s : State) (imgA imgB : List Nat) : State :=
  let order : List (Nat × List Nat) := if firstIsA imgA imgB then [(0, imgA), (1, imgB)] else [(1, imgB), (0, imgA)]
  let r := order.foldl (fun (r : Bool × State) e =>
    if r.1 then r else if r.2.imageStatus e.2 = 0 then (true, r.2.runImage e.1 e.2) else (false, r.2.rejectImage e.1)) (false, s)
  if r.1 then r.2.wr .BOOT_PHASE 0 3 else r.2.bootFail 3

/-! ### Phase RECORD (R523 to R525) -/

/-- A record-settable field (R524). -/
def recordSettable (f : Fld) : Bool :=
  let p := f.spec
  let perCmp := match p.dims with
    | d :: _ => d.count == 32
    | [] => false
  p.setup && !p.perFn && decide (p.base < 0x2000000) && !perCmp && f != .TRN_PC_QUOTA
    && !(decide (0x300000 ≤ p.base) && decide (p.base < 0x500000)) && !(decide (0xC00000 ≤ p.base) && decide (p.base < 0xD00000))

/-- The record-settable field at an offset and low bit, with its index. -/
def recordField (off lo : Nat) : Option Hit :=
  ((Fld.all.filter recordSettable).flatMap (hitsOf false 0 off)).find? (fun h => !h.high && h.lo == lo)

/-- The value an entry applies: a value wider than its field meets the nearest limit, or the reset value of a list of encodings. -/
def recordApply (f : Fld) (i v : Nat) (l : Limit) : Nat × Option Bool :=
  let top := 2 ^ f.spec.width - 1
  if v ≤ top then l.apply v
  else match l with
    | .all => (top, some false)
    | .range _ hi => (min hi top, some false)
    | .codes _ _ => (f.resetAt i, some true)

/-- An entry that names no record-settable field, or has a reserved bit set. -/
def State.recordUnknown (s : State) (off lo v : Nat) : State := s.logClamp ⟨fieldId off lo, 2, 0x7F, false, v, 0, 0, true⟩

/-- Apply one entry of the record to a field; PLK_LINK_EN and PWR_GATE follow their own rules (R574). -/
def State.recordSet (s : State) (off v : Nat) (h : Hit) : State :=
  let r := recordApply h.fld h.idx v (s.limitOf h.fld h.idx v s.rd)
  let s := match r.2 with
    | none => s
    | some u => s.logClamp ⟨fieldId off h.lo, 2, 0x7F, u, v, r.1, 0, false⟩
  match h.fld with
  | .PLK_LINK_EN => let e := s.linkEnValue 2 0x7F h.idx r.1; e.2.wr .PLK_LINK_EN h.idx e.1
  | .PWR_GATE_PLK => s.gateField 2 0x7F off .PWR_GATE_PLK 0 0 0 r.1
  | .PWR_GATE_NET => s.gateField 2 0x7F off .PWR_GATE_NET 0 0 16 r.1
  | .PWR_GATE_EXP => s.gateField 2 0x7F off .PWR_GATE_EXP 0 0 24 r.1
  | .PWR_GATE_SLICE => s.gateField 2 0x7F off .PWR_GATE_SLICE h.idx (32 * h.idx) (0x100 + 32 * h.idx) r.1
  | f => (s.wr f h.idx r.1).afterWrite 2 0x7F off f h.idx

/-- Apply entry `k` of a record copy. -/
def State.recordEntry (bs : List Nat) (s : State) (k : Nat) : State :=
  let w0 := leAt bs (32 + 16 * k) 8
  let v := leAt bs (40 + 16 * k) 8
  let off := bits w0 0 25
  let lo := bits w0 25 5
  if w0 / 2 ^ 30 != 0 then s.recordUnknown off lo v
  else match recordField off lo with
    | none => s.recordUnknown off lo v
    | some h => s.recordSet off v h

/-- The valid copy with the higher sequence number is applied, copy A on a tie. -/
def State.phaseRecord (s : State) (recA recB : List Nat) : State :=
  let pick : Option (Nat × List Nat) :=
    match recordValid recA, recordValid recB with
    | true, true => if recordSeq recB ≤ recordSeq recA then some (0, recA) else some (1, recB)
    | true, false => some (0, recA)
    | false, true => some (1, recB)
    | false, false => none
  let s := match pick with
    | none => s.wr .BOOT_RECORD_STATUS 0 2
    | some (k, bs) =>
      let s := s.wr .BOOT_RECORD_STATUS 0 k
      let s := (List.range (leAt bs 6 2)).foldl (State.recordEntry bs) s
      { s with sec := { s.sec with recDigest := (Config.digest bs 0).toNat } }
  s.wr .BOOT_PHASE 0 4

/-! ### Phases INIT, TRAIN and READY -/

/-- INIT: the house takes its units and grants, and the house and every FREE compartment fresh keys (R37, R542, R625). -/
def State.phaseInit (s : State) (reason : Nat) : State :=
  if reason = 4 || s.sec.entropyBad then s.bootFail 4
  else
    let s := s.houseUnits.houseGrants
    let s := (compartments.filter (fun c => c == 0 || s.cmpState c == .free)).foldl State.freshKeys s
    s.wr .BOOT_PHASE 0 5

/-- READY: one enumeration starts, enabled peer links begin to train, RESET_RECORD waits for the device ring. -/
def State.bootReady (s : State) (ms : Nat) : State :=
  let s := s.reachReady s.boot.typ s.boot.cause ms
  (List.range 12).foldl State.linkStart s.enumStart

/-- TRAIN: stacks and die ports are trained. -/
def State.phaseTrain (s : State) (reason ms : Nat) : State :=
  if reason = 5 || reason = 6 then s.bootFail reason
  else
    let s := s.wrAll .STK_TRAINED (List.range 8) 1
    let s := State.refreshAgents { s with coh := { s.coh with dieUp := [0, 1, 2, 3] } }
    s.bootReady ms

/-- Limit of a phase in milliseconds from PWRGOOD rising (table "Boot phases"). -/
def phaseLimit : List Nat := [0, 5, 300, 310, 330, 530]

/-- The work of a boot phase completes after `ms` milliseconds with what it found: rails in mV, a failure reason, the facts of the images,
the bytes of the record copies.  Past its limit, the phase fails. -/
def execBootPhaseDone (phase ms : Nat) (rails : List Nat) (reason : Nat) (imgA imgB recA recB : List Nat) (s : State) : Out :=
  if !s.pins.pwrgood || !s.boot.running || s.rd .BOOT_PHASE 0 != phase then .next s
  else if word phaseLimit phase < ms then .next (s.bootFail Config.timeoutReason.toNat)
  else match phase with
    | 1 => .next (s.phaseClocks rails reason)
    | 2 => .next (s.phaseImage imgA imgB)
    | 3 => .next (s.phaseRecord recA recB)
    | 4 => .next (s.phaseInit reason)
    | 5 => .next (s.phaseTrain reason ms)
    | _ => .next s

/-! ### Orders of the BOOT block -/

/-- BOOT_CLAMP_CLEAR: the clamp log is emptied (R527). -/
def execClampLogClear (fn : Nat) (s : State) : Out :=
  if s.closed fn 0x100104 || !isMgr fn then .next s
  else if fn != s.primaryFn then .next (s.foreignOrder fn 0x100104 0)
  else .next ({ s with reg := { s.reg with clamp := [] } }.wr .BOOT_CLAMP_DROPPED 0 0)

/-- BOOT_ATTEMPT_CLR: in fawn mode and in normal operation (R530). -/
def execAttemptClear (fn : Nat) (s : State) : Out :=
  if s.closed fn 0x100004 || !isMgr fn then .next s
  else if fn != s.primaryFn then .next (s.foreignOrder fn 0x100004 0)
  else .next (s.wr .BOOT_ATTEMPTS 0 0)

end Sys2Proof.Machine
end

