-- ==== Sys2Proof/Machine/Access.lean ====
section
/-! DEFINITION. Register accesses (chapters 0 and 23): what every register and window reads as, mirrors, register pairs, read to clear, and
writes with what follows them in the chapter of the register. -/
namespace Sys2Proof.Machine

open Sys2Proof

/-! ### Records read through windows -/

/-- A word of a clamp log entry (table "Clamp log entry"). -/
def ClampEntry.word (e : ClampEntry) : Nat → Nat
  | 0 => put e.fieldId 0 32 + put e.fn 32 7 + put (b2n e.unknown) 40 1 + put (b2n e.unlisted) 41 1 + put e.source 42 3
  | 1 => e.requested % 2 ^ 64
  | 2 => e.applied % 2 ^ 64
  | 3 => e.beat % 2 ^ 64
  | _ => 0

/-- A word of an operation slot (table "Operation slot"). -/
def LongOp.word (l : LongOp) : Nat → Nat
  | 0 => put l.id 0 32 + put l.kind 32 8 + put l.cmp 40 5 + put l.state 48 2 + put l.status 56 8
  | 1 => l.done
  | 2 => l.total
  | 3 => l.startBeat
  | 4 => l.endBeat
  | 5 => l.detail
  | 6 => put l.corr 0 32 + put l.mismatch 32 32
  | _ => 0

/-- A word of a conjunction slot record (table "Conjunction slot record"). -/
def Slot.word (t : Slot) : Nat → Nat
  | 0 => (if t.fired then 2 else 1) + put (b2n t.tagged) 2 1 + put t.cond 4 2 + put t.obj 16 12 + put t.ring 32 6 + put (t.fn % 64) 40 6
      + put (t.fn / 64) 48 1 + put (b2n t.indic) 56 1
  | 1 => t.operand
  | 2 => t.armBeat
  | 3 => t.fireBeat
  | w => if 8 ≤ w ∧ w < 16 then Sys2Proof.word t.desc (w - 8) else 0

/-- A word of a queue pair context (tables "Queue pair context"). -/
def Qp.word (q : Qp) : Nat → Nat
  | 0 => put q.state 0 3 + put (b2n q.indic) 3 1 + put (b2n q.net) 4 1 + put q.owner 8 7 + put q.pd 16 12 + put q.srq 32 12 + put q.cq 48 14
  | 1 => put q.rjid 0 8 + put q.rqp 16 16 + put q.timeout 32 24 + put q.rnrRetry 56 3
  | 2 => put q.sendMsn 0 32 + put q.ackMsn 32 32
  | 3 => put q.recvMsn 0 32 + put q.outstanding 32 9 + put q.rnrBack 48 8
  | 8 => put q.rqp 0 24 + put q.pmtu 24 3 + put (b2n q.crypt) 27 1 + put q.ah 28 6 + put q.port 36 1
  | 9 => put q.sqNext 0 24 + put q.sqAck 24 24
  | 10 => put q.rqPsn 0 24 + put q.minRnr 24 5 + put q.rdAtom 30 4
  | 11 => put q.ackTime 0 4 + put q.retryCnt 4 3 + put (q.retryCnt - q.retries) 8 3 + put q.rnrLeft 16 3
  | 12 => put q.rate 0 32
  | 13 => put q.alpha 0 16 + put (b2n q.spent) 16 1
  | 14 => put q.flow 0 32
  | _ => 0

/-- A word of a key entry (table "Key entry"). -/
def Key.word (k : Key) : Nat → Nat
  | 0 => put k.state 0 2 + put (b2n k.window) 2 1 + put (b2n k.r) 3 1 + put (b2n k.w) 4 1 + put (b2n k.a) 5 1 + put (b2n k.indic) 6 1
      + put k.gen 8 8 + put k.pd 16 12 + put k.owner 32 7
  | 1 => put k.va 0 57
  | 2 => put k.len 0 47
  | 3 => put k.parent 0 18 + put (k.qp.getD 0) 32 16 + put (b2n (k.window && k.qp.isNone)) 48 1
  | _ => 0

/-- A word of a record, 0 where there is none. -/
def recWord {α : Type} (o : Option α) (f : α → Nat → Nat) (w : Nat) : Nat :=
  match o with
  | some x => f x w
  | none => 0

/-! ### Values the registers show -/

/-- The device index of the `j`-th object of a compartment. -/
def State.objectAt (s : State) (c j : Nat) : Option Nat :=
  let bs := ascending (s.grants c).conBlk
  if j / 64 < bs.length then some (64 * bs.getD (j / 64) 0 + j % 64) else none

/-- ARMED slots of a compartment. -/
def State.armedSlots (s : State) (c : Nat) : Nat :=
  (s.slots.filter (fun e => !e.2.fired && (s.grants c).conjBlk.contains (e.1 / 256))).length

/-- The compartment that holds block `b` of a kind. -/
def State.holderOf (s : State) (f : Grants → List Nat) (b : Nat) : Option Nat := compartments.find? (fun c => (f (s.grants c)).contains b)

/-- A number per kind of block owner register: its owner, and whether there is one. -/
def ownerBits (o : Option Nat) (bound : Bool) : Nat := if bound then b2n o.isSome else o.getD 0

/-- Reserved pinned places of a port that no translation fills. -/
def State.pinEmpty (s : State) (port : Nat) : Nat :=
  let filled (p : Nat × Nat) : Bool := (s.xl.pinned.get [] port).any (fun t => t.cmp == p.1 && t.range == some p.2)
  ((s.xl.places.get [] port).filter (fun p => !filled p)).length

/-- The event source that EVT_RT_SRC names, where the function owns it. -/
def State.routed (s : State) (fn : Nat) (f : Fld) : Nat :=
  let n := s.rd .EVT_RT_SRC fn
  if s.ownsSrc fn n then s.rd f n else 0

/-- Word `w` of the mailboxes held SERVER by a function. -/
def State.servedWord (s : State) (fn w : Nat) : Nat :=
  (List.range 32).foldl (fun n j =>
    let i := 32 * w + j
    n + (if s.hasMailbox i && s.rd .INS_MB_HOLDER i == 2 && s.server i == fn then 2 ^ j else 0)) 0

/-- A contract number, 0 where there is none. -/
def schedOf (o : Option Contract) : Nat :=
  match o with
  | some k => k.schedId
  | none => 0

/-- Shared receive buffers posted and not claimed in a doorbell slot. -/
def State.srqPosted (s : State) (i : Nat) : Nat :=
  if s.rd .NET_SRQ_SLOT_VALID i = 0 then 0
  else match s.net.srqs.find (s.rd .NET_SRQ_SLOT i) with
    | some q => q.posted
    | none => 0

/-- What blocks are free, compartments and pools (CMP_FREE_POOL0 to 2). -/
def State.freeCount (s : State) (f : Fld) : Nat :=
  match f with
  | .CMP_FREE_SLICES => s.freeSlices.length
  | .CMP_FREE_WALKERS => s.freeWalkers
  | .CMP_FREE_RANGE_BLK => (s.freeOf (·.rangeBlk) 128).length
  | .CMP_FREE_CON_BLK => (s.freeOf (·.conBlk) 64).length
  | .CMP_FREE_CONJ_BLK => (s.freeOf (·.conjBlk) 128).length
  | .CMP_FREE_QP_BLK => (s.freeOf (·.qpBlk) 128).length
  | .CMP_FREE_CQ_BLK => (s.freeOf (·.cqBlk) 128).length
  | .CMP_FREE_SRQ_BLK => (s.freeOf (·.srqBlk) 128).length
  | .CMP_FREE_PD_BLK => (s.freeOf (·.pdBlk) 128).length
  | .CMP_FREE_KEY_BLK => (s.freeOf (·.keyBlk) 128).length
  | .CMP_FREE_STREAMS => (s.freeOf (·.streams) 32).length
  | _ => 0

/-- Key presence of a compartment. -/
def State.keyPresent (s : State) (f : Fld) (c : Nat) : Bool :=
  match f with
  | .SEC_T1_KEY => s.sec.t1Key.get (1 + c) c != 0
  | .SEC_T2_KEY => s.sec.t2Key.get (33 + c) c != 0
  | .SEC_LINK_ACTIVE => (s.sec.linkAct.find c).isSome
  | .SEC_LINK_STAGED => (s.sec.linkStg.find c).isSome
  | .SEC_T1_ROTATING => (s.sec.rot.find (2 * c)).isSome
  | .SEC_T2_ROTATING => (s.sec.rot.find (2 * c + 1)).isSome
  | _ => false

/-- What a computed field shows to a reading function. -/
def State.computed (s : State) (fn : Nat) (f : Fld) (i : Nat) : Nat :=
  match f with
  | .HST_THIS_PORT => portOf fn
  | .HST_IS_PRIMARY => b2n (portOf fn == s.pins.primary)
  | .HST_OTHER_PORT_UP => b2n (s.pins.hostUp.contains (1 - portOf fn))
  | .BOOT_CLAMP_COUNT => s.reg.clamp.length
  | .BOOT_CL_ENTRY => recWord s.reg.clamp[i / 4]? ClampEntry.word (i % 4)
  | .BOOT_OP_SLOT => recWord (s.longAt (i / 8)) LongOp.word (i % 8)
  | .CMP_SLICE_OWNER => ownerBits (s.holderOf (·.slices) i) false
  | .CMP_SLICE_BOUND => ownerBits (s.holderOf (·.slices) i) true
  | .CMP_CTR_ACTIVE_ID => schedOf (s.cmp.active.find i)
  | .CMP_CTR_STAGED_ID => schedOf (s.cmp.staged.find i)
  | .CMP_CTR_EPOCH_CUR => recWord (s.cmp.active.find i) (fun (k : Contract) _ => k.epoch) 0
  | .INS_SELF_FUNC => fn % 64
  | .INS_SELF_PORT => portOf fn
  | .RNG_INFLIGHT => (s.ringOps (i / 64) (i % 64)).length
  | .CON_OBJ_BLK_OWNER => ownerBits (s.holderOf (·.conBlk) i) false
  | .CON_OBJ_BLK_BOUND => ownerBits (s.holderOf (·.conBlk) i) true
  | .CON_SLOT_BLK_OWNER => ownerBits (s.holderOf (·.conjBlk) i) false
  | .CON_SLOT_BLK_BOUND => ownerBits (s.holderOf (·.conjBlk) i) true
  | .CON_SLOT_WORD => recWord (s.slots.find (i / 16)) Slot.word (i % 16)
  | .CON_VIEW_VALUE => match (s.fnCmp fn).bind (fun c => s.objectAt c (i % 4096)) with
    | some o => s.rd .CON_VALUE o
    | none => 0
  | .CON_VIEW_ARMED => match s.fnCmp fn with
    | some c => s.armedSlots c
    | none => 0
  | .CON_VIEW_BLK => match (s.fnCmp fn).bind (fun c => (ascending (s.grants c).conBlk)[i % 64]?) with
    | some b => b
    | none => 0
  | .CON_VIEW_BLK_VALID => b2n ((s.fnCmp fn).bind (fun c => (ascending (s.grants c).conBlk)[i % 64]?)).isSome
  | .EVT_VEC_NPEND => ((List.range 2048).filter (s.claimable fn (i % 256))).length
  | .EVT_RT_PEND => s.routed fn .EVT_PENDING
  | .EVT_RT_ROUTED => s.routed fn .EVT_SRC_ROUTED
  | .EVT_RT_MSG => s.routed fn .EVT_SRC_SENSE
  | .EVT_RT_CUR_VEC => s.routed fn .EVT_SRC_VEC
  | .EVT_RT_COUNT => s.routed fn .EVT_COUNT
  | .EVT_RT_SAT => s.routed fn .EVT_SAT
  | .EVT_MB_SERVE => s.servedWord fn i
  | .TRN_PRG_OUTSTANDING => (List.range 64).foldl (fun n k => n + s.prgCount (64 * i + k)) 0
  | .TRN_WALKERS => (s.grants i).walkers
  | .TRN_WALK_QUEUE => (s.xl.walks.filter (fun w => w.cmp == i && w.queued)).length
  | .TRN_PC_PINNED => (s.xl.places.get [] i).length
  | .TRN_PC_PIN_EMPTY => s.pinEmpty i
  | .TRN_RE => word (s.xl.ranges.get [] (i / 4)) (i % 4)
  | .COH_AG_CMP | .COH_AG_BOUND => s.rd f i
  | .PLK_PLAN_ACTIVE_ID => planId (s.plan i)
  | .PLK_PLAN_STAGED_ID => planId (s.plk.next.get [] i)
  | .PLK_ROUTE_WORD => leAt (s.plk.routes.get [] (i / 64)) (4 * (i % 64)) 4
  | .PLK_PLAN_WORD => bits (word (s.plan (i / 1024)) (i % 1024 / 2)) (32 * (i % 2)) 32
  | .NET_SRQ_POSTED => s.srqPosted i
  | .NET_QP_CTX_WORD => recWord (s.net.qps.find (i / 16)) Qp.word (i % 16)
  | .NET_KEY_WORD => recWord (s.net.keys.find (i / 4)) Key.word (i % 4)
  | .INC_DRING_QUEUED => s.inc.devQ.length
  | .SEC_T1_KEY | .SEC_T2_KEY | .SEC_LINK_ACTIVE | .SEC_LINK_STAGED | .SEC_T1_ROTATING | .SEC_T2_ROTATING => b2n (s.keyPresent f i)
  | .SEC_EXP_IDE_UP => s.rd .EXP_IDE_UP i
  | .PWR_GATE_BUSY => b2n (!s.pwr.ungating.isEmpty)
  | .PWR_ALERT_CAUSE => s.alertCause
  | f => s.freeCount f

/-- What a field reads as: write-only fields and orders read as zero (R14); the relay notice only to the secondary manager function; sources
show their owners as R184 fixes them. -/
def State.fieldRead (s : State) (fn : Nat) (h : Hit) : Nat :=
  match h.fld with
  | .INS_MB_RELAY_NOTICE => if fn = s.secondaryFn then s.rd .INS_MB_RELAY_NOTICE h.idx else 0
  | .EVT_SRC_OWNER => s.srcOwner h.idx
  | .EVT_SRC_BOUND => b2n (s.srcBound h.idx)
  | f => match f.spec.access with
    | .WO | .W1S => 0
    | _ => if f.spec.computed then s.computed fn f h.idx else s.rd f h.idx

/-- The 32 bits a register shows: each field at its place, the right half of a pair. -/
def State.regRead (s : State) (fn : Nat) (hs : List Hit) : Nat :=
  hs.foldl (fun n h =>
    let v := s.fieldRead fn h % 2 ^ h.fld.spec.width
    n + (if h.fld.spec.pair then (if h.high then v / 2 ^ 32 else v % 2 ^ 32) else put v h.lo h.fld.spec.width)) 0

/-! ### Mirrors (R613, R614) -/

/-- The manager register that an instance offset mirrors: `none` no mirror, `some none` the entry of a compartment while none binds the
instance. -/
def State.mirror (s : State) (fn off : Nat) : Option (Option Nat) :=
  let c := s.fnCmp fn
  let at' (lo n : Nat) : Bool := decide (lo ≤ off) && decide (off < lo + n)
  let per (lo src stride : Nat) : Option (Option Nat) := some (c.map (fun n => src + stride * n + (off - lo)))
  if isMgr fn then none
  else if at' 0 0x10 then some (some off)
  else if at' 0x2004 4 then some (some (0x300024 + 0x100 * fn))
  else if at' 0x30000 8 then some (some (0xF00000 + (off - 0x30000)))
  else if at' 0x30010 0x18 then per 0x30010 0x201000 0x40
  else if at' 0x30100 0x28 then per 0x30100 0x606000 0x40
  else if at' 0x30200 0x28 then per 0x30200 0x704000 0x40
  else if at' 0x30300 0x1C then per 0x30300 0x705000 0x40
  else if at' 0x30400 0x10 then per 0x30400 0x801000 0x20
  else if at' 0x30500 0x38 then per 0x30500 0xB90000 0x40
  else if at' 0x30600 8 then per 0x30600 0xD01010 0x40
  else if at' 0x30800 0x80 then some (c.map (fun n => 0x1001008 + 0x100 * n + 0x10 * ((off - 0x30800) / 8) + off % 8))
  else if at' 0x30880 8 then some (some (0x1000008 + (off - 0x30880)))
  else if at' 0x30888 4 then some (some 0x1000004)
  else none

/-- The registers behind an offset that a function reads, and the function whose read shows them: a mirror shows what the primary manager
function would read; the last mirror shows STAT_SHADOW_K only. -/
def State.readHits (s : State) (fn off : Nat) : Nat × List Hit :=
  match s.mirror fn off with
  | some (some src) =>
    let hs := s.hits s.primaryFn src
    (s.primaryFn, if off = 0x30888 then hs.filter (fun h => h.fld == .STAT_SHADOW_K) else hs)
  | some none => (fn, [])
  | none => (fn, s.hits fn off)

/-- The halves of a register pair lie at an offset. -/
def isPair (hs : List Hit) : Bool := hs.any (fun h => h.fld.spec.pair)

/-! ### Reads -/

/-- Reads that are rows of their own: a claim of a vector, the asynchronous event queue. -/
def ownRead (hs : List Hit) : Bool := hs.any (fun h => h.fld == .EVT_CLM_SRC || h.fld == .NET_AEQ_LO)

/-- Clear the fields of a register that clear at a read (R14); the relay notice only for the secondary manager function. -/
def State.clearRead (s : State) (fn : Nat) (hs : List Hit) : State :=
  hs.foldl (fun (s : State) h =>
    if h.fld.spec.access == .RC && (h.fld != .INS_MB_RELAY_NOTICE || fn == s.secondaryFn) then s.wr h.fld h.idx 0 else s) s

/-- A word of a mailbox buffer as a manager or its instance reads it (R102, R103). -/
def State.mailboxRead (s : State) (idx w : Nat) : Nat := if idx = s.primaryFn then 0 else s.fns.mbox.get 0 (idx * 1024 + w)

/-- A word of the MSI-X pending bit array at an offset. -/
def State.msixPending (s : State) (fn off : Nat) : Option Nat :=
  let base := if isMgr fn then 0x6001000 else 0x61000
  if base ≤ off ∧ 8 * (off - base) < vecCount fn then
    some ((List.range 32).foldl (fun n j => n + put (s.evt.msixPend.get 0 (fn * 256 + 8 * (off - base) + j)) j 1) 0)
  else none

/-- A word of the memory-like regions of BAR0: mailboxes, MSI-X table and pending bits. -/
def State.bufferRead (s : State) (fn off : Nat) : Option Nat :=
  match s.mailboxAt fn off with
  | some m => some (s.mailboxRead m.1 m.2.1)
  | none => match msixAt fn off with
    | some e => some (word (s.evt.msix.get [0, 0, 0, 1] (fn * 256 + e.1)) e.2)
    | none => s.msixPending fn off

/-- A read where the BARs are blocked ends with Unsupported Request; one that fawn mode hides reads as zero (R528, R619). -/
def State.guardRead (s : State) (fn off : Nat) (k : State → State) : State :=
  if s.barsBlocked fn then s.emit .unsupported [fn, off]
  else if s.closed fn off then s.emit .readValue [fn, off, 0]
  else k s

/-- A 32-bit read of a register that is no half of a pair: its value is returned, and its RC fields clear (R14). -/
def execReadToClear (fn off : Nat) (s : State) : Out :=
  let r := s.readHits fn off
  if 128 ≤ fn || off % 4 != 0 || isPair r.2 || ownRead r.2 then .next s
  else .next (s.guardRead fn off (fun s =>
    match s.bufferRead fn off with
    | some v => s.emit .readValue [fn, off, v]
    | none => (s.emit .readValue [fn, off, s.regRead r.1 r.2]).clearRead r.1 r.2))

/-- A read of the low half of a pair latches the high half for the function (R11). -/
def execRegisterPairLowRead (fn off : Nat) (s : State) : Out :=
  let r := s.readHits fn off
  if 128 ≤ fn || off % 4 != 0 || !isPair r.2 || r.2.any (fun h => h.high) then .next s
  else .next (s.guardRead fn off (fun s =>
    let high := r.2.foldl (fun n h => n + s.fieldRead r.1 h / 2 ^ 32) 0
    let t := s.emit .readValue [fn, off, s.regRead r.1 r.2]
    { t with reg := { t.reg with shadow := Tab.put t.reg.shadow (pairKey fn off) (high % 2 ^ 32) } }))

/-- A read of the high half returns the function's shadow and discards it; without one it returns the high half as it stands (R11). -/
def execRegisterPairHighRead (fn off : Nat) (s : State) : Out :=
  let r := s.readHits fn off
  let aeqHigh := r.2.any (fun h => h.fld == .NET_AEQ_HI)
  if 128 ≤ fn || off < 4 || !(aeqHigh || r.2.any (fun h => h.high)) then .next s
  else .next (s.guardRead fn off (fun s =>
    match s.reg.shadow.find (pairKey fn (off - 4)) with
    | some v =>
      let t := s.emit .readValue [fn, off, v]
      { t with reg := { t.reg with shadow := Tab.del t.reg.shadow (pairKey fn (off - 4)) } }
    | none => s.emit .readValue [fn, off, s.regRead r.1 r.2]))

/-- An access that is not an aligned 32-bit access completes with Unsupported Request; the MSI-X regions also take aligned 64-bit accesses
(R9, R616). -/
def execUnsupportedRegisterAccess (fn off size : Nat) (s : State) : Out :=
  let msix := (msixAt fn off).isSome || (s.msixPending fn off).isSome
  if (size = 4 && off % 4 = 0) || (msix && size = 8 && off % 8 = 0) then .next s else .next (s.emit .unsupported [fn, off])

/-! ### What follows a write -/

/-- Tier-one groups whose mode a write may change keep their mode where any of their granules is bound (R354). -/
def State.holdGroups (s old : State) (source fn : Nat) : State :=
  let was := old.rd .STK_GROUP_MODE 0
  let asked := s.rd .STK_GROUP_MODE 0
  let bound := s.taken (·.t1)
  let got := (List.range 48).foldl (fun n g => n + put (b2n (if bound.any (fun x => x / 8 == g) then bit was g else bit asked g)) g 1) 0
  if got = asked then s
  else (s.logClamp ⟨fieldId 0x800810 0, source, fn, false, asked, got, 0, false⟩).wr .STK_GROUP_MODE 0 got

/-- A stream binding may change: no plan of any link names the compartment, and no other compartment has the stream (R429). -/
def State.streamFree (s : State) (c : Nat) : Bool :=
  let named := (List.range 12).any (fun l => (planHolders (s.plan l)).contains c
    || (match s.plk.next.find l with
      | some ws => (planHolders ws).contains c
      | none => false))
  let v := s.rd .PLK_CMP_STREAM c
  let taken := s.rd .PLK_CMP_STREAM_VALID c == 1
    && (v == 0 || tenants.any (fun d => d != c && s.rd .PLK_CMP_STREAM_VALID d == 1 && s.rd .PLK_CMP_STREAM d == v))
  !named && !taken

/-- A stream binding that may not change keeps its value, and the write is logged (R429). -/
def State.holdStream (s old : State) (source fn c : Nat) : State :=
  let keep (lo : Nat) (f : Fld) (s : State) : State :=
    if s.rd f c = old.rd f c then s
    else (s.logClamp ⟨fieldId (0xA02000 + 4 * c) lo, source, fn, false, s.rd f c, old.rd f c, 0, false⟩).wr f c (old.rd f c)
  if s.streamFree c then s else keep 16 .PLK_CMP_STREAM_VALID (keep 0 .PLK_CMP_STREAM s)

/-- Writes of a coherent window: dropped ones are counted (R295); a new range is checked and its lost lines back-invalidated. -/
def State.windowWrite (s old : State) (source fn i : Nat) (rangeField : Bool) : State :=
  if old.dropField fn .COH_WIN_BASE i then s.bump .COH_WIN_DROPPED (i / 8) 1
  else if rangeField then
    s.cohWindowWritten source fn (0x700008 + 0x100 * (i / 8) + 0x20 * (i % 8)) i (old.rd .COH_WIN_BASE i, old.rd .COH_WIN_UNITS i)
  else s

/-- INS_ENABLE written 0 resets an enabled instance (R108). -/
def State.disableWrite (s old : State) (i : Nat) : State :=
  if old.rd .INS_ENABLE i = 1 && s.rd .INS_ENABLE i = 0 && s.rd .INS_RESET_BUSY i = 0 then s.resetCut i else s

/-- What follows a write of one field. -/
def State.followField (s old : State) (source fn : Nat) (h : Hit) : State :=
  match h.fld with
  | .INS_ENABLE => s.disableWrite old h.idx
  | .COH_WIN_BASE => s.windowWrite old source fn h.idx true
  | .COH_WIN_UNITS => s.windowWrite old source fn h.idx true
  | .COH_WIN_DPA => s.windowWrite old source fn h.idx false
  | .COH_WIN_HOST_A => s.windowWrite old source fn h.idx false
  | .STK_GROUP_MODE => s.holdGroups old source fn
  | .PLK_CMP_STREAM => s.holdStream old source fn h.idx
  | .TRN_PC_QUOTA => s.trimPort (h.idx / 32) (h.idx % 32)
  | _ => s

/-- What follows a write of a register. -/
def State.follow (old : State) (source fn : Nat) (hs : List Hit) (s : State) : State := hs.foldl (fun s h => s.followField old source fn h) s

/-! ### Writes (R12 to R18, R94, R95, R615) -/

/-- The source code of a clamp of a register write: 0 manager BAR0, 1 instance BAR0. -/
def writeSource (fn : Nat) : Nat := b2n (!isMgr fn)

/-- A write of a mailbox buffer word. -/
def State.mailboxStore (s : State) (fn off val idx w : Nat) (sender : Bool) : State :=
  if s.closed fn off || idx = s.primaryFn then s
  else if !sender && fn != s.server idx then s.foreignOrder fn off 0
  else s.mailboxWrite fn idx w val sender

/-- A write of the consumer count of the compartment's incident ring in instance space (R500, R614). -/
def State.viewCons (s : State) (fn val : Nat) : State :=
  match s.fnCmp fn with
  | some c => if s.barsBlocked fn then s else s.consWrite fn ⟨.INC_CRING_CONS, c, 0, false⟩ val
  | none => s

/-- A register write: mailbox buffers, the MSI-X table, consumer counts, and every register that is no half of a pair.  Fields with a row of
their own keep their values. -/
def State.registerWrite (s : State) (fn off val : Nat) : State :=
  match s.mailboxAt fn off, msixAt fn off with
  | some (idx, w, sender), _ => s.mailboxStore fn off val idx w sender
  | none, some (e, w) => if s.closed fn off then s else s.msixWrite fn e w val
  | none, none =>
    let hs := s.hits fn off
    if !isMgr fn && off = 0x30604 then s.viewCons fn (val % 2 ^ 32)
    else if isPair hs then s
    else s.guardWrite fn off val hs (fun s =>
      if hs.any isCons then hs.foldl (fun s h => s.consWrite fn h (val % 2 ^ 32)) s
      else State.follow s (writeSource fn) fn hs (s.writeFields (writeSource fn) fn off (val % 2 ^ 32) hs))

/-- A write to a register that has no row of its own. -/
def execRegisterWrite (fn off val : Nat) (s : State) : Out :=
  if 128 ≤ fn || off % 4 != 0 then .next s else .next (s.registerWrite fn off val)

/-- A write of the low half of a pair is staged for the function (R12, R13). -/
def execRegisterPairLowWrite (fn off val : Nat) (s : State) : Out :=
  let hs := s.hits fn off
  if 128 ≤ fn || !isPair hs || hs.any (fun h => h.high) then .next s
  else .next (s.guardWrite fn off val hs (fun s => s.stageLow fn off (val % 2 ^ 32)))

/-- A write of the high half commits the pair (R12); pairs whose commit is a row of its own are left to it. -/
def execRegisterPairHighWrite (fn off val : Nat) (s : State) : Out :=
  let hs := s.hits fn off
  if 128 ≤ fn || !hs.any (fun h => h.high) || hs.any (fun h => ownRow h.fld) then .next s
  else .next (s.guardWrite fn off val hs (fun s =>
    State.follow s (writeSource fn) fn hs (hs.foldl (fun s h => s.commitPair (writeSource fn) fn off (val % 2 ^ 32) h) s)))

end Sys2Proof.Machine
end

