-- ==== Sys2Proof/Machine/Dispatch.lean ====
section
/-! DEFINITION. The dispatch of commands to their meanings: one arm for every constructor of Instr. -/
namespace Sys2Proof.Machine

open Sys2Proof

/-- The meaning of a command. -/
def exec (i : Instr) (s : State) : Host.Outcome State Fault Refusal :=
  match i with
  | .registerWrite fn off val => Sys2Proof.Machine.execRegisterWrite fn off val s
  | .unsupportedRegisterAccess fn off size => Sys2Proof.Machine.execUnsupportedRegisterAccess fn off size s
  | .registerPairLowRead fn off => Sys2Proof.Machine.execRegisterPairLowRead fn off s
  | .registerPairHighRead fn off => Sys2Proof.Machine.execRegisterPairHighRead fn off s
  | .registerPairLowWrite fn off val => Sys2Proof.Machine.execRegisterPairLowWrite fn off val s
  | .registerPairHighWrite fn off val => Sys2Proof.Machine.execRegisterPairHighWrite fn off val s
  | .readToClear fn off => Sys2Proof.Machine.execReadToClear fn off s
  | .assign fn ring rivals => Sys2Proof.Machine.execAssign fn ring rivals s
  | .quiesce fn ring rival => Sys2Proof.Machine.execQuiesce fn ring rival s
  | .quiesceDrainComplete cmp => Sys2Proof.Machine.execQuiesceDrainComplete cmp s
  | .reopen fn ring => Sys2Proof.Machine.execReopen fn ring s
  | .scrub fn ring => Sys2Proof.Machine.execScrub fn ring s
  | .scrubStepComplete cmp verified => Sys2Proof.Machine.execScrubStepComplete cmp verified s
  | .serviceSlotGrant lane requests => Sys2Proof.Machine.execServiceSlotGrant lane requests s
  | .tableLoadContract fn ring => Sys2Proof.Machine.execTableLoadContract fn ring s
  | .contractPreloadDone cmp loads => Sys2Proof.Machine.execContractPreloadDone cmp loads s
  | .contractActivate cmp => Sys2Proof.Machine.execContractActivate cmp s
  | .contractEnd cmp => Sys2Proof.Machine.execContractEnd cmp s
  | .deadlineMissed op => Sys2Proof.Machine.execDeadlineMissed op s
  | .frameBoundary => Sys2Proof.Machine.execFrameBoundary s
  | .mailboxSend fn rivals => Sys2Proof.Machine.execMailboxSend fn rivals s
  | .mailboxRequestProcess idx => Sys2Proof.Machine.execMailboxRequestProcess idx s
  | .queryState idx => Sys2Proof.Machine.execQueryState idx s
  | .queryGrants idx => Sys2Proof.Machine.execQueryGrants idx s
  | .queryIdentity idx => Sys2Proof.Machine.execQueryIdentity idx s
  | .mailboxReply fn idx => Sys2Proof.Machine.execMailboxReply fn idx s
  | .mailboxReplyProcess idx => Sys2Proof.Machine.execMailboxReplyProcess idx s
  | .managementWindowEnd cmp => Sys2Proof.Machine.execManagementWindowEnd cmp s
  | .mailboxNoticeSet fn idx value => Sys2Proof.Machine.execMailboxNoticeSet fn idx value s
  | .instanceReset idx => Sys2Proof.Machine.execInstanceReset idx s
  | .instanceResetDrained idx writes => Sys2Proof.Machine.execInstanceResetDrained idx writes s
  | .managerReset port drained => Sys2Proof.Machine.execManagerReset port drained s
  | .ringStart issuer fn ring rival => Sys2Proof.Machine.execRingStart issuer fn ring rival s
  | .ringSuspend issuer fn ring rival => Sys2Proof.Machine.execRingSuspend issuer fn ring rival s
  | .ringResume issuer fn ring rival => Sys2Proof.Machine.execRingResume issuer fn ring rival s
  | .ringStop issuer fn ring rival => Sys2Proof.Machine.execRingStop issuer fn ring rival s
  | .ringCancel issuer fn ring rival => Sys2Proof.Machine.execRingCancel issuer fn ring rival s
  | .ringRevokeOrder issuer fn ring => Sys2Proof.Machine.execRingRevokeOrder issuer fn ring s
  | .cplRingStart issuer fn ring rival => Sys2Proof.Machine.execCplRingStart issuer fn ring rival s
  | .cplRingStop issuer fn ring rival => Sys2Proof.Machine.execCplRingStop issuer fn ring rival s
  | .ringCreate fn ring => Sys2Proof.Machine.execRingCreate fn ring s
  | .ringDestroy fn ring => Sys2Proof.Machine.execRingDestroy fn ring s
  | .cplRingCreate fn ring => Sys2Proof.Machine.execCplRingCreate fn ring s
  | .cplRingDestroy fn ring => Sys2Proof.Machine.execCplRingDestroy fn ring s
  | .commandDoorbell fn ring off size count => Sys2Proof.Machine.execCommandDoorbell fn ring off size count s
  | .completionDoorbell fn ring off size count => Sys2Proof.Machine.execCompletionDoorbell fn ring off size count s
  | .descriptorFetch fn ring list words outcome => Sys2Proof.Machine.execDescriptorFetch fn ring list words outcome s
  | .nop fn ring => Sys2Proof.Machine.execNop fn ring s
  | .callList fn ring => Sys2Proof.Machine.execCallList fn ring s
  | .moveCopy fn ring => Sys2Proof.Machine.execMoveCopy fn ring s
  | .moveFill fn ring => Sys2Proof.Machine.execMoveFill fn ring s
  | .move2d fn ring => Sys2Proof.Machine.execMove2d fn ring s
  | .moveAtomic fn ring => Sys2Proof.Machine.execMoveAtomic fn ring s
  | .gatherReduce fn ring => Sys2Proof.Machine.execGatherReduce fn ring s
  | .xlatePrefetch fn ring => Sys2Proof.Machine.execXlatePrefetch fn ring s
  | .xlateInvalidate fn ring => Sys2Proof.Machine.execXlateInvalidate fn ring s
  | .xlateProbe fn ring => Sys2Proof.Machine.execXlateProbe fn ring s
  | .remoteWrite fn ring => Sys2Proof.Machine.execRemoteWrite fn ring s
  | .remoteRead fn ring => Sys2Proof.Machine.execRemoteRead fn ring s
  | .remoteSend fn ring => Sys2Proof.Machine.execRemoteSend fn ring s
  | .remoteAtomic fn ring => Sys2Proof.Machine.execRemoteAtomic fn ring s
  | .conSignal fn ring => Sys2Proof.Machine.execConSignal fn ring s
  | .conRead fn ring => Sys2Proof.Machine.execConRead fn ring s
  | .conArm fn ring => Sys2Proof.Machine.execConArm fn ring s
  | .conDisarm fn ring => Sys2Proof.Machine.execConDisarm fn ring s
  | .operationComplete ops => Sys2Proof.Machine.execOperationComplete ops s
  | .completionRecordWrite fn ring outcome => Sys2Proof.Machine.execCompletionRecordWrite fn ring outcome s
  | .commandTimeout op => Sys2Proof.Machine.execCommandTimeout op s
  | .concordSignalApply obj requests => Sys2Proof.Machine.execConcordSignalApply obj requests s
  | .concordViewSignal fn obj sigop => Sys2Proof.Machine.execConcordViewSignal fn obj sigop s
  | .concordWindowSet fn obj high => Sys2Proof.Machine.execConcordWindowSet fn obj high s
  | .eventSourceBind fn src owner bound => Sys2Proof.Machine.execEventSourceBind fn src owner bound s
  | .eventRouteApply fn vec sense => Sys2Proof.Machine.execEventRouteApply fn vec sense s
  | .eventDoorbell fn src rivals => Sys2Proof.Machine.execEventDoorbell fn src rivals s
  | .coalesceTimerExpiry fn vec => Sys2Proof.Machine.execCoalesceTimerExpiry fn vec s
  | .vectorUnmask fn vec => Sys2Proof.Machine.execVectorUnmask fn vec s
  | .eventClaim fn vec ports => Sys2Proof.Machine.execEventClaim fn vec ports s
  | .mgmtCoreEventForward core vec => Sys2Proof.Machine.execMgmtCoreEventForward core vec s
  | .atsTranslationCompletion fn pasid page size out flags => Sys2Proof.Machine.execAtsTranslationCompletion fn pasid page size out flags s
  | .prgResponse fn idx pasid code => Sys2Proof.Machine.execPrgResponse fn idx pasid code s
  | .atsInvalidateRequest fn itag pasid global base size => Sys2Proof.Machine.execAtsInvalidateRequest fn itag pasid global base size s
  | .atsInvalidateCompletion fn => Sys2Proof.Machine.execAtsInvalidateCompletion fn s
  | .hostReadCompletion tag data outcome => Sys2Proof.Machine.execHostReadCompletion tag data outcome s
  | .hostCompletionTimeout tag => Sys2Proof.Machine.execHostCompletionTimeout tag s
  | .walkStart port cmp stream va indic access => Sys2Proof.Machine.execWalkStart port cmp stream va indic access s
  | .walkEntryReturn id poison => Sys2Proof.Machine.execWalkEntryReturn id poison s
  | .managerInvalidation fn cmp => Sys2Proof.Machine.execManagerInvalidation fn cmp s
  | .managerInvalidationDone => Sys2Proof.Machine.execManagerInvalidationDone s
  | .tableLoadRangeTable fn ring => Sys2Proof.Machine.execTableLoadRangeTable fn ring s
  | .sliceRequest port cmp addr len write indic nc data => Sys2Proof.Machine.execSliceRequest port cmp addr len write indic nc data s
  | .fillReturn slice id => Sys2Proof.Machine.execFillReturn slice id s
  | .fill fn cmp => Sys2Proof.Machine.execFill fn cmp s
  | .clean fn cmp => Sys2Proof.Machine.execClean fn cmp s
  | .invalidate fn cmp => Sys2Proof.Machine.execInvalidate fn cmp s
  | .flush fn cmp => Sys2Proof.Machine.execFlush fn cmp s
  | .maintenanceDone cmp => Sys2Proof.Machine.execMaintenanceDone cmp s
  | .pinnedWayChange fn cmp win value => Sys2Proof.Machine.execPinnedWayChange fn cmp win value s
  | .pinFlushDone cmp => Sys2Proof.Machine.execPinFlushDone cmp s
  | .getCopy agent txn addr indic age => Sys2Proof.Machine.execGetCopy agent txn addr indic age s
  | .getOwn agent txn addr indic age => Sys2Proof.Machine.execGetOwn agent txn addr indic age s
  | .claimOwn agent txn addr indic age => Sys2Proof.Machine.execClaimOwn agent txn addr indic age s
  | .peek agent cmp txn addr indic age => Sys2Proof.Machine.execPeek agent cmp txn addr indic age s
  | .putLine agent cmp txn addr indic age data => Sys2Proof.Machine.execPutLine agent cmp txn addr indic age data s
  | .putBytes agent cmp txn addr indic age mask data => Sys2Proof.Machine.execPutBytes agent cmp txn addr indic age mask data s
  | .atomicFar agent cmp txn addr indic age op fmt operand compare => Sys2Proof.Machine.execAtomicFar agent cmp txn addr indic age op fmt operand compare s
  | .event agent word => Sys2Proof.Machine.execEvent agent word s
  | .installed agent addr => Sys2Proof.Machine.execInstalled agent addr s
  | .rspServed agent addr code => Sys2Proof.Machine.execRspServed agent addr code s
  | .rspCleared agent addr => Sys2Proof.Machine.execRspCleared agent addr s
  | .rspMiss agent addr => Sys2Proof.Machine.execRspMiss agent addr s
  | .rspEvicting agent addr => Sys2Proof.Machine.execRspEvicting agent addr s
  | .lineWb agent addr poison data => Sys2Proof.Machine.execLineWb agent addr poison data s
  | .lineBack agent addr poison data => Sys2Proof.Machine.execLineBack agent addr poison data s
  | .linePeek agent requester addr poison data => Sys2Proof.Machine.execLinePeek agent requester addr poison data s
  | .retryResend agent txn => Sys2Proof.Machine.execRetryResend agent txn s
  | .reservationExpiry line => Sys2Proof.Machine.execReservationExpiry line s
  | .coherentWindowChangeDone cmp => Sys2Proof.Machine.execCoherentWindowChangeDone cmp s
  | .diePortLinkDown port => Sys2Proof.Machine.execDiePortLinkDown port s
  | .cxlM2sRequest port kind metaV txn dpa mask data => Sys2Proof.Machine.execCxlM2sRequest port kind metaV txn dpa mask data s
  | .cxlBirsp port addr shared => Sys2Proof.Machine.execCxlBirsp port addr shared s
  | .hostAtomicopRequest port fn addr => Sys2Proof.Machine.execHostAtomicopRequest port fn addr s
  | .stackReadReturn addr error => Sys2Proof.Machine.execStackReadReturn addr error s
  | .grResultReturn op => Sys2Proof.Machine.execGrResultReturn op s
  | .activityWindowBoundary stack count temp => Sys2Proof.Machine.execActivityWindowBoundary stack count temp s
  | .enumerationStart fn => Sys2Proof.Machine.execEnumerationStart fn s
  | .enumerationPortVisit port link hdmh gib serial ide decoder => Sys2Proof.Machine.execEnumerationPortVisit port link hdmh gib serial ide decoder s
  | .enumerationMapApply rings => Sys2Proof.Machine.execEnumerationMapApply rings s
  | .expansionLinkUp port => Sys2Proof.Machine.execExpansionLinkUp port s
  | .expansionLinkDown port => Sys2Proof.Machine.execExpansionLinkDown port s
  | .expanderResponse addr write poison latency => Sys2Proof.Machine.execExpanderResponse addr write poison latency s
  | .expanderEvent port record => Sys2Proof.Machine.execExpanderEvent port record s
  | .plkLinkEnable fn link value => Sys2Proof.Machine.execPlkLinkEnable fn link value s
  | .linkRetrain fn link => Sys2Proof.Machine.execLinkRetrain fn link s
  | .linkSignalDetected link => Sys2Proof.Machine.execLinkSignalDetected link s
  | .linkEqualizeDone link => Sys2Proof.Machine.execLinkEqualizeDone link s
  | .linkEqualizeTimeout link => Sys2Proof.Machine.execLinkEqualizeTimeout link s
  | .linkAlignLock link => Sys2Proof.Machine.execLinkAlignLock link s
  | .linkAlignTimeout link => Sys2Proof.Machine.execLinkAlignTimeout link s
  | .linkInitDone link serial far => Sys2Proof.Machine.execLinkInitDone link serial far s
  | .linkInitTimeout link => Sys2Proof.Machine.execLinkInitTimeout link s
  | .linkSignalLost link => Sys2Proof.Machine.execLinkSignalLost link s
  | .slotTransmit link => Sys2Proof.Machine.execSlotTransmit link s
  | .flitReceive link pos corrected lost crcOk tagOk flit => Sys2Proof.Machine.execFlitReceive link pos corrected lost crcOk tagOk flit s
  | .replayBufferFullTimeout link => Sys2Proof.Machine.execReplayBufferFullTimeout link s
  | .replayRoundTimeout link => Sys2Proof.Machine.execReplayRoundTimeout link s
  | .slotPlanSwitch link => Sys2Proof.Machine.execSlotPlanSwitch link s
  | .tableLoadSlotPlan fn ring => Sys2Proof.Machine.execTableLoadSlotPlan fn ring s
  | .tableLoadRouting fn ring => Sys2Proof.Machine.execTableLoadRouting fn ring s
  | .timeFlitReceive link replayed body => Sys2Proof.Machine.execTimeFlitReceive link replayed body s
  | .timeExchangeTimeout => Sys2Proof.Machine.execTimeExchangeTimeout s
  | .rollCall fn ring => Sys2Proof.Machine.execRollCall fn ring s
  | .rollQueryReceive link since stop => Sys2Proof.Machine.execRollQueryReceive link since stop s
  | .rollAnswerReceive junction jid links => Sys2Proof.Machine.execRollAnswerReceive junction jid links s
  | .rollQueryTimeout junction => Sys2Proof.Machine.execRollQueryTimeout junction s
  | .qpCreate fn => Sys2Proof.Machine.execQpCreate fn s
  | .qpModify fn => Sys2Proof.Machine.execQpModify fn s
  | .qpDestroy fn => Sys2Proof.Machine.execQpDestroy fn s
  | .qpQuery fn => Sys2Proof.Machine.execQpQuery fn s
  | .cqCreate fn rivals => Sys2Proof.Machine.execCqCreate fn rivals s
  | .cqDestroy fn => Sys2Proof.Machine.execCqDestroy fn s
  | .srqCreate fn rivals => Sys2Proof.Machine.execSrqCreate fn rivals s
  | .srqDestroy fn => Sys2Proof.Machine.execSrqDestroy fn s
  | .pdAlloc fn rivals => Sys2Proof.Machine.execPdAlloc fn rivals s
  | .pdFree fn => Sys2Proof.Machine.execPdFree fn s
  | .regRegion fn rivals => Sys2Proof.Machine.execRegRegion fn rivals s
  | .openWindow fn rivals => Sys2Proof.Machine.execOpenWindow fn rivals s
  | .revoke fn => Sys2Proof.Machine.execRevoke fn s
  | .revokeDrainDone fn => Sys2Proof.Machine.execRevokeDrainDone fn s
  | .managerRevoke fn key rival => Sys2Proof.Machine.execManagerRevoke fn key rival s
  | .qpStopOrder issuer fn qp rival => Sys2Proof.Machine.execQpStopOrder issuer fn qp rival s
  | .qpStartOrder issuer fn qp rival => Sys2Proof.Machine.execQpStartOrder issuer fn qp rival s
  | .remoteRequestReceive cmp ids => Sys2Proof.Machine.execRemoteRequestReceive cmp ids s
  | .remoteMessageVisible qp outcome => Sys2Proof.Machine.execRemoteMessageVisible qp outcome s
  | .remoteResponseReceive cmp id => Sys2Proof.Machine.execRemoteResponseReceive cmp id s
  | .srqDoorbell fn slot off size count => Sys2Proof.Machine.execSrqDoorbell fn slot off size count s
  | .cqDoorbell fn slot off size count => Sys2Proof.Machine.execCqDoorbell fn slot off size count s
  | .transportTimeout op => Sys2Proof.Machine.execTransportTimeout op s
  | .rnrWaitExpiry qp => Sys2Proof.Machine.execRnrWaitExpiry qp s
  | .aeqRead fn => Sys2Proof.Machine.execAeqRead fn s
  | .rocePacketReceive port occupancy packet => Sys2Proof.Machine.execRocePacketReceive port occupancy packet s
  | .cnpReceive port packet => Sys2Proof.Machine.execCnpReceive port packet s
  | .pfcFrameReceive port prio quanta => Sys2Proof.Machine.execPfcFrameReceive port prio quanta s
  | .ackTimeout qp => Sys2Proof.Machine.execAckTimeout qp s
  | .pfcRefreshTimer port prio => Sys2Proof.Machine.execPfcRefreshTimer port prio s
  | .pfcStorm port prio => Sys2Proof.Machine.execPfcStorm port prio s
  | .ccAlphaTimer qp => Sys2Proof.Machine.execCcAlphaTimer qp s
  | .ccRateTimer qp => Sys2Proof.Machine.execCcRateTimer qp s
  | .netLinkDown port => Sys2Proof.Machine.execNetLinkDown port s
  | .netLinkUp port => Sys2Proof.Machine.execNetLinkUp port s
  | .incidentRecordWrite ring outcome => Sys2Proof.Machine.execIncidentRecordWrite ring outcome s
  | .devicePendingClear fn => Sys2Proof.Machine.execDevicePendingClear fn s
  | .hostLinkReset port perst drained => Sys2Proof.Machine.execHostLinkReset port perst drained s
  | .warmReset cause fn key hosts => Sys2Proof.Machine.execWarmReset cause fn key hosts s
  | .coldReset cause fn key => Sys2Proof.Machine.execColdReset cause fn key s
  | .powerOn sel => Sys2Proof.Machine.execPowerOn sel s
  | .powerLoss => Sys2Proof.Machine.execPowerLoss s
  | .pwrgoodFall => Sys2Proof.Machine.execPwrgoodFall s
  | .bootPhaseDone phase ms rails reason imgA imgB recA recB => Sys2Proof.Machine.execBootPhaseDone phase ms rails reason imgA imgB recA recB s
  | .bootPhaseTimeout => Sys2Proof.Machine.execBootPhaseTimeout s
  | .mgmtCoreFault core entropy => Sys2Proof.Machine.execMgmtCoreFault core entropy s
  | .clampLogClear fn => Sys2Proof.Machine.execClampLogClear fn s
  | .attemptClear fn => Sys2Proof.Machine.execAttemptClear fn s
  | .bulkFill fn ring slot lines => Sys2Proof.Machine.execBulkFill fn ring slot lines s
  | .memtest fn ring slot lines corrected mismatched => Sys2Proof.Machine.execMemtest fn ring slot lines corrected mismatched s
  | .keyRotate fn ring slot lines => Sys2Proof.Machine.execKeyRotate fn ring slot lines s
  | .fwStageImage fn ring slot bytes flashOk data => Sys2Proof.Machine.execFwStageImage fn ring slot bytes flashOk data s
  | .fwStageRecord fn ring slot bytes flashOk data seqA seqB => Sys2Proof.Machine.execFwStageRecord fn ring slot bytes flashOk data seqA seqB s
  | .opSuspend fn ring rival => Sys2Proof.Machine.execOpSuspend fn ring rival s
  | .opResume fn ring rival => Sys2Proof.Machine.execOpResume fn ring rival s
  | .opCancel fn ring rival => Sys2Proof.Machine.execOpCancel fn ring rival s
  | .longOperationEnd slot => Sys2Proof.Machine.execLongOperationEnd slot s
  | .linkKeySet session cmp key tag beat => Sys2Proof.Machine.execLinkKeySet session cmp key tag beat s
  | .linkKeyActivate cmp => Sys2Proof.Machine.execLinkKeyActivate cmp s
  | .linkKeyPreviousExpiry cmp => Sys2Proof.Machine.execLinkKeyPreviousExpiry cmp s
  | .getVersion port => Sys2Proof.Machine.execGetVersion port s
  | .getCapabilities port => Sys2Proof.Machine.execGetCapabilities port s
  | .negotiateAlgorithms port offered => Sys2Proof.Machine.execNegotiateAlgorithms port offered s
  | .getDigests port => Sys2Proof.Machine.execGetDigests port s
  | .getCertificate port slot offset len => Sys2Proof.Machine.execGetCertificate port slot offset len s
  | .challenge port slot => Sys2Proof.Machine.execChallenge port slot s
  | .getMeasurements port index => Sys2Proof.Machine.execGetMeasurements port index s
  | .keyExchange port slot mutualAuth digest => Sys2Proof.Machine.execKeyExchange port slot mutualAuth digest s
  | .finish session verified => Sys2Proof.Machine.execFinish session verified s
  | .keyUpdate session op => Sys2Proof.Machine.execKeyUpdate session op s
  | .heartbeat session => Sys2Proof.Machine.execHeartbeat session s
  | .endSession session => Sys2Proof.Machine.execEndSession session s
  | .lockInterfaceRequest idx stream => Sys2Proof.Machine.execLockInterfaceRequest idx stream s
  | .getDeviceInterfaceReport idx => Sys2Proof.Machine.execGetDeviceInterfaceReport idx s
  | .getDeviceInterfaceState idx => Sys2Proof.Machine.execGetDeviceInterfaceState idx s
  | .startInterfaceRequest idx => Sys2Proof.Machine.execStartInterfaceRequest idx s
  | .stopInterfaceRequest idx => Sys2Proof.Machine.execStopInterfaceRequest idx s
  | .ideFailure exp port stream => Sys2Proof.Machine.execIdeFailure exp port stream s
  | .expIdeRekey fn port => Sys2Proof.Machine.execExpIdeRekey fn port s
  | .svnCommit fn => Sys2Proof.Machine.execSvnCommit fn s
  | .seal fn value => Sys2Proof.Machine.execSeal fn value s
  | .debugChallengeRequest path fn rival => Sys2Proof.Machine.execDebugChallengeRequest path fn rival s
  | .debugResponseSubmit path fn mode words => Sys2Proof.Machine.execDebugResponseSubmit path fn mode words s
  | .debugChallengeExpiry => Sys2Proof.Machine.execDebugChallengeExpiry s
  | .telemetrySample temps rails power energy avs => Sys2Proof.Machine.execTelemetrySample temps rails power energy avs s
  | .tsyncEdge err => Sys2Proof.Machine.execTsyncEdge err s
  | .tsyncEdgeMissing => Sys2Proof.Machine.execTsyncEdgeMissing s
  | .rootTimeSet fn high => Sys2Proof.Machine.execRootTimeSet fn high s
  | .blockGate fn off val => Sys2Proof.Machine.execBlockGate fn off val s
  | .ungateDone block => Sys2Proof.Machine.execUngateDone block s
  | .i3cTelemetryRead index => Sys2Proof.Machine.execI3cTelemetryRead index s
  | .i3cFawnRequest index val => Sys2Proof.Machine.execI3cFawnRequest index val s
  | .entdaa addr => Sys2Proof.Machine.execEntdaa addr s
  | .setdasa => Sys2Proof.Machine.execSetdasa s
  | .rstdaa => Sys2Proof.Machine.execRstdaa s
  | .enec => Sys2Proof.Machine.execEnec s
  | .disec => Sys2Proof.Machine.execDisec s
  | .getpid => Sys2Proof.Machine.execGetpid s
  | .getbcr => Sys2Proof.Machine.execGetbcr s
  | .getdcr => Sys2Proof.Machine.execGetdcr s
  | .getstatus => Sys2Proof.Machine.execGetstatus s
  | .getmxds => Sys2Proof.Machine.execGetmxds s
  | .pfcPauseExpiry port prio => Sys2Proof.Machine.execPfcPauseExpiry port prio s
  | .intakeBelowXon port prio => Sys2Proof.Machine.execIntakeBelowXon port prio s
  | .perstDeassert port => Sys2Proof.Machine.execPerstDeassert port s
  | .sysRstNRelease => Sys2Proof.Machine.execSysRstNRelease s
  | .diePortLinkUp port => Sys2Proof.Machine.execDiePortLinkUp port s
  | .h2dSnoop port tag => Sys2Proof.Machine.execH2dSnoop port tag s
  | .biconflict port tag => Sys2Proof.Machine.execBiconflict port tag s
  | .lineS port op addr poison data => Sys2Proof.Machine.execLineS port op addr poison data s
  | .ideKm port session stream op set => Sys2Proof.Machine.execIdeKm port session stream op set s
  | .configurationWrite fn item value => Sys2Proof.Machine.execConfigurationWrite fn item value s

end Sys2Proof.Machine
end

