-- ==== Sys2Proof/Machine/Tick.lean ====
section
/-! DEFINITION. What happens when no command waits: the clock advances by one beat (DESIGN CHOICE: the table has no row for it). -/
namespace Sys2Proof.Machine

open Sys2Proof

/-- The BEAT counter advances, unless it holds its value for the domain timebase (R72). -/
def State.advance (s : State) : State :=
  if 0 < s.plk.time.hold then { s with plk := { s.plk with time := { s.plk.time with hold := s.plk.time.hold - 1 } } }
  else s.wr .PWR_BEAT 0 (s.beat + 1)

/-- One beat passes; a warm reset reaches its last step (R517). -/
def State.tick (s : State) : State :=
  let s := { s.advance with ns := s.ns + 1 }
  if 0 < s.boot.warmStep then s.warmEnd else s

end Sys2Proof.Machine
end

