-- ==== Sys2Proof/Safety.lean ====
section
/-! DEFINITION. What counts as a safe run: no command stops the block, and the properties of a state that every step keeps. -/
namespace Sys2Proof.Machine

open Sys2Proof

/-- A state from which a step is taken: the block neither faults nor refuses. -/
def State.runs (s : State) : Prop := ∃ t, step s = .next t

/-- The memories are in canonical form: addresses strictly rising, no entry equal to what an unlisted address reads as. -/
def State.memOk (s : State) : Prop := Memory.wf s.mem.acc = true ∧ Memory.wf s.mem.host = true

/-- The rails, resets and host links agree: PWRGOOD is high only while VDD_AON is good; a host link is up only while its PERST_x_N is
high and PWRGOOD is high; a start is held only while PWRGOOD is high and SYS_RST_N low; a warm reset runs only while PWRGOOD is high. -/
def State.pinsOk (s : State) : Prop :=
  (s.pins.pwrgood = true → s.pins.vddAon = true) ∧
  (∀ p ∈ s.pins.hostUp, s.perst p = true ∧ s.pins.pwrgood = true) ∧
  (s.boot.sysHeld = true → s.pins.pwrgood = true ∧ s.pins.sysRstN = false) ∧
  (0 < s.boot.warmStep → s.pins.pwrgood = true)

/-! ### Frames -/

/-- Fields that raising an event source may change: its count and latch, the batch of its vector, and the delivery counters (chapter 7). -/
def raiseFlds : List Fld :=
  [.EVT_COUNT, .EVT_SAT, .EVT_PENDING, .EVT_VEC_BATCH, .EVT_VEC_HELD, .EVT_VEC_DELIVERIES, .STAT_F_LIVE]

/-- Fields that posting an incident may change: the sequence number, the lost counters, the pending bit of a device incident, and what its
asynchronous events raise (chapter 18). -/
def postFlds : List Fld :=
  [.INC_SEQ_NEXT, .INC_LOST_NOTICE, .INC_LOST_DEGRADED, .INC_LOST_JOB, .INC_LOST_DEVICE, .INC_CRING_LOST_NOTICE,
   .INC_CRING_LOST_DEGRADED, .INC_CRING_LOST_JOB, .INC_CRING_LOST_DEVICE, .INC_DEVICE_PENDING, .NET_AEQ_OVF] ++ raiseFlds

/-- `s` with the parts that field writes, events and incidents change taken from `t`: field values, vectors and MSI-X, the incident queues,
the asynchronous event queues, and what the block has sent. -/
def State.reports (s t : State) : State :=
  { s with reg := { s.reg with vals := t.reg.vals }, evt := t.evt, inc := t.inc, net := { s.net with aeq := t.net.aeq }, sent := t.sent }

/-- Every field outside a list reads in `t` as it read in `s`. -/
def State.keepsBut (s t : State) (fs : List Fld) : Prop := ∀ f, f ∉ fs → ∀ i, t.rd f i = s.rd f i

/-! ### Starting a descriptor -/

/-- The descriptor that starts next in a ring of a function of compartment `c` is `k`, of this opcode, and its checks pass (R140). -/
abbrev State.starts (s : State) (fn ring opcode c : Nat) (k : Cand) : Prop :=
  s.fnCmp fn = some c ∧ s.nextCand fn ring = some k ∧ dOpcode k.desc = opcode ∧ s.checkAll fn c (s.indicRing fn ring) k.base k.desc = none

/-- The operation of a descriptor that starts, and the state in which its engine begins: taken from its queue, with its lateness judged. -/
def State.begun (s : State) (fn ring c : Nat) (k : Cand) : Op × State :=
  let a := (s.takeCand fn ring k).newOp fn ring c k
  a.2.lateStart a.1

/-- The operation joins those that are started. -/
def State.addOp (s : State) (o : Op) : State := { s with ring := { s.ring with ops := s.ring.ops ++ [o] } }

/-- A long operation of an operation's descriptor in slot `i`, RUNNING with nothing done (R531). -/
def State.opensLong (s : State) (o : Op) (tkind c total i : Nat) (words args : List Nat) : State :=
  let l : LongOp := ⟨s.long.serial % 2 ^ 28 * 16 + i, dOpcode o.desc, tkind, c, 1, 0, 0, total, s.beat, 0, 0, 0, 0, 0, some o.id, none, words, args⟩
  { s with long := { s.long with slots := Tab.put s.long.slots i l, serial := s.long.serial + 1 } }

/-! ### Requests of die agents -/

/-- A die agent's request of an address reaches the home: its stream is bound to compartment `c`, the agent is live, intake is open, and its
die port translates the address without a miss to device memory by `x` (R24, R303). -/
abbrev State.dieReaches (s : State) (agent va : Nat) (indic : Bool) (need : Need) (c : Nat) (x : Trans) : Prop :=
  isDie agent = true ∧ s.streamCmp agent = some c ∧ s.agentLive agent = true ∧ s.intakeOpen c = true ∧
    (s.translate (agent / 8) c va indic need).1 = .ok x ∧ (s.translate (agent / 8) c va indic need).2.1 = false ∧ x.target = 0

end Sys2Proof.Machine

/-! ### Commands by what they reach -/

/-- Commands that store to no memory and drive no pin of power, reset or a host link, in whatever state. -/
def Sys2Proof.Instr.storesNothing : Sys2Proof.Instr → Bool
  | .unsupportedRegisterAccess .. | .registerPairLowRead .. | .registerPairHighRead .. | .registerPairLowWrite .. | .readToClear ..
  | .quiesce .. | .quiesceDrainComplete .. | .reopen .. | .serviceSlotGrant .. | .contractPreloadDone .. | .contractActivate ..
  | .contractEnd .. | .deadlineMissed .. | .frameBoundary | .mailboxSend .. | .mailboxRequestProcess .. | .queryState .. | .queryGrants ..
  | .queryIdentity .. | .mailboxReply .. | .mailboxReplyProcess .. | .managementWindowEnd .. | .mailboxNoticeSet ..
  | .instanceResetDrained .. | .ringStart .. | .ringSuspend .. | .ringResume .. | .ringStop .. | .ringCancel .. | .ringRevokeOrder ..
  | .cplRingStart .. | .cplRingStop .. | .ringCreate .. | .ringDestroy .. | .cplRingCreate .. | .cplRingDestroy .. | .commandDoorbell ..
  | .completionDoorbell .. | .nop .. | .callList .. | .xlatePrefetch .. | .xlateInvalidate .. | .xlateProbe .. | .conSignal ..
  | .conRead .. | .conDisarm .. | .operationComplete .. | .commandTimeout .. | .concordSignalApply .. | .concordViewSignal ..
  | .concordWindowSet .. | .eventSourceBind .. | .eventRouteApply .. | .eventDoorbell .. | .coalesceTimerExpiry .. | .vectorUnmask ..
  | .eventClaim .. | .mgmtCoreEventForward .. | .atsInvalidateRequest .. | .atsInvalidateCompletion .. | .walkStart ..
  | .walkEntryReturn .. | .managerInvalidation .. | .managerInvalidationDone | .maintenanceDone .. | .pinFlushDone .. | .event ..
  | .linePeek .. | .coherentWindowChangeDone .. | .hostAtomicopRequest .. | .activityWindowBoundary .. | .enumerationStart ..
  | .enumerationPortVisit .. | .expansionLinkUp .. | .expansionLinkDown .. | .expanderEvent .. | .plkLinkEnable .. | .linkRetrain ..
  | .linkSignalDetected .. | .linkEqualizeDone .. | .linkEqualizeTimeout .. | .linkAlignLock .. | .linkAlignTimeout .. | .linkInitDone ..
  | .linkInitTimeout .. | .linkSignalLost .. | .slotTransmit .. | .flitReceive .. | .replayBufferFullTimeout .. | .replayRoundTimeout ..
  | .slotPlanSwitch .. | .timeFlitReceive .. | .timeExchangeTimeout | .rollQueryReceive .. | .qpCreate .. | .qpModify .. | .qpDestroy ..
  | .qpQuery .. | .cqCreate .. | .cqDestroy .. | .srqCreate .. | .srqDestroy .. | .pdAlloc .. | .pdFree .. | .regRegion ..
  | .openWindow .. | .revoke .. | .revokeDrainDone .. | .managerRevoke .. | .qpStopOrder .. | .qpStartOrder .. | .srqDoorbell ..
  | .cqDoorbell .. | .transportTimeout .. | .aeqRead .. | .rocePacketReceive .. | .cnpReceive .. | .pfcFrameReceive ..
  | .pfcRefreshTimer .. | .pfcStorm .. | .ccAlphaTimer .. | .ccRateTimer .. | .netLinkDown .. | .netLinkUp .. | .devicePendingClear ..
  | .bootPhaseTimeout | .mgmtCoreFault .. | .clampLogClear .. | .attemptClear .. | .longOperationEnd .. | .linkKeySet ..
  | .linkKeyActivate .. | .linkKeyPreviousExpiry .. | .getVersion .. | .getCapabilities .. | .negotiateAlgorithms .. | .getDigests ..
  | .getCertificate .. | .challenge .. | .getMeasurements .. | .keyExchange .. | .finish .. | .keyUpdate .. | .heartbeat ..
  | .endSession .. | .lockInterfaceRequest .. | .getDeviceInterfaceReport .. | .getDeviceInterfaceState .. | .startInterfaceRequest ..
  | .stopInterfaceRequest .. | .ideFailure .. | .expIdeRekey .. | .svnCommit .. | .seal .. | .debugChallengeRequest ..
  | .debugChallengeExpiry | .telemetrySample .. | .tsyncEdge .. | .tsyncEdgeMissing | .rootTimeSet .. | .blockGate .. | .ungateDone ..
  | .i3cTelemetryRead .. | .i3cFawnRequest .. | .entdaa .. | .setdasa | .rstdaa | .enec | .disec | .getpid | .getbcr | .getdcr
  | .getstatus | .getmxds | .pfcPauseExpiry .. | .intakeBelowXon .. | .diePortLinkUp .. | .h2dSnoop .. | .biconflict ..
  | .ideKm .. => true
  | .registerWrite .. | .registerPairHighWrite .. | .assign .. | .scrub .. | .scrubStepComplete .. | .tableLoadContract ..
  | .instanceReset .. | .managerReset .. | .descriptorFetch .. | .moveCopy .. | .moveFill .. | .move2d .. | .moveAtomic ..
  | .gatherReduce .. | .remoteWrite .. | .remoteRead .. | .remoteSend .. | .remoteAtomic .. | .conArm .. | .completionRecordWrite ..
  | .atsTranslationCompletion .. | .prgResponse .. | .hostReadCompletion .. | .hostCompletionTimeout .. | .tableLoadRangeTable ..
  | .sliceRequest .. | .fillReturn .. | .fill .. | .clean .. | .invalidate .. | .flush .. | .pinnedWayChange .. | .getCopy .. | .getOwn ..
  | .claimOwn .. | .peek .. | .putLine .. | .putBytes .. | .atomicFar .. | .installed .. | .rspServed .. | .rspCleared .. | .rspMiss ..
  | .rspEvicting .. | .lineWb .. | .lineBack .. | .retryResend .. | .reservationExpiry .. | .diePortLinkDown .. | .cxlM2sRequest ..
  | .cxlBirsp .. | .stackReadReturn .. | .grResultReturn .. | .enumerationMapApply .. | .expanderResponse .. | .tableLoadSlotPlan ..
  | .tableLoadRouting .. | .rollCall .. | .rollAnswerReceive .. | .rollQueryTimeout .. | .remoteRequestReceive ..
  | .remoteMessageVisible .. | .remoteResponseReceive .. | .rnrWaitExpiry .. | .ackTimeout .. | .incidentRecordWrite ..
  | .hostLinkReset .. | .warmReset .. | .coldReset .. | .powerOn .. | .powerLoss | .pwrgoodFall | .bootPhaseDone .. | .bulkFill ..
  | .memtest .. | .keyRotate .. | .fwStageImage .. | .fwStageRecord .. | .opSuspend .. | .opResume .. | .opCancel ..
  | .debugResponseSubmit .. | .perstDeassert .. | .sysRstNRelease | .lineS .. | .configurationWrite .. => false

/-- The commands of power, resets and start-up, the only ones that move a pin. -/
def Sys2Proof.Instr.movesPins (c : Sys2Proof.Instr) : Bool :=
  match c with
  | .warmReset .. | .coldReset .. | .sysRstNRelease | .pwrgoodFall | .powerLoss | .powerOn .. | .perstDeassert .. | .hostLinkReset ..
  | .bootPhaseDone .. => true
  | _ => false
end

