-- ==== Sys2Proof/Certificates/Slice0/Obligations.lean ====
section
/-! DEFINITION. The statements for the provers: what every step does, what each command does where it completes, and what it leaves alone. -/
open Sys2Proof Sys2Proof.Machine

/-- For every command and state, a step of the state with the command at the front of its queue is the command's effect on the state with
the queue's rest. -/
def Obligations.StepRunsTheFrontCommand : Prop :=
  ∀ (c : Instr) (s : State) (rest : List Instr),
    step { s with pending := c :: rest } = exec c { s with pending := rest }

/-- A step of a state with an empty queue and no warm reset under way advances the BEAT counter by one, or, while BEAT holds for the
domain timebase, one cycle of the hold passes; one nanosecond is counted and nothing else changes. That a step without a command is one
beat, and one nanosecond, is the model's choice (log entry 5). (R71, R72) -/
def Obligations.AnEmptyQueueIsABeat : Prop :=
  (∀ (s : State),
    s.pending = [] ∧ s.boot.warmStep = 0 ∧ s.plk.time.hold = 0 →
    step s = .next { s.wr .PWR_BEAT 0 (s.beat + 1) with ns := s.ns + 1 } ∧ (s.beat + 1 < 2 ^ 64 → (s.wr .PWR_BEAT 0 (s.beat + 1)).beat = s.beat + 1)) ∧
  (∀ (s : State),
    s.pending = [] ∧ s.boot.warmStep = 0 ∧ 0 < s.plk.time.hold →
    step s = .next { s with plk := { s.plk with time := { s.plk.time with hold := s.plk.time.hold - 1 } }, ns := s.ns + 1 })

/-- After reset no command waits and no descriptor, slot, completion record or operation is held; every ring of every function is
DISABLED, every tenant FREE and the house ASSIGNED; concord objects and BEAT read 0; the next incident is number 1; and the set-up fields
named hold the reset values of their tables. (R29, R182, R494) -/
def Obligations.ResetLeavesTheStatedValues : Prop :=
  State.reset.pending = [] ∧ State.reset.ring.ops = [] ∧ State.reset.slots = [] ∧ State.reset.long.slots = [] ∧ State.reset.ring.cplQ = [] ∧
      (∀ fn < 128, ∀ n < 64, State.reset.ringState fn n = .disabled) ∧ State.reset.cmpState 0 = .assigned ∧
      (∀ c, 1 ≤ c → c ≤ 31 → State.reset.cmpState c = .free) ∧ (∀ obj < 4096, State.reset.rd .CON_VALUE obj = 0) ∧ State.reset.beat = 0 ∧
      State.reset.rd .INC_SEQ_NEXT 0 = 1 ∧ State.reset.rd .BOOT_ATTEMPTS 0 = 0 ∧ State.reset.rd .BOOT_ATTEMPT_LIMIT 0 = 3 ∧
      State.reset.rd .CMP_HOUSE_UNITS 0 = 32 ∧ State.reset.rd .CMP_HOUSE_SLICES 0 = 4 ∧ State.reset.rd .CMP_HOUSE_WALKERS 0 = 2 ∧
      State.reset.rd .COH_RETRY_GAP 0 = 32 ∧ State.reset.rd .STK_T_REF2 0 = 85 ∧ State.reset.rd .STK_T_TRIP 0 = 115 ∧
      State.reset.rd .STK_T_HYST 0 = 3 ∧ State.reset.rd .EXP_LAT_LIMIT 0 = 640 ∧ State.reset.rd .PWR_T_WARN 0 = 95 ∧ State.reset.rd .PWR_T_CRIT 0 = 110

/-- The state after reset satisfies the invariant of power, resets and host links, and its memories list nothing. (R513, R608) -/
def Obligations.InvariantsHoldAtReset : Prop :=
  State.reset.pinsOk ∧ State.reset.memOk ∧ State.reset.mem.acc = [] ∧ State.reset.mem.host = []

/-- Every step from a state in which PWRGOOD is high only while VDD_AON is good, a host link is up only while its PERST_x_N and PWRGOOD
are high, a start is held only while PWRGOOD is high and SYS_RST_N low, and a warm reset runs only while PWRGOOD is high, leads to such a
state. (R513, R514, R522, R594, R608) -/
def Obligations.PinsAgreeInEveryStep : Prop :=
  ∀ (s t : State),
    s.pinsOk →
    step s = .next t →
    t.pinsOk

/-- A store keeps the canonical form of a memory and changes exactly the bytes it writes, and two memories in canonical form that read the
same at every address are the same. (R19, R22) -/
def Obligations.MemoryIsCanonical : Prop :=
  (∀ (m : List Host.Cell) (a : Nat) (bs : List Byte),
    Memory.wf m = true →
    Memory.wf (Mem.write m a bs) = true ∧ (∀ b, Mem.byte (Mem.write m a bs) b =
      if a ≤ b ∧ b < a + bs.length then bs.getD (b - a) emptyByte else Mem.byte m b)) ∧
  (∀ (m n : List Host.Cell),
    Memory.wf m = true ∧ Memory.wf n = true ∧ (∀ a, Mem.byte m a = Mem.byte n a) →
    m = n)

/-- Every step of every state answers a next state: the model neither faults nor refuses, whatever command is at the front of the queue.
-/
def Obligations.EveryStepCompletes : Prop :=
  ∀ (s : State),
    s.runs

/-- Whatever a command does, the waiting commands stay as they were; the commands listed as storing nothing leave every byte of memory,
every line key and poison mark, and every pin; every command but those of power, resets and start-up leaves the pins. (R513) -/
def Obligations.CommandsStayInTheirReach : Prop :=
  ∀ (c : Instr) (s t : State),
    exec c s = .next t →
    t.pending = s.pending ∧ (c.storesNothing = true → t.mem = s.mem ∧ t.pins = s.pins) ∧ (c.movesPins = false → t.pins = s.pins)

/-- A write of a register that holds one RW field, which is no set-up field and has no rule of its own, sets the field to the bits written
at its place; nothing else changes. A register whose fields are all RO keeps them, whatever is written. A write of the low half of a pair
that is taken only stages the half for the writing function. A write of the high half of a plain pair sets the field to the staged low
half, or the present low half where none is staged, with the written high half, its reserved low bits 0, and the staged half is gone. A
read of a register that holds one stored field returns its value at its place, clears it where it is RC, and changes nothing else. The
read of the low half of a pair latches the high half for the function; the read of the high half returns the shadow and discards it. (R14,
R12, R13, R11) -/
def Obligations.RegistersAreReadAndWritten : Prop :=
  (∀ (s : State) (fn off val : Nat) (h : Hit),
    fn < 128 →
    off % 4 = 0 →
    s.mailboxAt fn off = none ∧ msixAt fn off = none →
    s.hits fn off = [h] →
    h.fld.spec.access = .RW ∧ h.fld.spec.setup = false ∧ h.fld.spec.pair = false →
    h.fld ∉ [Fld.EVT_VEC_MASK, .INC_DRING_CONS, .INC_CRING_CONS] ∧ ownRow h.fld = false ∧ cohField h.fld = false →
    s.dropField fn h.fld h.idx = false →
    s.closed fn off = false ∧ s.mayWrite fn off = true →
    ¬(isMgr fn = false ∧ off = 0x30604) →
    exec (.registerWrite fn off val) s = .next (s.wr h.fld h.idx (bits (val % 2 ^ 32) h.lo h.fld.spec.width))) ∧
  (∀ (s : State) (fn off val : Nat),
    fn < 128 →
    off % 4 = 0 →
    s.mailboxAt fn off = none ∧ msixAt fn off = none →
    s.hits fn off ≠ [] →
    (∀ h ∈ s.hits fn off, h.fld.spec.access = .RO) →
    s.closed fn off = false ∧ s.mayWrite fn off = true →
    ¬(isMgr fn = false ∧ off = 0x30604) →
    exec (.registerWrite fn off val) s = .next s) ∧
  (∀ (s : State) (fn off val : Nat),
    fn < 128 ∧ isPair (s.hits fn off) = true ∧ (s.hits fn off).any (fun h => h.high) = false →
    s.closed fn off = false ∧ s.mayWrite fn off = true ∧ (s.hits fn off).all (fun h => !s.locked h.fld) = true ∧ s.tdispHit (s.hits fn off) = false →
    exec (.registerPairLowWrite fn off val) s = .next (s.stageLow fn off (val % 2 ^ 32))) ∧
  (∀ (s : State) (fn off val : Nat) (h : Hit),
    fn < 128 ∧ s.hits fn off = [h] ∧ h.high = true ∧ h.fld.spec.pair = true →
    s.closed fn off = false ∧ s.mayWrite fn off = true →
    h.fld.spec.access = .RW ∧ h.fld.spec.setup = false ∧ ownRow h.fld = false ∧ h.fld ≠ .STK_GROUP_MODE →
    exec (.registerPairHighWrite fn off val) s = .next (
      let low := (s.reg.staged.find (pairKey fn (off - 4))).getD (s.rd h.fld h.idx % 2 ^ 32)
      { s with reg := { s.reg with staged := Tab.del s.reg.staged (pairKey fn (off - 4)) } }.wr h.fld h.idx
        ((low + 2 ^ 32 * (val % 2 ^ 32)) % 2 ^ h.fld.spec.width / 2 ^ h.fld.spec.lowRes * 2 ^ h.fld.spec.lowRes))) ∧
  (∀ (s : State) (fn off : Nat) (h : Hit),
    fn < 128 ∧ off % 4 = 0 ∧ s.readHits fn off = (fn, [h]) ∧ s.bufferRead fn off = none →
    s.closed fn off = false →
    h.fld.spec.pair = false ∧ h.fld.spec.computed = false ∧ h.fld.spec.access ≠ .WO ∧ h.fld.spec.access ≠ .W1S →
    h.fld ∉ [Fld.INS_MB_RELAY_NOTICE, .EVT_SRC_OWNER, .EVT_SRC_BOUND, .EVT_CLM_SRC, .NET_AEQ_LO] →
    exec (.readToClear fn off) s = .next (
      let t := s.emit .readValue [fn, off, put (s.rd h.fld h.idx % 2 ^ h.fld.spec.width) h.lo h.fld.spec.width]
      if h.fld.spec.access = .RC then t.wr h.fld h.idx 0 else t)) ∧
  (∀ (s : State) (fn off : Nat) (h : Hit),
    fn < 128 ∧ off % 4 = 0 ∧ s.readHits fn off = (fn, [h]) →
    s.closed fn off = false →
    h.fld.spec.pair = true ∧ h.high = false ∧ h.fld.spec.computed = false ∧ h.fld.spec.access ≠ .WO ∧ h.fld.spec.access ≠ .W1S →
    exec (.registerPairLowRead fn off) s = .next (
      let t := s.emit .readValue [fn, off, s.rd h.fld h.idx % 2 ^ h.fld.spec.width % 2 ^ 32]
      { t with reg := { t.reg with shadow := Tab.put t.reg.shadow (pairKey fn off) (s.rd h.fld h.idx / 2 ^ 32 % 2 ^ 32) } })) ∧
  (∀ (s : State) (fn off v : Nat),
    fn < 128 ∧ 4 ≤ off ∧ (s.readHits fn off).2.any (fun h => h.high) = true →
    s.closed fn off = false ∧ s.reg.shadow.find (pairKey fn (off - 4)) = some v →
    exec (.registerPairHighRead fn off) s = .next (
      let t := s.emit .readValue [fn, off, v]
      { t with reg := { t.reg with shadow := Tab.del t.reg.shadow (pairKey fn (off - 4)) } }))

/-- An access that is not an aligned 32-bit access answers Unsupported Request; no register, memory or other state changes. An aligned
64-bit access of the MSI-X regions, to which R616 says that R9 does not apply, is none of these accesses. (R9) -/
def Obligations.UnalignedAccessIsUnsupported : Prop :=
  (∀ (s : State) (fn off size : Nat),
    ¬(size = 4 ∧ off % 4 = 0) →
    ¬(size = 8 ∧ off % 8 = 0) →
    exec (.unsupportedRegisterAccess fn off size) s = .next (s.emit .unsupported [fn, off])) ∧
  (∀ (s : State) (fn off size : Nat),
    ¬(size = 4 ∧ off % 4 = 0) →
    msixAt fn off = none ∧ s.msixPending fn off = none →
    exec (.unsupportedRegisterAccess fn off size) s = .next (s.emit .unsupported [fn, off]))

/-- On a sealed part a write of a register of RWL fields leaves every one of them as it was and posts the attempt to the device ring;
nothing else happens. (R15) -/
def Obligations.SealedRegistersAreKept : Prop :=
  ∀ (s : State) (fn off val : Nat),
    fn < 128 ∧ off % 4 = 0 ∧ s.mailboxAt fn off = none ∧ msixAt fn off = none ∧ ¬(isMgr fn = false ∧ off = 0x30604) →
    s.closed fn off = false ∧ s.mayWrite fn off = true ∧ s.rd .SEC_LIFECYCLE 0 = 1 →
    s.hits fn off ≠ [] ∧ (∀ h ∈ s.hits fn off, h.fld.spec.access = .RWL) →
    exec (.registerWrite fn off val) s = .next (s.post (devInc 0x0002 .notice (portOf fn) fn [off, val])) ∧
      s.keepsBut (s.post (devInc 0x0002 .notice (portOf fn) fn [off, val])) postFlds ∧ (∀ h ∈ s.hits fn off, h.fld ∉ postFlds)

/-- A write of a register that holds one set-up field with a numeric range leaves the field at the written value, or at the nearest limit
of the range where the value lies outside it; in that case the clamp log, if it has room, ends with an entry of the requested and the
applied value. On a sealed part a field that is not RWL is written even when an RWL field beside it is dropped (the model's reading, log
entry 22): EXP_LAT_LIMIT beside EXP_IDE_REQUIRED, the one such register. A write of a register that its writer may not write posts
FOREIGN_ORDER to the device ring and counts it; no other field changes and nothing is stored. (R17, R94, R95) -/
def Obligations.WritesAreClampedOrTurnedAway : Prop :=
  (∀ (s : State) (fn off val lo hi : Nat) (h : Hit),
    fn < 128 ∧ off % 4 = 0 ∧ s.mailboxAt fn off = none ∧ msixAt fn off = none ∧ ¬(isMgr fn = false ∧ off = 0x30604) →
    s.hits fn off = [h] ∧ h.fld.spec.setup = true ∧ h.fld.spec.pair = false →
    h.fld.spec.access = .RW ∨ (h.fld.spec.access = .RWL ∧ s.rd .SEC_LIFECYCLE 0 = 0) →
    h.fld.spec.legal = .between lo hi →
    ownRow h.fld = false ∧ h.fld ≠ .EVT_COAL_COUNT ∧ cohField h.fld = false ∧ s.dropField fn h.fld h.idx = false ∧ s.tdispHit [h] = false →
    s.closed fn off = false ∧ s.mayWrite fn off = true →
    ∃ t, exec (.registerWrite fn off val) s = .next t ∧ t.rd h.fld h.idx = clampTo lo hi (bits (val % 2 ^ 32) h.lo h.fld.spec.width) ∧
      (¬(lo ≤ bits (val % 2 ^ 32) h.lo h.fld.spec.width ∧ bits (val % 2 ^ 32) h.lo h.fld.spec.width ≤ hi) → s.reg.clamp.length < 64 →
        ∃ e ∈ t.reg.clamp, e.fieldId = fieldId off h.lo ∧ e.requested = bits (val % 2 ^ 32) h.lo h.fld.spec.width ∧ e.applied = t.rd h.fld h.idx)) ∧
  (∀ (s : State) (fn val : Nat),
    isMgr fn = true ∧ fn < 128 ∧ s.closed fn 0x900810 = false ∧ s.mayWrite fn 0x900810 = true ∧ s.rd .SEC_LIFECYCLE 0 = 1 →
    200 ≤ bits (val % 2 ^ 32) 16 10 ∧ bits (val % 2 ^ 32) 16 10 ≤ 1000 →
    exec (.registerWrite fn 0x900810 val) s = .next ((s.post (devInc 0x0002 .notice (portOf fn) fn [0x900810, val])).wr
      .EXP_LAT_LIMIT 0 (bits (val % 2 ^ 32) 16 10))) ∧
  (∀ (s : State) (fn off val : Nat),
    fn < 128 ∧ off % 4 = 0 ∧ s.mailboxAt fn off = none ∧ msixAt fn off = none ∧ ¬(isMgr fn = false ∧ off = 0x30604) →
    s.hits fn off ≠ [] ∧ isPair (s.hits fn off) = false ∧ s.closed fn off = false ∧ s.mayWrite fn off = false →
    exec (.registerWrite fn off val) s = .next (s.foreignOrder fn off 0) ∧ s.keepsBut (s.foreignOrder fn off 0) (.HST_FOREIGN_COUNT :: postFlds) ∧
      (s.foreignOrder fn off 0).rd .HST_FOREIGN_COUNT 0 = min (s.rd .HST_FOREIGN_COUNT 0 + 1) (2 ^ 16 - 1) ∧ (s.foreignOrder fn off 0).mem = s.mem)

/-- The doorbell of a sender that holds its mailbox passes it to the junction and queues it for its window; any other one is dropped and
counted. In its window a query that passes its checks is answered with status 0 and takes the next request number, a relayed request waits
for the server with the sender's identity in word 1 and the BEAT count in word 2, and a reply of the server that passes returns with word
1 cleared. The end of the window gives each processed mailbox its holder. A notice is written by the server. (R102, R103, R104, R105,
R106, R107) -/
def Obligations.MailboxesPassInTheirWindow : Prop :=
  (∀ (s : State) (i : Nat),
    s.barsBlocked i = false ∧ s.hasMailbox i = true →
    s.rd .INS_MB_HOLDER i = 0 →
    ∃ t, exec (.mailboxSend i []) s = .next t ∧ t.rd .INS_MB_HOLDER i = 1 ∧ t.fns.mbBell = s.fns.mbBell ++ [(i, false)]
      ∧ s.keepsBut t [.INS_MB_HOLDER] ∧ t = { s with reg := { s.reg with vals := t.reg.vals }, fns := { s.fns with mbBell := t.fns.mbBell } }) ∧
  (∀ (s : State) (i : Nat),
    s.barsBlocked i = false ∧ s.hasMailbox i = true →
    s.rd .INS_MB_HOLDER i ≠ 0 →
    exec (.mailboxSend i []) s = .next (s.bump .INS_MB_DROPPED i 1)) ∧
  (∀ (s : State) (i : Nat),
    s.mbTurn i = some false ∧ s.mbCheck i = (0, true) ∧ 0x100 ≤ bits (s.mbWord i 0) 16 16 →
    exec (.mailboxRequestProcess i) s = .next (let t := s.wr .INS_MB_NEXT_SEQ i (mbNext (s.rd .INS_MB_NEXT_SEQ i))
      ((t.setMbWord i 1 (put (i % 64) 0 6 + put (portOf i) 8 1 + put (t.mailboxCmp i) 16 5)).setMbWord i 2 t.beat).mbProcessed i 3)) ∧
  (∀ (s : State) (i : Nat),
    s.mbTurn i = some false ∧ s.mbCheck i = (0, true) ∧ bits (s.mbWord i 0) 16 16 = 1 →
    ∃ t, exec (.queryState i) s = .next t ∧ t.rd .INS_MB_NEXT_SEQ i = mbNext (s.rd .INS_MB_NEXT_SEQ i) % 2 ^ 16 ∧ t.fns.mbDone.find i = some 1
      ∧ bits (t.mbWord i 0) 48 8 = 0 ∧ bits (t.mbWord i 0) 32 12 = 16 ∧ bit (t.mbWord i 0) 44 = true ∧ bits (t.mbWord i 8) 0 3 = (s.cmpState (s.mailboxCmp i)).code
      ∧ s.keepsBut t [.INS_MB_NEXT_SEQ] ∧ t = { s with reg := { s.reg with vals := t.reg.vals }, fns := t.fns }) ∧
  (∀ (s : State) (i : Nat),
    s.mbTurn i = some false ∧ s.mbCheck i = (0, true) ∧ bits (s.mbWord i 0) 16 16 = 2 →
    ∃ t, exec (.queryGrants i) s = .next t ∧ t.rd .INS_MB_NEXT_SEQ i = mbNext (s.rd .INS_MB_NEXT_SEQ i) % 2 ^ 16 ∧ t.fns.mbDone.find i = some 1
      ∧ bits (t.mbWord i 0) 48 8 = 0 ∧ bits (t.mbWord i 0) 32 12 = 80
      ∧ s.keepsBut t [.INS_MB_NEXT_SEQ] ∧ t = { s with reg := { s.reg with vals := t.reg.vals }, fns := t.fns }) ∧
  (∀ (s : State) (i : Nat),
    s.mbTurn i = some false ∧ s.mbCheck i = (0, true) ∧ bits (s.mbWord i 0) 16 16 = 3 →
    s.rd .HST_SERIAL 0 < 2 ^ 64 →
    ∃ t, exec (.queryIdentity i) s = .next t ∧ t.rd .INS_MB_NEXT_SEQ i = mbNext (s.rd .INS_MB_NEXT_SEQ i) % 2 ^ 16 ∧ t.fns.mbDone.find i = some 1
      ∧ bits (t.mbWord i 0) 48 8 = 0 ∧ t.mbWord i 9 = s.rd .HST_SERIAL 0
      ∧ s.keepsBut t [.INS_MB_NEXT_SEQ] ∧ t = { s with reg := { s.reg with vals := t.reg.vals }, fns := t.fns }) ∧
  (∀ (s : State) (fn i : Nat),
    s.closed fn (0x300024 + 0x100 * i) = false ∧ isMgr fn = true ∧ s.hasMailbox i = true ∧ fn = s.server i →
    exec (.mailboxReply fn i) s = .next (if s.rd .INS_MB_HOLDER i = 2 then
      { (s.wr .INS_MB_HOLDER i 1) with fns := { s.fns with mbBell := s.fns.mbBell ++ [(i, true)] } } else s.bump .INS_MB_DROPPED i 1)) ∧
  (∀ (s : State) (i : Nat),
    s.mbTurn i = some true ∧ s.mbReserved i = true →
    bits (s.mbWord i 1) 6 2 = 0 ∧ bits (s.mbWord i 1) 9 7 = 0 ∧ s.mbWord i 1 < 2 ^ 21 ∧ bit (s.mbWord i 0) 44 = true →
    bits (s.mbWord i 0) 0 16 = mbPrev (s.rd .INS_MB_NEXT_SEQ i) ∧ bits (s.mbWord i 0) 32 12 ≤ 4032 →
    bits (s.mbWord i 0) 48 8 = 0 ∨ 0x40 ≤ bits (s.mbWord i 0) 48 8 →
    exec (.mailboxReplyProcess i) s = .next (((s.setMbWord i 1 0).setMbWord i 2 s.beat).mbProcessed i 1)) ∧
  (∀ (s : State) (cmp i : Nat),
    s.fns.mbDone = [(i, 1)] ∧ s.mailboxCmp i = cmp →
    exec (.managementWindowEnd cmp) s = .next (({ (s.wr .INS_MB_HOLDER i 0) with fns := { s.fns with mbDone := [] } }.emit .mailbox [i]).occur (0x40 + i))) ∧
  (∀ (s : State) (fn i value : Nat),
    s.closed fn (0x300028 + 0x100 * i) = false ∧ isMgr fn = true ∧ s.hasMailbox i = true ∧ fn = s.server i →
    exec (.mailboxNoticeSet fn i value) s = .next ((s.wr (if isMgr i = true then .INS_MB_RELAY_NOTICE else .INS_MB_NOTICE) i value).occur (0x40 + i)))

/-- A function-level reset of an instance closes its intake and squashes what it holds: it is busy, no operation of it is left, and the
count of squashed descriptors shows; when its drained writes are visible its rings are DISABLED, its mailbox is with the sender, it is no
longer busy and its reset count grows by one. A manager reset leaves its own rings DISABLED. (R108, R109, R110, R112) -/
def Obligations.ResetsOfFunctionsRun : Prop :=
  (∀ (s : State) (i : Nat),
    isMgr i = false ∧ i < 128 ∧ s.rd .INS_RESET_BUSY i ≠ 1 ∧ s.boot.warmStep = 0 →
    exec (.instanceReset i) s = .next (s.resetCut i) ∧ (s.resetCut i).rd .INS_RESET_BUSY i = 1
      ∧ (s.resetCut i).rd .INS_RESET_SQUASHED i = (s.squashable i).length % 2 ^ 32 ∧ (∀ o ∈ (s.resetCut i).ring.ops, o.fn ≠ i)) ∧
  (∀ (s : State) (i writes ring : Nat),
    isMgr i = false ∧ s.rd .INS_RESET_BUSY i ≠ 0 ∧ ring < 64 →
    ∃ t, exec (.instanceResetDrained i writes) s = .next t ∧ t.rd .INS_RESET_BUSY i = 0 ∧ t.rd .INS_RESET_DRAINED i = writes % 2 ^ 32
      ∧ t.ringState i ring = .disabled ∧ t.rd .INS_MB_HOLDER i = 0
      ∧ t.rd .INS_RESET_COUNT i = min (s.rd .INS_RESET_COUNT i + 1) (2 ^ 16 - 1)) ∧
  (∀ (s : State) (port ring : Nat) (drained : List (Nat × Nat)),
    port < 2 ∧ s.boot.warmStep = 0 ∧ ring < 64 →
    ∃ t, exec (.managerReset port drained) s = .next t ∧ t.ringState (64 * port) ring = .disabled ∧ t.rd .INS_MB_HOLDER (64 * port) = 0)

/-- An ASSIGN of the primary manager function whose plan passes its checks, alone at the allocator with every resource of the plan free,
leaves the compartment ASSIGNED with the plan's slices, walkers and granules bound to it and its instance functions bound, and ends with
status OK. The claim of a finished enumeration map, alone at the allocator, applies the map. A QUIESCE of an ASSIGNED tenant that starts
closes its intake as a long operation; when nothing of the compartment is left the compartment is QUIESCED and the operation has ended its
work with status OK; REOPEN of a QUIESCED tenant makes it ASSIGNED with its intake open and ends with OK. (R57, R58, R59, R384, R46, R47,
R48) -/
def Obligations.CompartmentsAreAssignedAndDrained : Prop :=
  (∀ (s : State) (fn ring : Nat) (o : Op) (ws : List Nat),
    (s.startAssigns fn [ring]).ring.ops.filter isClaim = [o] →
    o.buf = [ws] ∧ o.ring = ring ∧ ring < 65 ∧ ring ≠ 64 →
    1 ≤ adCmp o.desc ∧ adCmp o.desc ≤ 31 ∧ (s.startAssigns fn [ring]).cmpState (adCmp o.desc) = .free →
    ((s.startAssigns fn [ring]).planPatterns ws).isSome = true ∧ (s.startAssigns fn [ring]).planFree ws = true →
    ∃ t, exec (.assign fn ring []) s = .next t ∧ t.cmpState (adCmp o.desc) = .assigned ∧ (t.grants (adCmp o.desc)).slices = plSlices ws
      ∧ (t.grants (adCmp o.desc)).walkers = plWalkers ws ∧ (t.grants (adCmp o.desc)).t1 = plGranules ws 8 ∧ (t.grants (adCmp o.desc)).t2 = plGranules ws 16
      ∧ (∀ i ∈ plInst ws, t.rd .INS_BOUND i = 1 ∧ t.rd .INS_CMP i = adCmp o.desc)
      ∧ t.ring.ops = (s.startAssigns fn [ring]).ring.ops.map (fun x => if x.id = o.id then { o with wait := .done, status := 0, buf := [] } else x)) ∧
  (∀ (s : State),
    s.walkEnded = true ∧ s.ring.ops.filter isClaim = [] →
    exec (.enumerationMapApply []) s = .next s.applyMap) ∧
  (∀ (s : State) (fn ring c : Nat) (k : Cand) (i : Nat),
    s.starts fn ring 0x61 c k ∧ fn = s.primaryFn ∧ s.rd .BOOT_FAWN 0 = 0 →
    (s.begun fn ring c k).2.isTenantIn (adCmp k.desc) .assigned = true →
    (s.begun fn ring c k).2.longBusy 0x61 (adCmp k.desc) = false ∧ (s.begun fn ring c k).2.claimSlot = some i →
    ∃ t l, exec (.quiesce fn ring none) s = .next t ∧ t.rd .CMP_INTAKE_CLOSED (adCmp k.desc) = 1 ∧ t.cmpState (adCmp k.desc) = .assigned
      ∧ t.longAt i = some l ∧ l.kind = 0x61 ∧ l.cmp = adCmp k.desc ∧ l.state = 1 ∧ t.ring.ops.getLast? = some { (s.begun fn ring c k).1 with wait := .long i }) ∧
  (∀ (s : State) (c i : Nat) (l : LongOp),
    1 ≤ c ∧ c ≤ 31 ∧ s.longOf 0x61 c = some (i, l) ∧ s.longAt i = some l →
    s.drained c = true →
    ∃ t, exec (.quiesceDrainComplete c) s = .next t ∧ t.cmpState c = .quiesced ∧ t.rd .CMP_INTAKE_CLOSED c = 1
      ∧ t.longAt i = some { l with fin := some (0, 0) }) ∧
  (∀ (s : State) (fn ring c : Nat) (k : Cand),
    s.starts fn ring 0x62 c k ∧ fn = s.primaryFn ∧ s.rd .BOOT_FAWN 0 = 0 →
    (s.begun fn ring c k).2.isTenantIn (adCmp k.desc) .quiesced = true →
    exec (.reopen fn ring) s = .next ((((s.begun fn ring c k).2.setCmpState (adCmp k.desc) .assigned).wr .CMP_INTAKE_CLOSED (adCmp k.desc) 0).addOp
      { (s.begun fn ring c k).1 with wait := .done }))

/-- A SCRUB of a QUIESCED or TAINTED tenant that starts leaves it SCRUBBING with its link keys gone and its tier keys destroyed; a
completed step before the last counts and starts the next one's action; the last one, verified, leaves the compartment FREE. (R50, R51,
R52, R55) -/
def Obligations.CompartmentsAreScrubbed : Prop :=
  (∀ (s : State) (fn ring c : Nat) (k : Cand) (i : Nat),
    s.starts fn ring 0x63 c k ∧ fn = s.primaryFn ∧ s.rd .BOOT_FAWN 0 = 0 →
    (s.begun fn ring c k).2.isTenantIn (adCmp k.desc) .quiesced = true ∨ (s.begun fn ring c k).2.isTenantIn (adCmp k.desc) .tainted = true →
    (s.begun fn ring c k).2.longBusy 0x63 (adCmp k.desc) = false ∧ (s.begun fn ring c k).2.claimSlot = some i →
    ∃ t, exec (.scrub fn ring) s = .next t ∧ t.cmpState (adCmp k.desc) = .scrubbing ∧ t.rd .CMP_SCRUB_STEP (adCmp k.desc) = 0
      ∧ t.sec.linkAct.find (adCmp k.desc) = none ∧ t.sec.t1Key.find (adCmp k.desc) = some 0 ∧ t.sec.t2Key.find (adCmp k.desc) = some 0) ∧
  (∀ (s : State) (c i : Nat) (l : LongOp) (verified : Bool),
    s.longOf 0x63 c = some (i, l) ∧ l.state = 1 ∧ s.cmpState c = .scrubbing →
    s.rd .CMP_SCRUB_STEP c < 3 →
    exec (.scrubStepComplete c verified) s = .next (((s.setLong i { l with detail := s.rd .CMP_SCRUB_STEP c + 1 }).wr .CMP_SCRUB_STEP c
      (s.rd .CMP_SCRUB_STEP c + 1)).scrubAction c (s.rd .CMP_SCRUB_STEP c + 2))) ∧
  (∀ (s : State) (c i : Nat) (l : LongOp),
    1 ≤ c ∧ c ≤ 31 ∧ s.longOf 0x63 c = some (i, l) ∧ l.state = 1 ∧ s.cmpState c = .scrubbing →
    s.rd .CMP_SCRUB_STEP c = 7 ∧ l.done = l.total →
    ∃ t, exec (.scrubStepComplete c true) s = .next t ∧ t.cmpState c = .free ∧ t.grants c = Grants.none)

/-- A contract load that passes its checks pins its preload and keeps its record; when the preload is done and the epoch lies ahead the
contract is STAGED and the load has ended with OK; a STAGED contract whose epoch has come becomes the ACTIVE one; an ACTIVE one ends at
its epoch plus its span. (R81, R82, R586) -/
def Obligations.ContractsBegin : Prop :=
  (∀ (s u v : State) (fn ring c i : Nat) (k : Cand) (ws es : List Nat) (l : LongOp),
    s.starts fn ring 0x64 c k ∧ fn = s.primaryFn ∧ (s.begun fn ring c k).2.rd .BOOT_FAWN 0 = 0 ∧ adKind k.desc = 1 →
    (s.begun fn ring c k).2.longBusy 0x64 (adCmp k.desc) = false ∧ (s.begun fn ring c k).2.claimSlot = some i →
    ((s.begun fn ring c k).2.opensLong (s.begun fn ring c k).1 1 (adCmp k.desc) 0 i [] []).readRecord
      { (s.begun fn ring c k).1 with wait := .long i } 128 = (some ws, u) →
    ctrRecordOk ws = true ∧ ctrClear ws = false ∧ u.rd .PWR_BEAT_LOCKED 0 = 1 →
    fld ws 0 32 5 = adCmp k.desc ∧ u.cmpState (adCmp k.desc) = .assigned ∧ u.ctrDemandOk (adCmp k.desc) ws = true →
    u.readPreload ws = (some es, v) ∧ es.all (fun e => v.preEntryOk (adCmp k.desc) e) = true ∧ v.preRoom (adCmp k.desc) (prePairs es) = true →
    v.stagedC (adCmp k.desc) = none ∧ v.longAt i = some l →
    ∃ t, exec (.tableLoadContract fn ring) s = .next t ∧ t.longAt i = some { l with words := ws, args := es }) ∧
  (∀ (s : State) (c i : Nat) (l : LongOp),
    s.longAt i = some l ∧ l.state = 1 ∧ l.kind = 0x64 ∧ l.tkind = 1 ∧ l.cmp = c ∧ l.fin = none ∧ l.words ≠ [] →
    s.cmpState c = .assigned ∧ s.stagedC c = none ∧ s.beat < word l.words 1 ∧ s.longRing i < 64 →
    exec (.contractPreloadDone c [i]) s = .next (({ s with cmp := { s.cmp with staged := Tab.put s.cmp.staged c (ctrOf l.words (prePairs l.args)) } }).finLong i 0 0)) ∧
  (∀ (s : State) (c : Nat) (t : Contract),
    s.stagedC c = some t ∧ t.epoch ≤ s.beat →
    exec (.contractActivate c) s = .next (s.activate c t) ∧ (s.activate c t).active c = some t ∧ (s.activate c t).stagedC c = none
      ∧ (s.activate c t).rd .CMP_CTR_BREACH_TOTAL c = 0 ∧ (s.activate c t).mem = s.mem) ∧
  (∀ (s : State) (c : Nat) (t : Contract),
    s.active c = some t ∧ t.epoch + t.span ≤ s.beat →
    exec (.contractEnd c) s = .next (s.endActive c) ∧ (s.endActive c).active c = none ∧ (s.endActive c).mem = s.mem)

/-- A service slot of a lane that a compartment holds by its pattern serves a waiting request of that compartment and the lane moves on; a
slot with nothing to serve passes idle. The deadline of an operation whose record is not visible, once passed, is a breach of its
compartment's contract. At a frame boundary every frame counter's shadow takes its value. (R35, R36, R64, R87, R586) -/
def Obligations.SlotsDeadlinesAndFrames : Prop :=
  (∀ (s : State) (lane c engine : Nat),
    lane < 4 ∧ s.slotOwner lane (s.cmp.share.get 0 lane) = some c →
    exec (.serviceSlotGrant lane [(c, 0, engine)]) s = .next ((s.serveSlot lane false ⟨c, false, engine⟩).nextSlot lane)) ∧
  (∀ (s : State) (lane : Nat),
    lane < 24 →
    exec (.serviceSlotGrant lane []) s = .next ({ s with cmp := { s.cmp with granted := Tab.set s.cmp.granted 0 lane 0 } }.nextSlot lane)) ∧
  (∀ (s : State) (o : Op),
    s.findOp o.id = some o ∧ o.deadline ≠ 0 ∧ o.deadline < s.beat →
    exec (.deadlineMissed o.id) s = .next (((s.opBreach o .deadlineMissed { expected := o.deadline }).2.setOp
      (s.opBreach o .deadlineMissed { expected := o.deadline }).1).setCplOp (s.opBreach o .deadlineMissed { expected := o.deadline }).1)) ∧
  (∀ (s : State) (i : Nat),
    s.atBoundary = true ∧ i < 512 ∧ s.rd .STAT_F_LIVE i < 2 ^ 64 →
    ∃ t, exec .frameBoundary s = .next t ∧ t.rd .STAT_F_SHADOW i = s.rd .STAT_F_LIVE i ∧ t.rd .STAT_SHADOW_K 0 = s.frameK % 2 ^ 5
      ∧ t.pwr.frameBeat = s.beat ∧ t.mem = s.mem)

/-- An order of the owner of a ring that no other order meets is reported as taken where the table of orders lists it in the ring's state:
START, RESUME, SUSPEND and STOP leave the ring RUNNING, RUNNING, SUSPENDED, and STOPPING (STOPPED where nothing is started), CANCEL leaves
it STOPPED with its consumer count at its producer count; only the state and the result of the order change for RESUME and SUSPEND.
REVOKE, and an order the table does not list, is reported as not valid and does nothing else. (R114, R116, R124, R126) -/
def Obligations.RingOrdersMoveTheRing : Prop :=
  (∀ (s : State) (fn ring : Nat),
    s.closed fn (0x30002C + 0x100 * fn) = false ∧ ring < 64 →
    s.ringState fn ring = .idle ∨ s.ringState fn ring = .stopped →
    ∃ t, exec (.ringStart fn fn ring none) s = .next t ∧ t.ringState fn ring = .running ∧ t.rd .RNG_ORD_RESULT (ringIx fn ring) = 0
      ∧ s.keepsBut t [.RNG_STATE, .RNG_ORD_RESULT] ∧ t = { s with reg := { s.reg with vals := t.reg.vals }, ring := t.ring }) ∧
  (∀ (s : State) (fn ring : Nat),
    s.closed fn (0x30002C + 0x100 * fn) = false ∧ ring < 64 →
    s.ringState fn ring = .suspended →
    exec (.ringResume fn fn ring none) s = .next ((s.setRing fn ring .running).wr .RNG_ORD_RESULT (ringIx fn ring) 0)) ∧
  (∀ (s : State) (fn ring : Nat),
    s.closed fn (0x30002C + 0x100 * fn) = false ∧ ring < 64 →
    s.ringState fn ring = .running →
    exec (.ringSuspend fn fn ring none) s = .next ((s.setRing fn ring .suspended).wr .RNG_ORD_RESULT (ringIx fn ring) 0)) ∧
  (∀ (s : State) (fn ring : Nat),
    s.closed fn (0x30002C + 0x100 * fn) = false ∧ ring < 64 →
    s.ringState fn ring = .running ∨ s.ringState fn ring = .suspended →
    exec (.ringStop fn fn ring none) s = .next ((s.setRing fn ring (if s.ringOps fn ring = [] then .stopped else .stopping)).wr
      .RNG_ORD_RESULT (ringIx fn ring) 0)) ∧
  (∀ (s : State) (fn ring : Nat),
    s.closed fn (0x30002C + 0x100 * fn) = false ∧ ring < 64 →
    s.ringState fn ring ≠ .disabled ∧ s.ringState fn ring ≠ .idle →
    ∃ t, exec (.ringCancel fn fn ring none) s = .next t ∧ t.ringState fn ring = .stopped ∧ t.rd .RNG_ORD_RESULT (ringIx fn ring) = 0
      ∧ t.rd .RNG_CONS (ringIx fn ring) = s.rd .RNG_PROD (ringIx fn ring) % 2 ^ 32 ∧ t.run fn ring = RingRun.idle
      ∧ s.keepsBut t [.RNG_STATE, .RNG_CONS, .RNG_ORD_RESULT] ∧ t.mem = s.mem) ∧
  (∀ (s : State) (fn ring : Nat),
    s.closed fn (0x30002C + 0x100 * fn) = false ∧ ring < 64 →
    exec (.ringRevokeOrder fn fn ring) s = .next (s.wr .RNG_ORD_RESULT (ringIx fn ring) 2)) ∧
  (∀ (s : State) (fn ring : Nat),
    s.closed fn (0x30002C + 0x100 * fn) = false ∧ ring < 64 →
    s.rd .RNG_CSTATE (ringIx fn ring) = 2 →
    exec (.cplRingStart fn fn ring none) s = .next ((s.wr .RNG_CSTATE (ringIx fn ring) 1).wr .RNG_CORD_RESULT (ringIx fn ring) 0)) ∧
  (∀ (s : State) (fn ring : Nat),
    s.closed fn (0x30002C + 0x100 * fn) = false ∧ ring < 64 →
    s.rd .RNG_CSTATE (ringIx fn ring) = 1 →
    exec (.cplRingStop fn fn ring none) s = .next ((s.wr .RNG_CSTATE (ringIx fn ring) 2).wr .RNG_CORD_RESULT (ringIx fn ring) 0))

/-- A command ring whose set-up passes becomes IDLE with its counts at 0 and status 0; an IDLE or STOPPED ring is destroyed and becomes
DISABLED, and no conjunction slot targets it any more. A completion ring is created RUNNING with its counts at 0, and is destroyed when
STOPPED or in ERROR and no command ring binds it. A doorbell of 4 bytes at offset 0 whose count the ring can hold sets RNG_PROD of the
command ring, or RNG_CCONS of the completion ring, to the count; nothing else changes. (R117, R126, R128, R130, R131, R132, R133) -/
def Obligations.RingsAreCreatedAndRung : Prop :=
  (∀ (s : State) (fn ring : Nat),
    s.barsBlocked fn = false ∧ ring < 64 →
    s.createStatus fn ring (if isMgr fn then s.rd .RNG_MOOD (ringIx fn ring) else b2n (bit (s.rd .INS_RING_MOOD fn) ring)) = 0 →
    s.rd .RNG_TIMEOUT (ringIx fn ring) = 0 →
    ∃ t, exec (.ringCreate fn ring) s = .next t ∧ t.ringState fn ring = .idle ∧ t.rd .RNG_CONS (ringIx fn ring) = 0
      ∧ t.rd .RNG_PROD (ringIx fn ring) = 0 ∧ t.rd .RNG_SETUP_STATUS (ringIx fn ring) = 0 ∧ t.run fn ring = RingRun.idle
      ∧ s.keepsBut t [.RNG_STATE, .RNG_CONS, .RNG_PROD, .RNG_MOOD, .RNG_SETUP_STATUS]
      ∧ t = { s with reg := { s.reg with vals := t.reg.vals }, ring := t.ring }) ∧
  (∀ (s : State) (fn ring : Nat),
    s.barsBlocked fn = false ∧ ring < 64 →
    s.ringState fn ring = .idle ∨ s.ringState fn ring = .stopped →
    ∃ t, exec (.ringDestroy fn ring) s = .next t ∧ t.ringState fn ring = .disabled ∧ t.rd .RNG_SETUP_STATUS (ringIx fn ring) = 0
      ∧ t.slots = s.slots.keep (fun _ x => !(x.fn == fn && x.ring == ring)) ∧ s.keepsBut t [.RNG_STATE, .RNG_SETUP_STATUS]
      ∧ t = { s with reg := { s.reg with vals := t.reg.vals }, ring := t.ring, slots := t.slots }) ∧
  (∀ (s : State) (fn ring : Nat),
    s.barsBlocked fn = false ∧ ring < 64 ∧ s.rd .BOOT_FAWN 0 = 0 →
    s.rd .RNG_CSTATE (ringIx fn ring) = 0 →
    isMgr fn = true ∨ ring < s.rd .INS_CPL_RINGS fn →
    (s.rd .RNG_CPASID_EN (ringIx fn ring) = 1 → s.pasidOk fn (s.rd .RNG_CPASID (ringIx fn ring)) = true) →
    exec (.cplRingCreate fn ring) s = .next (((((s.wr .RNG_CSETUP_STATUS (ringIx fn ring) 0).wr .RNG_CPROD (ringIx fn ring) 0).wr
      .RNG_CCONS (ringIx fn ring) 0).setCplWaits (ringIx fn ring) []).wr .RNG_CSTATE (ringIx fn ring) 1)) ∧
  (∀ (s : State) (fn ring : Nat),
    s.barsBlocked fn = false ∧ ring < 64 →
    s.rd .RNG_CSTATE (ringIx fn ring) = 2 ∨ s.rd .RNG_CSTATE (ringIx fn ring) = 3 →
    s.cplBound fn ring = false →
    ∃ t, exec (.cplRingDestroy fn ring) s = .next t ∧ t.rd .RNG_CSTATE (ringIx fn ring) = 0 ∧ t.cplWaits (ringIx fn ring) = []
      ∧ t.rd .RNG_CSETUP_STATUS (ringIx fn ring) = 0 ∧ s.keepsBut t [.RNG_CSTATE, .RNG_CSETUP_STATUS, .RNG_CPL_DISCARDED, .STAT_F_LIVE]
      ∧ t = { s with reg := { s.reg with vals := t.reg.vals }, ring := t.ring }) ∧
  (∀ (s : State) (fn ring count : Nat),
    ring < 64 ∧ s.bellBlocked fn = false ∧ count < 2 ^ 32 →
    s.ringState fn ring ≠ .disabled ∧ (isMgr fn = true ∨ s.rd .INS_RESET_BUSY fn = 0) →
    diff32 count (s.rd .RNG_CONS (ringIx fn ring)) ≤ s.ringSlots fn ring ∧ diff32 count (s.rd .RNG_PROD (ringIx fn ring)) ≤ s.ringSlots fn ring →
    exec (.commandDoorbell fn ring 0 4 count) s = .next (s.wr .RNG_PROD (ringIx fn ring) count)) ∧
  (∀ (s : State) (fn ring count : Nat),
    ring < 64 ∧ s.bellBlocked fn = false ∧ count < 2 ^ 32 →
    s.rd .RNG_CSTATE (ringIx fn ring) ≠ 0 ∧ (isMgr fn = true ∨ s.rd .INS_RESET_BUSY fn = 0) →
    diff32 (s.rd .RNG_CPROD (ringIx fn ring)) count ≤ s.cplSlots fn ring →
    exec (.completionDoorbell fn ring 0 4 count) s = .next (s.wr .RNG_CCONS (ringIx fn ring) count))

/-- The fetch of a running ring in host memory, whose page has a translation and whose data returns, adds the eight words after those
already fetched; only the run state of the ring changes. A NOP that starts next joins the started operations with its work done and does
nothing else. A CALL_LIST of a ring whose list does not lie in host memory under an indicative descriptor joins them waiting for its list.
(R118, R125, R140, R147) -/
def Obligations.DescriptorsAreFetchedAndStart : Prop :=
  (∀ (s : State) (fn ring c a x : Nat) (words : List Nat),
    s.fnCmp fn = some c ∧ s.frontOpen fn = true →
    s.ringState fn ring = .running ∧ s.rd .RNG_LOC (ringIx fn ring) = 1 →
    (s.run fn ring).fetched.length < diff32 (s.rd .RNG_PROD (ringIx fn ring)) (s.rd .RNG_CONS (ringIx fn ring)) →
    s.hostMap fn (s.ringPasid fn ring) (some ring) (s.rd .RNG_BASE (ringIx fn ring)
      + 64 * ((s.rd .RNG_CONS (ringIx fn ring) + (s.run fn ring).fetched.length) % s.ringSlots fn ring)) false = .at a x →
    words.length = 8 ∧ (∀ w ∈ words, w < 2 ^ 64) →
    ∃ t, exec (.descriptorFetch fn ring none words .ok) s = .next t ∧ (t.run fn ring).fetched = (s.run fn ring).fetched ++ [words]
      ∧ t = { s with ring := { s.ring with run := t.ring.run } }) ∧
  (∀ (s : State) (fn ring c : Nat) (k : Cand),
    s.starts fn ring 0x00 c k →
    exec (.nop fn ring) s = .next ((s.begun fn ring c k).2.addOp (s.begun fn ring c k).1) ∧ (s.begun fn ring c k).1.wait = .done) ∧
  (∀ (s : State) (fn ring c : Nat) (k : Cand),
    s.starts fn ring 0x01 c k →
    k.src = .ring →
    ¬(dIndic k.desc = true ∧ clHost k.desc = true) →
    exec (.callList fn ring) s = .next ((s.begun fn ring c k).2.addOp { (s.begun fn ring c k).1 with wait := .list }))

/-- An operation whose work is done and whose status is not OK leaves the started operations and its record of four words joins those that
wait for its completion ring, which has room. A record of a ring in host memory is stored at the slot of the producer count, 32 bytes at
the address its base, size and count give; the count advances and no other byte changes. When the timer of an operation that is not held
by a recovery run passes the timeout of its ring, COMMAND_TIMEOUT is posted, the operation leaves with status TIMEOUT and the number of
that incident as detail, and its own later completion is known as late. (R122, R123, R138, R155, R159, R157) -/
def Obligations.OperationsEndWithARecord : Prop :=
  (∀ (s : State) (o : Op),
    s.findOp o.id = some o ∧ o.wait = .done ∧ o.source = .ring ∧ o.status ≠ 0 →
    s.ring.ended = [] ∧ s.ringState o.fn o.ring = .running →
    s.rd .RNG_CSTATE (s.cplKey o.fn o.ring) = 1 ∧ 0 < s.cplFree (s.cplKey o.fn o.ring) →
    ∃ t, exec (.operationComplete [o.id]) s = .next t ∧ t.ring.ops = s.ring.ops.filter (fun x => x.id != o.id)
      ∧ t.cplWaits (s.cplKey o.fn o.ring) = s.cplWaits (s.cplKey o.fn o.ring) ++ [⟨s.recordOf o, o, false⟩] ∧ t.mem = s.mem) ∧
  (∀ (s : State) (fn ring a x : Nat) (w : CplWait) (rest : List CplWait),
    s.cplWaits (ringIx fn ring) = w :: rest ∧ s.rd .RNG_CSTATE (ringIx fn ring) = 1 ∧ s.rd .RNG_CLOC (ringIx fn ring) = 1 →
    diff32 (s.rd .RNG_CPROD (ringIx fn ring)) (s.rd .RNG_CCONS (ringIx fn ring)) < s.cplSlots fn ring →
    s.hostMap fn (s.cplPasid fn ring) (some (64 + ring)) (s.rd .RNG_CBASE (ringIx fn ring)
      + 32 * (s.rd .RNG_CPROD (ringIx fn ring) % s.cplSlots fn ring)) true = .at a x →
    ∃ t, exec (.completionRecordWrite fn ring .ok) s = .next t
      ∧ t.rd .RNG_CPROD (ringIx fn ring) = (s.rd .RNG_CPROD (ringIx fn ring) + 1) % 2 ^ 32 ∧ t.cplWaits (ringIx fn ring) = rest
      ∧ (∀ b, Mem.byte t.mem.host b = if hostKey (portOf fn) a ≤ b ∧ b < hostKey (portOf fn) a + (bytesOf (s.stamped (ringIx fn ring) w)).length
          then (bytesOf (s.stamped (ringIx fn ring) w)).getD (b - hostKey (portOf fn) a) emptyByte else Mem.byte s.mem.host b)
      ∧ t.mem.acc = s.mem.acc ∧ s.keepsBut t (.RNG_CPROD :: raiseFlds)) ∧
  (∀ (s : State) (o : Op),
    s.findOp o.id = some o ∧ o.source = .ring ∧ o.timed = true ∧ s.inRecovery o = false →
    0 < s.rd .RNG_TIMEOUT (ringIx o.fn o.ring) ∧ o.startNs + 1000 * s.rd .RNG_TIMEOUT (ringIx o.fn o.ring) ≤ s.ns →
    s.rd .RNG_CSTATE (s.cplKey o.fn o.ring) = 1 ∧ 0 < s.cplFree (s.cplKey o.fn o.ring) →
    ∃ t, exec (.commandTimeout o.id) s = .next t ∧ t.ring.ops = s.ring.ops.filter (fun x => x.id != o.id) ∧ t.ring.ended = s.ring.ended ++ [o.id]
      ∧ t.rd .INC_SEQ_NEXT 0 = seqAfter (s.rd .INC_SEQ_NEXT 0) % 2 ^ 32
      ∧ (∃ w ∈ t.cplWaits (s.cplKey o.fn o.ring), w.op.id = o.id ∧ w.op.status = 0x0E ∧ w.op.detail = s.rd .INC_SEQ_NEXT 0) ∧ t.mem = s.mem)

/-- A CON_SIGNAL whose checks pass sets its object to the value its operation gives and ends with that value as result; CON_READ ends with
the value of the object; CON_ARM of a free slot arms it with its condition, object, operand and fire descriptor and ends with the slot
number; CON_DISARM ends with 1 and leaves the slot UNARMED where it was ARMED, 2 where it was FIRED, 0 where it was UNARMED. (R136, R166,
R170, R172, R180) -/
def Obligations.ConcordDescriptorsAct : Prop :=
  (∀ (s : State) (fn ring c : Nat) (k : Cand),
    s.starts fn ring 0x50 c k →
    let b := s.begun fn ring c k
    let t := b.2.concordOp (cnObj k.desc) (cnOp k.desc) (cnValue k.desc)
    exec (.conSignal fn ring) s = .next (t.addOp { b.1 with wait := .done, status := 0, result := t.rd .CON_VALUE (cnObj k.desc) })) ∧
  (∀ (s : State) (fn ring c : Nat) (k : Cand),
    s.starts fn ring 0x51 c k →
    let b := s.begun fn ring c k
    exec (.conRead fn ring) s = .next (b.2.addOp { b.1 with wait := .done, status := 0, result := b.2.rd .CON_VALUE (cnObj k.desc) })) ∧
  (∀ (s : State) (fn ring c : Nat) (k : Cand) (bs : List Byte) (o : Op) (u : State),
    s.starts fn ring 0x52 c k →
    (s.begun fn ring c k).2.armCheck (s.begun fn ring c k).1 = none →
    (s.begun fn ring c k).2.opRead (s.begun fn ring c k).1 0x08 .read true (cnFire k.desc) 64 = (.ok bs, o, u) →
    u.fireCheck o (wordsOf 8 bs) = none ∧ o.desc = k.desc ∧ o.fn = fn →
    u.slots.find (cnSlot k.desc) = none ∧ waitHolds (cnOp k.desc) (cnValue k.desc) (u.rd .CON_VALUE (cnObj k.desc)) = false →
    ∃ t, exec (.conArm fn ring) s = .next t ∧ t.slots.find (cnSlot k.desc) = some ⟨false, cnTrigger k.desc, cnOp k.desc, cnObj k.desc,
      cnValue k.desc, fn, cnRing k.desc, dIndic k.desc, u.beat, 0, wordsOf 8 bs⟩
      ∧ t.ring.ops = u.ring.ops ++ [{ o with wait := .done, status := 0, result := cnSlot k.desc }] ∧ t.mem = u.mem
      ∧ u.keepsBut t [.CON_ARMS, .STAT_F_LIVE]) ∧
  (∀ (s : State) (fn ring c : Nat) (k : Cand) (x : Slot),
    s.starts fn ring 0x53 c k →
    (s.begun fn ring c k).2.slots.find (cnSlot k.desc) = some x →
    let b := s.begun fn ring c k
    exec (.conDisarm fn ring) s = .next (if x.fired = true then b.2.addOp { b.1 with wait := .done, status := 0, result := 2 }
      else (b.2.unarm (cnSlot k.desc)).addOp { b.1 with wait := .done, status := 0, result := 1 }))

/-- A signal that reaches an object alone gives it the value of its operation; the concord view of a function applies its operation to an
object of its compartment and reports status 0; the primary manager sets an object through the window with both halves. (R136, R163, R165)
-/
def Obligations.SignalsReachTheirObject : Prop :=
  (∀ (s : State) (obj port op v : Nat),
    obj < 4096 →
    exec (.concordSignalApply obj [(port, op, v)]) s = .next (s.concordOp obj op (v % 2 ^ 64)) ∧
      (op ≠ 0 → (s.concordOp obj op (v % 2 ^ 64)).rd .CON_VALUE obj = sigApply op (v % 2 ^ 64) (s.rd .CON_VALUE obj) % 2 ^ 64)) ∧
  (∀ (s : State) (fn obj op c : Nat),
    s.barsBlocked fn = false ∧ s.fnCmp fn = some c ∧ s.ownsObj c obj = true →
    0 < op ∧ op < 4 ∧ obj < 4096 →
    exec (.concordViewSignal fn obj op) s = .next ((s.concordOp obj op (s.rd .CON_VSIG_VALUE fn)).wr .CON_VSIG_STATUS fn 0)) ∧
  (∀ (s : State) (obj high v : Nat),
    s.closed s.primaryFn (0x2000000 + 8 * obj + 4) = false ∧ obj < 4096 →
    s.reg.staged.find (pairKey s.primaryFn (0x2000000 + 8 * obj)) = some v ∧ v < 2 ^ 32 ∧ high < 2 ^ 32 →
    ∃ t, exec (.concordWindowSet s.primaryFn obj high) s = .next t ∧ t.rd .CON_VALUE obj = v + 2 ^ 32 * high ∧ t.mem = s.mem)

/-- The primary manager function binds a pool source to any function; its owner routes it to one of its vectors, in the sense it asks for;
an accepted doorbell is one raise, a refused one is counted and does nothing else; unmasking a vector that holds a delivery delivers it; a
claim returns the first source in claim order with its count and clears it. (R185, R187, R189, R192, R196, R200) -/
def Obligations.EventsAreBoundRoutedAndClaimed : Prop :=
  (∀ (s : State) (src owner : Nat),
    s.closed s.primaryFn (0xC00000 + 0x10 * src) = false →
    0x100 ≤ src ∧ src ≤ 0x7FF ∧ owner < 128 →
    exec (.eventSourceBind s.primaryFn src owner true) s = .next ((s.wr .EVT_SRC_OWNER src owner).wr .EVT_SRC_BOUND src 1)) ∧
  (∀ (s : State) (fn vec sense : Nat),
    s.barsBlocked fn = false ∧ vec < vecCount fn →
    s.ownsSrc fn (s.rd .EVT_RT_SRC fn) = true ∧ isPool (s.rd .EVT_RT_SRC fn) = true →
    s.rd .EVT_PENDING (s.rd .EVT_RT_SRC fn) = 0 →
    exec (.eventRouteApply fn vec sense) s = .next ((((((s.wr .EVT_RT_VEC fn vec).wr .EVT_RT_SENSE fn sense).wr .EVT_RT_STATUS fn 0).wr
      .EVT_SRC_ROUTED (s.rd .EVT_RT_SRC fn) 1).wr .EVT_SRC_VEC (s.rd .EVT_RT_SRC fn) vec).wr .EVT_SRC_SENSE (s.rd .EVT_RT_SRC fn) sense)) ∧
  (∀ (s : State) (fn src : Nat),
    s.barsBlocked fn = false ∧ src < 2048 →
    exec (.eventDoorbell fn src []) s = .next (if s.bellOk src (s.fnCmp fn) = true then s.raiseSrc src
      else (s.bump .EVT_DB_DROPPED fn 1).bump .EVT_DB_DROPPED_TOTAL 0 1)) ∧
  (∀ (s : State) (fn vec : Nat),
    s.rd .EVT_COAL_TIME (vecIx fn vec) ≠ 0 ∧ s.rd .EVT_VEC_BATCH (vecIx fn vec) ≠ 0 →
    s.evt.batchStart.get 0 (vecIx fn vec) + 256 * s.rd .EVT_COAL_TIME (vecIx fn vec) ≤ s.beat →
    exec (.coalesceTimerExpiry fn vec) s = .next (if s.rd .EVT_VEC_MASK (vecIx fn vec) = 1 then s.wr .EVT_VEC_HELD (vecIx fn vec) 1
      else s.deliver fn vec)) ∧
  (∀ (s : State) (fn vec : Nat),
    s.barsBlocked fn = false ∧ vec < vecCount fn →
    exec (.vectorUnmask fn vec) s = .next (if s.rd .EVT_VEC_HELD (vecIx fn vec) = 1 then (s.wr .EVT_VEC_MASK (vecIx fn vec) 0).deliver fn vec
      else s.wr .EVT_VEC_MASK (vecIx fn vec) 0)) ∧
  (∀ (s : State) (fn vec n port : Nat),
    s.barsBlocked fn = false ∧ vec < vecCount fn ∧ port < 6 →
    (claimOrder (s.claimPtr fn vec)).find? (fun n => s.claimable fn vec n) = some n →
    ∃ t, exec (.eventClaim fn vec [port]) s = .next t
      ∧ t.sent = s.sent ++ [⟨.readValue, [fn, vec, port, n + put (s.rd .EVT_COUNT n) 16 12 + put (s.rd .EVT_SAT n) 28 1]⟩]
      ∧ t.rd .EVT_PENDING n = 0 ∧ t.rd .EVT_COUNT n = 0 ∧ t.rd .EVT_SAT n = 0 ∧ t.claimPtr fn vec = (if n = 0x7FF then 1 else n + 1)
      ∧ (∀ f i, ¬(i = n ∧ (f = .EVT_PENDING ∨ f = .EVT_COUNT ∨ f = .EVT_SAT)) → t.rd f i = s.rd f i) ∧ t.mem = s.mem)

/-- A MOVE_FILL whose whole destination is translated writes the pattern bytes there and ends OK; a MOVE_COPY whose source lies in one
translation of accelerator memory without poison, and whose destination is translated, writes the bytes it read there and ends OK; a
MOVE_2D runs its rows in order from the state in which it begins, each with its stride. A MOVE_ATOMIC whose address is translated ends OK
with the old element as its result after its operation is done at the element. Everything else is as the start of the descriptor leaves
it. (R141, R142, R331, R334) -/
def Obligations.MoveDescriptorsMoveBytes : Prop :=
  (∀ (s : State) (fn ring c : Nat) (k : Cand),
    s.starts fn ring 0x11 c k →
    mvDstHost k.desc = false →
    0 < mvLen k.desc →
    ((s.begun fn ring c k).2.mapSpan movePort c (dIndic k.desc) .write (spanFuel (mvLen k.desc)) (mvDst k.desc) (mvLen k.desc)).2.1 = none →
    ((s.begun fn ring c k).2.mapSpan movePort c (dIndic k.desc) .write (spanFuel (mvLen k.desc)) (mvDst k.desc) (mvLen k.desc)).2.2.1 = false →
    let m := (s.begun fn ring c k).2.mapSpan movePort c (dIndic k.desc) .write (spanFuel (mvLen k.desc)) (mvDst k.desc) (mvLen k.desc)
    exec (.moveFill fn ring) s = .next ((m.2.2.2.piecesWrite c (dIndic k.desc) m.1 (fillBytes (mvSrc k.desc) (mvDst k.desc) (mvLen k.desc))).addOp
      { (s.begun fn ring c k).1 with wait := .done, status := 0, listNext := 1, buf := [] })) ∧
  (∀ (s : State) (fn ring c : Nat) (k : Cand) (t : Trans),
    s.starts fn ring 0x10 c k →
    mvSrcHost k.desc = false ∧ mvDstHost k.desc = false ∧ 0 < mvLen k.desc →
    ((s.begun fn ring c k).2.translate movePort c (mvSrc k.desc) (dIndic k.desc) .read).1 = .ok t ∧ t.target = 0 →
    ((s.begun fn ring c k).2.translate movePort c (mvSrc k.desc) (dIndic k.desc) .read).2.1 = false ∧ mvSrc k.desc + mvLen k.desc ≤ t.base + t.size →
    ((s.begun fn ring c k).2.translate movePort c (mvSrc k.desc) (dIndic k.desc) .read).2.2.cleanPrefix (t.out + (mvSrc k.desc - t.base)) (mvLen k.desc) = mvLen k.desc →
    ((((s.begun fn ring c k).2.translate movePort c (mvSrc k.desc) (dIndic k.desc) .read).2.2.touch c (dIndic k.desc) t.nc false
      (t.out + (mvSrc k.desc - t.base)) (mvLen k.desc)).mapSpan movePort c (dIndic k.desc) .write (spanFuel (mvLen k.desc)) (mvDst k.desc) (mvLen k.desc)).2.1 = none →
    ((((s.begun fn ring c k).2.translate movePort c (mvSrc k.desc) (dIndic k.desc) .read).2.2.touch c (dIndic k.desc) t.nc false
      (t.out + (mvSrc k.desc - t.base)) (mvLen k.desc)).mapSpan movePort c (dIndic k.desc) .write (spanFuel (mvLen k.desc)) (mvDst k.desc) (mvLen k.desc)).2.2.1 = false →
    let u := ((s.begun fn ring c k).2.translate movePort c (mvSrc k.desc) (dIndic k.desc) .read).2.2
    let a := t.out + (mvSrc k.desc - t.base)
    let m := (u.touch c (dIndic k.desc) t.nc false a (mvLen k.desc)).mapSpan movePort c (dIndic k.desc) .write
      (spanFuel (mvLen k.desc)) (mvDst k.desc) (mvLen k.desc)
    exec (.moveCopy fn ring) s = .next ((m.2.2.2.piecesWrite c (dIndic k.desc) m.1 (u.accRead c a (mvLen k.desc))).addOp
      { (s.begun fn ring c k).1 with wait := .done, status := 0, listNext := 1, buf := [] })) ∧
  (∀ (s : State) (fn ring c : Nat) (k : Cand),
    s.starts fn ring 0x12 c k →
    let b := s.begun fn ring c k
    let r := moveRun ⟨mvSrc k.desc, mvDst k.desc, m2Rows k.desc, m2RowBytes k.desc, m2SrcStride k.desc, m2DstStride k.desc, false, false, 0, false⟩
      (m2Rows k.desc * (m2RowBytes k.desc / 128 + 3) + 1) b.1 b.2
    exec (.move2d fn ring) s = .next (r.2.addOp r.1)) ∧
  (∀ (s : State) (fn ring c : Nat) (k : Cand) (t : Trans) (old : Nat) (fl : Flg),
    s.starts fn ring 0x13 c k ∧ atPlace k.desc = 0 →
    ((s.begun fn ring c k).2.translate movePort c (atAddr k.desc) (dIndic k.desc) .atomic).1 = .ok t →
    ((s.begun fn ring c k).2.translate movePort c (atAddr k.desc) (dIndic k.desc) .atomic).2.1 = false →
    ((((s.begun fn ring c k).2.translate movePort c (atAddr k.desc) (dIndic k.desc) .atomic).2.2.clearCopies c (t.out + (atAddr k.desc - t.base))
      (atomBytes (atFmt k.desc))).atomAt c (t.out + (atAddr k.desc - t.base)) (atOp k.desc)
      (atFmt k.desc) (dFtz k.desc) (dSat k.desc) (atOperand k.desc) (atCompare k.desc)).1 = some (old, fl) →
    let u := ((s.begun fn ring c k).2.translate movePort c (atAddr k.desc) (dIndic k.desc) .atomic).2.2
    let a := t.out + (atAddr k.desc - t.base)
    exec (.moveAtomic fn ring) s = .next (((u.clearCopies c a (atomBytes (atFmt k.desc))).atomAt c a (atOp k.desc) (atFmt k.desc)
      (dFtz k.desc) (dSat k.desc) (atOperand k.desc) (atCompare k.desc)).2.addOp
        { (s.begun fn ring c k).1 with wait := .done, status := 0, result := old, flags := fl.code }))

/-- An XLATE_PREFETCH of device-served addresses ends OK with the number of translations it filled; an XLATE_INVALIDATE leaves no walked
translation that overlaps its range in a port cache, a pinned set or the shared cache of its compartment, marks the walks of its range to
restart and changes nothing else but its count; an XLATE_PROBE of device-served addresses ends OK and changes no cache. (R229, R261, R262,
R263, R264, R265) -/
def Obligations.AddressDescriptorsAct : Prop :=
  (∀ (s : State) (fn ring c : Nat) (k : Cand),
    s.starts fn ring 0x30 c k →
    xlHost k.desc = false →
    let r := (s.begun fn ring c k).2.prefetch (xlPort k.desc) c (pagesOf (xlVa k.desc) (xlLen k.desc)) (xlVa k.desc / 4096 * 4096)
    exec (.xlatePrefetch fn ring) s = .next (r.2.addOp { (s.begun fn ring c k).1 with wait := .done, status := 0, result := r.1 })) ∧
  (∀ (s : State) (fn ring c : Nat) (k : Cand),
    s.starts fn ring 0x31 c k →
    0 < xlLen k.desc →
    ∃ t u, u = (s.begun fn ring c k).2.addOp (s.begun fn ring c k).1 ∧ exec (.xlateInvalidate fn ring) s = .next t
      ∧ (∀ p, ∀ x ∈ t.xl.port.get [] p, ¬(x.host = none ∧ x.cmp = c ∧ x.overlaps (xlVa k.desc) (xlLen k.desc) = true))
      ∧ (∀ p, ∀ x ∈ t.xl.pinned.get [] p, ¬(x.host = none ∧ x.cmp = c ∧ x.overlaps (xlVa k.desc) (xlLen k.desc) = true))
      ∧ (∀ x ∈ t.xl.shared, ¬(x.host = none ∧ x.cmp = c ∧ x.overlaps (xlVa k.desc) (xlLen k.desc) = true))
      ∧ t.xl.ranges = u.xl.ranges ∧ u.keepsBut t [.TRN_ST_INV, .STAT_F_LIVE]
      ∧ t = { u with reg := { u.reg with vals := t.reg.vals }, xl := t.xl }) ∧
  (∀ (s : State) (fn ring c : Nat) (k : Cand),
    s.starts fn ring 0x32 c k →
    xlHost k.desc = false →
    ∃ r, exec (.xlateProbe fn ring) s = .next ((s.begun fn ring c k).2.addOp { (s.begun fn ring c k).1 with wait := .done, status := 0, result := r }))

/-- A translation completion that grants the rights asked for a ring window alone is held there, its request leaves the table and requests
that waited for the table are sent; a stale one is counted and requested again; a page request response that names no group is counted,
and one with code Success that operations wait for asks for the translations of the pages of its group again; an invalidate request
removes the translations it names from the ring windows and the caches and is answered once no read that used them is outstanding; one
that arrives while 32 are held removes nothing yet and is kept behind them; a host read completion brings its data to its operation, which
goes on, and one that times out is poison; the configuration writes of PASID, the page request allocation, VF Enable and NumVFs set their
item. (R210, R212, R213, R215, R219, R220, R223, R224, R225, R226, R504) -/
def Obligations.HostAnswersReachTheirRequests : Prop :=
  (∀ (s : State) (fn page size out flags w port : Nat) (pasid : Option Nat) (q : AtsReq),
    s.ats.reqs.find? (fun q => q.sent && q.fn == fn && q.pasid == pasid && q.page == page) = some q →
    q.stale = false ∧ q.users = [(some w, port)] ∧ s.waitersOf fn pasid page = [] →
    bit flags 0 = true ∧ bit flags 1 = true →
    let z := 2 ^ max 12 (Nat.log2 size)
    exec (.atsTranslationCompletion fn pasid page size out flags) s = .next ((State.hold { s with ats := { s.ats with reqs := s.ats.reqs.erase q } }
      { fn := fn, pasid := pasid, base := page / z * z, size := z, out := out / z * z, r := true, w := true, u := bit flags 2,
        global := bit flags 3, win := some w, port := port }).trimPort port ((s.fnCmp fn).getD 0)).atsPump) ∧
  (∀ (s : State) (fn page size out flags : Nat) (pasid : Option Nat) (q : AtsReq),
    s.ats.reqs.find? (fun q => q.sent && q.fn == fn && q.pasid == pasid && q.page == page) = some q →
    q.stale = true →
    exec (.atsTranslationCompletion fn pasid page size out flags) s = .next ((s.bump .TRN_ATS_STALE (portOf fn) 1).atsIssue q)) ∧
  (∀ (s : State) (fn idx code : Nat) (pasid : Option Nat),
    s.ats.groups.find? (fun g => g.fn == fn && g.idx == idx && g.pasid == pasid) = none →
    exec (.prgResponse fn idx pasid code) s = .next (s.bump .TRN_PRG_UNEXPECTED (portOf fn) 1)) ∧
  (∀ (s : State) (fn idx : Nat) (pasid : Option Nat) (g : PrgGroup),
    s.ats.groups.find? (fun g => g.fn == fn && g.idx == idx && g.pasid == pasid) = some g →
    g.live = true ∧ s.groupWaiters g ≠ [] →
    exec (.prgResponse fn idx pasid 0) s = .next ((g.pages.foldl (fun (t : State) p => t.atsRequest fn pasid none movePort p)
      { s with ats := { s.ats with groups := s.ats.groups.erase g } }).prgGo fn)) ∧
  (∀ (s : State) (fn itag base size : Nat) (pasid : Option Nat) (global : Bool),
    (s.ats.invQ.get [] fn).length < 32 →
    let q : InvReq := ⟨itag, pasid, global, base, size, false, false, []⟩
    ∃ t, exec (.atsInvalidateRequest fn itag pasid global base size) s = .next t
      ∧ t.ats.invQ = Tab.set s.ats.invQ [] fn (s.ats.invQ.get [] fn ++ [{ q with tags := s.readsUsing fn q }])
      ∧ t.ats.held = s.ats.held.filter (fun h => !q.hits fn h)
      ∧ (∀ x ∈ t.xl.shared, ∀ h, x.held = some h → q.hits fn h = false)
      ∧ (∀ p, ∀ x ∈ t.xl.port.get [] p, ∀ h, x.held = some h → q.hits fn h = false)
      ∧ t.xl = { s.xl with shared := t.xl.shared, port := t.xl.port }
      ∧ s.keepsBut t [.TRN_INV_RECEIVED, .STAT_F_LIVE] ∧ t = { s with reg := { s.reg with vals := t.reg.vals }, ats := t.ats, xl := t.xl }) ∧
  (∀ (s : State) (fn : Nat) (q : InvReq) (rest : List InvReq),
    s.ats.invQ.get [] fn = q :: rest →
    (∀ x ∈ q.tags, ∀ r ∈ s.ats.reads, r.tag ≠ x) →
    (∀ x ∈ rest, x.late = false) →
    exec (.atsInvalidateCompletion fn) s = .next (State.emit { s with ats := { s.ats with invQ := Tab.set s.ats.invQ [] fn rest } } .host [portOf fn, 3, fn, q.itag])) ∧
  (∀ (s : State) (tag : Nat) (data : List Nat) (r : HostRead) (o : Op) (id : Nat),
    s.ats.reads.find? (fun r => r.tag == tag) = some r →
    r.op = some id ∧ s.ring.ended.contains id = false ∧ s.findOp id = some o →
    exec (.hostReadCompletion tag data .ok) s = .next (((State.hostBytes { s with ats := { s.ats with reads := s.ats.reads.erase r } } r.addr
      ((List.range r.len).map (fun i => word data i % 256))).setOp (o.keep (o.got ++ ((List.range r.len).map (fun i => word data i % 256)).map
        (fun b => BitVec.ofNat 8 b)))).resumeOp o.id)) ∧
  (∀ (s : State) (tag : Nat) (r : HostRead) (o : Op) (id : Nat),
    s.ats.reads.find? (fun r => r.tag == tag) = some r →
    r.op = some id ∧ s.ring.ended.contains id = false ∧ s.findOp id = some o →
    exec (.hostCompletionTimeout tag) s = .next ((State.hostPoisonInc { s with ats := { s.ats with reads := s.ats.reads.erase r } } r 1).poisonOp o)) ∧
  (∀ (s : State) (fn value : Nat),
    s.retryStatus = false →
    exec (.configurationWrite fn 2 value) s = .next (s.setCfg fn .pasid (value % 2)) ∧
      exec (.configurationWrite fn 3 value) s = .next ((s.setCfg fn .pageAlloc (value % 2 ^ 32)).prgGo fn) ∧
      (isMgr fn = true → exec (.configurationWrite fn 6 value) s = .next (s.setCfg fn .numVfs (min value 63))) ∧
      (isMgr fn = true → s.rd .BOOT_FAWN 0 = 1 → exec (.configurationWrite fn 5 value) s = .next s) ∧
      (isMgr fn = true → s.rd .BOOT_FAWN 0 = 0 → exec (.configurationWrite fn 5 value) s = .next (s.setCfg fn .vfEnable (value % 2)))) ∧
  (∀ (s : State) (fn itag base size : Nat) (pasid : Option Nat) (global : Bool),
    32 ≤ (s.ats.invQ.get [] fn).length →
    ∃ t, exec (.atsInvalidateRequest fn itag pasid global base size) s = .next t
      ∧ t.ats = { s.ats with invQ := Tab.set s.ats.invQ [] fn (s.ats.invQ.get [] fn ++ [⟨itag, pasid, global, base, size, true, true, []⟩]) } ∧ t.xl = s.xl)

/-- A GATHER_REDUCE whose whole list and rows can be read waits for the rows of its stack with status OK and its count as result, its rows
being the gathered rows or the one finished row of its accumulators; a returned row without poison whose output place is translated is
written there and leaves the rest waiting. A clean stack read changes nothing; a corrected one counts and may post MEM_CORRECTED; an
uncorrectable one marks its line poison, keeps its address and posts MEM_UNCORRECTABLE. At the end of an activity window the count and the
hottest reading are taken, the peak never falls, the refresh and throttle steps move by their rule, and a reading at the trip level trips
the stack. (R361, R363, R364, R367, R368, R369, R359, R360, R372, R374) -/
def Obligations.StacksServeTheirWork : Prop :=
  (∀ (s : State) (fn ring c : Nat) (k : Cand),
    s.starts fn ring 0x20 c k →
    ((s.begun fn ring c k).2.gatherRun (s.begun fn ring c k).1 (grCount k.desc) ⟨0, none, [], {}, 0, none⟩).1 = .all →
    let r := (s.begun fn ring c k).2.gatherRun (s.begun fn ring c k).1 (grCount k.desc) ⟨0, none, [], {}, 0, none⟩
    let u := ((r.2.2.2.bump .STK_GR_ENTRIES r.2.2.1.cmp r.2.1.k).bump .STK_GR_LINES r.2.2.1.cmp r.2.1.lines).bump .STK_GR_CMDS r.2.2.1.cmp 1
    let links := match r.2.1.stack with
      | some n => addOnce r.2.2.1.links (0x100 + n)
      | none => r.2.2.1.links
    let lanes : List (Nat × Flg) := match r.2.1.acc with
      | some vs => vs.map (grFinish k.desc)
      | none => (List.range (grElems k.desc)).map (fun _ => grEmpty k.desc)
    let o : Op := { r.2.2.1 with links := links, status := 0, result := grCount k.desc }
    exec (.gatherReduce fn ring) s = .next (u.addOp (
      if grOp k.desc = 0 then Op.await { o with flags := r.2.1.flg.code } (r.2.1.stack.getD 8) (r.2.1.rows.map (fun x => 0 :: x))
      else Op.await { o with flags := (r.2.1.flg.or (lanesFlg lanes)).code } (r.2.1.stack.getD 8) [0 :: grRowOut k.desc (lanes.map (·.1))]))) ∧
  (∀ (s : State) (o : Op) (st : Nat) (bs : List Nat) (row : List Nat) (rest : List (List Nat)),
    s.findOp o.id = some o ∧ o.wait = .rows st ∧ o.buf = (0 :: bs) :: row :: rest →
    (s.mapSpan gatherPort o.cmp (dIndic o.desc) .write (spanFuel (grOutBytes o.desc)) (grOut o.desc + o.listNext * grOutBytes o.desc) (grOutBytes o.desc)).2.1 = none →
    (s.mapSpan gatherPort o.cmp (dIndic o.desc) .write (spanFuel (grOutBytes o.desc)) (grOut o.desc + o.listNext * grOutBytes o.desc) (grOutBytes o.desc)).2.2.1 = false →
    let m := s.mapSpan gatherPort o.cmp (dIndic o.desc) .write (spanFuel (grOutBytes o.desc)) (grOut o.desc + o.listNext * grOutBytes o.desc) (grOutBytes o.desc)
    exec (.grResultReturn o.id) s = .next ((m.2.2.2.piecesWrite o.cmp (dIndic o.desc) m.1 (bs.map (fun b => BitVec.ofNat 8 b))).setOp
      { o with buf := row :: rest, listNext := o.listNext + 1 })) ∧
  (∀ (s : State) (addr : Nat),
    addr < t1Bytes →
    exec (.stackReadReturn addr 0) s = .next s ∧
      (∃ t, exec (.stackReadReturn addr 1) s = .next t ∧ s.keepsBut t (.STK_ECC_CORR :: postFlds) ∧ t = s.reports t) ∧
      (∃ t, exec (.stackReadReturn addr 2) s = .next t ∧ t.linePoison (lineOf addr) = true ∧ t.rd .STK_ERR_APA (s.stackOf addr) = addr
        ∧ s.keepsBut t (.STK_ECC_UNCORR :: .STK_ERR_APA :: postFlds) ∧ t = { s.reports t with mem := (s.poisonLines [lineOf addr]).mem })) ∧
  (∀ (s : State) (stack count temp : Nat),
    stack < 8 →
    let ref := stepAfter (s.rd .STK_REF_STEP stack) (max (max (s.actStep stack (min count (2 ^ 24 - 1))) (s.refTherm (min temp 255) 1)) (s.rd .STK_REF_MIN stack))
        (max (max (s.actStep stack (min count (2 ^ 24 - 1))) (s.refTherm (min temp 255) (s.rd .STK_T_HYST 0))) (s.rd .STK_REF_MIN stack)) (s.stk.refLow.get 0 stack)
    let thr := stepAfter (s.rd .STK_THR_STEP stack) (s.thrTherm (min temp 255) 1) (s.thrTherm (min temp 255) (s.rd .STK_T_HYST 0)) (s.stk.thrLow.get 0 stack)
    ∃ t, exec (.activityWindowBoundary stack count temp) s = .next t
      ∧ t.rd .STK_ACT_COUNT stack = min count (2 ^ 24 - 1) ∧ t.rd .STK_TEMP stack = min temp 255
      ∧ t.rd .STK_TEMP_PEAK stack = max (s.rd .STK_TEMP_PEAK stack) (min temp 255)
      ∧ t.rd .STK_REF_STEP stack = ref.1 ∧ t.rd .STK_THR_STEP stack = thr.1
      ∧ (s.rd .STK_T_TRIP 0 ≤ min temp 255 → 0 < s.rd .STK_T_HYST 0 → t.rd .STK_TRIPPED stack = 1)
      ∧ s.keepsBut t ([.STK_ACT_COUNT, .STK_TEMP, .STK_TEMP_PEAK, .STK_REF_STEP, .STK_THR_STEP, .STK_REF_STEPS, .STK_THR_STEPS, .STK_TRIPPED] ++ postFlds)
      ∧ t = { s.reports t with stk := t.stk })

/-- A request that hits the shared cache with its right fills its port cache; one that misses, finds no walk to join and finds room in the
walk queue enters it as a new walk, and free walkers take what waits; a table entry moves its walk one level down; a leaf whose requests
all have their rights fills the shared cache and the port cache of each request and the walk ends; a manager invalidation removes every
walked translation of its compartment and marks the engine busy, and its end clears the mark. A TABLE_LOAD of kind RANGE_TABLE by the
primary manager function whose list can be read and passes its checks writes each valid entry at its index and clears the index of each
entry that is not valid; every other range entry stays, and its work has ended with OK. (R235, R255, R256, R257, R258, R267, R242, R243,
R244) -/
def Obligations.TranslationsAreWalkedAndLoaded : Prop :=
  (∀ (s : State) (port cmp stream va access : Nat) (t : Trans),
    cmp < 32 ∧ clientPort port = true ∧ s.walkHit port cmp va false = none ∧ s.sharedHit cmp va = some t →
    (s.rightCheck t va (needOf access)).isOk = true ∧ (∀ x ∈ s.xl.waiting, ¬(x.cmp = cmp ∧ x.req.port = port)) →
    exec (.walkStart port cmp stream va false access) s = .next ((s.bump .TRN_ST_PORT_MISS cmp 1).fillPort port t)) ∧
  (∀ (s : State) (port cmp stream va access : Nat),
    cmp < 32 ∧ clientPort port = true ∧ s.walkHit port cmp va false = none ∧ s.sharedHit cmp va = none →
    s.walkToJoin cmp va false = none ∧ s.walksQueued cmp < 64 ∧ (∀ x ∈ s.xl.waiting, ¬(x.cmp = cmp ∧ x.req.port = port)) →
    let u := s.bump .TRN_ST_PORT_MISS cmp 1
    let q : State := { u with xl := { u.xl with
      walks := s.xl.walks ++ [⟨s.xl.serial, cmp, va, false, access, [⟨port, stream, va, access⟩], true, false, 0, 0, false⟩], serial := s.xl.serial + 1 } }
    exec (.walkStart port cmp stream va false access) s = .next ((q.serveQueue cmp (s.walksQueued cmp + 1)).serveWalks)) ∧
  (∀ (s : State) (w : Walk) (b : Nat),
    s.xl.walks.find? (fun x => x.id == w.id && !x.queued) = some w ∧ w.restart = false ∧ 0 < w.level →
    s.poisoned w.entry 8 = false ∧ s.checkPte w.cmp w.va w.level (ofLE (s.accRead w.cmp w.entry 8)) = .table b →
    exec (.walkEntryReturn w.id false) s = .next (s.setWalk { w with level := w.level - 1, entry := b + 8 * ptIndex w.va (w.level - 1) })) ∧
  (∀ (s : State) (w : Walk) (t : Trans),
    s.xl.walks.find? (fun x => x.id == w.id && !x.queued) = some w ∧ w.restart = false →
    s.poisoned w.entry 8 = false ∧ s.checkPte w.cmp w.va w.level (ofLE (s.accRead w.cmp w.entry 8)) = .leaf t →
    (∀ q ∈ w.reqs, t.allows (needOf q.access) = true) →
    exec (.walkEntryReturn w.id false) s = .next ((w.reqs.foldl (fun u q => u.fillPort q.port t) ((s.fillShared t).dropWalk w.id)).serveWalks)) ∧
  (∀ (s : State) (cmp : Nat),
    s.closed s.primaryFn 0x500800 = false ∧ cmp < 32 →
    ∃ t, exec (.managerInvalidation s.primaryFn cmp) s = .next t ∧ t.rd .TRN_MGR_INV_BUSY 0 = 1 ∧ t.rd .TRN_MGR_INV_CMP 0 = cmp
      ∧ (∀ p, ∀ x ∈ t.xl.port.get [] p, x.host = none → x.cmp = cmp → x.overlaps 0 (2 ^ 57) = false)
      ∧ (∀ p, ∀ x ∈ t.xl.pinned.get [] p, x.host = none → x.cmp = cmp → x.overlaps 0 (2 ^ 57) = false)
      ∧ (∀ x ∈ t.xl.shared, x.host = none → x.cmp = cmp → x.overlaps 0 (2 ^ 57) = false)
      ∧ s.keepsBut t [.TRN_MGR_INV_BUSY, .TRN_MGR_INV_CMP, .TRN_ST_INV, .STAT_F_LIVE] ∧ t = { s with reg := { s.reg with vals := t.reg.vals }, xl := t.xl }) ∧
  (∀ (s : State),
    exec .managerInvalidationDone s = .next (s.wr .TRN_MGR_INV_BUSY 0 0)) ∧
  (∀ (s : State) (fn ring c i : Nat) (k : Cand),
    s.starts fn ring 0x64 c k ∧ adKind k.desc = 2 ∧ fn = s.primaryFn ∧ (s.begun fn ring c k).2.rd .BOOT_FAWN 0 = 0 →
    (s.begun fn ring c k).2.longBusy 0x64 (adCmp k.desc) = false ∧ (s.begun fn ring c k).2.claimSlot = some i →
    0 < bits (adArg0 k.desc) 16 14 ∧ bits (adArg0 k.desc) 0 13 + bits (adArg0 k.desc) 16 14 ≤ 8192 ∧ adPtr k.desc % 64 = 0 →
    (((s.begun fn ring c k).2.opensLong (s.begun fn ring c k).1 2 (adCmp k.desc) (bits (adArg0 k.desc) 16 14) i [] []).readRanges
      (adPtr k.desc) (bits (adArg0 k.desc) 16 14) 0).2.rangeFail (adCmp k.desc) (bits (adArg0 k.desc) 0 13) (bits (adArg0 k.desc) 16 14)
      (((s.begun fn ring c k).2.opensLong (s.begun fn ring c k).1 2 (adCmp k.desc) (bits (adArg0 k.desc) 16 14) i [] []).readRanges
      (adPtr k.desc) (bits (adArg0 k.desc) 16 14) 0).1 = none →
    let r := ((s.begun fn ring c k).2.opensLong (s.begun fn ring c k).1 2 (adCmp k.desc) (bits (adArg0 k.desc) 16 14) i [] []).readRanges
      (adPtr k.desc) (bits (adArg0 k.desc) 16 14) 0
    ∃ t, exec (.tableLoadRangeTable fn ring) s = .next t ∧ r.1.length = bits (adArg0 k.desc) 16 14
      ∧ (∀ n, n < r.1.length → t.xl.ranges.find (bits (adArg0 k.desc) 0 13 + n) = if bit (word (r.1.getD n []) 0) 0 then some (r.1.getD n []) else none)
      ∧ (∀ j, j < bits (adArg0 k.desc) 0 13 ∨ bits (adArg0 k.desc) 0 13 + r.1.length ≤ j → t.xl.ranges.find j = r.2.xl.ranges.find j)
      ∧ (t.longAt i).map (·.fin) = some (some (0, 0)) ∧ t.mem = r.2.mem)

/-- A read that hits returns the bytes of its compartment and marks the use; a write that hits marks its line dirty and stores its bytes
under the compartment's key; a read that misses is counted and opens a miss-table entry; the return of a read fill gives its requester the
bytes of the line and closes the entry. A CLEAN leaves no dirty tag, an INVALIDATE and a FLUSH no tag at all, of the compartment in its
range, a FILL places the lines that miss; each sets SYC_MT_BUSY with status 0 and its end clears it with the number of lines changed. A
change of a pinned-way count that is not held back flushes every way that changes its owner; the new assignment takes effect at the end of
that flush. (R269, R277, R280, R283, R284, R288, R274, R276, R290, R291) -/
def Obligations.SlicesServeAndAreMaintained : Prop :=
  (∀ (s : State) (port cmp addr len q k i : Nat) (indic nc : Bool) (data : List Nat) (x : CLine),
    0 < len ∧ lineOf addr = lineOf (addr + len - 1) ∧ s.ownsExtent cmp addr len = true →
    s.home cmp (lineOf addr) = some (q, i) ∧ s.missCount q < 256 ∧ s.lookup cmp (lineOf addr) = some (k, x) →
    let u := (s.bump .SYC_ST_HITS cmp 1).hitLine k x indic
    exec (.sliceRequest port cmp addr len false indic nc data) s = .next ((u false).returnData port addr ((u false).linePoison (lineOf addr)) ((u false).accRead cmp addr len)) ∧
      exec (.sliceRequest port cmp addr len true indic nc data) s = .next ((u true).cmpWrite cmp addr (toBytes len data))) ∧
  (∀ (s : State) (port cmp addr len q i : Nat) (indic nc : Bool) (data : List Nat),
    0 < len ∧ lineOf addr = lineOf (addr + len - 1) ∧ s.ownsExtent cmp addr len = true →
    s.home cmp (lineOf addr) = some (q, i) ∧ s.missCount q < 256 ∧ s.lookup cmp (lineOf addr) = none →
    ∃ t, exec (.sliceRequest port cmp addr len false indic nc data) s = .next t
      ∧ t.syc.misses = s.syc.misses ++ [⟨s.syc.serial, q, port, cmp, lineOf addr, addr, len, s.mayAllocate cmp (lineOf addr) indic nc, indic, false, none⟩]
      ∧ s.keepsBut t [.SYC_ST_MISSES, .SYC_ST_NO_ALLOC, .STAT_F_LIVE] ∧ t = { s with reg := { s.reg with vals := t.reg.vals }, syc := t.syc }) ∧
  (∀ (s : State) (m : Miss),
    s.syc.misses.find? (fun x => x.id == m.id && x.slice == m.slice) = some m ∧ m.bytes = none →
    s.lookup m.cmp m.line = none ∧ m.stale = false ∧ m.place = false →
    exec (.fillReturn m.slice m.id) s = .next (State.returnData { s with syc := { s.syc with misses := s.syc.misses.filter (fun x => x.id != m.id) } }
      m.port m.addr (s.fillData m).1 (s.fillData m).2)) ∧
  (∀ (s : State) (cmp : Nat),
    s.closed s.primaryFn (0x604010 + 0x20 * cmp) = false ∧ cmp < 32 ∧ s.rd .SYC_MT_BUSY cmp = 0 →
    s.rd .SYC_MT_LEN cmp = 0 ∨ s.ownsExtent cmp (s.rd .SYC_MT_ADDR cmp) (s.rd .SYC_MT_LEN cmp) = true →
    (s.rd .SYC_MT_OP cmp = 2 → ∃ t, exec (.clean s.primaryFn cmp) s = .next t ∧ t.rd .SYC_MT_BUSY cmp = 1 ∧ t.rd .SYC_MT_STATUS cmp = 0
        ∧ (∀ k, ∀ x ∈ t.cset k, x.cmp = cmp → (s.rd .SYC_MT_LEN cmp = 0 ∨ (lineOf (s.rd .SYC_MT_ADDR cmp) ≤ x.line
          ∧ x.line ≤ lineOf (s.rd .SYC_MT_ADDR cmp + s.rd .SYC_MT_LEN cmp - 1))) → x.dirty = none)) ∧
      (s.rd .SYC_MT_OP cmp = 3 → ∃ t, exec (.invalidate s.primaryFn cmp) s = .next t ∧ t.rd .SYC_MT_BUSY cmp = 1 ∧ t.rd .SYC_MT_STATUS cmp = 0
        ∧ (∀ k, ∀ x ∈ t.cset k, x.cmp = cmp → ¬(s.rd .SYC_MT_LEN cmp = 0 ∨ (lineOf (s.rd .SYC_MT_ADDR cmp) ≤ x.line
          ∧ x.line ≤ lineOf (s.rd .SYC_MT_ADDR cmp + s.rd .SYC_MT_LEN cmp - 1))))) ∧
      (s.rd .SYC_MT_OP cmp = 4 → ∃ t, exec (.flush s.primaryFn cmp) s = .next t ∧ t.rd .SYC_MT_BUSY cmp = 1 ∧ t.rd .SYC_MT_STATUS cmp = 0
        ∧ (∀ k, ∀ x ∈ t.cset k, x.cmp = cmp → ¬(s.rd .SYC_MT_LEN cmp = 0 ∨ (lineOf (s.rd .SYC_MT_ADDR cmp) ≤ x.line
          ∧ x.line ≤ lineOf (s.rd .SYC_MT_ADDR cmp + s.rd .SYC_MT_LEN cmp - 1))))) ∧
      (s.rd .SYC_MT_OP cmp = 1 → ∃ t, exec (.fill s.primaryFn cmp) s = .next t ∧ t.rd .SYC_MT_BUSY cmp = 1 ∧ t.rd .SYC_MT_STATUS cmp = 0
        ∧ (∃ n, t.syc.maint.find cmp = some ⟨false, n, [], []⟩))) ∧
  (∀ (s : State) (cmp : Nat) (m : Maint),
    s.syc.maint.find cmp = some m →
    (m.pin = false → exec (.maintenanceDone cmp) s = .next { (s.wr .SYC_MT_BUSY cmp 0).wr .SYC_MT_LINES cmp m.lines with
        syc := { s.syc with maint := Tab.del s.syc.maint cmp } }) ∧
      (m.pin = true → exec (.pinFlushDone cmp) s = .next { s.wr .SYC_MT_BUSY cmp 0 with
        syc := { s.syc with maint := Tab.del s.syc.maint cmp, pins := Tab.put s.syc.pins cmp m.pins } })) ∧
  (∀ (s : State) (cmp win value : Nat),
    s.closed s.primaryFn (0x60000C + 0x200 * cmp + 0x20 * win) = false ∧ cmp < 32 ∧ win < 16 ∧ value < 16 →
    s.rd .SYC_MT_BUSY cmp = 0 ∧ value ≠ s.rd .SYC_WIN_PIN (winIx cmp win) →
    ((List.range 16).map (fun w => if w = win then 0 else s.rd .SYC_WIN_PIN (winIx cmp w))).sum + value ≤ 8 →
    ∃ t, exec (.pinnedWayChange s.primaryFn cmp win value) s = .next t ∧ t.rd .SYC_WIN_PIN (winIx cmp win) = value ∧ t.rd .SYC_MT_BUSY cmp = 1
      ∧ t.syc.pins = s.syc.pins ∧ (t.syc.maint.find cmp).map (·.pins) = some ((List.range 16).map (fun w => if w = win then value else s.rd .SYC_WIN_PIN (winIx cmp w)))
      ∧ (∀ k, ∀ x ∈ t.cset k, x.cmp = cmp → pinOwner ((List.range 16).map (fun w => s.rd .SYC_WIN_PIN (winIx cmp w))) x.way
          = pinOwner ((List.range 16).map (fun w => t.rd .SYC_WIN_PIN (winIx cmp w))) x.way ∨ 16 ≤ x.way))

/-- GET_COPY, GET_OWN and CLAIM_OWN of a live die agent whose address is translated arrive at their home as requests of its compartment;
PEEK, PUT_LINE, PUT_BYTES and a listed ATOMIC_FAR of a junction agent in the compartment's granules arrive with their data, mask,
operation and operands; an EVENT of a live die agent raises the source its word names where its compartment may ring it, and is counted as
dropped where not; a request turned away is resent one older. RSP_SERVED leaves the agent gone, a sharer or the owner as its code says,
RSP_CLEARED gone, RSP_MISS gone and counted, and each takes its answer from the entry; RSP_EVICTING marks it; LINE_BACK writes its data
first; LINE_WB of the owner with no forward outstanding writes its data, ends its ownership and is acknowledged; LINE_PEEK and LINE_S pass
an owner's data to its requester; INSTALLED records the requester and frees the entry; a reservation that expires passes to the next
starved request; a host's back-invalidation response, snoop, conflict and AtomicOp are answered. (R24, R189, R303, R313, R319, R329, R308,
R311, R315, R317) -/
def Obligations.TheHomeTracksRequests : Prop :=
  (∀ (s : State) (agent txn va age c : Nat) (indic : Bool) (x : Trans),
    s.dieReaches agent va indic .read c x →
    exec (.getCopy agent txn va indic age) s =
      .next ((s.translate (agent / 8) c va indic .read).2.2.arrive ⟨1, agent, txn, c, lineOf (x.out + (va - x.base)), min age 15, x.out + (va - x.base), [], 0, 0, 0, 0, 0⟩)) ∧
  (∀ (s : State) (agent txn va age c : Nat) (indic : Bool) (x : Trans),
    s.dieReaches agent va indic .write c x →
    exec (.getOwn agent txn va indic age) s =
      .next ((s.translate (agent / 8) c va indic .write).2.2.arrive ⟨2, agent, txn, c, lineOf (x.out + (va - x.base)), min age 15, x.out + (va - x.base), [], 0, 0, 0, 0, 0⟩) ∧
      exec (.claimOwn agent txn va indic age) s =
      .next ((s.translate (agent / 8) c va indic .write).2.2.arrive ⟨3, agent, txn, c, lineOf (x.out + (va - x.base)), min age 15, x.out + (va - x.base), [], 0, 0, 0, 0, 0⟩)) ∧
  (∀ (s : State) (agent cmp txn addr age mask op fmt operand compare : Nat) (indic : Bool) (data : List Nat),
    40 ≤ agent ∧ agent ≤ 44 ∧ s.ownsExtent cmp (lineOf addr * 128) 128 = true →
    exec (.peek agent cmp txn addr indic age) s = .next (s.arrive ⟨4, agent, txn, cmp, lineOf addr, min age 15, addr, [], 0, 0, 0, 0, 0⟩) ∧
      exec (.putLine agent cmp txn addr indic age data) s = .next (s.arrive ⟨8, agent, txn, cmp, lineOf addr, min age 15, addr, data, 0, 0, 0, 0, 0⟩) ∧
      exec (.putBytes agent cmp txn addr indic age mask data) s = .next (s.arrive ⟨9, agent, txn, cmp, lineOf addr, min age 15, addr, data, mask, 0, 0, 0, 0⟩) ∧
      (atomPair op fmt = true → addr % atomBytes fmt = 0 → exec (.atomicFar agent cmp txn addr indic age op fmt operand compare) s =
        .next (s.arrive ⟨0x0C, agent, txn, cmp, lineOf addr, min age 15, addr, [], 0, op, fmt, operand, compare⟩))) ∧
  (∀ (s : State) (agent word c : Nat),
    isDie agent = true ∧ s.streamCmp agent = some c ∧ s.agentLive agent = true ∧ s.intakeOpen c = true →
    exec (.event agent word) s = .next (if s.bellOk (word % 2048) (some c) = true then s.bellRaises (word % 2048) [2 + agent / 8]
      else s.bump .EVT_DB_DROPPED_TOTAL 0 1)) ∧
  (∀ (s : State) (q : CohReq),
    s.coh.retried.find? (fun x => x.agent == q.agent && x.txn == q.txn) = some q →
    exec (.retryResend q.agent q.txn) s = .next (State.arrive { s with coh := { s.coh with retried := s.coh.retried.erase q } } { q with age := min (q.age + 1) 15 })) ∧
  (∀ (s : State) (agent addr code : Nat) (t : Track) (poison : Bool) (data : List Nat),
    s.trackFor (lineOf addr) agent = some t →
    exec (.rspServed agent addr code) s = .next ((if code = 0 then s.clearAgent (lineOf addr) agent
        else if code = 1 then s.demoteOwner (lineOf addr) agent else s).answered t agent) ∧
      exec (.rspCleared agent addr) s = .next ((s.clearAgent (lineOf addr) agent).answered t agent) ∧
      (t.direct = false → exec (.rspMiss agent addr) s = .next (((s.bump .COH_ST_RSP_MISS t.req.cmp 1).clearAgent (lineOf addr) agent).answered t agent)) ∧
      (t.crossed agent = false → t.pend.all (fun p => p.agent != agent || !p.wb) = true → exec (.rspEvicting agent addr) s =
        .next ((s.bump .COH_ST_EVICT_CROSS t.req.cmp 1).setTrack (t.mark agent (fun p => { p with evicting := true })))) ∧
      exec (.lineBack agent addr poison data) s =
        .next (((s.homeWrite t.req.cmp (128 * lineOf addr) (toBytes 128 data) poison).clearAgent (lineOf addr) agent).answered t agent)) ∧
  (∀ (s : State) (agent addr c : Nat) (poison : Bool) (data : List Nat),
    isDie agent = true ∧ s.streamCmp agent = some c ∧ s.agentLive agent = true ∧ s.ownsExtent c (lineOf addr * 128) 128 = true →
    s.trackFor (lineOf addr) agent = none ∧ s.ownerOf (lineOf addr) = some agent →
    exec (.lineWb agent addr poison data) s = .next (((s.homeWrite c (128 * lineOf addr) (toBytes 128 data) poison).clearAgent (lineOf addr) agent).coh1
      agent 0x26 (lineOf addr) 0 false [])) ∧
  (∀ (s : State) (agent addr requester : Nat) (poison : Bool) (data : List Nat) (t : Track),
    s.coh.tracks.find? (fun t => t.req.line == lineOf addr && t.req.agent == requester && t.req.op == 4 && t.direct && !t.got) = some t →
    s.ownerOf (lineOf addr) = some agent →
    exec (.linePeek agent requester addr poison data) s = .next ((s.setTrack { t with got := true }).emit .data
      ([requester, 128 * lineOf addr, b2n poison] ++ data.take 128))) ∧
  (∀ (s : State) (port op addr : Nat) (poison : Bool) (data : List Nat) (t : Track),
    port < 2 ∧ 0x30 ≤ op ∧ op ≤ 0x33 →
    s.coh.tracks.find? (fun t => t.req.line == lineOf addr && t.req.agent == 32 + port && t.direct && !t.got) = some t ∧ t.granted = false →
    exec (.lineS port op addr poison data) s = .next ((s.coh1 (32 + port) op (lineOf addr) t.req.txn poison (toBytes 128 data)).setTrack { t with got := true })) ∧
  (∀ (s : State) (agent addr : Nat) (t : Track),
    s.coh.tracks.find? (fun t => t.req.line == lineOf addr && t.req.agent == agent && t.granted) = some t →
    exec (.installed agent addr) s = .next (((s.recordAgent (lineOf addr) agent (t.ends == 2)).unblock t).afterUnblock (lineOf addr))) ∧
  (∀ (s : State) (line a x : Nat),
    s.coh.reserved.find line = some (a, x) →
    exec (.reservationExpiry line) s = .next (((State.bump { s with coh := { s.coh with
      starved := s.coh.starved.filter (fun y => !(y.line == line && y.agent == a && y.txn == x)) } } .COH_ST_RES_EXPIRED (s.lineCmp line) 1).reserveNext line).hostsGo)) ∧
  (∀ (s : State) (port tag fn addr : Nat),
    port < 2 →
    exec (.h2dSnoop port tag) s = .next (s.emit .cxl [32 + port, 0x100, tag]) ∧ exec (.biconflict port tag) s = .next (s.emit .cxl [32 + port, 0x101, tag]) ∧
      exec (.hostAtomicopRequest port fn addr) s = .next (s.emit .unsupported [fn, addr])) ∧
  (∀ (s : State) (port addr : Nat) (shared : Bool) (t : Track),
    port < 2 ∧ s.trackFor (lineOf addr) (32 + port) = some t →
    exec (.cxlBirsp port addr shared) s = .next (
      if (s.holders (lineOf addr)).contains (32 + port) = false then s.missed (32 + port) (lineOf addr)
      else if t.pend.any (fun p => p.agent == 32 + port && (p.op == 0x13 || p.op == 0x14)) = true then s.cleared (32 + port) (lineOf addr)
      else s.served (32 + port) (lineOf addr) (b2n shared)))

/-- A GET_COPY of a line that no agent holds, where the home and its filter have room and the window allows an exclusive copy, sends the
line exclusive and blocks it until INSTALLED, which makes the agent its owner; a PUT_LINE to a line that no agent holds makes every later
read of its compartment return its bytes; a host read of a coherent window arrives as a request of the host's agent, and one of no window
is answered and reported; the end of a window change clears its mark; a die port link that goes down or comes up leaves its agents not
live or live as their streams are bound. (R294, R295, R297, R310, R313, R315, R322, R325, R326) -/
def Obligations.CoherentLinesAreServed : Prop :=
  (∀ (s : State) (agent txn va age c slice i w : Nat) (x : Trans),
    s.dieReaches agent va false .read c x ∧ (s.translate (agent / 8) c va false .read).2.2 = s →
    s.home c (lineOf (x.out + (va - x.base))) = some (slice, i) ∧ s.blocked (lineOf (x.out + (va - x.base))) = false ∧ s.trackCount slice < 64 →
    s.coh.reserved.find (lineOf (x.out + (va - x.base))) = none ∧ s.fentry (lineOf (x.out + (va - x.base))) = none →
    s.cohWindow c (lineOf (x.out + (va - x.base))) = some w ∧ s.rd .COH_WIN_NO_E w = 0 ∧ (s.setLines c (lineOf (x.out + (va - x.base)))).length < 16 →
    ∃ t, exec (.getCopy agent txn va false age) s = .next t
      ∧ t.coh.tracks = s.coh.tracks ++ [⟨⟨1, agent, txn, c, lineOf (x.out + (va - x.base)), min age 15, x.out + (va - x.base), [], 0, 0, 0, 0, 0⟩, slice, none, [],
          false, false, false, 2, true⟩]
      ∧ t.sent = s.sent ++ [⟨.coh, [agent, 0x31, 128 * lineOf (x.out + (va - x.base)), txn, b2n (s.linePoison (lineOf (x.out + (va - x.base))))]
          ++ (s.accRead c (128 * lineOf (x.out + (va - x.base))) 128).map BitVec.toNat⟩]
      ∧ t.coh.filter = s.coh.filter) ∧
  (∀ (s : State) (agent addr : Nat) (t : Track),
    s.coh.tracks.find? (fun t => t.req.line == lineOf addr && t.req.agent == agent && t.granted) = some t ∧ t.ends = 2 →
    s.coh.reserved.find (lineOf addr) = none ∧ s.coh.starved = [] ∧ (∀ y ∈ s.coh.tracks, y.wait = none) →
    ∃ u, exec (.installed agent addr) s = .next u ∧ u.ownerOf (lineOf addr) = some agent ∧ u.coh.tracks = (s.dropTrack t).coh.tracks
      ∧ u = { s with coh := u.coh }) ∧
  (∀ (s : State) (agent cmp txn addr age slice i : Nat) (data : List Nat),
    40 ≤ agent ∧ agent ≤ 44 ∧ s.ownsExtent cmp (lineOf addr * 128) 128 = true ∧ s.lineLost (lineOf addr) = false →
    s.home cmp (lineOf addr) = some (slice, i) ∧ s.blocked (lineOf addr) = false ∧ s.trackCount slice < 64 →
    s.coh.reserved.find (lineOf addr) = none ∧ s.fentry (lineOf addr) = none →
    s.coh.starved = [] ∧ s.coh.hostQ = [] ∧ (∀ y ∈ s.coh.tracks, y.wait = none) →
    ∃ t, exec (.putLine agent cmp txn addr false age data) s = .next t ∧ t.accRead cmp (128 * lineOf addr) 128 = toBytes 128 data
      ∧ t.coh.tracks = s.coh.tracks ∧ t.coh.filter = s.coh.filter) ∧
  (∀ (s : State) (port metaV txn dpa c a : Nat),
    port < 2 ∧ port ∈ s.pins.hostUp ∧ metaV < 3 →
    s.dpaWindow port dpa = some (c, a) →
    exec (.cxlM2sRequest port 0 metaV txn dpa 0 []) s = .next (s.arrive ⟨if metaV = 0 then 4 else if metaV = 1 then 1 else 2, 32 + port, txn, c, lineOf a, 15, a, [], 0, 0, 0, 0, 0⟩)) ∧
  (∀ (s : State) (port metaV txn dpa : Nat),
    port < 2 ∧ port ∈ s.pins.hostUp ∧ metaV < 3 ∧ s.dpaWindow port dpa = none →
    ∃ t, exec (.cxlM2sRequest port 0 metaV txn dpa 0 []) s = .next t ∧ t.rd .INC_SEQ_NEXT 0 = seqAfter (s.rd .INC_SEQ_NEXT 0) % 2 ^ 32
      ∧ s.keepsBut t postFlds ∧ t = s.reports t) ∧
  (∀ (s : State) (cmp : Nat),
    s.rd .COH_WIN_BUSY cmp = 1 ∧ s.coh.tracks.any (fun t => t.req.op == 0x15 && t.req.cmp == cmp) = false →
    exec (.coherentWindowChangeDone cmp) s = .next { s.wr .COH_WIN_BUSY cmp 0 with coh := { s.coh with oldWin := s.coh.oldWin.keep (fun i _ => i / 8 != cmp) } }) ∧
  (∀ (s : State) (port : Nat),
    port < 4 →
    (port ∈ s.coh.dieUp → ∃ t, exec (.diePortLinkDown port) s = .next t ∧ port ∉ t.coh.dieUp ∧ (∀ a, a / 8 = port → t.rd .COH_AG_LIVE a = 0)) ∧
      (∃ t, exec (.diePortLinkUp port) s = .next t ∧ port ∈ t.coh.dieUp ∧ (∀ a, a / 8 = port → t.rd .COH_AG_LIVE a = t.rd .COH_AG_BOUND a)
        ∧ s.keepsBut t [.COH_AG_CMP, .COH_AG_BOUND, .COH_AG_LIVE] ∧ t = { s with reg := { s.reg with vals := t.reg.vals }, coh := t.coh }))

/-- Enabling a DISABLED link that is not gated starts it at DETECT and disabling a link that is not UP stops it; each training event moves
a link from its state to the next, or back to DETECT on its timeout; INIT done makes the link UP with empty buffers, the credits of its
plan and its neighbour's name; an UP link that loses signal is at DETECT with nothing in progress, the beat of its fall kept and LINK_DOWN
posted; a FAILED link that is retrained returns to DETECT. (R394, R396, R406, R408, R422) -/
def Obligations.LinksTrain : Prop :=
  (∀ (s : State) (l : Nat),
    s.closed s.primaryFn (0xA00000 + 0x100 * l) = false ∧ l < 12 →
    (s.linkIs l .disabled = true → bit (s.rd .PWR_GATE_PLK 0) l = false → l ∉ s.pwr.ungating →
        exec (.plkLinkEnable s.primaryFn l 1) s = .next ((s.wr .PLK_LINK_EN l 1).setLink l .detect)) ∧
      (s.linkIs l .up = false → exec (.plkLinkEnable s.primaryFn l 0) s = .next ((s.wr .PLK_LINK_EN l 0).setLink l .disabled)) ∧
      (s.linkIs l .failed = true → exec (.linkRetrain s.primaryFn l) s = .next (s.setLink l .detect))) ∧
  (∀ (s : State) (l : Nat),
    l < 12 →
    (s.linkIs l .detect = true → exec (.linkSignalDetected l) s = .next (s.setLink l .equalize)) ∧
      (s.linkIs l .equalize = true → exec (.linkEqualizeDone l) s = .next (s.setLink l .align)) ∧
      (s.linkIs l .equalize = true → exec (.linkEqualizeTimeout l) s = .next ((s.setLink l .detect).bump .PLK_TRAIN_FAIL l 1)) ∧
      (s.linkIs l .align = true → exec (.linkAlignLock l) s = .next (s.setLink l .init)) ∧
      (s.linkIs l .align = true → exec (.linkAlignTimeout l) s = .next (s.setLink l .detect)) ∧
      (s.linkIs l .init = true → exec (.linkInitTimeout l) s = .next (s.setLink l .detect)) ∧
      (s.linkIs l .up = false → exec (.linkSignalLost l) s = .next s)) ∧
  (∀ (s : State) (l serial far : Nat),
    s.linkIs l .init = true ∧ serial < 2 ^ 64 ∧ far < 2 ^ 4 →
    ∃ t, exec (.linkInitDone l serial far) s = .next t ∧ t.linkIs l .up = true ∧ t.lnk l = { Lnk.idle with txSlot := s.slotNow + 1, cred := s.firstCredits l }
      ∧ t.rd .PLK_NBR_SERIAL l = serial ∧ t.rd .PLK_NBR_LINK l = far ∧ t.rd .PLK_NBR_VALID l = 1 ∧ t.rd .PLK_LAST_UP l = s.rd .PWR_BEAT 0
      ∧ (∀ j, j ≠ l → t.lnk j = s.lnk j) ∧ t = { s.reports t with plk := t.plk }) ∧
  (∀ (s : State) (l : Nat),
    s.linkIs l .up = true →
    ∃ t, exec (.linkSignalLost l) s = .next t ∧ t.linkIs l .detect = true ∧ t.lnk l = Lnk.idle ∧ t.rd .PLK_LAST_DOWN l = s.rd .PWR_BEAT 0
      ∧ (s.isParent l = true → t.rd .PWR_BEAT_LOCKED 0 = 0)
      ∧ s.keepsBut t (.PLK_LINK_STATE :: .PLK_LAST_DOWN :: .PWR_BEAT_LOCKED :: .PWR_BEAT_LOST :: postFlds) ∧ t = { s.reports t with plk := t.plk })

/-- The transmitter fills the present slot of an UP link once: a replay round resends its next flit, else a fresh flit is sent where the
replay buffer has room. A replay buffer that was full for 512 slots starts a round with every flit it holds; a round not acknowledged in
time starts again, and after the eighth the link is FAILED. A flit out of sequence or with a lost codeword is discarded and the gap
reported once; the next DATA flit in sequence advances the number expected. A staged plan whose epoch has come replaces the active one.
(R402, R404, R405, R406, R407, R413, R415, R420) -/
def Obligations.SlotsCarryFlits : Prop :=
  (∀ (s : State) (l : Nat) (r : Round) (f : Flit) (rest : List Flit),
    s.linkIs l .up = true ∧ (s.lnk l).txSlot ≤ s.slotNow ∧ (s.lnk l).round = some r ∧ r.left = f :: rest →
    exec (.slotTransmit l) s = .next (State.slotMissed ((s.setLnk l { s.lnk l with txSlot := s.slotNow + 1, round := some { r with left := rest }, nak := false }).emit .flit
      (l :: flitNums { f with replay := true, ack := ((s.lnk l).rxNext + 4095) % 4096, nak := (s.lnk l).nak })) l s.slotNow (s.lastReplay l))) ∧
  (∀ (s : State) (l : Nat),
    s.linkIs l .up = true ∧ (s.lnk l).txSlot ≤ s.slotNow ∧ (s.lnk l).round = none ∧ (s.lnk l).buf.length < 512 →
    ∃ t f, exec (.slotTransmit l) s = .next t ∧ (t.lnk l).buf = (s.lnk l).buf ++ [f] ∧ f.seq = (s.lnk l).txSeq ∧ f.slot = s.slotNow % 1024
      ∧ (t.lnk l).txSeq = ((s.lnk l).txSeq + 1) % 4096 ∧ (t.lnk l).txSlot = s.slotNow + 1 ∧ (s.slotNow % 1024 = 0 → f.typ = 2) ∧ t.mem = s.mem) ∧
  (∀ (s : State) (l : Nat) (f : Flit) (rest : List Flit),
    s.linkIs l .up = true ∧ 512 ≤ (s.lnk l).full ∧ (s.lnk l).round = none ∧ (s.lnk l).buf = f :: rest →
    ∃ t, exec (.replayBufferFullTimeout l) s = .next t ∧ t.lnk l = { s.lnk l with round := some ⟨f :: rest, f.seq, s.ns, 0⟩, full := 0 }
      ∧ s.keepsBut t (.PLK_REPLAYS :: postFlds) ∧ t = { s.reports t with plk := t.plk }) ∧
  (∀ (s : State) (l : Nat) (r : Round) (f : Flit) (rest : List Flit),
    s.linkIs l .up = true ∧ (s.lnk l).round = some r ∧ r.startNs + 2000 ≤ s.ns ∧ (s.lnk l).buf = f :: rest →
    (r.failed < 7 → ∃ t, exec (.replayRoundTimeout l) s = .next t ∧ (t.lnk l).round = some ⟨f :: rest, f.seq, s.ns, r.failed + 1⟩) ∧
      (7 ≤ r.failed → ∃ t, exec (.replayRoundTimeout l) s = .next t ∧ t.linkIs l .failed = true ∧ t.lnk l = Lnk.idle)) ∧
  (∀ (s : State) (l pos corrected : Nat) (crcOk tagOk : Bool) (f : Flit),
    s.linkIs l .up = true ∧ (s.lnk l).gap = false →
    ∃ t, exec (.flitReceive l pos corrected true crcOk tagOk f) s = .next t ∧ t.lnk l = { s.lnk l with gap := true, nak := true }
      ∧ s.keepsBut t [.PLK_FEC_CORR, .PLK_FEC_UNCORR, .PLK_CRC_ERR, .STAT_F_LIVE] ∧ t = { s with reg := { s.reg with vals := t.reg.vals }, plk := t.plk }) ∧
  (∀ (s : State) (l pos : Nat) (tagOk : Bool) (f : Flit),
    s.linkIs l .up = true ∧ flitLegal (s.mapOf l f) pos f = true ∧ f.seq = (s.lnk l).rxNext ∧ f.nak = false ∧ f.typ ≠ 1 ∧ f.credCount = 0 →
    ∃ t, exec (.flitReceive l pos 0 false true tagOk f) s = .next t ∧ (t.lnk l).rxNext = ((s.lnk l).rxNext + 1) % 4096 ∧ (t.lnk l).gap = false
      ∧ (∀ x ∈ (t.lnk l).buf, x ∈ (s.lnk l).buf) ∧ (∀ j, j ≠ l → t.lnk j = s.lnk j) ∧ t.mem = s.mem) ∧
  (∀ (s : State) (l : Nat) (ws : List Nat),
    s.plk.next.find l = some ws ∧ word ws 1 * 25 ≤ s.slotNow / 1024 * 1024 * 32 →
    ∃ t, exec (.slotPlanSwitch l) s = .next t ∧ t.plan l = ws ∧ t.plk.next.find l = none ∧ t.plk.old.get [] l = s.plan l
      ∧ t.rd .PLK_PLAN_GEN l = (1 - s.rd .PLK_PLAN_GEN l) ∧ s.keepsBut t [.PLK_PLAN_GEN] ∧ t = { s with reg := { s.reg with vals := t.reg.vals }, plk := t.plk })

/-- A TABLE_LOAD of kind SLOT_PLAN by the primary manager function, of an aligned record that reads and passes its checks, stages the plan
of its link; one of kind ROUTING whose table is valid gives its compartment that table; the work of each has ended with OK. (R411, R412,
R417) -/
def Obligations.PlansAndRoutesAreLoaded : Prop :=
  (∀ (s : State) (fn ring c i : Nat) (k : Cand) (bs : List Byte),
    s.starts fn ring 0x64 c k ∧ adKind k.desc = 4 ∧ fn = s.primaryFn ∧ (s.begun fn ring c k).2.rd .BOOT_FAWN 0 = 0 ∧ adCmp k.desc = 0 ∧ adPtr k.desc % 64 = 0 →
    (s.begun fn ring c k).2.longBusy 0x64 0 = false ∧ (s.begun fn ring c k).2.claimSlot = some i →
    (((s.begun fn ring c k).2.opensLong (s.begun fn ring c k).1 4 0 0 i [] []).adminRead true (adPtr k.desc) 3136).1 = .ok bs →
    (((s.begun fn ring c k).2.opensLong (s.begun fn ring c k).1 4 0 0 i [] []).adminRead true (adPtr k.desc) 3136).2.planCheck (wordsOf 392 bs) = (0, 0) →
    ∃ t, exec (.tableLoadSlotPlan fn ring) s = .next t ∧ t.plk.next.find (planLink (wordsOf 392 bs)) = some (wordsOf 392 bs)
      ∧ (t.longAt i).map (·.fin) = some (some (0, 0)) ∧ t.plk.plan = (s.begun fn ring c k).2.plk.plan) ∧
  (∀ (s : State) (fn ring c i : Nat) (k : Cand) (bs : List Byte),
    s.starts fn ring 0x64 c k ∧ adKind k.desc = 3 ∧ fn = s.primaryFn ∧ (s.begun fn ring c k).2.rd .BOOT_FAWN 0 = 0 ∧ adPtr k.desc % 64 = 0 →
    (s.begun fn ring c k).2.longBusy 0x64 (adCmp k.desc) = false ∧ (s.begun fn ring c k).2.claimSlot = some i →
    (((s.begun fn ring c k).2.opensLong (s.begun fn ring c k).1 3 (adCmp k.desc) 0 i [] []).adminRead true (adPtr k.desc) 256).1 = .ok bs →
    (((s.begun fn ring c k).2.opensLong (s.begun fn ring c k).1 3 (adCmp k.desc) 0 i [] []).adminRead true (adPtr k.desc) 256).2.routesOk
      (adCmp k.desc) (bs.map BitVec.toNat) = true →
    ∃ t, exec (.tableLoadRouting fn ring) s = .next t ∧ t.plk.routes.find (adCmp k.desc) = some (bs.map BitVec.toNat)
      ∧ (t.longAt i).map (·.fin) = some (some (0, 0)))

/-- A ROLL_CALL whose limit and buffer are right opens an operation, marks the roll call busy from the beat at which it begins, and its
descriptor waits; a query is answered with this junction's name and the state of its twelve links; the answer of the junction that is
awaited is taken and the next is asked, or, when it does not come in time, that junction is marked unreached. (R424, R425, R426, R427) -/
def Obligations.RollCallsAreAnswered : Prop :=
  (∀ (s : State) (fn ring c i : Nat) (k : Cand),
    s.starts fn ring 0x69 c k ∧ fn = s.primaryFn ∧ (s.begun fn ring c k).2.rd .BOOT_FAWN 0 = 0 ∧ s.plk.roll = none →
    (s.begun fn ring c k).2.longBusy 0x69 0 = false ∧ (s.begun fn ring c k).2.claimSlot = some i →
    0 < bits (adArg0 k.desc) 0 5 ∧ bits (adArg0 k.desc) 0 5 ≤ 16 ∧ adPtr k.desc % 64 = 0 →
    let b := s.begun fn ring c k
    let u := b.2.opensLong b.1 0 0 0 i [] []
    let r : Roll := { slot := i, limit := bits (adArg0 k.desc) 0 5, start := u.beat, stop := 0, ls := [], queue := [0], closing := false, cut := false,
                      js := [⟨u.rd .HST_SERIAL 0, u.rd .PLK_JUNCTION_ID 0, 0, 0, true⟩] }
    let r := r.take 0 (u.rd .PLK_JUNCTION_ID 0) (u.rollAnswer u.beat none)
    let v := (u.wr .PLK_ROLL_BUSY 0 1).wr .PLK_ROLL_START 0 u.beat
    exec (.rollCall fn ring) s = .next (({ v with plk := { v.plk with roll := some r } }.addOp { b.1 with wait := .long i }).rollGo r)) ∧
  (∀ (s : State) (l since : Nat) (stop : Option Nat),
    s.linkIs l .up = true →
    exec (.rollQueryReceive l since stop) s = .next (s.emit .control ([2, l, s.rd .PLK_JUNCTION_ID 0, s.rd .HST_SERIAL 0] ++
      (s.rollAnswer since stop).flatMap (fun x => [x.link, b2n x.up, x.serial, x.far, b2n x.down, b2n x.rose]))) ∧ (s.rollAnswer since stop).length = 12) ∧
  (∀ (s : State) (j jid : Nat) (xs : List LinkSeen) (r : Roll),
    s.plk.roll = some r ∧ r.queue.head? = some j →
    exec (.rollAnswerReceive j jid xs) s = .next (s.rollGo (r.take j jid xs)) ∧
      exec (.rollQueryTimeout j) s = .next (s.rollGo { r with queue := r.queue.drop 1, js := r.js.zipIdx.map (fun e =>
        if e.2 == j then { e.1 with reached := false } else e.1) }) ∧
      (∀ a ∈ r.queue.tail.head?, ∃ t, exec (.rollQueryTimeout j) s = .next t ∧ (t.plk.roll.bind (fun r => r.js[j]?)).all (fun x => !x.reached) = true))

/-- A REMOTE_WRITE, REMOTE_READ, REMOTE_SEND or REMOTE_ATOMIC whose queue pair is the function's, of the descriptor's mood and in RTS,
adds its request messages behind those that the queue pair has and waits for it, and the queue pair sends what it can; where the queue
pair is not in RTS the descriptor ends REMOTE_QP_ERROR and changes no queue pair. (R144, R433, R446) -/
def Obligations.RemoteDescriptorsQueueTheirMessages : Prop :=
  (∀ (s : State) (fn ring c : Nat) (k : Cand) (q : Qp),
    s.starts fn ring 0x40 c k →
    (s.begun fn ring c k).2.net.qps.find (rmQp k.desc) = some q ∧ q.owner = fn ∧ q.indic = dIndic k.desc →
    let b := s.begun fn ring c k
    exec (.remoteWrite fn ring) s = .next (if q.state = 3 then
        ((b.2.setQp (rmQp k.desc) { q with sends := q.sends ++ remoteMsgs b.1 (rmQp k.desc) q }).addOp { b.1 with wait := .remote (rmQp k.desc), result := 0 }).pump (rmQp k.desc)
      else b.2.addOp { b.1 with wait := .done, status := 0x12, result := 0 })) ∧
  (∀ (s : State) (fn ring c : Nat) (k : Cand) (q : Qp),
    s.starts fn ring 0x41 c k →
    (s.begun fn ring c k).2.net.qps.find (rmQp k.desc) = some q ∧ q.owner = fn ∧ q.indic = dIndic k.desc →
    let b := s.begun fn ring c k
    exec (.remoteRead fn ring) s = .next (if q.state = 3 then
        ((b.2.setQp (rmQp k.desc) { q with sends := q.sends ++ remoteMsgs b.1 (rmQp k.desc) q }).addOp { b.1 with wait := .remote (rmQp k.desc), result := 0 }).pump (rmQp k.desc)
      else b.2.addOp { b.1 with wait := .done, status := 0x12, result := 0 })) ∧
  (∀ (s : State) (fn ring c : Nat) (k : Cand) (q : Qp),
    s.starts fn ring 0x42 c k →
    (s.begun fn ring c k).2.net.qps.find (rmQp k.desc) = some q ∧ q.owner = fn ∧ q.indic = dIndic k.desc →
    let b := s.begun fn ring c k
    exec (.remoteSend fn ring) s = .next (if q.state = 3 then
        ((b.2.setQp (rmQp k.desc) { q with sends := q.sends ++ remoteMsgs b.1 (rmQp k.desc) q }).addOp { b.1 with wait := .remote (rmQp k.desc), result := 0 }).pump (rmQp k.desc)
      else b.2.addOp { b.1 with wait := .done, status := 0x12, result := 0 })) ∧
  (∀ (s : State) (fn ring c : Nat) (k : Cand) (q : Qp),
    s.starts fn ring 0x43 c k →
    (s.begun fn ring c k).2.net.qps.find (rmQp k.desc) = some q ∧ q.owner = fn ∧ q.indic = dIndic k.desc →
    let b := s.begun fn ring c k
    exec (.remoteAtomic fn ring) s = .next (if q.state = 3 then
        ((b.2.setQp (rmQp k.desc) { q with sends := q.sends ++ remoteMsgs b.1 (rmQp k.desc) q }).addOp { b.1 with wait := .remote (rmQp k.desc), result := 0 }).pump (rmQp k.desc)
      else b.2.addOp { b.1 with wait := .done, status := 0x12, result := 0 }))

/-- A QP_CREATE in the range of its function, with objects it owns and a mood the transport allows, gives the queue pair in RESET with the
bindings asked for and its number as result; QP_MODIFY moves it from RESET to INIT, from ERROR to RESET and from any other state to ERROR;
QP_DESTROY of one in RESET or ERROR removes it; QP_QUERY gives its state, mood, transport and messages outstanding and changes no queue
pair. A command outside the range of its function ends RANGE and changes nothing else. (R431, R432, R433, R434, R435) -/
def Obligations.QueuePairsAreManaged : Prop :=
  (∀ (s : State) (fn c : Nat),
    s.netFree fn = true ∧ s.fnCmp fn = some c ∧ isMgr fn = true →
    s.qpMine fn (bits (s.arg fn 0) 0 16) = true ∧ s.net.qps.find (bits (s.arg fn 0) 0 16) = none →
    ¬(bit (s.arg fn 0) 16 = true ∧ bit (s.arg fn 0) 17 = true) ∧ s.ownsPd fn (bits (s.arg fn 1) 0 12) = true →
    (s.net.srqs.find (bits (s.arg fn 1) 16 12)).map (·.owner) = some fn ∧ (s.net.cqs.find (bits (s.arg fn 2) 0 14)).map (·.owner) = some fn →
    ∃ q, exec (.qpCreate fn) s = .next ((s.setQp (bits (s.arg fn 0) 0 16) q).netDone fn .ok (some (bits (s.arg fn 0) 0 16)))
      ∧ q.state = 0 ∧ q.indic = bit (s.arg fn 0) 17 ∧ q.net = bit (s.arg fn 0) 16 ∧ q.owner = fn ∧ q.cmp = c ∧ q.pd = bits (s.arg fn 1) 0 12
      ∧ q.srq = bits (s.arg fn 1) 16 12 ∧ q.cq = bits (s.arg fn 2) 0 14 ∧ q.sends = [] ∧ q.rate = 8000 ∧ q.alpha = 65536) ∧
  (∀ (s : State) (fn : Nat) (q : Qp),
    s.netFree fn = true ∧ s.qpMine fn (bits (s.arg fn 0) 0 16) = true →
    s.net.qps.find (bits (s.arg fn 0) 0 16) = some q ∧ q.owner = fn →
    let n := bits (s.arg fn 0) 0 16
    (q.state = 0 → bits (s.arg fn 0) 16 3 = 1 → n ∉ s.sec.used →
        exec (.qpModify fn) s = .next ((s.setQp n { q with state := 1 }).netDone fn .ok (some 1))) ∧
      (q.state = 4 → bits (s.arg fn 0) 16 3 = 0 → exec (.qpModify fn) s = .next ((s.setQp n (Qp.fresh q.indic q.net q.owner q.cmp q.pd q.srq q.cq q.flow)).netDone fn .ok (some 0))) ∧
      (q.state < 4 → bits (s.arg fn 0) 16 3 = 4 → ∃ t, exec (.qpModify fn) s = .next t ∧ (t.net.qps.find n).map (·.state) = some 4
        ∧ (∀ o ∈ t.ring.ops, o.wait ≠ .remote n) ∧ (∀ m, m ≠ n → t.net.qps.find m = s.net.qps.find m) ∧ t.rd .NET_CMD_RESULT fn = 4 ∧ t.mem = s.mem) ∧
      (q.state = 0 ∨ q.state = 4 → exec (.qpDestroy fn) s = .next (State.netDone { s with net := { s.net with qps := Tab.del s.net.qps n } } fn .ok none)) ∧
      exec (.qpQuery fn) s = .next (s.netDone fn .ok (some (put q.state 0 3 + put (b2n q.indic) 3 1 + put (b2n q.net) 4 1 + put q.outstanding 16 9)))) ∧
  (∀ (s : State) (fn : Nat),
    s.netFree fn = true ∧ s.qpMine fn (bits (s.arg fn 0) 0 16) = false →
    exec (.qpModify fn) s = .next (s.netDone fn .range none) ∧ exec (.qpDestroy fn) s = .next (s.netDone fn .range none) ∧ exec (.qpQuery fn) s = .next (s.netDone fn .range none))

/-- An allocating command of one function whose arguments are right takes the lowest free number of its compartment's blocks and answers
with it: PD_ALLOC a domain, CQ_CREATE and SRQ_CREATE a queue at its doorbell slot, REG_REGION and OPEN_WINDOW a VALID key with the rights
asked for; with no free number the command ends NO_RESOURCE and is counted. A queue or domain that nothing uses is removed. (R431, R438,
R439, R440, R451, R454) -/
def Obligations.RemoteObjectsAreAllocated : Prop :=
  (∀ (s : State) (fn c n : Nat),
    s.netFree fn = true ∧ s.fnCmp fn = some c →
    lowestFree (s.grants c).pdBlk 32 (fun i => (s.net.pds.find i).isSome) = some n →
    exec (.pdAlloc fn []) s = .next (State.netDone { s with net := { s.net with pds := Tab.put s.net.pds n (fn + 1) } } fn .ok (some n))) ∧
  (∀ (s : State) (fn c : Nat),
    s.netFree fn = true ∧ s.fnCmp fn = some c →
    lowestFree (s.grants c).pdBlk 32 (fun i => (s.net.pds.find i).isSome) = none →
    exec (.pdAlloc fn []) s = .next ((s.bump .NET_ST_ALLOC_EMPTY c 1).netDone fn .noResource none)) ∧
  (∀ (s : State) (fn : Nat),
    s.netFree fn = true ∧ s.ownsPd fn (bits (s.arg fn 0) 0 12) = true →
    s.net.qps = [] ∧ s.net.keys = [] →
    exec (.pdFree fn) s = .next (State.netDone { s with net := { s.net with pds := Tab.del s.net.pds (bits (s.arg fn 0) 0 12) } } fn .ok none)) ∧
  (∀ (s : State) (fn c n : Nat),
    s.netFree fn = true ∧ s.fnCmp fn = some c →
    4 ≤ bits (s.arg fn 2) 0 5 ∧ bits (s.arg fn 2) 0 5 ≤ 16 ∧ s.arg2 fn 0 % 1024 = 0 ∧ s.arg2 fn 0 < 2 ^ 57 ∧ bit (s.arg fn 2) 6 = false ∧ bit (s.arg fn 3) 31 = false →
    s.rd .NET_CQ_SLOT_VALID (64 * fn + bits (s.arg fn 3) 0 6) = 0 ∧ lowestFree (s.grants c).cqBlk 128 (fun i => (s.net.cqs.find i).isSome) = some n →
    exec (.cqCreate fn []) s = .next ((((s.setCq n ⟨fn, s.arg2 fn 0, bits (s.arg fn 2) 0 5, bit (s.arg fn 2) 5, none, bits (s.arg fn 3) 0 6, none, 1, 0, 0⟩).wr
      .NET_CQ_SLOT (64 * fn + bits (s.arg fn 3) 0 6) n).wr .NET_CQ_SLOT_VALID (64 * fn + bits (s.arg fn 3) 0 6) 1).netDone fn .ok (some n))) ∧
  (∀ (s : State) (fn : Nat) (q : Cq),
    s.netFree fn = true ∧ s.net.cqs.find (bits (s.arg fn 0) 0 14) = some q ∧ q.owner = fn →
    s.net.qps.any (fun e => e.2.cq == bits (s.arg fn 0) 0 14) = false →
    exec (.cqDestroy fn) s = .next (State.netDone { s.wr .NET_CQ_SLOT_VALID (64 * fn + q.slot) 0 with
      net := { s.net with cqs := Tab.del s.net.cqs (bits (s.arg fn 0) 0 14) } } fn .ok none)) ∧
  (∀ (s : State) (fn c n : Nat),
    s.netFree fn = true ∧ s.fnCmp fn = some c →
    4 ≤ bits (s.arg fn 2) 0 5 ∧ bits (s.arg fn 2) 0 5 ≤ 16 ∧ s.arg2 fn 0 % 1024 = 0 ∧ s.arg2 fn 0 < 2 ^ 57 →
    s.rd .NET_SRQ_SLOT_VALID (64 * fn + bits (s.arg fn 3) 0 6) = 0 ∧ lowestFree (s.grants c).srqBlk 32 (fun i => (s.net.srqs.find i).isSome) = some n →
    exec (.srqCreate fn []) s = .next ((((s.setSrq n ⟨fn, s.arg2 fn 0, bits (s.arg fn 2) 0 5, bits (s.arg fn 3) 0 6, bits (s.arg fn 3) 16 16, 0, 0, true⟩).wr
      .NET_SRQ_SLOT (64 * fn + bits (s.arg fn 3) 0 6) n).wr .NET_SRQ_SLOT_VALID (64 * fn + bits (s.arg fn 3) 0 6) 1).netDone fn .ok (some n))) ∧
  (∀ (s : State) (fn : Nat) (q : Srq),
    s.netFree fn = true ∧ s.net.srqs.find (bits (s.arg fn 0) 0 12) = some q ∧ q.owner = fn →
    s.net.qps.any (fun e => e.2.srq == bits (s.arg fn 0) 0 12) = false →
    exec (.srqDestroy fn) s = .next (State.netDone { s.wr .NET_SRQ_SLOT_VALID (64 * fn + q.slot) 0 with
      net := { s.net with srqs := Tab.del s.net.srqs (bits (s.arg fn 0) 0 12) } } fn .ok none)) ∧
  (∀ (s : State) (fn c i : Nat),
    s.netFree fn = true ∧ s.fnCmp fn = some c →
    1 ≤ s.arg2 fn 2 ∧ s.arg2 fn 2 ≤ 2 ^ 46 ∧ s.arg2 fn 0 + s.arg2 fn 2 ≤ 2 ^ 57 ∧ s.ownsPd fn (bits (s.arg fn 4) 0 12) = true ∧ bit (s.arg fn 4) 19 = false →
    lowestFree (s.grants c).keyBlk 2048 (fun i => (s.key i).state != 0) = some i →
    exec (.regRegion fn []) s = .next ((s.setKey i ⟨1, false, bit (s.arg fn 4) 16, bit (s.arg fn 4) 17, bit (s.arg fn 4) 18, false, (s.key i).allocGen,
      bits (s.arg fn 4) 0 12, fn, s.arg2 fn 0, s.arg2 fn 2, 0, none⟩).netDone fn .ok (some (keyWord i (s.key i).allocGen)))) ∧
  (∀ (s : State) (fn c i : Nat),
    s.netFree fn = true ∧ s.fnCmp fn = some c →
    (s.key (bits (s.arg fn 0) 0 24)).state = 1 ∧ (s.key (bits (s.arg fn 0) 0 24)).window = false ∧ (s.key (bits (s.arg fn 0) 0 24)).gen = bits (s.arg fn 0) 24 8 ∧ (s.key (bits (s.arg fn 0) 0 24)).owner = fn →
    1 ≤ s.arg2 fn 3 ∧ s.arg2 fn 1 + s.arg2 fn 3 ≤ (s.key (bits (s.arg fn 0) 0 24)).len ∧ bit (s.arg fn 6) 16 = true →
    ((bit (s.arg fn 5) 0 = true → (s.key (bits (s.arg fn 0) 0 24)).r = true) ∧ (bit (s.arg fn 5) 1 = true → (s.key (bits (s.arg fn 0) 0 24)).w = true) ∧ (bit (s.arg fn 5) 2 = true → (s.key (bits (s.arg fn 0) 0 24)).a = true)) →
    lowestFree (s.grants c).keyBlk 2048 (fun i => (s.key i).state != 0) = some i →
    exec (.openWindow fn []) s = .next ((s.setKey i ⟨1, true, bit (s.arg fn 5) 0, bit (s.arg fn 5) 1, bit (s.arg fn 5) 2, (s.key (bits (s.arg fn 0) 0 24)).indic,
      (s.key i).allocGen, (s.key (bits (s.arg fn 0) 0 24)).pd, fn, (s.key (bits (s.arg fn 0) 0 24)).va + s.arg2 fn 1, s.arg2 fn 3, bits (s.arg fn 0) 0 24,
      none⟩).netDone fn .ok (some (keyWord i (s.key i).allocGen))))

/-- REVOKE by the owner and NET_MGR_REVOKE by the primary manager function stamp the key and, for a region, its windows with their next
generations, so that none of them is VALID, and wait until every access that passed is visible; then the entries are FREE and the
revocation completes. A WRITE message that names a key that is not VALID, or another generation, changes no memory. (R438, R443, R444,
R445, R457) -/
def Obligations.KeysAreRevoked : Prop :=
  (∀ (s : State) (fn : Nat),
    s.netFree fn = true ∧ bits (s.arg fn 0) 0 24 < 262144 →
    (s.key (bits (s.arg fn 0) 0 24)).owner = fn ∧ (s.key (bits (s.arg fn 0) 0 24)).state = 1 ∧ (s.key (bits (s.arg fn 0) 0 24)).gen = bits (s.arg fn 0) 24 8 →
    bits (s.arg fn 0) 0 24 ∉ s.windowsOf (bits (s.arg fn 0) 0 24) →
    let i := bits (s.arg fn 0) 0 24
    ∃ t, exec (.revoke fn) s = .next t ∧ (t.key i).state = 2 ∧ (t.key i).gen = nextGen (s.key i).gen ∧ t.rd .NET_CMD_BUSY fn = 1
      ∧ ((s.key i).window = false → ∀ j ∈ s.windowsOf i, (t.key j).state = 2) ∧ (∀ j, j ≠ i → j ∉ s.windowsOf i → t.key j = s.key j) ∧ t.mem = s.mem) ∧
  (∀ (s : State) (key : Nat),
    s.closed s.primaryFn 0xB91000 = false ∧ s.rd .NET_MGR_REV_BUSY 0 = 0 ∧ bits key 0 24 < 262144 →
    (s.key (bits key 0 24)).state = 1 ∧ (s.key (bits key 0 24)).gen = bits key 24 8 ∧ isMgr (s.key (bits key 0 24)).owner = false ∧ portOf (s.key (bits key 0 24)).owner = portOf s.primaryFn →
    ∃ t, exec (.managerRevoke s.primaryFn key false) s = .next t ∧ (t.key (bits key 0 24)).state = 2 ∧ t.rd .NET_MGR_REV_BUSY 0 = 1
      ∧ t.rd .NET_MGR_REV_STATUS 0 = 0 ∧ t.mem = s.mem) ∧
  (∀ (s : State) (fn : Nat) (is : List Nat),
    s.net.revoking.find fn = some is ∧ s.keysQuiet is = true →
    ∃ t, exec (.revokeDrainDone fn) s = .next t ∧ (∀ i ∈ is, (t.key i).state ≠ 2) ∧ (∀ i, (t.key i).gen = (s.key i).gen) ∧ t.net.revoking.find fn = none
      ∧ (fn < 128 → t.rd .NET_CMD_BUSY fn = 0 ∧ t.rd .NET_CMD_STATUS fn = 0) ∧ (fn = 128 → t.rd .NET_MGR_REV_BUSY 0 = 0) ∧ t.mem = s.mem) ∧
  (∀ (s : State) (cmp id : Nat) (r : RxMsg) (m : Msg),
    s.nextRequest cmp id = some (r, m) ∧ r.via < 16 ∧ m.op = 1 ∧ isBell m = false →
    (s.key m.keyIx).state ≠ 1 ∨ (s.key m.keyIx).gen ≠ m.keyGen →
    ∃ t, exec (.remoteRequestReceive cmp [id]) s = .next t ∧ t.mem = s.mem)

/-- An entitled manager's STOP brings a queue pair of an instance that is not in ERROR into ERROR and its START one in ERROR back to
RESET, with INS_ORD_STATUS 0, and a code that its state does not list ends with 2; a doorbell whose count the queue can hold moves the
producer count of a shared receive queue or the consumer count of a completion queue; a read of NET_AEQ_LO takes the oldest record and
latches its high half. (R436, R451, R454, R460) -/
def Obligations.RemoteOrdersAndDoorbells : Prop :=
  (∀ (s : State) (issuer fn n : Nat) (q : Qp),
    s.closed issuer (0x30002C + 0x100 * fn) = false ∧ entitled issuer fn = true ∧ issuer ≠ fn →
    s.net.qps.find n = some q ∧ q.owner = fn →
    (q.state = 4 → exec (.qpStopOrder issuer fn n false) s = .next (s.wr .INS_ORD_STATUS fn 2)
        ∧ exec (.qpStartOrder issuer fn n false) s = .next ((s.setQp n q.reset).wr .INS_ORD_STATUS fn 0)) ∧
      (q.state ≠ 4 → exec (.qpStopOrder issuer fn n false) s = .next ((s.qpError n none 0).wr .INS_ORD_STATUS fn 0)
        ∧ exec (.qpStartOrder issuer fn n false) s = .next (s.wr .INS_ORD_STATUS fn 2))) ∧
  (∀ (s : State) (fn slot count : Nat) (q : Srq),
    slot < 64 ∧ s.bellBlocked fn = false ∧ count < 2 ^ 32 ∧ (isMgr fn = true ∨ s.rd .INS_RESET_BUSY fn = 0) →
    s.rd .NET_SRQ_SLOT_VALID (64 * fn + slot) = 1 ∧ s.net.srqs.find (s.rd .NET_SRQ_SLOT (64 * fn + slot)) = some q →
    diff32 count q.cons ≤ 2 ^ q.log2 ∧ diff32 count q.prod ≤ 2 ^ q.log2 →
    exec (.srqDoorbell fn slot 0 4 count) s = .next (s.setSrq (s.rd .NET_SRQ_SLOT (64 * fn + slot))
      { q with prod := count, told := q.told && decide (diff32 count q.cons < q.limit) })) ∧
  (∀ (s : State) (fn slot count : Nat) (q : Cq),
    slot < 64 ∧ s.bellBlocked fn = false ∧ count < 2 ^ 32 ∧ (isMgr fn = true ∨ s.rd .INS_RESET_BUSY fn = 0) →
    s.rd .NET_CQ_SLOT_VALID (64 * fn + slot) = 1 ∧ s.net.cqs.find (s.rd .NET_CQ_SLOT (64 * fn + slot)) = some q →
    diff32 q.prod count ≤ 2 ^ q.log2 →
    exec (.cqDoorbell fn slot 0 4 count) s = .next (s.setCq (s.rd .NET_CQ_SLOT (64 * fn + slot)) { q with cons := count })) ∧
  (∀ (s : State) (fn r : Nat) (rest : List Nat),
    s.barsBlocked fn = false ∧ s.closed fn (if isMgr fn then 0xB80030 else 0x50030) = false ∧ s.aeq fn = r :: rest →
    let off := if isMgr fn then 0xB80030 else 0x50030
    ∃ t, exec (.aeqRead fn) s = .next t ∧ t.aeq fn = rest ∧ t.reg.shadow.find (pairKey fn off) = some (r / 2 ^ 32)
      ∧ (⟨.readValue, [fn, off, r % 2 ^ 32]⟩ : Emit) ∈ t.sent ∧ s.keepsBut t raiseFlds ∧ t.mem = s.mem)

/-- The next complete request message of its queue pair is checked and leaves the reassembly buffer; the oldest performed message of a
queue pair with no completion queue entry or tag becomes visible and its responses are sent; a response for which there is no queue pair
is counted late and changes no queue pair and no memory; an operation whose transport timer has passed outside a recovery run ends TIMEOUT
and brings its queue pair into ERROR; a receiver-not-ready wait that is over, and an acknowledgement timer that has passed, start what is
to be sent again. (R437, R441, R448, R449, R452, R455, R458, R479) -/
def Obligations.MessagesAreTakenAndAnswered : Prop :=
  (∀ (s : State) (cmp id : Nat) (r : RxMsg) (m : Msg),
    s.nextRequest cmp id = some (r, m) →
    exec (.remoteRequestReceive cmp [id]) s = .next ((s.checkRequest cmp r m).leaveRx cmp id)) ∧
  (∀ (s : State) (n : Nat) (q : Qp) (p : Passed) (rest : List Passed) (outcome : Outcome3),
    s.net.qps.find n = some q ∧ q.passed = p :: rest ∧ p.cqe = none ∧ p.tag = none ∧ (q.state = 2 ∨ q.state = 3) →
    exec (.remoteMessageVisible n outcome) s = .next (p.rsp.foldl (fun t m => t.respond n m) (s.setQp n { q with passed := rest }))) ∧
  (∀ (s : State) (cmp id : Nat) (r : RxMsg) (m : Msg),
    (s.rxOf cmp).find? (fun r => r.id == id) = some r ∧ r.msg = some m ∧ msgIsRsp m = true ∧ s.net.qps.find m.dstQp = none →
    exec (.remoteResponseReceive cmp id) s = .next (((s.bump .NET_ST_RX_MSGS cmp 1).bump .NET_ST_LATE cmp 1).leaveRx cmp id) ∧
      (∀ t, exec (.remoteResponseReceive cmp id) s = .next t → t.net.qps = s.net.qps ∧ t.mem = s.mem)) ∧
  (∀ (s : State) (cmp id : Nat) (r : RxMsg) (m : Msg) (q : Qp),
    (s.rxOf cmp).find? (fun r => r.id == id) = some r ∧ r.msg = some m ∧ msgIsRsp m = true ∧ s.net.qps.find m.dstQp = some q →
    q.cmp = cmp ∧ q.net = false ∧ r.via < 16 ∧ (q.state = 2 ∨ q.state = 3) →
    exec (.remoteResponseReceive cmp id) s = .next (((s.bump .NET_ST_RX_MSGS cmp 1).peerRsp cmp m.dstQp q m).leaveRx cmp id)) ∧
  (∀ (s : State) (o : Op) (n : Nat) (q : Qp),
    s.findOp o.id = some o ∧ o.wait = .remote n ∧ s.net.qps.find n = some q ∧ q.state ≠ 4 →
    s.inRecovery o = false ∧ o.startNs + 1000 * q.timeout ≤ s.ns →
    ∃ t, exec (.transportTimeout o.id) s = .next t ∧ (t.net.qps.find n).map (·.state) = some 4 ∧ (t.findOp o.id).map (fun x => (x.wait, x.status, x.detail)) = some (.done, 0x0E, 0x0F)
      ∧ (∀ x ∈ t.ring.ops, x.id ≠ o.id → x.wait ≠ .remote n) ∧ (∀ m, m ≠ n → t.net.qps.find m = s.net.qps.find m) ∧ t.mem = s.mem) ∧
  (∀ (s : State) (n w : Nat) (q : Qp),
    s.net.qps.find n = some q ∧ q.rnrWait = some w ∧ w ≤ s.ns →
    exec (.rnrWaitExpiry n) s = .next ((s.setQp n { q with rnrWait := none, lastRetry := s.ns }).pump n)) ∧
  (∀ (s : State) (n : Nat) (q : Qp),
    s.net.qps.find n = some q ∧ q.net = true ∧ q.state = 3 ∧ q.spent = false ∧ q.rnrWait = none ∧ 0 < q.outstanding →
    q.lastRetry + 4096 * 2 ^ q.ackTime ≤ s.ns →
    exec (.ackTimeout n) s = .next (s.retryPeriod n q q.sqAck))

/-- A RoCE v2 packet that passes every check on a port whose link is up goes to its compartment with a congestion mark answered, and one
with a bad frame check is counted and changes nothing else; a congestion notification lowers the rate of its queue pair to no less than
the minimum, alpha decays and the rate rises on their timers; a PFC frame pauses an enabled priority for its quanta; a pause that has
ended releases it, one that lasts too long is reported once, and a filled intake repeats its pause until it is below its mark; a link that
goes down drops what its pauses held and is reported, and one that comes up is up. (R463, R464, R465, R466, R467, R484, R485, R486, R487,
R488, R489) -/
def Obligations.EthernetPortsTakePackets : Prop :=
  (∀ (s : State) (port occ c : Nat) (k : Packet),
    port < 2 ∧ s.rd .NET_PORT_LINK_UP port = 1 ∧ k.fcsOk = true ∧ k.roce = true ∧ occ < s.rd .NET_PFC_XOFF port ∧ occ < 256 ∧ k.icrcOk = true ∧ k.hdrOk = true →
    s.ipCmp port k.dstIp = some c ∧ k.dstQp < 65536 ∧ (s.grants c).qpBlk.contains (k.dstQp / 512) = true ∧ k.pkey % 2 ^ 15 = s.rd .NET_CMP_PKEY (2 * c + port) % 2 ^ 15 →
    k.opcode ≤ 0x14 ∧ (s.net.qps.find k.dstQp).any (fun q => q.crypt) = false →
    exec (.rocePacketReceive port occ k) s = .next ((s.ceMark k.dstQp k).allotIn c port k)) ∧
  (∀ (s : State) (port occ : Nat) (k : Packet),
    port < 2 ∧ s.rd .NET_PORT_LINK_UP port = 1 ∧ k.fcsOk = false ∧ occ < s.rd .NET_PFC_XOFF port →
    exec (.rocePacketReceive port occ k) s = .next (s.bump .NET_PORT_FCS_ERR port 1) ∧ exec (.rocePacketReceive 2 occ k) s = .next s) ∧
  (∀ (s : State) (port c : Nat) (k : Packet) (q : Qp),
    port < 2 ∧ s.rd .NET_PORT_LINK_UP port = 1 ∧ k.fcsOk = true ∧ k.roce = true ∧ 0 < s.rd .NET_PFC_XOFF port ∧ 0 < 256 ∧ k.icrcOk = true ∧ k.hdrOk = true →
    s.ipCmp port k.dstIp = some c ∧ k.dstQp < 65536 ∧ (s.grants c).qpBlk.contains (k.dstQp / 512) = true ∧ k.pkey % 2 ^ 15 = s.rd .NET_CMP_PKEY (2 * c + port) % 2 ^ 15 →
    k.opcode = 0x81 ∧ s.net.qps.find k.dstQp = some q ∧ q.net = true ∧ q.cmp = c →
    ∃ t r, exec (.cnpReceive port k) s = .next t ∧ t.net.qps.find k.dstQp = some r ∧ r.rate = max (q.rate - q.rate * q.alpha / 131072) (s.rd .NET_CC_MIN port)
      ∧ r.target = q.rate ∧ r.stage = 0 ∧ r.cnpRx = some s.ns ∧ (∀ m, m ≠ k.dstQp → t.net.qps.find m = s.net.qps.find m)
      ∧ s.keepsBut t [.NET_ST_CNP_RX, .STAT_F_LIVE] ∧ t = { s with reg := { s.reg with vals := t.reg.vals }, net := t.net }) ∧
  (∀ (s : State) (n : Nat) (q : Qp),
    s.net.qps.find n = some q ∧ q.net = true →
    (q.cnpRx = none → exec (.ccAlphaTimer n) s = .next (s.setQp n { q with alpha := q.alpha - q.alpha * s.rd .NET_CC_G q.port / 1024 })) ∧
      (∃ r, exec (.ccRateTimer n) s = .next (s.setQp n r) ∧ r.stage = q.stage + 1 ∧ r.rate = (q.rate + r.target) / 2
        ∧ r.target = (if 5 < q.stage + 1 then min (q.target + s.rd .NET_CC_RAI q.port) 8000 else q.target) ∧ r = { q with stage := r.stage, target := r.target, rate := r.rate })) ∧
  (∀ (s : State) (port prio quanta : Nat),
    port < 2 ∧ s.rd .NET_PORT_LINK_UP port = 1 ∧ s.prioOn port prio = true ∧ 0 < quanta ∧ quanta < 2 ^ 16 →
    ∃ t, exec (.pfcFrameReceive port prio quanta) s = .next t ∧ t.net.pauseTo.find (prioKey port prio) = some (s.ns + ceilDiv (quanta * 64) 100)
      ∧ t.net.pauseAt.find (prioKey port prio) = some ((s.net.pauseAt.find (prioKey port prio)).getD s.ns) ∧ s.keepsBut t [.NET_PORT_PFC_RX, .STAT_F_LIVE]
      ∧ t = { s with reg := { s.reg with vals := t.reg.vals }, net := t.net }) ∧
  (∀ (s : State) (port prio w : Nat),
    s.net.pauseTo.find (prioKey port prio) = some w ∧ w ≤ s.ns →
    let k := prioKey port prio
    let n : NetSt := { s.net with
      pauseTo := Tab.del s.net.pauseTo k, pauseAt := Tab.del s.net.pauseAt k, stormed := s.net.stormed.filter (fun x => x != k) }
    exec (.pfcPauseExpiry port prio) s = .next (State.flushFrames { s with net := n } port prio)) ∧
  (∀ (s : State) (port prio w : Nat),
    s.net.pauseAt.find (prioKey port prio) = some w ∧ prioKey port prio ∉ s.net.stormed ∧ w + 1000 * s.rd .NET_PFC_STORM_US port ≤ s.ns →
    ∃ t, exec (.pfcStorm port prio) s = .next t ∧ prioKey port prio ∈ t.net.stormed ∧ t.rd .INC_SEQ_NEXT 0 = seqAfter (s.rd .INC_SEQ_NEXT 0) % 2 ^ 32
      ∧ s.keepsBut t postFlds ∧ t = { s.reports t with net := t.net }) ∧
  (∀ (s : State) (port prio : Nat),
    prioKey port prio ∈ s.net.pfcOn →
    exec (.pfcRefreshTimer port prio) s = .next ((s.bump .NET_PORT_PFC_TX port 1).emit .pfc [port, prio, 0xFFFF]) ∧
      (∃ t, exec (.intakeBelowXon port prio) s = .next t ∧ prioKey port prio ∉ t.net.pfcOn ∧ t.sent = s.sent ++ [⟨.pfc, [port, prio, 0]⟩]
        ∧ s.keepsBut t [.NET_PORT_PFC_TX, .STAT_F_LIVE] ∧ t.mem = s.mem)) ∧
  (∀ (s : State) (port : Nat),
    port < 2 →
    (s.rd .NET_PORT_LINK_UP port = 1 → ∃ t, exec (.netLinkDown port) s = .next t ∧ t.rd .NET_PORT_LINK_UP port = 0
        ∧ t.net.held = s.net.held.keep (fun k _ => k / 8 != port) ∧ t.net.qps = s.net.qps ∧ s.keepsBut t (.NET_PORT_LINK_UP :: postFlds)
        ∧ t = { s.reports t with net := t.net }) ∧
      (s.rd .NET_PORT_LINK_UP port = 0 → s.rd .NET_PORT_EN port = 1 → bit (s.rd .PWR_GATE_NET 0) port = false →
        ∃ t, exec (.netLinkUp port) s = .next t ∧ t.rd .NET_PORT_LINK_UP port = 1 ∧ t.net.qps = s.net.qps ∧ t.mem = s.mem))

/-- Where the responder of a port runs, GET_VERSION starts the connection anew, GET_CAPABILITIES and NEGOTIATE_ALGORITHMS carry it on, and
after them GET_DIGESTS, GET_CERTIFICATE of slot 0, CHALLENGE, GET_MEASUREMENTS of each index and KEY_EXCHANGE are answered. A signature
takes the next free value; nothing but the answer, the free value and the connection or session changes. Response codes are presumed from
the standard (log entry 20). FINISH with a proof that verifies establishes its session; KEY_UPDATE and HEARTBEAT are answered in it and
END_SESSION closes it. LINK_KEY_SET stages the key exactly where the session has mutual authentication with the digest of the
compartment's SEC_CMP_AUTH and the compartment is ASSIGNED; else it is an error that changes nothing. A STAGED key whose boundary is
reached becomes ACTIVE and the ACTIVE one PREVIOUS; 1,048,576 beats later the PREVIOUS key is destroyed. (R552, R553, R547, R548) -/
def Obligations.SpdmAnswersAndCarriesLinkKeys : Prop :=
  (∀ (s : State) (port : Nat),
    s.spdmUp port = true →
    exec (.getVersion port) s = .next ({ s with sec := { s.sec with spdm := Tab.set s.sec.spdm 0 port 1 } }.emit .spdm [port, 0x04, 0x13])) ∧
  (∀ (s : State) (port : Nat),
    s.spdmUp port = true ∧ s.conn port = 1 →
    exec (.getCapabilities port) s = .next ({ s with sec := { s.sec with spdm := Tab.set s.sec.spdm 0 port 2 } }.emit .spdm [port, 0x61])) ∧
  (∀ (s : State) (port : Nat),
    s.spdmUp port = true ∧ s.conn port = 2 →
    exec (.negotiateAlgorithms port true) s = .next ({ s with sec := { s.sec with spdm := Tab.set s.sec.spdm 0 port 3 } }.emit .spdm [port, 0x63])) ∧
  (∀ (s : State) (port : Nat),
    s.spdmUp port = true ∧ s.conn port = 3 →
    exec (.getDigests port) s = .next (s.emit .spdm (port :: 0x01 :: 1 :: digestOf [0, s.rd .HST_SERIAL 0, s.sec.digest, s.sec.recDigest]))) ∧
  (∀ (s : State) (port offset len : Nat),
    s.spdmUp port = true ∧ s.conn port = 3 →
    exec (.getCertificate port 0 offset len) s = .next (s.emit .spdm [port, 0x02, offset, len,
      (Config.digest [1, s.rd .HST_SERIAL 0, s.sec.digest, s.sec.recDigest, offset, len] 0).toNat])) ∧
  (∀ (s : State) (port : Nat),
    s.spdmUp port = true ∧ s.conn port = 3 →
    exec (.challenge port 0) s = .next ({ s with free := s.free + 1 }.emit .spdm [port, 0x03, (Config.freeValue s.free).toNat])) ∧
  (∀ (s : State) (port index : Nat),
    s.spdmUp port = true ∧ s.conn port = 3 →
    1 ≤ index ∧ index ≤ 5 →
    exec (.getMeasurements port index) s = .next ({ s with free := s.free + 1 }.emit .spdm
        (port :: 0x60 :: (index :: s.measurement index ++ [(Config.freeValue s.free).toNat]))) ∧
      s.measurement 1 = digestOf [2, s.sec.digest] ∧ (s.rd .BOOT_RECORD_STATUS 0 = 2 → s.measurement 2 = List.replicate 6 0) ∧
      s.measurement 3 = [s.rd .SEC_LIFECYCLE 0, s.rd .SEC_MIN_SVN 0, s.rd .SEC_IMAGE_SVN 0, s.rd .SEC_FW_KEY_REVOKED 0] ∧
      s.measurement 4 = [s.rd .SEC_DBG_OPENED_SINCE_POWER 0, s.rd .SEC_DBG_FAILURES 0]) ∧
  (∀ (s : State) (port digest : Nat) (mutualAuth : Bool),
    s.spdmUp port = true ∧ s.conn port = 3 →
    s.sec.sessions.length < 8 →
    exec (.keyExchange port 0 mutualAuth digest) s = .next ({ s with free := s.free + 1, sec := { s.sec with
        sessions := s.sec.sessions ++ [(⟨s.sec.sessSerial, port, false, mutualAuth, digest⟩ : Session)]
        sessSerial := s.sec.sessSerial + 1 } }.emit .spdm [port, 0x64, s.sec.sessSerial, (Config.freeValue s.free).toNat])) ∧
  (∀ (s : State) (session : Nat) (x : Session),
    s.session session = some x ∧ s.spdmUp x.port = true →
    x.established = false →
    exec (.finish session true) s = .next ({ s with sec := { s.sec with sessions := s.sec.sessions.map (fun (y : Session) =>
        if y.id == session then { y with established := true } else y) } }.emit .spdm [x.port, 0x65, session])) ∧
  (∀ (s : State) (session op : Nat) (x : Session),
    s.session session = some x ∧ s.spdmUp x.port = true →
    x.established = true →
    exec (.keyUpdate session op) s = .next (s.emit .spdm [x.port, 0x69, session, op]) ∧
      exec (.heartbeat session) s = .next (s.emit .spdm [x.port, 0x68, session]) ∧
      exec (.endSession session) s = .next ({ s with sec := { s.sec with
        sessions := s.sec.sessions.filter (fun (y : Session) => y.id != session) } }.emit .spdm [x.port, 0x6C, session])) ∧
  (∀ (s : State) (session cmp key tag beat : Nat) (x : Session),
    s.session session = some x ∧ s.spdmUp x.port = true ∧ x.established = true →
    x.mutualAuth = true ∧ cmp < 32 ∧ x.digest = s.cmpAuth cmp ∧ s.cmpState cmp = .assigned →
    exec (.linkKeySet session cmp key tag beat) s = .next ({ s with sec := { s.sec with
      linkStg := Tab.put s.sec.linkStg cmp (key, tag % 2 ^ 32, beat % 2 ^ 64) } }.emit .spdm [x.port, 0x7E, session, cmp])) ∧
  (∀ (s : State) (session cmp key tag beat : Nat) (x : Session),
    s.session session = some x ∧ s.spdmUp x.port = true ∧ x.established = true →
    ¬(x.mutualAuth = true ∧ cmp < 32 ∧ x.digest = s.cmpAuth cmp ∧ s.cmpState cmp = .assigned) →
    exec (.linkKeySet session cmp key tag beat) s = .next (s.emit .spdm [x.port, 0x7F, 1])) ∧
  (∀ (s : State) (cmp : Nat) (k : Nat × Nat × Nat),
    s.sec.linkStg.find cmp = some k →
    frameFrom k.2.2 ≤ s.beat →
    exec (.linkKeyActivate cmp) s = .next (s.activateKey cmp k) ∧
      (s.activateKey cmp k).sec.linkAct = Tab.put s.sec.linkAct cmp (k.1, k.2.1, frameFrom k.2.2) ∧
      (s.activateKey cmp k).sec.linkStg = Tab.del s.sec.linkStg cmp ∧
      (∀ a, s.sec.linkAct.find cmp = some a → (s.activateKey cmp k).sec.linkPrev = Tab.put s.sec.linkPrev cmp (a.1, a.2.1, frameFrom k.2.2)) ∧
      (s.activateKey cmp k) = { s with sec := (s.activateKey cmp k).sec }) ∧
  (∀ (s : State) (cmp : Nat) (k : Nat × Nat × Nat),
    s.sec.linkPrev.find cmp = some k →
    k.2.2 + 1048576 ≤ s.beat →
    exec (.linkKeyPreviousExpiry cmp) s = .next { s with sec := { s.sec with linkPrev := Tab.del s.sec.linkPrev cmp } })

/-- In an established session of its port IDE_KM programs a key set of a stream, switches to a programmed set, or stops one. A host stream
that enters Insecure loses its keys, and IDE_FAILURE is posted; of the other state only the interfaces bound to it change. An expansion
stream that fails takes its port's link down. An order to rekey a port with a stream switches it to the other key set. Where the responder
of its port runs, LOCK_INTERFACE_REQUEST moves a bound and enabled instance from CONFIG_UNLOCKED to CONFIG_LOCKED, START_INTERFACE_REQUEST
one from CONFIG_LOCKED to RUN, and STOP_INTERFACE_REQUEST any to CONFIG_UNLOCKED; the report and the state are answered; a request that
the table does not list answers an error; nothing else changes. (R554, R555, R556, R557) -/
def Obligations.IdeAndTdispFollowTheirTables : Prop :=
  (∀ (s : State) (port session stream set : Nat) (x : Session),
    s.session session = some x ∧ s.spdmUp x.port = true ∧ x.established = true ∧ x.port = port →
    stream < 5 ∧ set < 2 →
    exec (.ideKm port session stream 0 set) s = .next (
      let i := s.sec.ide.get IdeStream.none (8 * port + stream)
      (s.setIde port stream { i with keys := if bit i.keys set = true then i.keys else i.keys + 2 ^ set }).emit .spdm [port, 0x7E, 0, stream, set])) ∧
  (∀ (s : State) (port session stream set : Nat) (x : Session) (i : IdeStream),
    s.session session = some x ∧ s.spdmUp x.port = true ∧ x.established = true ∧ x.port = port →
    stream < 5 ∧ set < 2 ∧ s.sec.ide.get IdeStream.none (8 * port + stream) = i ∧ bit i.keys set = true →
    exec (.ideKm port session stream 1 set) s = .next ((s.setIde port stream { i with active := set + 1, insecure := false }).emit
        .spdm [port, 0x7E, 1, stream, set]) ∧
      exec (.ideKm port session stream 2 set) s = .next ((s.setIde port stream
        { i with keys := i.keys - 2 ^ set, active := if i.active = set + 1 then 0 else i.active }).emit .spdm [port, 0x7E, 2, stream, set])) ∧
  (∀ (s : State) (port stream : Nat) (i : IdeStream),
    port < 2 ∧ stream < 5 ∧ s.sec.ide.get IdeStream.none (8 * port + stream) = i ∧ i.active ≠ 0 ∧ i.insecure = false →
    ∃ t, exec (.ideFailure false port stream) s = .next t ∧ t.sec.ide = Tab.set s.sec.ide IdeStream.none (8 * port + stream) ⟨0, 0, true⟩
      ∧ t = { s.reports t with sec := t.sec } ∧ s.keepsBut t postFlds
      ∧ (∀ f, f ∉ instancesAt port ∨ stream = 0 → t.tdi f = s.tdi f)) ∧
  (∀ (s : State) (port : Nat),
    port < 8 ∧ s.rd .EXP_IDE_UP port ≠ 0 →
    ∃ t, exec (.ideFailure true port 0) s = .next t ∧ t.rd .EXP_LINK_UP port = 0 ∧ t.rd .EXP_IDE_UP port = 0
      ∧ s.keepsBut t ([.EXP_LINK_UP, .EXP_IDE_UP, .EXP_STATE] ++ postFlds) ∧ t.mem = s.mem ∧ t.sec = s.sec) ∧
  (∀ (s : State) (fn port : Nat),
    s.barsBlocked fn = false ∧ isMgr fn = true ∧ fn = s.primaryFn →
    port < 8 ∧ s.rd .EXP_IDE_UP port ≠ 0 ∧ s.sec.entropyBad = false →
    exec (.expIdeRekey fn port) s = .next { s with sec := { s.sec with expSet := Tab.set s.sec.expSet 0 port (1 - s.sec.expSet.get 0 port) } }) ∧
  (∀ (s : State) (i stream : Nat),
    isMgr i = false ∧ s.spdmUp (portOf i) = true →
    stream < 5 →
    exec (.lockInterfaceRequest i stream) s = .next (
      if s.tdi i = 0 ∧ s.rd .INS_BOUND i = 1 ∧ s.rd .INS_ENABLE i = 1 then (s.setTdi i 1 stream).emit .spdm [0x100 + i, 0x03]
      else s.emit .spdm [0x100 + i, 0x7F])) ∧
  (∀ (s : State) (i : Nat),
    isMgr i = false ∧ s.spdmUp (portOf i) = true →
    exec (.startInterfaceRequest i) s = .next (
        if s.tdi i = 1 then (s.setTdi i 2 (s.sec.ifStream.get 0 i)).emit .spdm [0x100 + i, 0x06] else s.emit .spdm [0x100 + i, 0x7F]) ∧
      exec (.stopInterfaceRequest i) s = .next ((s.setTdi i 0 0).emit .spdm [0x100 + i, 0x07])) ∧
  (∀ (s : State) (i : Nat),
    isMgr i = false ∧ s.spdmUp (portOf i) = true →
    exec (.getDeviceInterfaceState i) s = .next (s.emit .spdm [0x100 + i, 0x05, s.tdi i]) ∧
      exec (.getDeviceInterfaceReport i) s = .next (
        if s.tdi i = 1 ∨ s.tdi i = 2 then s.emit .spdm ([0x100 + i, 0x04] ++ s.interfaceReport i) else s.emit .spdm [0x100 + i, 0x7F]))

/-- SEC_SVN_COMMIT raises SEC_MIN_SVN to the SVN of the running image, and SEC_SEAL with 0x5EA1 on a LAB part waits for the next cold
reset. A challenge request issues a challenge where the port is not locked out, else it is refused. A response consumes its challenge: one
that fails, or a challenge that expires, raises SEC_DBG_FAILURES and at the eighth failure sets SEC_DBG_LOCKOUT; one that passes sets it
to 0 and opens the port. (R560, R561, R562, R563, R564) -/
def Obligations.TheDebugLockOpensByChallenge : Prop :=
  (∀ (s : State) (fn value : Nat),
    s.barsBlocked fn = false ∧ isMgr fn = true ∧ fn = s.primaryFn →
    exec (.svnCommit fn) s = .next (s.wr .SEC_MIN_SVN 0 (max (s.rd .SEC_MIN_SVN 0) (s.rd .SEC_IMAGE_SVN 0))) ∧
      exec (.seal fn value) s = .next (if value = 0x5EA1 ∧ s.rd .SEC_LIFECYCLE 0 = 0 then { s with sec := { s.sec with sealNext := true } } else s)) ∧
  (∀ (s : State) (fn : Nat) (rival : Bool),
    s.barsBlocked fn = false ∧ isMgr fn = true ∧ fn = s.primaryFn ∧ s.pins.pwrgood = true →
    s.rd .SEC_DBG_LOCKOUT 0 = 0 ∧ s.sec.entropyBad = false →
    ∃ t, exec (.debugChallengeRequest 0 fn rival) s = .next t ∧ t.sec.challenge = some s.ns ∧ t.free = s.free + 4
      ∧ t.rd .SEC_DBG_CHALLENGE 0 = 0x4C444A50 ∧ t.rd .SEC_DBG_CHALLENGE 4 = s.beat % 2 ^ 32 ∧ t.rd .SEC_DBG_CHALLENGE 15 = 0
      ∧ (rival = false → t.rd .SEC_DBG_STATUS 0 = 1)
      ∧ s.keepsBut t [.SEC_DBG_CHALLENGE, .SEC_DBG_STATUS] ∧ t = { s with reg := t.reg, sec := t.sec, free := t.free }) ∧
  (∀ (s : State) (path fn : Nat) (rival : Bool),
    (path < 2 ∧ s.pins.pwrgood = true ∧ (path = 0 → s.barsBlocked fn = false ∧ isMgr fn = true ∧ fn = s.primaryFn)) →
    s.rd .SEC_DBG_LOCKOUT 0 = 1 →
    exec (.debugChallengeRequest path fn rival) s = .next (s.wr .SEC_DBG_STATUS 0 7)) ∧
  (∀ (s : State) (fn mode n : Nat) (words : List Nat),
    s.pins.pwrgood = true ∧ s.sec.challenge = some n →
    ∃ t, exec (.debugResponseSubmit 1 fn mode words) s = .next t ∧ t.sec.challenge = none ∧ t.pins = s.pins ∧
      (if s.responseOk (mode % 2) ((List.range 48).map (fun i => word words i % 2 ^ 32)) = true then
        t.rd .SEC_DBG_FAILURES 0 = 0 ∧ t.rd .SEC_DBG_STATUS 0 = 3 ∧ t.rd .SEC_DBG_OPEN 0 = 1 ∧ t.rd .SEC_DBG_OPENED_SINCE_POWER 0 = 1
      else t.rd .SEC_DBG_FAILURES 0 = min 15 (s.rd .SEC_DBG_FAILURES 0 + 1) ∧ t.rd .SEC_DBG_STATUS 0 = 4
        ∧ (7 ≤ s.rd .SEC_DBG_FAILURES 0 → t.rd .SEC_DBG_LOCKOUT 0 = 1)
        ∧ s.keepsBut t [.SEC_DBG_FAILURES, .SEC_DBG_STATUS, .SEC_DBG_LOCKOUT] ∧ t = { s with reg := { s.reg with vals := t.reg.vals }, sec := t.sec })) ∧
  (∀ (s : State) (n : Nat),
    s.sec.challenge = some n →
    ∃ t, exec .debugChallengeExpiry s = .next t ∧ t.sec.challenge = none ∧ t.ns = max s.ns (n + 60000000000)
      ∧ t.rd .SEC_DBG_FAILURES 0 = min 15 (s.rd .SEC_DBG_FAILURES 0 + 1) ∧ t.rd .SEC_DBG_STATUS 0 = 5
      ∧ (7 ≤ s.rd .SEC_DBG_FAILURES 0 → t.rd .SEC_DBG_LOCKOUT 0 = 1)
      ∧ s.keepsBut t [.SEC_DBG_FAILURES, .SEC_DBG_STATUS, .SEC_DBG_LOCKOUT] ∧ t.mem = s.mem)

/-- VDD_AON becoming good samples PRIMARY_SEL. Its loss leaves every field but the fuses at its reset value; PWRGOOD falling leaves the
fuses, straps and always-on fields as they were and every other field at its reset value, where no start and no long operation runs.
PWRGOOD rising with SYS_RST_N high, or SYS_RST_N taken high where it held the start, begins phase CLOCKS of a counted attempt, or fawn
mode where it is next. PERST_x_N rising in normal operation brings the host link up. (R513, R516, R519, R522, R595, R608) -/
def Obligations.PowerPinsAct : Prop :=
  (∀ (s : State) (sel : Nat),
    s.pins.vddAon = false →
    exec (.powerOn sel) s = .next { s.wr .HST_PRIMARY_SEL 0 sel with
      pins := { s.pins with vddAon := true, primary := sel % 2, primarySel := sel % 2 == 1 }, boot := { s.boot with powerOn := true } }) ∧
  (∀ (s : State),
    s.pins.vddAon = true →
    ∃ t, exec .powerLoss s = .next t ∧ t.pins.vddAon = false ∧ t.pins.pwrgood = false ∧ t.pins.hostUp = []
      ∧ (∀ f, f ∉ fuses → ∀ i, t.rd f i = f.resetAt i) ∧ (∀ f ∈ fuses, f ≠ .SEC_LIFECYCLE → ∀ i, t.rd f i = s.rd f i)
      ∧ t.rd .SEC_LIFECYCLE 0 = (if s.sec.sealNext = true then 1 else s.rd .SEC_LIFECYCLE 0) ∧ t.pending = s.pending) ∧
  (∀ (s : State),
    s.pins.pwrgood = true ∧ s.boot.running = false ∧ s.boot.warmStep = 0 ∧ s.long.slots = [] ∧ s.plk.roll = none →
    ∃ t, exec .pwrgoodFall s = .next t ∧ t.pins = { s.pins with pwrgood := false, hostUp := [] }
      ∧ (∀ f, coldKept f = false → ∀ i, t.rd f i = f.resetAt i)
      ∧ (∀ f, coldKept f = true → f ≠ .SEC_LIFECYCLE → ∀ i, t.rd f i = s.rd f i)
      ∧ t.rd .SEC_LIFECYCLE 0 = (if s.sec.sealNext = true then 1 else s.rd .SEC_LIFECYCLE 0) ∧ t.mem.host = s.mem.host) ∧
  (∀ (s : State),
    s.pins.vddAon = true ∧ s.pins.pwrgood = false ∧ s.pins.sysRstN = true ∧ s.fawnNext = false →
    ∃ t, exec (.coldReset 2 0 0) s = .next t ∧ t.pins.pwrgood = true ∧ t.boot.running = true ∧ t.rd .BOOT_PHASE 0 = 1
      ∧ t.rd .BOOT_ATTEMPTS 0 = (s.rd .BOOT_ATTEMPTS 0 + 1) % 8 ∧ t.rd .BOOT_READY 0 = 0 ∧ t.slots = []) ∧
  (∀ (s : State),
    s.pins.vddAon = true ∧ s.pins.pwrgood = false ∧ s.pins.sysRstN = false →
    exec (.coldReset 2 0 0) s = .next { s with pins := { s.pins with pwrgood := true }, boot := { s.boot with sysHeld := true } }) ∧
  (∀ (s : State),
    s.boot.sysHeld = true ∧ s.fawnNext = true →
    ∃ t, exec .sysRstNRelease s = .next t ∧ t.pins.sysRstN = true ∧ t.boot.sysHeld = false ∧ t.rd .BOOT_FAWN 0 = 1
      ∧ t.rd .BOOT_FAWN_REASON 0 = (if s.rd .BOOT_FAWN_REQ 0 = 1 then 2 else 1) ∧ t.rd .BOOT_FAWN_REQ 0 = 0 ∧ t.rd .BOOT_READY 0 = 0) ∧
  (∀ (s : State),
    s.boot.sysHeld = false →
    exec .sysRstNRelease s = .next { s with pins := { s.pins with sysRstN := true } }) ∧
  (∀ (s : State) (port : Nat),
    port < 2 ∧ s.perst port = false ∧ s.pins.pwrgood = true ∧ s.boot.warmStep = 0 ∧ s.rd .BOOT_READY 0 = 1 →
    ∃ t, exec (.perstDeassert port) s = .next t ∧ t.perst port = true ∧ port ∈ t.pins.hostUp ∧ t.rd .COH_AG_LIVE (32 + port) = 1
      ∧ s.keepsBut t [.COH_AG_CMP, .COH_AG_BOUND, .COH_AG_LIVE] ∧ t = { s with reg := { s.reg with vals := t.reg.vals }, pins := t.pins })

/-- SYS_RST_N taken low in normal operation starts a warm reset: BOOT_READY reads 0, the attempt is counted, or fawn mode is next, no
conjunction slot stays armed, and no compartment keeps a contract; its last step, which this model puts at the next beat on which no
command waits (DESIGN CHOICE of log entry 5), sets BOOT_READY and clears the attempts. A reset order of the primary manager function with
a wrong key is dropped and counted. A host-link reset by PERST_x_N takes the link of the port down, disables MSI-X of its functions and
leaves BOOT_READY. (R513, R514, R515, R516, R517) -/
def Obligations.WarmAndHostLinkResetsRun : Prop :=
  (∀ (s : State) (fn key : Nat) (hosts : List Nat),
    s.pins.pwrgood = true ∧ s.boot.running = false ∧ s.boot.sysHeld = false ∧ s.boot.warmStep = 0 →
    ∃ t, exec (.warmReset 3 fn key hosts) s = .next t ∧ t.pins.sysRstN = false ∧ t.rd .BOOT_READY 0 = 0 ∧ t.rd .BOOT_FAWN 0 = 0
      ∧ t.boot.warmStep = (if s.fawnNext = true then 6 else 5)
      ∧ t.rd .BOOT_ATTEMPTS 0 = (if s.fawnNext = true then s.rd .BOOT_ATTEMPTS 0 else (s.rd .BOOT_ATTEMPTS 0 + 1) % 8)
      ∧ t.slots = [] ∧ (∀ c ∈ tenants, t.active c = none) ∧ t.boot.typ = 3 ∧ t.boot.cause = 3 ∧ t.pending = s.pending) ∧
  (∀ (s : State),
    s.pending = [] ∧ s.boot.warmStep = 5 →
    ∃ t, step s = .next t ∧ t.rd .BOOT_READY 0 = 1 ∧ t.rd .BOOT_PHASE 0 = 6 ∧ t.rd .BOOT_ATTEMPTS 0 = 0 ∧ t.boot.warmStep = 0
      ∧ t.rd .BOOT_LAST_TYPE 0 = 3 ∧ t.mem = s.mem ∧ t.ns = s.ns + 1) ∧
  (∀ (s : State) (fn key : Nat) (hosts : List Nat),
    s.barsBlocked fn = false ∧ fn = s.primaryFn ∧ key ≠ 0xB007 →
    exec (.warmReset 4 fn key hosts) s = .next (s.bump .BOOT_RESET_BAD_KEY 0 1) ∧
      exec (.coldReset 5 fn key) s = .next (s.bump .BOOT_RESET_BAD_KEY 0 1)) ∧
  (∀ (s : State) (port : Nat) (drained : List (Nat × Nat)),
    port < 2 ∧ s.pins.pwrgood = true ∧ s.perst port = true ∧ s.boot.warmStep = 0 ∧ s.rd .BOOT_READY 0 = 1 →
    ∃ t, exec (.hostLinkReset port true drained) s = .next t ∧ t.perst port = false ∧ port ∉ t.pins.hostUp ∧ t.rd .COH_AG_LIVE (32 + port) = 0
      ∧ (∀ f ∈ t.evt.msixEn, portOf f ≠ port) ∧ t.rd .BOOT_READY 0 = 1 ∧ t.pins.pwrgood = true ∧ t.pending = s.pending) ∧
  (∀ (s : State) (port : Nat) (drained : List (Nat × Nat)),
    port < 2 ∧ s.pins.pwrgood = true ∧ s.perst port = true ∧ 0 < s.boot.warmStep →
    ∃ t, exec (.hostLinkReset port true drained) s = .next t ∧ t.perst port = false ∧ port ∈ t.boot.hostAfter
      ∧ s.keepsBut t [.COH_AG_CMP, .COH_AG_BOUND, .COH_AG_LIVE]
      ∧ t = { s with reg := { s.reg with vals := t.reg.vals }, pins := t.pins, boot := { s.boot with hostAfter := t.boot.hostAfter } })

/-- In time and without a failure CLOCKS reads the rails, IMAGE runs the first image that verifies, RECORD with no valid copy applies
none, INIT gives the house fresh keys and TRAIN reaches READY with one enumeration started and the attempts cleared. A phase past its
limit fails the start, and so do a rail out of range, two images that fail, an entropy fault and a fault of a management core, the reason
and the phase kept; of the reasons, the one of a limit is a value the spec does not give. After READY a core fault posts MGMT_CORE_FAULT.
(R520, R521, R522, R523, R558) -/
def Obligations.BootPhasesRun : Prop :=
  (∀ (s : State) (ms : Nat) (rails imgA imgB recA recB : List Nat),
    s.pins.pwrgood = true ∧ s.boot.running = true ∧ s.rd .BOOT_PHASE 0 = 1 ∧ ms ≤ 5 →
    (within (word rails 0) (s.rd .PWR_AVS_TARGET_MV 0) 3 = true ∧
      (∀ r, 1 ≤ r → r < 6 → within (word rails r) (word railNominal r) 5 = true)) →
    ∃ t, exec (.bootPhaseDone 1 ms rails 0 imgA imgB recA recB) s = .next t ∧ t.rd .BOOT_PHASE 0 = 2 ∧ t.rd .PWR_PLL_LOCK 0 = 0x3FF
      ∧ s.keepsBut t [.PWR_PLL_LOCK, .BOOT_PHASE, .COH_AG_CMP, .COH_AG_BOUND, .COH_AG_LIVE] ∧ t.mem = s.mem) ∧
  (∀ (s : State) (ms : Nat) (rails imgA imgB recA recB : List Nat),
    s.pins.pwrgood = true ∧ s.boot.running = true ∧ s.rd .BOOT_PHASE 0 = 2 ∧ ms ≤ 300 →
    firstIsA imgA imgB = true ∧ s.imageStatus imgA = 0 →
    exec (.bootPhaseDone 2 ms rails 0 imgA imgB recA recB) s = .next ((s.runImage 0 imgA).wr .BOOT_PHASE 0 3)) ∧
  (∀ (s : State) (ms : Nat) (rails imgA imgB recA recB : List Nat),
    s.pins.pwrgood = true ∧ s.boot.running = true ∧ s.rd .BOOT_PHASE 0 = 2 ∧ ms ≤ 300 →
    s.imageStatus imgA ≠ 0 ∧ s.imageStatus imgB ≠ 0 →
    ∃ t, exec (.bootPhaseDone 2 ms rails 0 imgA imgB recA recB) s = .next t ∧ t.rd .BOOT_FAIL_REASON 0 = 3 ∧ t.rd .BOOT_FAIL_PHASE 0 = 2
      ∧ t.boot.running = false ∧ t.boot.failed = true ∧ t.mem = s.mem) ∧
  (∀ (s : State) (ms : Nat) (rails imgA imgB recA recB : List Nat),
    s.pins.pwrgood = true ∧ s.boot.running = true ∧ s.rd .BOOT_PHASE 0 = 3 ∧ ms ≤ 310 →
    recordValid recA = false ∧ recordValid recB = false →
    exec (.bootPhaseDone 3 ms rails 0 imgA imgB recA recB) s = .next ((s.wr .BOOT_RECORD_STATUS 0 2).wr .BOOT_PHASE 0 4)) ∧
  (∀ (s : State) (ms : Nat) (rails imgA imgB recA recB : List Nat),
    s.pins.pwrgood = true ∧ s.boot.running = true ∧ s.rd .BOOT_PHASE 0 = 4 ∧ ms ≤ 330 →
    s.sec.entropyBad = false →
    ∃ t, exec (.bootPhaseDone 4 ms rails 0 imgA imgB recA recB) s = .next t ∧ t.rd .BOOT_PHASE 0 = 5
      ∧ t.keyOf 0 0 = s.sec.keySerial ∧ t.keyOf 0 1 = s.sec.keySerial + 1 ∧ t.boot = s.boot ∧ t.mem = s.mem) ∧
  (∀ (s : State) (ms : Nat) (rails imgA imgB recA recB : List Nat),
    s.pins.pwrgood = true ∧ s.boot.running = true ∧ s.rd .BOOT_PHASE 0 = 5 ∧ ms ≤ 530 →
    ∃ t, exec (.bootPhaseDone 5 ms rails 0 imgA imgB recA recB) s = .next t ∧ t.rd .BOOT_READY 0 = 1 ∧ t.rd .BOOT_PHASE 0 = 6
      ∧ t.rd .BOOT_ATTEMPTS 0 = 0 ∧ t.rd .BOOT_READY_MS 0 = ms ∧ t.rd .EXP_ENUM_BUSY 0 = 1 ∧ (∀ st < 8, t.rd .STK_TRAINED st = 1)
      ∧ t.rd .BOOT_LAST_TYPE 0 = s.boot.typ % 16 ∧ t.rd .BOOT_LAST_CAUSE 0 = s.boot.cause % 16 ∧ t.boot.running = false) ∧
  (∀ (s : State),
    s.boot.running = true →
    ∃ t, exec .bootPhaseTimeout s = .next t ∧ t.rd .BOOT_FAIL_REASON 0 = Config.timeoutReason.toNat
      ∧ t.rd .BOOT_FAIL_PHASE 0 = s.rd .BOOT_PHASE 0 % 8 ∧ t.boot.running = false ∧ t.boot.failed = true
      ∧ s.keepsBut t ([.BOOT_FAIL_REASON, .BOOT_FAIL_PHASE, .BOOT_LAST_TYPE, .BOOT_LAST_CAUSE] ++ postFlds) ∧ t.mem = s.mem) ∧
  (∀ (s : State) (core : Nat),
    s.boot.running = true →
    ∃ t, exec (.mgmtCoreFault core false) s = .next t ∧ t.rd .BOOT_FAIL_REASON 0 = 8
      ∧ t.rd .BOOT_FAIL_PHASE 0 = s.rd .BOOT_PHASE 0 % 8 ∧ t.boot.running = false ∧ t.boot.failed = true) ∧
  (∀ (s : State) (core : Nat),
    s.boot.running = false ∧ s.rd .BOOT_READY 0 = 1 →
    exec (.mgmtCoreFault core false) s = .next (s.post (devInc 0x0E02 .device core 0 [])))

/-- The record at the front of the queue of a ring in host memory that has room and has lost nothing is stored at the slot of the producer
count, which advances; its 64 bytes and no other byte of host memory change. A record write that faults puts the ring in ERROR: the device
ring sets INC_DEVICE_PENDING, a compartment ring posts INCIDENT_RING_FAULT. The primary manager function clears INC_DEVICE_PENDING, the
clamp log with BOOT_CLAMP_DROPPED, and BOOT_ATTEMPTS. (R499, R501, R502, R503, R527, R530) -/
def Obligations.IncidentsReachTheirRings : Prop :=
  (∀ (s : State) (ring : Nat) (r : Incident) (rest : List Incident),
    ring < 33 ∧ s.incRoom ring = true ∧ s.incQ ring = r :: rest ∧ s.incRd .INC_DRING_LOC .INC_CRING_LOC ring = 1 →
    s.lostAt ring = [0, 0, 0, 0] →
    ∃ t, exec (.incidentRecordWrite ring .ok) s = .next t
      ∧ t.incRd .INC_DRING_PROD .INC_CRING_PROD ring = (s.incRd .INC_DRING_PROD .INC_CRING_PROD ring + 1) % 2 ^ 32 ∧ t.incQ ring = rest
      ∧ (let a := hostKey s.pins.primary (s.incRd .INC_DRING_BASE .INC_CRING_BASE ring
            + 64 * (s.incRd .INC_DRING_PROD .INC_CRING_PROD ring % incSize ring))
         let bs := bytesOf (r.words ring (s.incRd .INC_DRING_PROD .INC_CRING_PROD ring))
         bs.length = 64 ∧ ∀ b, Mem.byte t.mem.host b = if a ≤ b ∧ b < a + 64 then bs.getD (b - a) emptyByte else Mem.byte s.mem.host b)
      ∧ t.mem.acc = s.mem.acc ∧ s.keepsBut t (.INC_DRING_PROD :: .INC_CRING_PROD :: raiseFlds)) ∧
  (∀ (s : State) (ring : Nat) (r : Incident) (rest : List Incident),
    ring < 33 ∧ s.incRoom ring = true ∧ s.incQ ring = r :: rest →
    exec (.incidentRecordWrite ring .fault) s = .next (
      if ring = 0 then (s.wr .INC_DRING_STATE 0 2).wr .INC_DEVICE_PENDING 0 1
      else (s.wr .INC_CRING_STATE (ring - 1) 2).post (onCmp (ring - 1) (devInc 0x0D03 .degraded 0 (ring - 1) [0])))) ∧
  (∀ (s : State) (fn : Nat),
    s.closed fn 0x100104 = false ∧ s.closed fn 0x100004 = false ∧ isMgr fn = true ∧ fn = s.primaryFn →
    exec (.devicePendingClear fn) s = .next (s.wr .INC_DEVICE_PENDING 0 0) ∧
      exec (.clampLogClear fn) s = .next ({ s with reg := { s.reg with clamp := [] } }.wr .BOOT_CLAMP_DROPPED 0 0) ∧
      exec (.attemptClear fn) s = .next (s.wr .BOOT_ATTEMPTS 0 0))

/-- A BULK_FILL of zeros or a MEMTEST of the primary manager function whose checks pass opens a RUNNING operation for its lines in the
claimed slot, and its descriptor waits for it; the next lines of a running BULK_FILL are written with the pattern in address order and
counted, and its work has ended when all are. (R531, R537, R538) -/
def Obligations.BulkWorkRunsInSlots : Prop :=
  (∀ (s : State) (fn ring c i lines : Nat) (k : Cand),
    s.starts fn ring 0x65 c k ∧ fn = s.primaryFn ∧ (s.begun fn ring c k).2.rd .BOOT_FAWN 0 = 0 →
    (s.begun fn ring c k).2.cmpState (adCmp k.desc) = .assigned ∨ (s.begun fn ring c k).2.cmpState (adCmp k.desc) = .quiesced →
    (s.begun fn ring c k).2.rangeOk (adCmp k.desc) k.desc = true ∧ adPtr k.desc = 0 →
    (s.begun fn ring c k).2.longBusy 0x65 (adCmp k.desc) = false ∧ (s.begun fn ring c k).2.claimSlot = some i →
    exec (.bulkFill fn ring none lines) s = .next (((s.begun fn ring c k).2.opensLong (s.begun fn ring c k).1 0 (adCmp k.desc) (bulkLen k.desc / 128) i
      (List.replicate 16 0) [lineOf (adArg0 k.desc)]).addOp { (s.begun fn ring c k).1 with wait := .long i })) ∧
  (∀ (s : State) (fn ring i lines : Nat) (l : LongOp),
    s.runningAt i 0x65 = some l ∧ l.done + lines ≤ l.total →
    exec (.bulkFill fn ring (some i) lines) s = .next (
      let t := (span (word l.args 0 + l.done) lines).foldl (fun u x => u.fillLine l.cmp x (bytesOf l.words)) s
      let t := t.setLong i { l with done := l.done + lines }
      if l.done + lines = l.total then t.finLong i 0 l.total else t)) ∧
  (∀ (s : State) (fn ring c i lines corrected : Nat) (bad : List Nat) (k : Cand),
    s.starts fn ring 0x66 c k ∧ fn = s.primaryFn ∧ (s.begun fn ring c k).2.rd .BOOT_FAWN 0 = 0 →
    (s.begun fn ring c k).2.cmpState (adCmp k.desc) = .quiesced ∨ (s.begun fn ring c k).2.cmpState (adCmp k.desc) = .tainted →
    (s.begun fn ring c k).2.rangeOk (adCmp k.desc) k.desc = true ∧ testsFree k.desc = false →
    (s.begun fn ring c k).2.longBusy 0x66 (adCmp k.desc) = false ∧ (s.begun fn ring c k).2.claimSlot = some i →
    exec (.memtest fn ring none lines corrected bad) s = .next (((s.begun fn ring c k).2.opensLong (s.begun fn ring c k).1 0 (adCmp k.desc) (bulkLen k.desc / 128) i
      [] [lineOf (adArg0 k.desc)]).addOp { (s.begun fn ring c k).1 with wait := .long i })) ∧
  (∀ (s : State) (fn ring i lines corrected : Nat) (l : LongOp),
    s.runningAt i 0x66 = some l ∧ l.done + lines ≤ l.total ∧ l.mismatch = 0 →
    exec (.memtest fn ring (some i) lines corrected []) s = .next (
      let t := s.testLines l.cmp (word l.args 0 + l.done) lines
      let t := t.setLong i { l with done := l.done + lines, corr := l.corr + corrected }
      if l.done + lines = l.total then t.finLong i 0 0 else t))

/-- A KEY_ROTATE that starts with no rotation pending gives the tier of its compartment a fresh key and keeps the old one until the
boundary has passed every line; a FW_STAGE of an image or of a boot record copy from host memory opens its operation with the length of
its source; a failed flash ends its work with FLASH_FAILED. (R544, R545, R559) -/
def Obligations.KeysRotateAndFirmwareIsStaged : Prop :=
  (∀ (s : State) (fn ring c i lines : Nat) (k : Cand),
    s.starts fn ring 0x67 c k ∧ fn = s.primaryFn ∧ (s.begun fn ring c k).2.rd .BOOT_FAWN 0 = 0 →
    (s.begun fn ring c k).2.cmpState (adCmp k.desc) = .assigned ∨ (s.begun fn ring c k).2.cmpState (adCmp k.desc) = .quiesced →
    (s.begun fn ring c k).2.sec.rot.find (2 * adCmp k.desc + b2n (bit (adArg0 k.desc) 0)) = none ∧ (s.begun fn ring c k).2.sec.entropyBad = false →
    (s.begun fn ring c k).2.longBusy 0x67 (adCmp k.desc) = false ∧ (s.begun fn ring c k).2.claimSlot = some i →
    (s.begun fn ring c k).2.tierGranules (adCmp k.desc) (b2n (bit (adArg0 k.desc) 0)) ≠ [] →
    ∃ t, exec (.keyRotate fn ring none lines) s = .next t ∧ t.keyOf (adCmp k.desc) (b2n (bit (adArg0 k.desc) 0)) = (s.begun fn ring c k).2.sec.keySerial
      ∧ (t.sec.rot.find (2 * adCmp k.desc + b2n (bit (adArg0 k.desc) 0))).map (·.1)
          = some ((s.begun fn ring c k).2.keyOf (adCmp k.desc) (b2n (bit (adArg0 k.desc) 0))) ∧ t.mem = (s.begun fn ring c k).2.mem) ∧
  (∀ (s : State) (fn ring i lines : Nat) (l : LongOp),
    s.runningAt i 0x67 = some l ∧ s.sec.rot.find (2 * l.cmp + word l.args 0) = none ∧ 0 < lines ∧ l.done < l.total →
    exec (.keyRotate fn ring (some i) lines) s = .next (s.setLong i l)) ∧
  (∀ (s : State) (fn ring c i bytes : Nat) (flashOk : Bool) (data : List Nat) (k : Cand),
    s.starts fn ring 0x68 c k ∧ fn = s.primaryFn →
    fwHost k.desc = true ∧ fwRecord k.desc = false ∧ 0 < fwLen k.desc ∧ fwLen k.desc ≤ 15 * 2 ^ 20 →
    (s.begun fn ring c k).2.longBusy 0x68 0 = false ∧ (s.begun fn ring c k).2.claimSlot = some i →
    exec (.fwStageImage fn ring none bytes flashOk data) s = .next (((s.begun fn ring c k).2.opensLong (s.begun fn ring c k).1 0 0 (fwLen k.desc) i data
      [s.imageTarget]).addOp { (s.begun fn ring c k).1 with wait := .long i })) ∧
  (∀ (s : State) (fn ring i bytes : Nat) (data : List Nat) (l : LongOp),
    s.runningAt i 0x68 = some l ∧ word l.args 0 < 2 ∧ l.done + bytes ≤ l.total →
    exec (.fwStageImage fn ring (some i) bytes false data) s = .next (((s.setLong i { l with done := l.done + bytes }).emit .flash
      [0, word l.args 0, l.done + bytes, 0x64]).finLong i 0x64 0) ∧
      (l.done + bytes < l.total → exec (.fwStageImage fn ring (some i) bytes true data) s = .next (s.setLong i { l with done := l.done + bytes }))) ∧
  (∀ (s : State) (fn ring c i bytes : Nat) (flashOk : Bool) (data : List Nat) (a b : Option Nat) (k : Cand),
    s.starts fn ring 0x68 c k ∧ fn = s.primaryFn →
    fwHost k.desc = true ∧ fwRecord k.desc = true ∧ 0 < fwLen k.desc ∧ fwLen k.desc ≤ 8192 →
    (s.begun fn ring c k).2.longBusy 0x68 0 = false ∧ (s.begun fn ring c k).2.claimSlot = some i →
    exec (.fwStageRecord fn ring none bytes flashOk data a b) s = .next (((s.begun fn ring c k).2.opensLong (s.begun fn ring c k).1 0 0 (fwLen k.desc) i data
      [2 + recordTarget a b]).addOp { (s.begun fn ring c k).1 with wait := .long i })) ∧
  (∀ (s : State) (fn ring i bytes : Nat) (data : List Nat) (a b : Option Nat) (l : LongOp),
    s.runningAt i 0x68 = some l ∧ 2 ≤ word l.args 0 ∧ l.done + bytes = l.total →
    exec (.fwStageRecord fn ring (some i) bytes true data a b) s = .next (((s.setLong i { l with done := l.total }).emit .flash
      [1, word l.args 0, l.total, if recordValid l.words = true then 0 else 0x61]).finLong i (if recordValid l.words = true then 0 else 0x61) 0))

/-- An order whose checks pass, that meets no other order and names a live operation whose work has not ended: OP_SUSPEND of a RUNNING
operation that can be suspended leaves it SUSPENDED, OP_RESUME of a SUSPENDED one leaves it RUNNING, each ending with OK; OP_CANCEL of a
BULK_FILL, MEMTEST or KEY_ROTATE ends it with OP_CANCELLED and ends itself with OK. A live long operation whose work has ended with OK
becomes ENDED in its slot, event source 0x003 is raised, and its descriptor completes with its status and result. (R533, R534, R535, R536,
R145, R539) -/
def Obligations.LongOperationsTakeOrdersAndEnd : Prop :=
  (∀ (s : State) (fn ring c i : Nat) (k : Cand) (l : LongOp),
    s.starts fn ring 0x6A c k ∧ fn = s.primaryFn →
    (s.begun fn ring c k).2.opNamed k.desc = some (i, l) ∧ l.fin = none ∧ l.state = 1 ∧ notSuspendable l.kind = false →
    exec (.opSuspend fn ring none) s = .next (((s.begun fn ring c k).2.setLong i { l with state := 2 }).addOp { (s.begun fn ring c k).1 with wait := .done, status := 0 })) ∧
  (∀ (s : State) (fn ring c i : Nat) (k : Cand) (l : LongOp),
    s.starts fn ring 0x6B c k ∧ fn = s.primaryFn →
    (s.begun fn ring c k).2.opNamed k.desc = some (i, l) ∧ l.fin = none ∧ l.state = 2 →
    exec (.opResume fn ring none) s = .next (((s.begun fn ring c k).2.setLong i { l with state := 1 }).addOp { (s.begun fn ring c k).1 with wait := .done, status := 0 })) ∧
  (∀ (s : State) (fn ring c i : Nat) (k : Cand) (l : LongOp),
    s.starts fn ring 0x6C c k ∧ fn = s.primaryFn →
    (s.begun fn ring c k).2.opNamed k.desc = some (i, l) ∧ l.fin = none ∧ l.kind ∈ [0x65, 0x66, 0x67] →
    exec (.opCancel fn ring none) s = .next (((s.begun fn ring c k).2.endLong i 0x54 l.id).addOp { (s.begun fn ring c k).1 with wait := .done, status := 0 })) ∧
  (∀ (s : State) (i st r : Nat) (l : LongOp),
    s.longAt i = some l ∧ l.fin = some (st, r) ∧ l.live = true →
    ∃ t x, exec (.longOperationEnd i) s = .next t ∧ t.longAt i = some x ∧ x.state = 3 ∧ x.status = st ∧ x.endBeat = s.beat ∧ x.op = none)

/-- An expansion link that comes up makes a port without bound granules READY and posts EXPANDER_ARRIVED; one that goes down leaves an
ACTIVE port DOWN or EMPTY; an enumeration starts with the ports whose links are up and visits them; a poisoned read poisons its line; an
event record of an expander is posted with its first 32 bytes. (R381, R382, R383, R384, R390, R391) -/
def Obligations.ExpansionPortsAreEnumerated : Prop :=
  (∀ (s : State),
    s.closed s.primaryFn 0x900800 = false ∧ s.enumBusy = false →
    exec (.enumerationStart s.primaryFn) s = .next { ((s.wr .EXP_ENUM_BUSY 0 1).wr .EXP_ENUM_BEAT 0 s.beat) with
      exp := ⟨(List.range 8).filter (fun p => s.rd .EXP_LINK_UP p == 1), [], [], []⟩ }) ∧
  (∀ (s : State) (port gib serial : Nat),
    s.enumNext = some port ∧ s.rd .EXP_LINK_UP port = 1 ∧ s.portBound port = false →
    0 < gib ∧ serial < 2 ^ 64 →
    ∃ t, exec (.enumerationPortVisit port true true gib serial false true) s = .next t ∧
      t.exp.visited.find port = some (if s.rd .EXP_IDE_REQUIRED 0 = 1 then 5 else 0, min gib 512) ∧
      t.rd .EXP_SERIAL port = serial ∧ s.keepsBut t [.EXP_SERIAL, .EXP_IDE_UP] ∧ t.mem = s.mem) ∧
  (∀ (s : State) (port : Nat),
    port < 8 ∧ s.rd .EXP_LINK_UP port ≠ 1 ∧ bit (s.rd .PWR_GATE_EXP 0) port = false →
    s.rd .EXP_STATE port ≠ 2 ∧ s.portBound port = false ∧ s.enumBusy = false →
    exec (.expansionLinkUp port) s = .next (((s.wr .EXP_LINK_UP port 1).wr .EXP_STATE port 1).post (devInc 0x0A01 .notice port 0 []))) ∧
  (∀ (s : State) (port : Nat),
    port < 8 ∧ s.rd .EXP_LINK_UP port ≠ 0 →
    ∃ t, exec (.expansionLinkDown port) s = .next t ∧ t.rd .EXP_LINK_UP port = 0 ∧ t.rd .EXP_STATE port = (if s.portBound port = true then 3 else 0)
      ∧ s.keepsBut t ([.EXP_LINK_UP, .EXP_IDE_UP, .EXP_STATE] ++ postFlds) ∧ t = { s.reports t with exp := t.exp }) ∧
  (∀ (s : State) (addr latency : Nat),
    t2Base ≤ addr ∧ addr < t2Base + t2Bytes ∧ s.rd .EXP_STATE (portOfLine (lineOf addr)) = 2 →
    latency ≤ s.rd .EXP_LAT_LIMIT 0 →
    ∃ t, exec (.expanderResponse addr false true latency) s = .next t ∧ t.linePoison (lineOf addr) = true ∧ t.mem.acc = s.mem.acc ∧ t.mem.host = s.mem.host) ∧
  (∀ (s : State) (port : Nat) (record : List Nat),
    port < 8 →
    exec (.expanderEvent port record) s = .next (s.post (devInc 0x0A03 .notice port 0
      [word record 0 % 2 ^ 64, word record 1 % 2 ^ 64, word record 2 % 2 ^ 64, word record 3 % 2 ^ 64])))

/-- At a root that follows TSYNC, an edge with a phase error of at most 0.1 beat writes PWR_TSYNC_ERR, counts as good and locks BEAT after
16 in a row once the root time is applied; at an edge with a root time that waits, BEAT takes that time; the eighth missing edge in a row
ends the lock. At a root without TSYNC a write of PWR_ROOT_TIME that is not below BEAT sets BEAT and locks it. A TIME flit names its
neighbour and keeps the times of the exchange; from the parent it also gives the offset and the flight time, and where the junction has
stepped, sees the parent good and has had fifteen good exchanges in a row, one with an offset of at most 25/256 beat locks BEAT at the
parent's depth plus one; one from a parent that is not good ends the lock. Eight cadence frames without an exchange end the lock. (R569,
R570, R420, R421, R422) -/
def Obligations.RackTimeIsKept : Prop :=
  (∀ (s : State) (err : Nat),
    s.followsTsync = true →
    s.pwr.rootWait = false →
    (toSigned 16 err).natAbs ≤ 25 →
    exec (.tsyncEdge err) s = .next (
      let t := { s.wr .PWR_TSYNC_ERR 0 err with pwr := { s.pwr with tsGood := s.pwr.tsGood + 1, tsBad := 0, tsMiss := 0 } }
      if 16 ≤ s.pwr.tsGood + 1 ∧ s.pwr.rootSet = true then t.wr .PWR_BEAT_LOCKED 0 1 else t)) ∧
  (∀ (s : State) (err : Nat),
    s.followsTsync = true →
    s.pwr.rootWait = true →
    s.beat ≤ s.rd .PWR_ROOT_TIME 0 ∧ s.rd .PWR_ROOT_TIME 0 < 2 ^ 64 →
    ∃ t, exec (.tsyncEdge err) s = .next t ∧ t.rd .PWR_BEAT 0 = s.rd .PWR_ROOT_TIME 0 ∧ t.pwr.rootWait = false ∧ t.mem = s.mem) ∧
  (∀ (s : State),
    s.followsTsync = true →
    s.pwr.tsMiss < 7 →
    exec .tsyncEdgeMissing s = .next { s with pwr := { s.pwr with tsMiss := s.pwr.tsMiss + 1, tsGood := 0, tsBad := 0 } }) ∧
  (∀ (s : State),
    s.followsTsync = true →
    7 ≤ s.pwr.tsMiss →
    ∃ t, exec .tsyncEdgeMissing s = .next t ∧ t.rd .PWR_BEAT_LOCKED 0 = 0 ∧ t.pwr.tsMiss = 0 ∧ t.mem = s.mem) ∧
  (∀ (s : State) (fn high v : Nat),
    s.closed fn 0xF0002C = false ∧ fn = s.primaryFn ∧ isMgr fn = true →
    s.rd .PWR_BEAT_LOCKED 0 = 0 →
    s.isRoot = true ∧ s.rd .PWR_TSYNC_EN 0 = 0 →
    s.reg.staged.find (pairKey fn 0xF00028) = some v →
    high < 2 ^ 32 ∧ v < 2 ^ 32 ∧ s.beat ≤ v + 2 ^ 32 * high →
    ∃ t, exec (.rootTimeSet fn high) s = .next t ∧ t.rd .PWR_BEAT 0 = v + 2 ^ 32 * high ∧ t.rd .PWR_ROOT_TIME 0 = v + 2 ^ 32 * high
      ∧ t.rd .PWR_BEAT_LOCKED 0 = 1 ∧ s.keepsBut t [.PWR_ROOT_TIME, .PWR_BEAT, .PWR_BEAT_LOCKED] ∧ t.mem = s.mem) ∧
  (∀ (s : State) (l : Nat) (b : TimeBody),
    s.linkIs l .up = true ∧ s.isParent l = false ∧ b.selfId < 2 ^ 8 →
    exec (.timeFlitReceive l false b) s = .next ((s.setLnk l { s.lnk l with rxTime := b.recv, rxEcho := b.tx }).wr .PLK_NBR_ID l b.selfId) ∧
      exec (.timeFlitReceive l true b) s = .next s) ∧
  (∀ (s : State) (l : Nat) (b : TimeBody),
    s.linkIs l .up = true ∧ s.isParent l = true ∧ s.rd .PWR_BEAT_LOCKED 0 = 0 ∧ s.parentGood b = true →
    s.plk.time.stepped = true ∧ 15 ≤ s.plk.time.good ∧ (theta b (toSigned 16 (s.rd .PLK_TIME_ASYM l))).natAbs ≤ 25 →
    ∃ t, exec (.timeFlitReceive l false b) s = .next t ∧ t.rd .PWR_BEAT_LOCKED 0 = 1 ∧ t.rd .PLK_TIME_DEPTH 0 = b.depth + 1
      ∧ t.rd .PLK_TIME_OFFSET 0 = ofSigned 16 (theta b (toSigned 16 (s.rd .PLK_TIME_ASYM l))) ∧ t.rd .PLK_FLIGHT l = ofSigned 16 (flight b)
      ∧ s.keepsBut t [.PWR_BEAT_LOCKED, .PLK_TIME_DEPTH, .PLK_TIME_OFFSET, .PLK_FLIGHT, .PLK_NBR_ID]
      ∧ t = { s with reg := { s.reg with vals := t.reg.vals }, plk := t.plk }) ∧
  (∀ (s : State) (l : Nat) (b : TimeBody),
    s.linkIs l .up = true ∧ s.isParent l = true ∧ s.rd .PWR_BEAT_LOCKED 0 = 1 ∧ s.parentGood b = false →
    ∃ t, exec (.timeFlitReceive l false b) s = .next t ∧ t.rd .PWR_BEAT_LOCKED 0 = 0 ∧ t.rd .PWR_BEAT_LOST 0 = 1 ∧ t.mem = s.mem) ∧
  (∀ (s : State),
    s.rd .PWR_BEAT_LOCKED 0 = 1 ∧ s.rd .PLK_TIME_ROOT 0 = 0 ∧ 8 * 1024 * 32 ≤ (s.beat - s.plk.time.last) * 25 →
    ∃ t, exec .timeExchangeTimeout s = .next t ∧ t.rd .PWR_BEAT_LOCKED 0 = 0 ∧ t.rd .PWR_BEAT_LOST 0 = 1
      ∧ s.keepsBut t (.PWR_BEAT_LOCKED :: .PWR_BEAT_LOST :: postFlds) ∧ t = { s.reports t with plk := t.plk })

/-- A write of the slice register of PWR_GATE by the primary manager function sets exactly the bits asked for whose blocks meet their
condition, and where all do nothing is logged. The end of an ungating takes the block from those under way; a slice then holds no tag. At
a sampling point every temperature and rail register takes its sample, the energy count grows, and the core voltage target moves by at
most 10 mV within 650 to 850 mV. A temperature at the warning level or above raises TEMP_WARN. (R574, R575, R576, R577, R578, R579) -/
def Obligations.BlocksAreGatedAndMeasured : Prop :=
  (∀ (s : State) (fn off val : Nat),
    s.closed fn off = false ∧ fn = s.primaryFn ∧ isMgr fn = true →
    off ∈ [0xF00104, 0xF00108, 0xF0010C, 0xF00110] →
    val < 2 ^ 32 →
    (∀ b < 32, bit val b = true → s.gateable .PWR_GATE_SLICE (32 * ((off - 0xF00104) / 4) + b) = true) →
    ∃ t, exec (.blockGate fn off val) s = .next t ∧ t.rd .PWR_GATE_SLICE ((off - 0xF00104) / 4) = val
      ∧ s.keepsBut t [.PWR_GATE_SLICE] ∧ t = { s with reg := { s.reg with vals := t.reg.vals }, syc := t.syc, pwr := t.pwr }) ∧
  (∀ (s : State) (block : Nat),
    block ∈ s.pwr.ungating →
    0x100 ≤ block →
    exec (.ungateDone block) s = .next { s with
        syc := { s.syc with sets := s.syc.sets.keep (fun k _ => k / 1024 != block - 0x100) }
        pwr := { s.pwr with ungating := s.pwr.ungating.filter (fun x => x != block) } }) ∧
  (∀ (s : State) (temps rails : List Nat) (power energy avs : Nat),
    s.pins.pwrgood = true →
    (∀ x ∈ temps, x < 2 ^ 8) →
    (∀ x ∈ rails, x < 2 ^ 16) →
    ∃ t, exec (.telemetrySample temps rails power energy avs) s = .next t
      ∧ (∀ i < 16, t.rd .PWR_TEMP i = word temps i) ∧ (∀ r < 6, t.rd .PWR_RAIL_MV r = word rails r)
      ∧ t.rd .PWR_ENERGY_MJ 0 = (s.rd .PWR_ENERGY_MJ 0 + energy) % 2 ^ 64
      ∧ t.rd .PWR_AVS_TARGET_MV 0 = clampTo 650 850 (clampTo (s.rd .PWR_AVS_TARGET_MV 0 - 10) (s.rd .PWR_AVS_TARGET_MV 0 + 10) avs)
      ∧ t = { s.reports t with pwr := t.pwr })

/-- While PWRGOOD is high a private read answers with the value of its index, and index 0x00 clears the peak kept for I3C; the fawn
request sets BOOT_FAWN_REQ; dynamic addresses are taken by ENTDAA and SETDASA and given up by RSTDAA; ENEC sends the held interrupts in
order and DISEC holds them; GETPID answers with the low bits of HST_SERIAL (the model's reading, log entry 12); GETBCR, GETDCR and GETMXDS
answer with a constant of the part that the spec does not state, GETSTATUS with a value that it leaves free (the model's choices, log
entry 12). (R582, R583, R584) -/
def Obligations.I3cTargetAnswers : Prop :=
  (∀ (s : State) (index : Nat),
    s.pins.pwrgood = true →
    index ≠ 0 ∧ index ≠ 3 →
    exec (.i3cTelemetryRead index) s = .next (s.emit .i3c [1, index, s.i3cValue index])) ∧
  (∀ (s : State),
    s.pins.pwrgood = true →
    exec (.i3cTelemetryRead 0) s = .next (let t := s.emit .i3c [1, 0, s.i3cValue 0]; { t with pwr := { t.pwr with peak := 0 } })) ∧
  (∀ (s : State),
    s.pins.pwrgood = true →
    exec (.i3cFawnRequest 0x40 0xFA3E) s = .next (s.wr .BOOT_FAWN_REQ 0 1)) ∧
  (∀ (s : State) (index val : Nat),
    ¬(index = 0x40 ∧ val = 0xFA3E) →
    exec (.i3cFawnRequest index val) s = .next s) ∧
  (∀ (s : State) (addr : Nat),
    s.pins.pwrgood = true ∧ s.pwr.address = none →
    exec (.entdaa addr) s = .next ((s.emit .i3c [2, s.rd .HST_SERIAL 0 % 2 ^ 48]).setAddress (some (addr % 128))) ∧
      exec .setdasa s = .next (s.setAddress (some 0x2C))) ∧
  (∀ (s : State),
    s.pins.pwrgood = true →
    exec .rstdaa s = .next (s.setAddress none) ∧ exec .disec s = .next { s with pwr := { s.pwr with ibiOn := false } } ∧
      exec .getpid s = .next (s.emit .i3c [4, s.rd .HST_SERIAL 0 % 2 ^ 48])) ∧
  (∀ (s : State),
    s.pins.pwrgood = true →
    exec .getbcr s = .next (s.emit .i3c [5, (Config.i3cConst 5).toNat]) ∧ exec .getdcr s = .next (s.emit .i3c [6, (Config.i3cConst 6).toNat]) ∧
      exec .getmxds s = .next (s.emit .i3c [8, (Config.i3cConst 8).toNat]) ∧
      exec .getstatus s = .next (s.fresh.2.emit .i3c [7, s.fresh.1 % 2 ^ 16])) ∧
  (∀ (s : State),
    s.pins.pwrgood = true →
    ∃ t, exec .enec s = .next t ∧ t.pwr.ibiOn = true ∧ t.pwr.ibiQ = [] ∧
      t.sent = s.sent ++ s.pwr.ibiQ.map (fun src => ⟨.i3c, [3, 1, src % 256, src / 256]⟩) ∧ t.reg = s.reg ∧ t.mem = s.mem) ∧
  (∀ (s : State) (core vec : Nat),
    core < 4 ∧ vec < 256 ∧ s.retryStatus = false →
    bit (s.rd .EVT_TARGETS (vecIx s.primaryFn vec)) (4 + core) = true →
    (s.claim s.primaryFn vec).1.1 ≠ 0 ∧ (s.claim s.primaryFn vec).2.pwr.ibiOn = true →
    exec (.mgmtCoreEventForward core vec) s = .next ((s.claim s.primaryFn vec).2.emit .i3c
      [3, 1, (s.claim s.primaryFn vec).1.1 % 256, (s.claim s.primaryFn vec).1.1 / 256]))

/-- While PWR_BEAT_LOCKED is set, a write of PWR_ROOT_TIME by the primary manager function leaves PWR_ROOT_TIME and the BEAT counter as
they were and is a clamp with the reset value 0 applied: an entry of the clamp log, or, where the log is full, one more dropped clamp.
(R571) -/
def Obligations.RootTimeIsDroppedWhileLocked : Prop :=
  ∀ (s : State) (fn high v : Nat),
    s.closed fn 0xF0002C = false ∧ fn = s.primaryFn ∧ isMgr fn = true →
    s.rd .PWR_BEAT_LOCKED 0 = 1 ∧ s.reg.staged.find (pairKey fn 0xF00028) = some v ∧ high < 2 ^ 32 →
    ∃ t, exec (.rootTimeSet fn high) s = .next t ∧ t.beat = s.beat ∧ t.rd .PWR_ROOT_TIME 0 = s.rd .PWR_ROOT_TIME 0
      ∧ (s.reg.clamp.length < 64 → t.reg.clamp = s.reg.clamp ++ [⟨fieldId 0xF00028 0, 0, fn, true, v + 2 ^ 32 * high, 0, s.beat, false⟩])
      ∧ (64 ≤ s.reg.clamp.length → t.reg.clamp = s.reg.clamp ∧ t.rd .BOOT_CLAMP_DROPPED 0 = min (s.rd .BOOT_CLAMP_DROPPED 0 + 1) 65535)
      ∧ s.keepsBut t (.BOOT_CLAMP_DROPPED :: postFlds) ∧ t.mem = s.mem
end

