-- ==== Sys2Proof/Laws/Keep1.lean ====
section
/-! SUPPORT. What operations and meanings leave untouched (`State.kept`, and `State.still` where they store nothing): registers, caches, translation, rings, events, moves. -/
namespace Sys2Proof.Machine

open Sys2Proof

/-- What an ordinary operation of the block never touches: the queue of commands, the pins, and whether a start is held or a warm reset
runs. -/
def State.kept (s : State) : List Instr × PinSt × Bool × Nat := (s.pending, s.pins, s.boot.sysHeld, s.boot.warmStep)

/-- What an operation that stores nothing never touches: `State.kept` and the memories. -/
def State.still (s : State) : List Instr × PinSt × Bool × Nat × MemSt :=
  (s.pending, s.pins, s.boot.sysHeld, s.boot.warmStep, s.mem)

@[simp] theorem kept_mk (pending reg mem pins ring slots cmp fns evt inc xl syc coh stk exp long plk net ats sec boot pwr sent ns free) :
    State.kept (State.mk pending reg mem pins ring slots cmp fns evt inc xl syc coh stk exp long plk net ats sec boot pwr sent ns free)
      = (pending, pins, boot.sysHeld, boot.warmStep) := rfl

@[simp] theorem kept_fold (s : State) : (s.pending, s.pins, s.boot.sysHeld, s.boot.warmStep) = s.kept := rfl

@[simp] theorem kept_foldl {α : Type} (f : State → α → State) (h : ∀ s a, (f s a).kept = s.kept) (l : List α) (s : State) :
    (l.foldl f s).kept = s.kept := by
  induction l generalizing s with
  | nil => rfl
  | cons a l ih => simp [List.foldl_cons, ih, h]

@[simp] theorem kept_ite (c : Prop) [Decidable c] (s t : State) : (if c then s else t).kept = if c then s.kept else t.kept := by
  split <;> rfl

@[simp] theorem kept_foldl_snd {α β : Type} (f : β × State → α → β × State) (h : ∀ p a, (f p a).2.kept = p.2.kept) (l : List α)
    (p : β × State) : (l.foldl f p).2.kept = p.2.kept := by
  induction l generalizing p with
  | nil => rfl
  | cons a l ih => simp [List.foldl_cons, ih, h]

theorem kept_fold_of {α β γ : Type} (g : β → γ) (f : β → α → β) (h : ∀ b a, g (f b a) = g b) (l : List α) (b : β) :
    g (l.foldl f b) = g b := by
  induction l generalizing b with
  | nil => rfl
  | cons a l ih => rw [List.foldl_cons, ih, h]

theorem kept_next {s t u : State} (h : Host.Outcome.next u = (.next t : Out)) (hu : u.kept = s.kept) : t.kept = s.kept :=
  Host.Outcome.next.inj h ▸ hu

theorem kept_pwr (s : State) (x : PwrSt) : State.kept { s with pwr := x } = s.kept := rfl

theorem kept_incCmp (s : State) (x : IncSt) (y : CmpSt) : State.kept { s with inc := x, cmp := y } = s.kept := rfl

@[simp] theorem still_mk (pending reg mem pins ring slots cmp fns evt inc xl syc coh stk exp long plk net ats sec boot pwr sent ns free) :
    State.still (State.mk pending reg mem pins ring slots cmp fns evt inc xl syc coh stk exp long plk net ats sec boot pwr sent ns free)
      = (pending, pins, boot.sysHeld, boot.warmStep, mem) := rfl

@[simp] theorem still_fold (s : State) : (s.pending, s.pins, s.boot.sysHeld, s.boot.warmStep, s.mem) = s.still := rfl

@[simp] theorem still_foldl {α : Type} (f : State → α → State) (h : ∀ s a, (f s a).still = s.still) (l : List α) (s : State) :
    (l.foldl f s).still = s.still := by
  induction l generalizing s with
  | nil => rfl
  | cons a l ih => simp [List.foldl_cons, ih, h]

@[simp] theorem still_ite (c : Prop) [Decidable c] (s t : State) : (if c then s else t).still = if c then s.still else t.still := by
  split <;> rfl

@[simp] theorem still_foldl_snd {α β : Type} (f : β × State → α → β × State) (h : ∀ p a, (f p a).2.still = p.2.still) (l : List α)
    (p : β × State) : (l.foldl f p).2.still = p.2.still := by
  induction l generalizing p with
  | nil => rfl
  | cons a l ih => simp [List.foldl_cons, ih, h]

theorem still_next {s t u : State} (h : Host.Outcome.next u = (.next t : Out)) (hu : u.still = s.still) : t.still = s.still :=
  Host.Outcome.next.inj h ▸ hu

theorem still_pwr (s : State) (x : PwrSt) : State.still { s with pwr := x } = s.still := rfl

theorem still_incCmp (s : State) (x : IncSt) (y : CmpSt) : State.still { s with inc := x, cmp := y } = s.still := rfl

/-- What keeps `State.still` keeps `State.kept`. -/
theorem kept_of_still {s t : State} (h : t.still = s.still) : t.kept = s.kept :=
  congrArg (fun x => (x.1, x.2.1, x.2.2.1, x.2.2.2.1)) h

/-- What keeps `State.still` leaves the memories as they were. -/
theorem mem_of_still {s t : State} (h : t.still = s.still) : t.mem = s.mem := congrArg (·.2.2.2.2) h

@[simp] theorem still_State_wr (s : State) (f : Fld) (i v : Nat) : (State.wr s f i v).still = s.still := by
  unfold State.wr
  rfl

@[simp] theorem keep_State_wr (s : State) (f : Fld) (i v : Nat) : (State.wr s f i v).kept = s.kept :=
  kept_of_still (still_State_wr ..)

@[simp] theorem still_State_stat (s : State) (c k n : Nat) : (State.stat s c k n).still = s.still := by
  unfold State.stat
  rfl

@[simp] theorem keep_State_stat (s : State) (c k n : Nat) : (State.stat s c k n).kept = s.kept :=
  kept_of_still (still_State_stat ..)

@[simp] theorem still_State_bump (s : State) (f : Fld) (i n : Nat) : (State.bump s f i n).still = s.still := by
  unfold State.bump
  (repeat' split) <;> simp

@[simp] theorem keep_State_bump (s : State) (f : Fld) (i n : Nat) : (State.bump s f i n).kept = s.kept :=
  kept_of_still (still_State_bump ..)

@[simp] theorem still_State_wrAll (s : State) (f : Fld) (is : List Nat) (v : Nat) : (State.wrAll s f is v).still = s.still := by
  unfold State.wrAll
  simp

@[simp] theorem keep_State_wrAll (s : State) (f : Fld) (is : List Nat) (v : Nat) : (State.wrAll s f is v).kept = s.kept :=
  kept_of_still (still_State_wrAll ..)

@[simp] theorem still_State_rst (s : State) (fs : List Fld) (is : List Nat) : (State.rst s fs is).still = s.still := by
  unfold State.rst
  simp

@[simp] theorem keep_State_rst (s : State) (fs : List Fld) (is : List Nat) : (State.rst s fs is).kept = s.kept :=
  kept_of_still (still_State_rst ..)

@[simp] theorem still_State_emit (s : State) (k : EmitKind) (args : List Nat) : (State.emit s k args).still = s.still := by
  unfold State.emit
  rfl

@[simp] theorem keep_State_emit (s : State) (k : EmitKind) (args : List Nat) : (State.emit s k args).kept = s.kept :=
  kept_of_still (still_State_emit ..)

@[simp] theorem still_State_fresh (s : State) : (State.fresh s).2.still = s.still := by
  unfold State.fresh
  rfl

@[simp] theorem keep_State_fresh (s : State) : (State.fresh s).2.kept = s.kept :=
  kept_of_still (still_State_fresh ..)

@[simp] theorem still_State_setCmpState (s : State) (c : Nat) (st : CmpState) : (State.setCmpState s c st).still = s.still := by
  unfold State.setCmpState
  simp

@[simp] theorem keep_State_setCmpState (s : State) (c : Nat) (st : CmpState) : (State.setCmpState s c st).kept = s.kept :=
  kept_of_still (still_State_setCmpState ..)

@[simp] theorem still_State_setGrants (s : State) (c : Nat) (g : Grants) : (State.setGrants s c g).still = s.still := by
  unfold State.setGrants
  rfl

@[simp] theorem keep_State_setGrants (s : State) (c : Nat) (g : Grants) : (State.setGrants s c g).kept = s.kept :=
  kept_of_still (still_State_setGrants ..)

@[simp] theorem still_State_arbitrate (s : State) (p : Point) (n : Nat) (claims : List Nat) : (State.arbitrate s p n claims).2.still = s.still := by
  unfold State.arbitrate
  dsimp only
  (repeat' split) <;> simp_all

@[simp] theorem keep_State_arbitrate (s : State) (p : Point) (n : Nat) (claims : List Nat) : (State.arbitrate s p n claims).2.kept = s.kept :=
  kept_of_still (still_State_arbitrate ..)

@[simp] theorem still_State_msiSend (s : State) (fn e : Nat) : (State.msiSend s fn e).still = s.still := by
  unfold State.msiSend
  simp

@[simp] theorem keep_State_msiSend (s : State) (fn e : Nat) : (State.msiSend s fn e).kept = s.kept :=
  kept_of_still (still_State_msiSend ..)

@[simp] theorem still_State_deliverTargets (s : State) (fn v : Nat) : (State.deliverTargets s fn v).still = s.still := by
  unfold State.deliverTargets
  simp

@[simp] theorem keep_State_deliverTargets (s : State) (fn v : Nat) : (State.deliverTargets s fn v).kept = s.kept :=
  kept_of_still (still_State_deliverTargets ..)

@[simp] theorem still_State_deliver (s : State) (fn v : Nat) : (State.deliver s fn v).still = s.still := by
  unfold State.deliver
  (repeat' split) <;> simp

@[simp] theorem keep_State_deliver (s : State) (fn v : Nat) : (State.deliver s fn v).kept = s.kept :=
  kept_of_still (still_State_deliver ..)

@[simp] theorem still_State_deliverOrHold (s : State) (fn v : Nat) : (State.deliverOrHold s fn v).still = s.still := by
  unfold State.deliverOrHold
  simp

@[simp] theorem keep_State_deliverOrHold (s : State) (fn v : Nat) : (State.deliverOrHold s fn v).kept = s.kept :=
  kept_of_still (still_State_deliverOrHold ..)

@[simp] theorem still_State_vecRaise (s : State) (fn v : Nat) : (State.vecRaise s fn v).still = s.still := by
  unfold State.vecRaise
  simp

@[simp] theorem keep_State_vecRaise (s : State) (fn v : Nat) : (State.vecRaise s fn v).kept = s.kept :=
  kept_of_still (still_State_vecRaise ..)

@[simp] theorem still_State_raiseSrc (s : State) (n : Nat) : (State.raiseSrc s n).still = s.still := by
  unfold State.raiseSrc
  simp

@[simp] theorem keep_State_raiseSrc (s : State) (n : Nat) : (State.raiseSrc s n).kept = s.kept :=
  kept_of_still (still_State_raiseSrc ..)

@[simp] theorem still_State_occur (s : State) (n : Nat) : (State.occur s n).still = s.still := by
  unfold State.occur
  simp

@[simp] theorem keep_State_occur (s : State) (n : Nat) : (State.occur s n).kept = s.kept :=
  kept_of_still (still_State_occur ..)

@[simp] theorem still_State_aeqRaise (s : State) (fn : Nat) : (State.aeqRaise s fn).still = s.still := by
  unfold State.aeqRaise
  simp

@[simp] theorem keep_State_aeqRaise (s : State) (fn : Nat) : (State.aeqRaise s fn).kept = s.kept :=
  kept_of_still (still_State_aeqRaise ..)

@[simp] theorem still_State_aeqPost (s : State) (fn code port obj seq : Nat) : (State.aeqPost s fn code port obj seq).still = s.still := by
  unfold State.aeqPost
  simp

@[simp] theorem keep_State_aeqPost (s : State) (fn code port obj seq : Nat) : (State.aeqPost s fn code port obj seq).kept = s.kept :=
  kept_of_still (still_State_aeqPost ..)

@[simp] theorem still_State_enqDev (s : State) (r : Incident) : (State.enqDev s r).still = s.still := by
  unfold State.enqDev
  simp

@[simp] theorem keep_State_enqDev (s : State) (r : Incident) : (State.enqDev s r).kept = s.kept :=
  kept_of_still (still_State_enqDev ..)

@[simp] theorem still_State_enqCmp (s : State) (c : Nat) (r : Incident) : (State.enqCmp s c r).still = s.still := by
  unfold State.enqCmp
  simp

@[simp] theorem keep_State_enqCmp (s : State) (c : Nat) (r : Incident) : (State.enqCmp s c r).kept = s.kept :=
  kept_of_still (still_State_enqCmp ..)

@[simp] theorem still_State_postOne (s : State) (p : Post) : (State.postOne s p).2.still = s.still := by
  unfold State.postOne
  simp

@[simp] theorem keep_State_postOne (s : State) (p : Post) : (State.postOne s p).2.kept = s.kept :=
  kept_of_still (still_State_postOne ..)

@[simp] theorem still_State_deviceEffects (s : State) (seq : Nat) : (State.deviceEffects s seq).still = s.still := by
  unfold State.deviceEffects
  dsimp only
  (repeat' split) <;> simp_all

@[simp] theorem keep_State_deviceEffects (s : State) (seq : Nat) : (State.deviceEffects s seq).kept = s.kept :=
  kept_of_still (still_State_deviceEffects ..)

@[simp] theorem still_State_postQ (s : State) (p : Post) : (State.postQ s p).2.still = s.still := by
  unfold State.postQ
  (repeat' split) <;> simp

@[simp] theorem keep_State_postQ (s : State) (p : Post) : (State.postQ s p).2.kept = s.kept :=
  kept_of_still (still_State_postQ ..)

@[simp] theorem still_State_post (s : State) (p : Post) : (State.post s p).still = s.still := by
  unfold State.post
  simp

@[simp] theorem keep_State_post (s : State) (p : Post) : (State.post s p).kept = s.kept :=
  kept_of_still (still_State_post ..)

@[simp] theorem still_State_countFrame (s : State) (key : Nat) : (State.countFrame s key).still = s.still := by
  unfold State.countFrame
  rfl

@[simp] theorem keep_State_countFrame (s : State) (key : Nat) : (State.countFrame s key).kept = s.kept :=
  kept_of_still (still_State_countFrame ..)

@[simp] theorem still_State_postLimited (s : State) (key limit : Nat) (p : Post) : (State.postLimited s key limit p).still = s.still := by
  unfold State.postLimited
  simp

@[simp] theorem keep_State_postLimited (s : State) (key limit : Nat) (p : Post) : (State.postLimited s key limit p).kept = s.kept :=
  kept_of_still (still_State_postLimited ..)

@[simp] theorem still_State_foreignOrder (s : State) (fn off code : Nat) : (State.foreignOrder s fn off code).still = s.still := by
  unfold State.foreignOrder
  simp

@[simp] theorem keep_State_foreignOrder (s : State) (fn off code : Nat) : (State.foreignOrder s fn off code).kept = s.kept :=
  kept_of_still (still_State_foreignOrder ..)

@[simp] theorem still_State_logClamp (s : State) (e : ClampEntry) : (State.logClamp s e).still = s.still := by
  unfold State.logClamp
  simp

@[simp] theorem keep_State_logClamp (s : State) (e : ClampEntry) : (State.logClamp s e).kept = s.kept :=
  kept_of_still (still_State_logClamp ..)

@[simp] theorem keep_State_poisonLine (s : State) (l : Nat) : (State.poisonLine s l).kept = s.kept := by
  unfold State.poisonLine
  simp

@[simp] theorem keep_State_poisonLines (s : State) (ls : List Nat) : (State.poisonLines s ls).kept = s.kept := by
  unfold State.poisonLines
  simp

@[simp] theorem keep_State_hostPoisonLines (s : State) (ls : List Nat) : (State.hostPoisonLines s ls).kept = s.kept := by
  unfold State.hostPoisonLines
  rfl

@[simp] theorem keep_State_cleanLines (s : State) (a n : Nat) : (State.cleanLines s a n).kept = s.kept := by
  unfold State.cleanLines
  rfl

@[simp] theorem keep_State_accWrite (s : State) (key a : Nat) (bs : List Byte) : (State.accWrite s key a bs).kept = s.kept := by
  unfold State.accWrite
  rfl

@[simp] theorem keep_State_hostWrite (s : State) (port a : Nat) (bs : List Byte) : (State.hostWrite s port a bs).kept = s.kept := by
  unfold State.hostWrite
  rfl

@[simp] theorem still_State_setUp (s : State) (source fn off : Nat) (f : Fld) (i lo v : Nat) (look : Fld → Nat → Nat) : (State.setUp s source fn off f i lo v look).still = s.still := by
  unfold State.setUp
  dsimp only
  (repeat' split) <;> simp_all

@[simp] theorem keep_State_setUp (s : State) (source fn off : Nat) (f : Fld) (i lo v : Nat) (look : Fld → Nat → Nat) : (State.setUp s source fn off f i lo v look).kept = s.kept :=
  kept_of_still (still_State_setUp ..)

@[simp] theorem still_State_flushBoot (s : State) : (State.flushBoot s).still = s.still := by
  unfold State.flushBoot
  dsimp only
  (repeat' split) <;> simp_all

@[simp] theorem keep_State_flushBoot (s : State) : (State.flushBoot s).kept = s.kept :=
  kept_of_still (still_State_flushBoot ..)

@[simp] theorem still_State_incRingUpdate (s : State) (source fn off : Nat) (dev : Bool) (c : Nat) : (State.incRingUpdate s source fn off dev c).still = s.still := by
  unfold State.incRingUpdate
  simp

@[simp] theorem keep_State_incRingUpdate (s : State) (source fn off : Nat) (dev : Bool) (c : Nat) : (State.incRingUpdate s source fn off dev c).kept = s.kept :=
  kept_of_still (still_State_incRingUpdate ..)

@[simp] theorem still_State_afterWrite (s : State) (source fn off : Nat) (f : Fld) (i : Nat) : (State.afterWrite s source fn off f i).still = s.still := by
  unfold State.afterWrite
  (repeat' split) <;> simp

@[simp] theorem keep_State_afterWrite (s : State) (source fn off : Nat) (f : Fld) (i : Nat) : (State.afterWrite s source fn off f i).kept = s.kept :=
  kept_of_still (still_State_afterWrite ..)

@[simp] theorem still_State_writeField (s : State) (source fn off : Nat) (hs : List Hit) (val : Nat) (done : List Fld) (h : Hit) : (State.writeField s source fn off hs val done h).still = s.still := by
  unfold State.writeField
  dsimp only
  (repeat' split) <;> simp_all

@[simp] theorem keep_State_writeField (s : State) (source fn off : Nat) (hs : List Hit) (val : Nat) (done : List Fld) (h : Hit) : (State.writeField s source fn off hs val done h).kept = s.kept :=
  kept_of_still (still_State_writeField (h := h) ..)

@[simp] theorem still_State_writeFields (s : State) (source fn off val : Nat) (hs : List Hit) :
    (s.writeFields source fn off val hs).still = s.still :=
  kept_fold_of (fun (a : State × List Fld) => a.1.still) _ (by simp) _ _

@[simp] theorem keep_State_writeFields (s : State) (source fn off val : Nat) (hs : List Hit) :
    (s.writeFields source fn off val hs).kept = s.kept :=
  kept_of_still (still_State_writeFields ..)

@[simp] theorem still_State_guardWrite (s : State) (fn off val : Nat) (hs : List Hit) (k : State → State) (h : ∀ s, (k s).still = s.still) :
    (s.guardWrite fn off val hs k).still = s.still := by
  unfold State.guardWrite
  (repeat' split) <;> simp [h]

@[simp] theorem keep_State_guardWrite (s : State) (fn off val : Nat) (hs : List Hit) (k : State → State) (h : ∀ s, (k s).kept = s.kept) :
    (s.guardWrite fn off val hs k).kept = s.kept := by
  unfold State.guardWrite
  (repeat' split) <;> simp [h]

@[simp] theorem still_State_stageLow (s : State) (fn off val : Nat) : (State.stageLow s fn off val).still = s.still := by
  unfold State.stageLow
  rfl

@[simp] theorem keep_State_stageLow (s : State) (fn off val : Nat) : (State.stageLow s fn off val).kept = s.kept :=
  kept_of_still (still_State_stageLow ..)

@[simp] theorem still_State_commitPair (s : State) (source fn off val : Nat) (h : Hit) : (State.commitPair s source fn off val h).still = s.still := by
  unfold State.commitPair
  dsimp only
  (repeat' split) <;> simp_all

@[simp] theorem keep_State_commitPair (s : State) (source fn off val : Nat) (h : Hit) : (State.commitPair s source fn off val h).kept = s.kept :=
  kept_of_still (still_State_commitPair (h := h) ..)

@[simp] theorem still_State_mailboxWrite (s : State) (fn idx w val : Nat) (sender : Bool) : (State.mailboxWrite s fn idx w val sender).still = s.still := by
  unfold State.mailboxWrite
  simp

@[simp] theorem keep_State_mailboxWrite (s : State) (fn idx w val : Nat) (sender : Bool) : (State.mailboxWrite s fn idx w val sender).kept = s.kept :=
  kept_of_still (still_State_mailboxWrite ..)

@[simp] theorem still_State_msixWrite (s : State) (fn e w val : Nat) : (State.msixWrite s fn e w val).still = s.still := by
  unfold State.msixWrite
  simp

@[simp] theorem keep_State_msixWrite (s : State) (fn e w val : Nat) : (State.msixWrite s fn e w val).kept = s.kept :=
  kept_of_still (still_State_msixWrite ..)

@[simp] theorem still_State_consWrite (s : State) (fn : Nat) (h : Hit) (val : Nat) : (State.consWrite s fn h val).still = s.still := by
  unfold State.consWrite
  (repeat' split) <;> simp

@[simp] theorem keep_State_consWrite (s : State) (fn : Nat) (h : Hit) (val : Nat) : (State.consWrite s fn h val).kept = s.kept :=
  kept_of_still (still_State_consWrite (h := h) ..)

@[simp] theorem still_State_setCset (s : State) (k : Nat) (ls : List CLine) : (State.setCset s k ls).still = s.still := by
  unfold State.setCset
  rfl

@[simp] theorem keep_State_setCset (s : State) (k : Nat) (ls : List CLine) : (State.setCset s k ls).kept = s.kept :=
  kept_of_still (still_State_setCset ..)

@[simp] theorem keep_State_discard (s : State) (line : Nat) (u : Under) : (State.discard s line u).kept = s.kept := by
  unfold State.discard
  rfl

@[simp] theorem keep_State_writeBack (s : State) (x : CLine) : (State.writeBack s x).kept = s.kept := by
  unfold State.writeBack
  (repeat' split) <;> simp

@[simp] theorem keep_State_evicted (s : State) (x : CLine) : (State.evicted s x).kept = s.kept := by
  unfold State.evicted
  simp

@[simp] theorem still_State_staleMiss (s : State) (c line : Nat) (but : Option Nat) : (State.staleMiss s c line but).still = s.still := by
  unfold State.staleMiss
  rfl

@[simp] theorem keep_State_staleMiss (s : State) (c line : Nat) (but : Option Nat) : (State.staleMiss s c line but).kept = s.kept :=
  kept_of_still (still_State_staleMiss ..)

@[simp] theorem keep_State_place (s : State) (c line : Nat) (dirty : Option Under) : (State.place s c line dirty).2.kept = s.kept := by
  unfold State.place
  dsimp only
  (repeat' split) <;> simp_all

@[simp] theorem still_State_hitLine (s : State) (k : Nat) (x : CLine) (indic write : Bool) : (State.hitLine s k x indic write).still = s.still := by
  unfold State.hitLine
  simp

@[simp] theorem keep_State_hitLine (s : State) (k : Nat) (x : CLine) (indic write : Bool) : (State.hitLine s k x indic write).kept = s.kept :=
  kept_of_still (still_State_hitLine ..)

@[simp] theorem keep_State_touchLine (s : State) (c : Nat) (indic nc write : Bool) (line : Nat) : (State.touchLine s c indic nc write line).kept = s.kept := by
  unfold State.touchLine
  (repeat' split) <;> simp

@[simp] theorem keep_State_touch (s : State) (c : Nat) (indic nc write : Bool) (a n : Nat) : (State.touch s c indic nc write a n).kept = s.kept := by
  unfold State.touch
  simp

@[simp] theorem still_State_returnData (s : State) (port a : Nat) (poison : Bool) (bs : List Byte) : (State.returnData s port a poison bs).still = s.still := by
  unfold State.returnData
  rfl

@[simp] theorem keep_State_returnData (s : State) (port a : Nat) (poison : Bool) (bs : List Byte) : (State.returnData s port a poison bs).kept = s.kept :=
  kept_of_still (still_State_returnData ..)

@[simp] theorem keep_State_cmpWrite (s : State) (c a : Nat) (bs : List Byte) : (State.cmpWrite s c a bs).kept = s.kept := by
  unfold State.cmpWrite
  simp

@[simp] theorem still_State_openMiss (s : State) (m : Miss) : (State.openMiss s m).still = s.still := by
  unfold State.openMiss
  rfl

@[simp] theorem keep_State_openMiss (s : State) (m : Miss) : (State.openMiss s m).kept = s.kept :=
  kept_of_still (still_State_openMiss ..)

theorem keep_execSliceRequest (port cmp addr len : Nat) (write indic nc : Bool) (data : List Nat) (s : State) (t : State) (h : execSliceRequest port cmp addr len write indic nc data s = .next t) : t.kept = s.kept := by
  unfold execSliceRequest at h
  dsimp only at h
  (repeat' split at h) <;> (cases h; simp_all)

theorem keep_execFillReturn (slice id : Nat) (s : State) (t : State) (h : execFillReturn slice id s = .next t) : t.kept = s.kept := by
  unfold execFillReturn at h
  dsimp only at h
  (repeat' split at h) <;> (cases h; simp_all)

@[simp] theorem keep_State_mtTag (s : State) (op : MtOp) (x : CLine) : (State.mtTag s op x).2.2.kept = s.kept := by
  unfold State.mtTag
  (repeat' split) <;> simp

@[simp] theorem keep_State_mtSet (s : State) (op : MtOp) (p : CLine → Bool) (k : Nat) : (s.mtSet op p k).2.kept = s.kept := by
  unfold State.mtSet
  have h := kept_fold_of (fun (a : List CLine × Nat × State) => a.2.2.kept)
    (fun a x => if p x then
      let m := a.2.2.mtTag op x
      (a.1 ++ m.1.toList, a.2.1 + b2n m.2.1, m.2.2)
    else (a.1 ++ [x], a.2.1, a.2.2)) (by intro b x; dsimp only; split <;> simp) (s.cset k) ([], 0, s)
  simpa using h

@[simp] theorem keep_State_mtAll (s : State) (op : MtOp) (p : CLine → Bool) : (State.mtAll s op p).2.kept = s.kept := by
  unfold State.mtAll
  simp

@[simp] theorem keep_State_mtFill (s : State) (c line : Nat) : (State.mtFill s c line).2.kept = s.kept := by
  unfold State.mtFill
  (repeat' split) <;> simp

@[simp] theorem keep_State_maintain (s : State) (op : MtOp) (fn c : Nat) : (State.maintain s op fn c).kept = s.kept := by
  unfold State.maintain
  (repeat' split) <;> simp

theorem keep_execFill (fn cmp : Nat) (s : State) (t : State) (h : execFill fn cmp s = .next t) : t.kept = s.kept := by
  unfold execFill at h
  cases h; simp

theorem keep_execClean (fn cmp : Nat) (s : State) (t : State) (h : execClean fn cmp s = .next t) : t.kept = s.kept := by
  unfold execClean at h
  cases h; simp

theorem keep_execInvalidate (fn cmp : Nat) (s : State) (t : State) (h : execInvalidate fn cmp s = .next t) : t.kept = s.kept := by
  unfold execInvalidate at h
  cases h; simp

theorem keep_execFlush (fn cmp : Nat) (s : State) (t : State) (h : execFlush fn cmp s = .next t) : t.kept = s.kept := by
  unfold execFlush at h
  cases h; simp

theorem still_execMaintenanceDone (cmp : Nat) (s : State) (t : State) (h : execMaintenanceDone cmp s = .next t) : t.still = s.still := by
  unfold execMaintenanceDone at h
  (repeat' split at h) <;> (cases h; simp)

theorem keep_execMaintenanceDone (cmp : Nat) (s : State) (t : State) (h : execMaintenanceDone cmp s = .next t) : t.kept = s.kept :=
  kept_of_still (still_execMaintenanceDone (h := h) ..)

theorem keep_execPinnedWayChange (fn cmp win value : Nat) (s : State) (t : State) (h : execPinnedWayChange fn cmp win value s = .next t) : t.kept = s.kept := by
  unfold execPinnedWayChange at h
  dsimp only at h
  (repeat' split at h) <;> (cases h; simp_all)

theorem still_execPinFlushDone (cmp : Nat) (s : State) (t : State) (h : execPinFlushDone cmp s = .next t) : t.still = s.still := by
  unfold execPinFlushDone at h
  (repeat' split at h) <;> (cases h; simp)

theorem keep_execPinFlushDone (cmp : Nat) (s : State) (t : State) (h : execPinFlushDone cmp s = .next t) : t.kept = s.kept :=
  kept_of_still (still_execPinFlushDone (h := h) ..)

@[simp] theorem still_State_endPinFlush (s : State) : (State.endPinFlush s).still = s.still := by
  unfold State.endPinFlush
  simp

@[simp] theorem keep_State_endPinFlush (s : State) : (State.endPinFlush s).kept = s.kept :=
  kept_of_still (still_State_endPinFlush ..)

@[simp] theorem keep_State_coldCache (s : State) : s.coldCache.kept = s.kept := by
  unfold State.coldCache
  simp only [kept_mk, kept_fold]
  refine kept_foldl _ (fun s e => kept_foldl _ (fun s x => ?_) _ _) _ _
  split <;> simp

@[simp] theorem keep_State_scrubCache (s : State) (c : Nat) : (State.scrubCache s c).kept = s.kept := by
  unfold State.scrubCache
  simp

@[simp] theorem still_State_breach (s : State) (c : Nat) (k : Breach) (b : BreachAt) : (State.breach s c k b).still = s.still := by
  unfold State.breach
  simp

@[simp] theorem keep_State_breach (s : State) (c : Nat) (k : Breach) (b : BreachAt) : (State.breach s c k b).kept = s.kept :=
  kept_of_still (still_State_breach ..)

@[simp] theorem still_State_opBreach (s : State) (o : Op) (k : Breach) (b : BreachAt) : (State.opBreach s o k b).2.still = s.still := by
  unfold State.opBreach
  (repeat' split) <;> simp

@[simp] theorem keep_State_opBreach (s : State) (o : Op) (k : Breach) (b : BreachAt) : (State.opBreach s o k b).2.kept = s.kept :=
  kept_of_still (still_State_opBreach ..)

@[simp] theorem still_State_postFault (s : State) (c : Nat) (indic : Bool) (f : Flt) (port func ring index : Nat) (list : Option Nat) : (State.postFault s c indic f port func ring index list).still = s.still := by
  unfold State.postFault
  simp

@[simp] theorem keep_State_postFault (s : State) (c : Nat) (indic : Bool) (f : Flt) (port func ring index : Nat) (list : Option Nat) : (State.postFault s c indic f port func ring index list).kept = s.kept :=
  kept_of_still (still_State_postFault ..)

@[simp] theorem still_State_pushPort (s : State) (port : Nat) (t : Trans) : (s.pushPort port t).still = s.still := by
  rfl

@[simp] theorem keep_State_pushPort (s : State) (port : Nat) (t : Trans) : (s.pushPort port t).kept = s.kept :=
  kept_of_still (still_State_pushPort ..)

@[simp] theorem still_State_trimPort (s : State) (port c : Nat) : (s.trimPort port c).still = s.still := by
  rfl

@[simp] theorem keep_State_trimPort (s : State) (port c : Nat) : (s.trimPort port c).kept = s.kept :=
  kept_of_still (still_State_trimPort ..)

@[simp] theorem still_State_portUse (s : State) (port : Nat) (t : Trans) : (s.portUse port t).still = s.still := by
  unfold State.portUse
  split <;> simp

@[simp] theorem keep_State_portUse (s : State) (port : Nat) (t : Trans) : (s.portUse port t).kept = s.kept :=
  kept_of_still (still_State_portUse ..)

@[simp] theorem still_State_fillPort (s : State) (port : Nat) (t : Trans) : (State.fillPort s port t).still = s.still := by
  unfold State.fillPort
  simp

@[simp] theorem keep_State_fillPort (s : State) (port : Nat) (t : Trans) : (State.fillPort s port t).kept = s.kept :=
  kept_of_still (still_State_fillPort ..)

@[simp] theorem still_State_fillRange (s : State) (port : Nat) (t : Trans) : (State.fillRange s port t).still = s.still := by
  unfold State.fillRange
  simp

@[simp] theorem keep_State_fillRange (s : State) (port : Nat) (t : Trans) : (State.fillRange s port t).kept = s.kept :=
  kept_of_still (still_State_fillRange ..)

@[simp] theorem still_State_fillShared (s : State) (t : Trans) : (State.fillShared s t).still = s.still := by
  unfold State.fillShared
  split <;> rfl

@[simp] theorem keep_State_fillShared (s : State) (t : Trans) : (State.fillShared s t).kept = s.kept :=
  kept_of_still (still_State_fillShared ..)

@[simp] theorem still_State_walkNow (s : State) (port c va : Nat) (indic : Bool) (need : Need) : (State.walkNow s port c va indic need).2.still = s.still := by
  unfold State.walkNow
  dsimp only
  (repeat' split) <;> simp_all

@[simp] theorem keep_State_walkNow (s : State) (port c va : Nat) (indic : Bool) (need : Need) : (State.walkNow s port c va indic need).2.kept = s.kept :=
  kept_of_still (still_State_walkNow ..)

@[simp] theorem still_State_translate (s : State) (port c va : Nat) (indic : Bool) (need : Need) : (State.translate s port c va indic need).2.2.still = s.still := by
  unfold State.translate
  dsimp only
  (repeat' split) <;> simp_all

@[simp] theorem keep_State_translate (s : State) (port c va : Nat) (indic : Bool) (need : Need) : (State.translate s port c va indic need).2.2.kept = s.kept :=
  kept_of_still (still_State_translate ..)

@[simp] theorem still_State_mapSpan (s : State) (port c : Nat) (indic : Bool) (need : Need) (fuel va n : Nat) :
    (s.mapSpan port c indic need fuel va n).2.2.2.still = s.still := by
  induction fuel generalizing s va n with
  | zero => rfl
  | succ fuel ih =>
    simp only [State.mapSpan]
    split
    · rfl
    · split <;> simp [ih]

@[simp] theorem keep_State_mapSpan (s : State) (port c : Nat) (indic : Bool) (need : Need) (fuel va n : Nat) :
    (s.mapSpan port c indic need fuel va n).2.2.2.kept = s.kept :=
  kept_of_still (still_State_mapSpan ..)

@[simp] theorem still_State_clearCopies (s : State) (c a n : Nat) : (s.clearCopies c a n).still = s.still := by
  unfold State.clearCopies
  refine still_foldl _ (fun s e => ?_) _ _
  simp only [still_mk, still_fold]
  rw [still_foldl _ (by simp)]
  simp

@[simp] theorem keep_State_clearCopies (s : State) (c a n : Nat) : (s.clearCopies c a n).kept = s.kept :=
  kept_of_still (still_State_clearCopies ..)

@[simp] theorem keep_State_piecesWrite (s : State) (c : Nat) (indic : Bool) (ps : List Piece) (bs : List Byte) :
    (s.piecesWrite c indic ps bs).kept = s.kept := by
  induction ps generalizing s bs with
  | nil => rfl
  | cons p ps ih =>
    simp only [State.piecesWrite, ih]
    split <;> simp

@[simp] theorem keep_State_touchPieces (s : State) (c : Nat) (indic : Bool) (ps : List Piece) : (State.touchPieces s c indic ps).kept = s.kept := by
  unfold State.touchPieces
  simp

@[simp] theorem keep_State_vread (s : State) (port c : Nat) (indic : Bool) (need : Need) (accOnly : Bool) (va n : Nat) :
    (s.vread port c indic need accOnly va n).2.2.kept = s.kept := by
  unfold State.vread
  dsimp only
  split
  · simp
  · (repeat' split) <;> simp

@[simp] theorem keep_State_adminRead (s : State) (accOnly : Bool) (va n : Nat) : (State.adminRead s accOnly va n).2.kept = s.kept := by
  unfold State.adminRead
  simp

@[simp] theorem still_State_dropTrans (s : State) (p : Trans → Bool) (q : Walk → Bool) : (State.dropTrans s p q).still = s.still := by
  unfold State.dropTrans
  rfl

@[simp] theorem keep_State_dropTrans (s : State) (p : Trans → Bool) (q : Walk → Bool) : (State.dropTrans s p q).kept = s.kept :=
  kept_of_still (still_State_dropTrans ..)

@[simp] theorem still_State_invalidate (s : State) (c va n : Nat) : (State.invalidate s c va n).still = s.still := by
  unfold State.invalidate
  rfl

@[simp] theorem keep_State_invalidate (s : State) (c va n : Nat) : (State.invalidate s c va n).kept = s.kept :=
  kept_of_still (still_State_invalidate ..)

@[simp] theorem still_State_unpin (s : State) (c : Nat) (pre : List (Nat × Nat)) (keep : List (Nat × Nat)) : (State.unpin s c pre keep).still = s.still := by
  unfold State.unpin
  simp

@[simp] theorem keep_State_unpin (s : State) (c : Nat) (pre : List (Nat × Nat)) (keep : List (Nat × Nat)) : (State.unpin s c pre keep).kept = s.kept :=
  kept_of_still (still_State_unpin ..)

@[simp] theorem still_State_setCfg (s : State) (fn : Nat) (k : Cfg) (v : Nat) : (State.setCfg s fn k v).still = s.still := by
  unfold State.setCfg
  rfl

@[simp] theorem keep_State_setCfg (s : State) (fn : Nat) (k : Cfg) (v : Nat) : (State.setCfg s fn k v).kept = s.kept :=
  kept_of_still (still_State_setCfg ..)

@[simp] theorem still_State_hostUse (s : State) (port fn : Nat) (pasid : Option Nat) (va : Nat) (write : Bool) : (s.hostUse port fn pasid va write).still = s.still := by
  unfold State.hostUse
  dsimp only
  (repeat' split) <;> simp

@[simp] theorem keep_State_hostUse (s : State) (port fn : Nat) (pasid : Option Nat) (va : Nat) (write : Bool) : (s.hostUse port fn pasid va write).kept = s.kept :=
  kept_of_still (still_State_hostUse ..)

@[simp] theorem still_State_atsIssue (s : State) (q : AtsReq) : (s.atsIssue q).still = s.still := by
  unfold State.atsIssue
  simp

@[simp] theorem keep_State_atsIssue (s : State) (q : AtsReq) : (s.atsIssue q).kept = s.kept :=
  kept_of_still (still_State_atsIssue ..)

@[simp] theorem still_State_atsPump (s : State) : (s.atsPump).still = s.still := by
  unfold State.atsPump
  exact still_foldl _ (fun s q => by split <;> simp) _ _

@[simp] theorem keep_State_atsPump (s : State) : (s.atsPump).kept = s.kept :=
  kept_of_still (still_State_atsPump ..)

@[simp] theorem still_State_atsRequest (s : State) (fn : Nat) (pasid win : Option Nat) (port va : Nat) : (s.atsRequest fn pasid win port va).still = s.still := by
  unfold State.atsRequest
  dsimp only
  split <;> simp

@[simp] theorem keep_State_atsRequest (s : State) (fn : Nat) (pasid win : Option Nat) (port va : Nat) : (s.atsRequest fn pasid win port va).kept = s.kept :=
  kept_of_still (still_State_atsRequest ..)

@[simp] theorem still_State_hold (s : State) (h : Held) : (State.hold s h).still = s.still := by
  unfold State.hold
  split
  · simp
  · rfl

@[simp] theorem keep_State_hold (s : State) (h : Held) : (State.hold s h).kept = s.kept :=
  kept_of_still (still_State_hold (h := h) ..)

@[simp] theorem still_State_dropHeld (s : State) (p : Held → Bool) : (s.dropHeld p).still = s.still := by
  rfl

@[simp] theorem keep_State_dropHeld (s : State) (p : Held → Bool) : (s.dropHeld p).kept = s.kept :=
  kept_of_still (still_State_dropHeld ..)

@[simp] theorem still_State_addRound (s : State) (op page : Nat) : (State.addRound s op page).still = s.still := by
  unfold State.addRound
  rfl

@[simp] theorem keep_State_addRound (s : State) (op page : Nat) : (State.addRound s op page).kept = s.kept :=
  kept_of_still (still_State_addRound ..)

theorem still_State_prgSend (s t : State) (fn : Nat) (h : s.prgSend fn = some t) : t.still = s.still := by
  unfold State.prgSend at h
  dsimp only at h
  (repeat' split at h) <;> cases h <;> simp

@[simp] theorem still_State_prgPump (s : State) (fn n : Nat) : (s.prgPump fn n).still = s.still := by
  induction n generalizing s with
  | zero => rfl
  | succ n ih =>
    unfold State.prgPump
    split
    · rename_i t h; rw [ih, still_State_prgSend _ _ _ h]
    · rfl

@[simp] theorem keep_State_prgPump (s : State) (fn n : Nat) : (s.prgPump fn n).kept = s.kept :=
  kept_of_still (still_State_prgPump ..)

@[simp] theorem still_State_prgGo (s : State) (fn : Nat) : (s.prgGo fn).still = s.still := by
  unfold State.prgGo
  simp

@[simp] theorem keep_State_prgGo (s : State) (fn : Nat) : (s.prgGo fn).kept = s.kept :=
  kept_of_still (still_State_prgGo ..)

@[simp] theorem still_State_pageRequest (s : State) (fn : Nat) (pasid : Option Nat) (pages : List Nat) (write : Bool) : (State.pageRequest s fn pasid pages write).still = s.still := by
  unfold State.pageRequest
  dsimp only
  split <;> simp

@[simp] theorem keep_State_pageRequest (s : State) (fn : Nat) (pasid : Option Nat) (pages : List Nat) (write : Bool) : (State.pageRequest s fn pasid pages write).kept = s.kept :=
  kept_of_still (still_State_pageRequest ..)

@[simp] theorem still_State_atsInvalidate (s : State) (fn : Nat) (q : InvReq) : (State.atsInvalidate s fn q).still = s.still := by
  unfold State.atsInvalidate
  rfl

@[simp] theorem keep_State_atsInvalidate (s : State) (fn : Nat) (q : InvReq) : (State.atsInvalidate s fn q).kept = s.kept :=
  kept_of_still (still_State_atsInvalidate ..)

@[simp] theorem still_State_atsForget (s : State) (fn : Nat) : (State.atsForget s fn).still = s.still := by
  unfold State.atsForget
  simp

@[simp] theorem keep_State_atsForget (s : State) (fn : Nat) : (State.atsForget s fn).kept = s.kept :=
  kept_of_still (still_State_atsForget ..)

@[simp] theorem still_State_atomStats (s : State) (c : Nat) (f : Flg) : (State.atomStats s c f).still = s.still := by
  unfold State.atomStats
  simp

@[simp] theorem keep_State_atomStats (s : State) (c : Nat) (f : Flg) : (State.atomStats s c f).kept = s.kept :=
  kept_of_still (still_State_atomStats ..)

@[simp] theorem keep_State_atomAt (s : State) (c a op fmt : Nat) (ftz sat : Bool) (operand compare : Nat) :
    (s.atomAt c a op fmt ftz sat operand compare).2.kept = s.kept := by
  unfold State.atomAt
  dsimp only
  split <;> simp

@[simp] theorem still_State_setRun (s : State) (fn n : Nat) (r : RingRun) : (State.setRun s fn n r).still = s.still := by
  unfold State.setRun
  rfl

@[simp] theorem keep_State_setRun (s : State) (fn n : Nat) (r : RingRun) : (State.setRun s fn n r).kept = s.kept :=
  kept_of_still (still_State_setRun ..)

@[simp] theorem still_State_setRing (s : State) (fn n : Nat) (st : RingState) : (State.setRing s fn n st).still = s.still := by
  unfold State.setRing
  rfl

@[simp] theorem keep_State_setRing (s : State) (fn n : Nat) (st : RingState) : (State.setRing s fn n st).kept = s.kept :=
  kept_of_still (still_State_setRing ..)

@[simp] theorem still_State_setOp (s : State) (o : Op) : (State.setOp s o).still = s.still := by
  unfold State.setOp
  rfl

@[simp] theorem keep_State_setOp (s : State) (o : Op) : (State.setOp s o).kept = s.kept :=
  kept_of_still (still_State_setOp ..)

@[simp] theorem still_State_dropOp (s : State) (id : Nat) : (State.dropOp s id).still = s.still := by
  unfold State.dropOp
  rfl

@[simp] theorem keep_State_dropOp (s : State) (id : Nat) : (State.dropOp s id).kept = s.kept :=
  kept_of_still (still_State_dropOp ..)

@[simp] theorem still_State_settle (s : State) (fn n : Nat) : (State.settle s fn n).still = s.still := by
  unfold State.settle
  rfl

@[simp] theorem keep_State_settle (s : State) (fn n : Nat) : (State.settle s fn n).kept = s.kept :=
  kept_of_still (still_State_settle ..)

@[simp] theorem still_State_releaseHeads (s : State) (obj v : Nat) : (State.releaseHeads s obj v).still = s.still := by
  unfold State.releaseHeads
  rfl

@[simp] theorem keep_State_releaseHeads (s : State) (obj v : Nat) : (State.releaseHeads s obj v).kept = s.kept :=
  kept_of_still (still_State_releaseHeads ..)

@[simp] theorem still_State_fireSlot (s : State) (i : Nat) : (State.fireSlot s i).still = s.still := by
  unfold State.fireSlot
  (repeat' split) <;> simp

@[simp] theorem keep_State_fireSlot (s : State) (i : Nat) : (State.fireSlot s i).kept = s.kept :=
  kept_of_still (still_State_fireSlot ..)

@[simp] theorem still_State_concordSet (s : State) (obj v : Nat) : (State.concordSet s obj v).still = s.still := by
  unfold State.concordSet
  simp

@[simp] theorem keep_State_concordSet (s : State) (obj v : Nat) : (State.concordSet s obj v).kept = s.kept :=
  kept_of_still (still_State_concordSet ..)

@[simp] theorem still_State_concordOp (s : State) (obj op v : Nat) : (State.concordOp s obj op v).still = s.still := by
  unfold State.concordOp
  simp

@[simp] theorem keep_State_concordOp (s : State) (obj op v : Nat) : (State.concordOp s obj op v).kept = s.kept :=
  kept_of_still (still_State_concordOp ..)

@[simp] theorem still_State_concordApply (s : State) (obj : Nat) (rs : List (Nat × Nat × Nat)) : (State.concordApply s obj rs).still = s.still := by
  unfold State.concordApply
  (repeat' split) <;> simp

@[simp] theorem keep_State_concordApply (s : State) (obj : Nat) (rs : List (Nat × Nat × Nat)) : (State.concordApply s obj rs).kept = s.kept :=
  kept_of_still (still_State_concordApply ..)

@[simp] theorem still_State_unarm (s : State) (i : Nat) : (State.unarm s i).still = s.still := by
  unfold State.unarm
  rfl

@[simp] theorem keep_State_unarm (s : State) (i : Nat) : (State.unarm s i).kept = s.kept :=
  kept_of_still (still_State_unarm ..)

@[simp] theorem still_State_refuseUse (s : State) (row c n : Nat) (owner : Option Nat) : (State.refuseUse s row c n owner).still = s.still := by
  unfold State.refuseUse
  (repeat' split) <;> simp

@[simp] theorem keep_State_refuseUse (s : State) (row c n : Nat) (owner : Option Nat) : (State.refuseUse s row c n owner).kept = s.kept :=
  kept_of_still (still_State_refuseUse ..)

@[simp] theorem still_State_refuseConcord (s : State) (c : Nat) (d : List Nat) : (State.refuseConcord s c d).still = s.still := by
  unfold State.refuseConcord
  (repeat' split) <;> simp

@[simp] theorem keep_State_refuseConcord (s : State) (c : Nat) (d : List Nat) : (State.refuseConcord s c d).kept = s.kept :=
  kept_of_still (still_State_refuseConcord ..)

@[simp] theorem still_State_takeCand (s : State) (fn n : Nat) (k : Cand) : (State.takeCand s fn n k).still = s.still := by
  unfold State.takeCand
  (repeat' split) <;> simp

@[simp] theorem keep_State_takeCand (s : State) (fn n : Nat) (k : Cand) : (State.takeCand s fn n k).kept = s.kept :=
  kept_of_still (still_State_takeCand ..)

@[simp] theorem still_State_newOp (s : State) (fn n c : Nat) (k : Cand) : (State.newOp s fn n c k).2.still = s.still := by
  unfold State.newOp
  rfl

@[simp] theorem keep_State_newOp (s : State) (fn n c : Nat) (k : Cand) : (State.newOp s fn n c k).2.kept = s.kept :=
  kept_of_still (still_State_newOp ..)

@[simp] theorem still_State_failCheck (s : State) (o : Op) (st : St) : (State.failCheck s o st).2.still = s.still := by
  unfold State.failCheck
  (repeat' split) <;> simp

@[simp] theorem keep_State_failCheck (s : State) (o : Op) (st : St) : (State.failCheck s o st).2.kept = s.kept :=
  kept_of_still (still_State_failCheck ..)

@[simp] theorem still_State_lateStart (s : State) (o : Op) : (State.lateStart s o).2.still = s.still := by
  unfold State.lateStart
  (repeat' split) <;> simp

@[simp] theorem keep_State_lateStart (s : State) (o : Op) : (State.lateStart s o).2.kept = s.kept :=
  kept_of_still (still_State_lateStart ..)

@[simp] theorem still_State_startNext (s : State) (fn n : Nat) (pick : List Nat → Bool) (work : Op → State → Op × State)
    (h : ∀ o s, (work o s).2.still = s.still) : (s.startNext fn n pick work).still = s.still := by
  unfold State.startNext
  split
  · split
    · rfl
    · dsimp only
      split <;> simp [h]
  · rfl

@[simp] theorem keep_State_startNext (s : State) (fn n : Nat) (pick : List Nat → Bool) (work : Op → State → Op × State)
    (h : ∀ o s, (work o s).2.kept = s.kept) : (s.startNext fn n pick work).kept = s.kept := by
  unfold State.startNext
  split
  · split
    · rfl
    · dsimp only
      split <;> simp [h]
  · rfl

@[simp] theorem still_State_opFault (s : State) (o : Op) (port result : Nat) (f : Flt) : (State.opFault s o port result f).2.still = s.still := by
  unfold State.opFault
  simp

@[simp] theorem keep_State_opFault (s : State) (o : Op) (port result : Nat) (f : Flt) : (State.opFault s o port result f).2.kept = s.kept :=
  kept_of_still (still_State_opFault ..)

@[simp] theorem still_State_opLate (s : State) (o : Op) (late : Bool) (va : Nat) : (State.opLate s o late va).2.still = s.still := by
  unfold State.opLate
  (repeat' split) <;> simp

@[simp] theorem keep_State_opLate (s : State) (o : Op) (late : Bool) (va : Nat) : (State.opLate s o late va).2.kept = s.kept :=
  kept_of_still (still_State_opLate ..)

@[simp] theorem keep_State_opRead (s : State) (o : Op) (port : Nat) (need : Need) (accOnly : Bool) (va n : Nat) : (State.opRead s o port need accOnly va n).2.2.kept = s.kept := by
  unfold State.opRead
  simp

@[simp] theorem still_State_listCheck (s : State) (p : Nat) : (State.listCheck s p).still = s.still := by
  unfold State.listCheck
  (repeat' split) <;> simp

@[simp] theorem keep_State_listCheck (s : State) (p : Nat) : (State.listCheck s p).kept = s.kept :=
  kept_of_still (still_State_listCheck ..)

@[simp] theorem still_State_listEnded (s : State) (o : Op) : (State.listEnded s o).still = s.still := by
  unfold State.listEnded
  (repeat' split) <;> simp

@[simp] theorem keep_State_listEnded (s : State) (o : Op) : (State.listEnded s o).kept = s.kept :=
  kept_of_still (still_State_listEnded ..)

@[simp] theorem still_State_stopCheck (s : State) (fn n : Nat) : (State.stopCheck s fn n).still = s.still := by
  unfold State.stopCheck
  simp

@[simp] theorem keep_State_stopCheck (s : State) (fn n : Nat) : (State.stopCheck s fn n).kept = s.kept :=
  kept_of_still (still_State_stopCheck ..)

@[simp] theorem still_State_setCplWaits (s : State) (k : Nat) (q : List CplWait) : (State.setCplWaits s k q).still = s.still := by
  unfold State.setCplWaits
  rfl

@[simp] theorem keep_State_setCplWaits (s : State) (k : Nat) (q : List CplWait) : (State.setCplWaits s k q).kept = s.kept :=
  kept_of_still (still_State_setCplWaits ..)

@[simp] theorem still_State_ringFull (s : State) (o : Op) : (State.ringFull s o).still = s.still := by
  unfold State.ringFull
  simp

@[simp] theorem keep_State_ringFull (s : State) (o : Op) : (State.ringFull s o).kept = s.kept :=
  kept_of_still (still_State_ringFull ..)

@[simp] theorem still_State_claimOne (s : State) (k : Nat) (w : CplWait) : (State.claimOne s k w).still = s.still := by
  unfold State.claimOne
  simp

@[simp] theorem keep_State_claimOne (s : State) (k : Nat) (w : CplWait) : (State.claimOne s k w).kept = s.kept :=
  kept_of_still (still_State_claimOne ..)

@[simp] theorem still_State_claimAll (s : State) (k : Nat) (ws : List CplWait) : (State.claimAll s k ws).still = s.still := by
  unfold State.claimAll
  simp

@[simp] theorem keep_State_claimAll (s : State) (k : Nat) (ws : List CplWait) : (State.claimAll s k ws).kept = s.kept :=
  kept_of_still (still_State_claimAll ..)

@[simp] theorem still_State_leave (s : State) (o : Op) : (State.leave s o).still = s.still := by
  unfold State.leave
  simp

@[simp] theorem keep_State_leave (s : State) (o : Op) : (State.leave s o).kept = s.kept :=
  kept_of_still (still_State_leave ..)

@[simp] theorem still_State_completeOps (s : State) (os : List Op) : (State.completeOps s os).still = s.still := by
  unfold State.completeOps
  simp

@[simp] theorem keep_State_completeOps (s : State) (os : List Op) : (State.completeOps s os).kept = s.kept :=
  kept_of_still (still_State_completeOps ..)

@[simp] theorem still_State_completeOne (s : State) (o : Op) : (State.completeOne s o).still = s.still := by
  unfold State.completeOne
  simp

@[simp] theorem keep_State_completeOne (s : State) (o : Op) : (State.completeOne s o).kept = s.kept :=
  kept_of_still (still_State_completeOne ..)

@[simp] theorem still_State_signalAll (s : State) (os : List Op) : (State.signalAll s os).still = s.still := by
  unfold State.signalAll
  simp

@[simp] theorem keep_State_signalAll (s : State) (os : List Op) : (State.signalAll s os).kept = s.kept :=
  kept_of_still (still_State_signalAll ..)

theorem still_execOperationComplete (ops : List Nat) (s : State) (t : State) (h : execOperationComplete ops s = .next t) : t.still = s.still := by
  unfold execOperationComplete at h
  cases h; simp

theorem keep_execOperationComplete (ops : List Nat) (s : State) (t : State) (h : execOperationComplete ops s = .next t) : t.kept = s.kept :=
  kept_of_still (still_execOperationComplete (h := h) ..)

@[simp] theorem still_State_cplFault (s : State) (fn n : Nat) (c : Option Nat) (poison : Bool) : (State.cplFault s fn n c poison).still = s.still := by
  unfold State.cplFault
  simp

@[simp] theorem keep_State_cplFault (s : State) (fn n : Nat) (c : Option Nat) (poison : Bool) : (State.cplFault s fn n c poison).kept = s.kept :=
  kept_of_still (still_State_cplFault ..)

@[simp] theorem still_State_cplWritten (s : State) (k : Nat) (w : CplWait) : (State.cplWritten s k w).still = s.still := by
  unfold State.cplWritten
  simp

@[simp] theorem keep_State_cplWritten (s : State) (k : Nat) (w : CplWait) : (State.cplWritten s k w).kept = s.kept :=
  kept_of_still (still_State_cplWritten ..)

@[simp] theorem still_State_cqFault (s : State) (n : Nat) (poison : Bool) : (State.cqFault s n poison).still = s.still := by
  unfold State.cqFault
  (repeat' split) <;> simp

@[simp] theorem keep_State_cqFault (s : State) (n : Nat) (poison : Bool) : (State.cqFault s n poison).kept = s.kept :=
  kept_of_still (still_State_cqFault ..)

@[simp] theorem still_State_cplLate (s : State) (k : Nat) (addr : Nat) : (State.cplLate s k addr).still = s.still := by
  unfold State.cplLate
  (repeat' split) <;> simp

@[simp] theorem keep_State_cplLate (s : State) (k : Nat) (addr : Nat) : (State.cplLate s k addr).kept = s.kept :=
  kept_of_still (still_State_cplLate ..)

theorem keep_execCompletionRecordWrite (fn ring : Nat) (outcome : Outcome3) (s : State) (t : State)
    (h : execCompletionRecordWrite fn ring outcome s = .next t) : t.kept = s.kept := by
  unfold execCompletionRecordWrite at h
  dsimp only at h
  (repeat' split at h) <;> (cases h; simp)

theorem still_execCommandTimeout (op : Nat) (s : State) (t : State) (h : execCommandTimeout op s = .next t) : t.still = s.still := by
  unfold execCommandTimeout at h
  dsimp only at h
  (repeat' split at h) <;> (cases h; simp_all)

theorem keep_execCommandTimeout (op : Nat) (s : State) (t : State) (h : execCommandTimeout op s = .next t) : t.kept = s.kept :=
  kept_of_still (still_execCommandTimeout (h := h) ..)

@[simp] theorem still_State_dropFired (s : State) (fn n : Nat) : (State.dropFired s fn n).still = s.still := by
  unfold State.dropFired
  simp

@[simp] theorem keep_State_dropFired (s : State) (fn n : Nat) : (State.dropFired s fn n).kept = s.kept :=
  kept_of_still (still_State_dropFired ..)

@[simp] theorem still_State_cancelRing (s : State) (fn n : Nat) : (State.cancelRing s fn n).still = s.still := by
  unfold State.cancelRing
  dsimp only
  (repeat' split) <;> simp_all

@[simp] theorem keep_State_cancelRing (s : State) (fn n : Nat) : (State.cancelRing s fn n).kept = s.kept :=
  kept_of_still (still_State_cancelRing ..)

theorem still_State_applyRing (s : State) (fn n code : Nat) (t : State) (h : State.applyRing s fn n code = some t) : t.still = s.still := by
  unfold State.applyRing at h
  (repeat' split at h) <;> (cases h) <;> simp

theorem keep_State_applyRing (s : State) (fn n code : Nat) (t : State) (h : State.applyRing s fn n code = some t) : t.kept = s.kept :=
  kept_of_still (still_State_applyRing (h := h) ..)

theorem still_State_applyCpl (s : State) (fn n code : Nat) (t : State) (h : s.applyCpl fn n code = some t) : t.still = s.still := by
  unfold State.applyCpl at h
  dsimp only at h
  split at h <;> first | (cases h; simp) | cases h

theorem keep_State_applyCpl (s : State) (fn n code : Nat) (t : State) (h : s.applyCpl fn n code = some t) : t.kept = s.kept :=
  kept_of_still (still_State_applyCpl (h := h) ..)

@[simp] theorem still_State_reportOrder (s : State) (kind : OrdKind) (issuer fn n res : Nat) : (State.reportOrder s kind issuer fn n res).still = s.still := by
  unfold State.reportOrder
  (repeat' split) <;> simp

@[simp] theorem keep_State_reportOrder (s : State) (kind : OrdKind) (issuer fn n res : Nat) : (State.reportOrder s kind issuer fn n res).kept = s.kept :=
  kept_of_still (still_State_reportOrder ..)

theorem still_State_takeOrder (s : State) (kind : OrdKind) (apply : State → Nat → Option State) (issuer fn n code : Nat)
    (h : ∀ s c t, apply s c = some t → t.still = s.still) : (s.takeOrder kind apply issuer fn n code).still = s.still := by
  unfold State.takeOrder
  split
  · rename_i t ht
    simp [h _ _ _ ht]
  · simp

theorem keep_State_takeOrder (s : State) (kind : OrdKind) (apply : State → Nat → Option State) (issuer fn n code : Nat)
    (h : ∀ s c t, apply s c = some t → t.kept = s.kept) : (s.takeOrder kind apply issuer fn n code).kept = s.kept := by
  unfold State.takeOrder
  split
  · rename_i t ht
    simp [h _ _ _ ht]
  · simp

@[simp] theorem still_State_orderConflict (s : State) (kind fn n taken discarded takingFn discardingFn : Nat) : (State.orderConflict s kind fn n taken discarded takingFn discardingFn).still = s.still := by
  unfold State.orderConflict
  simp

@[simp] theorem keep_State_orderConflict (s : State) (kind fn n taken discarded takingFn discardingFn : Nat) : (State.orderConflict s kind fn n taken discarded takingFn discardingFn).kept = s.kept :=
  kept_of_still (still_State_orderConflict ..)

theorem still_State_order (s : State) (kind : OrdKind) (apply : State → Nat → Option State) (issuer fn n code : Nat)
    (rival : Option (Nat × Nat)) (h : ∀ s c t, apply s c = some t → t.still = s.still) :
    (s.order kind apply issuer fn n code rival).still = s.still := by
  unfold State.order
  dsimp only
  (repeat' split) <;> simp [still_State_takeOrder _ _ _ _ _ _ _ h]

theorem keep_State_order (s : State) (kind : OrdKind) (apply : State → Nat → Option State) (issuer fn n code : Nat)
    (rival : Option (Nat × Nat)) (h : ∀ s c t, apply s c = some t → t.kept = s.kept) :
    (s.order kind apply issuer fn n code rival).kept = s.kept := by
  unfold State.order
  dsimp only
  (repeat' split) <;> simp [keep_State_takeOrder _ _ _ _ _ _ _ h]

@[simp] theorem still_State_ringOrder (s : State) (issuer fn n code : Nat) (rival : Option (Nat × Nat)) :
    (s.ringOrder issuer fn n code rival).still = s.still := by
  unfold State.ringOrder
  (repeat' split) <;> simp [still_State_order _ _ _ _ _ _ _ _ (fun s c t h => still_State_applyRing s fn n c t h)]

@[simp] theorem keep_State_ringOrder (s : State) (issuer fn n code : Nat) (rival : Option (Nat × Nat)) :
    (s.ringOrder issuer fn n code rival).kept = s.kept :=
  kept_of_still (still_State_ringOrder ..)

@[simp] theorem still_State_cplOrder (s : State) (issuer fn n code : Nat) (rival : Option (Nat × Nat)) :
    (s.cplOrder issuer fn n code rival).still = s.still := by
  unfold State.cplOrder
  (repeat' split) <;> simp [still_State_order _ _ _ _ _ _ _ _ (fun s c t h => still_State_applyCpl s fn n c t h)]

@[simp] theorem keep_State_cplOrder (s : State) (issuer fn n code : Nat) (rival : Option (Nat × Nat)) :
    (s.cplOrder issuer fn n code rival).kept = s.kept :=
  kept_of_still (still_State_cplOrder ..)

theorem still_execRingStart (issuer fn ring : Nat) (rival : Option (Nat × Nat)) (s : State) (t : State) (h : execRingStart issuer fn ring rival s = .next t) : t.still = s.still := by
  unfold execRingStart at h
  cases h; simp

theorem keep_execRingStart (issuer fn ring : Nat) (rival : Option (Nat × Nat)) (s : State) (t : State) (h : execRingStart issuer fn ring rival s = .next t) : t.kept = s.kept :=
  kept_of_still (still_execRingStart (h := h) ..)

theorem still_execRingResume (issuer fn ring : Nat) (rival : Option (Nat × Nat)) (s : State) (t : State) (h : execRingResume issuer fn ring rival s = .next t) : t.still = s.still := by
  unfold execRingResume at h
  cases h; simp

theorem keep_execRingResume (issuer fn ring : Nat) (rival : Option (Nat × Nat)) (s : State) (t : State) (h : execRingResume issuer fn ring rival s = .next t) : t.kept = s.kept :=
  kept_of_still (still_execRingResume (h := h) ..)

theorem still_execRingSuspend (issuer fn ring : Nat) (rival : Option (Nat × Nat)) (s : State) (t : State) (h : execRingSuspend issuer fn ring rival s = .next t) : t.still = s.still := by
  unfold execRingSuspend at h
  cases h; simp

theorem keep_execRingSuspend (issuer fn ring : Nat) (rival : Option (Nat × Nat)) (s : State) (t : State) (h : execRingSuspend issuer fn ring rival s = .next t) : t.kept = s.kept :=
  kept_of_still (still_execRingSuspend (h := h) ..)

theorem still_execRingCancel (issuer fn ring : Nat) (rival : Option (Nat × Nat)) (s : State) (t : State) (h : execRingCancel issuer fn ring rival s = .next t) : t.still = s.still := by
  unfold execRingCancel at h
  cases h; simp

theorem keep_execRingCancel (issuer fn ring : Nat) (rival : Option (Nat × Nat)) (s : State) (t : State) (h : execRingCancel issuer fn ring rival s = .next t) : t.kept = s.kept :=
  kept_of_still (still_execRingCancel (h := h) ..)

theorem still_execRingStop (issuer fn ring : Nat) (rival : Option (Nat × Nat)) (s : State) (t : State) (h : execRingStop issuer fn ring rival s = .next t) : t.still = s.still := by
  unfold execRingStop at h
  cases h; simp

theorem keep_execRingStop (issuer fn ring : Nat) (rival : Option (Nat × Nat)) (s : State) (t : State) (h : execRingStop issuer fn ring rival s = .next t) : t.kept = s.kept :=
  kept_of_still (still_execRingStop (h := h) ..)

theorem still_execRingRevokeOrder (issuer fn ring : Nat) (s : State) (t : State) (h : execRingRevokeOrder issuer fn ring s = .next t) : t.still = s.still := by
  unfold execRingRevokeOrder at h
  cases h; simp

theorem keep_execRingRevokeOrder (issuer fn ring : Nat) (s : State) (t : State) (h : execRingRevokeOrder issuer fn ring s = .next t) : t.kept = s.kept :=
  kept_of_still (still_execRingRevokeOrder (h := h) ..)

theorem still_execCplRingStart (issuer fn ring : Nat) (rival : Option (Nat × Nat)) (s : State) (t : State) (h : execCplRingStart issuer fn ring rival s = .next t) : t.still = s.still := by
  unfold execCplRingStart at h
  cases h; simp

theorem keep_execCplRingStart (issuer fn ring : Nat) (rival : Option (Nat × Nat)) (s : State) (t : State) (h : execCplRingStart issuer fn ring rival s = .next t) : t.kept = s.kept :=
  kept_of_still (still_execCplRingStart (h := h) ..)

theorem still_execCplRingStop (issuer fn ring : Nat) (rival : Option (Nat × Nat)) (s : State) (t : State) (h : execCplRingStop issuer fn ring rival s = .next t) : t.still = s.still := by
  unfold execCplRingStop at h
  cases h; simp

theorem keep_execCplRingStop (issuer fn ring : Nat) (rival : Option (Nat × Nat)) (s : State) (t : State) (h : execCplRingStop issuer fn ring rival s = .next t) : t.kept = s.kept :=
  kept_of_still (still_execCplRingStop (h := h) ..)

@[simp] theorem still_State_clampTimeout (s : State) (source fn n : Nat) : (State.clampTimeout s source fn n).still = s.still := by
  unfold State.clampTimeout
  simp

@[simp] theorem keep_State_clampTimeout (s : State) (source fn n : Nat) : (State.clampTimeout s source fn n).kept = s.kept :=
  kept_of_still (still_State_clampTimeout ..)

theorem still_execRingCreate (fn ring : Nat) (s : State) (t : State) (h : execRingCreate fn ring s = .next t) : t.still = s.still := by
  unfold execRingCreate at h
  dsimp only at h
  (repeat' split at h) <;> (cases h; simp_all)

theorem keep_execRingCreate (fn ring : Nat) (s : State) (t : State) (h : execRingCreate fn ring s = .next t) : t.kept = s.kept :=
  kept_of_still (still_execRingCreate (h := h) ..)

theorem still_execRingDestroy (fn ring : Nat) (s : State) (t : State) (h : execRingDestroy fn ring s = .next t) : t.still = s.still := by
  unfold execRingDestroy at h
  (repeat' split at h) <;> (cases h; simp)

theorem keep_execRingDestroy (fn ring : Nat) (s : State) (t : State) (h : execRingDestroy fn ring s = .next t) : t.kept = s.kept :=
  kept_of_still (still_execRingDestroy (h := h) ..)

theorem still_execCplRingCreate (fn ring : Nat) (s : State) (t : State) (h : execCplRingCreate fn ring s = .next t) : t.still = s.still := by
  unfold execCplRingCreate at h
  dsimp only at h
  (repeat' split at h) <;> (cases h; simp_all)

theorem keep_execCplRingCreate (fn ring : Nat) (s : State) (t : State) (h : execCplRingCreate fn ring s = .next t) : t.kept = s.kept :=
  kept_of_still (still_execCplRingCreate (h := h) ..)

theorem still_execCplRingDestroy (fn ring : Nat) (s : State) (t : State) (h : execCplRingDestroy fn ring s = .next t) : t.still = s.still := by
  unfold execCplRingDestroy at h
  dsimp only at h
  (repeat' split at h) <;> (cases h; simp_all)

theorem keep_execCplRingDestroy (fn ring : Nat) (s : State) (t : State) (h : execCplRingDestroy fn ring s = .next t) : t.kept = s.kept :=
  kept_of_still (still_execCplRingDestroy (h := h) ..)

@[simp] theorem still_State_dropBell (s : State) (cmdRing : Option Nat) : (State.dropBell s cmdRing).still = s.still := by
  unfold State.dropBell
  (repeat' split) <;> simp

@[simp] theorem keep_State_dropBell (s : State) (cmdRing : Option Nat) : (State.dropBell s cmdRing).kept = s.kept :=
  kept_of_still (still_State_dropBell ..)

theorem still_execCommandDoorbell (fn ring off size count : Nat) (s : State) (t : State) (h : execCommandDoorbell fn ring off size count s = .next t) : t.still = s.still := by
  unfold execCommandDoorbell at h
  dsimp only at h
  (repeat' split at h) <;> (cases h; simp_all)

theorem keep_execCommandDoorbell (fn ring off size count : Nat) (s : State) (t : State) (h : execCommandDoorbell fn ring off size count s = .next t) : t.kept = s.kept :=
  kept_of_still (still_execCommandDoorbell (h := h) ..)

theorem still_execCompletionDoorbell (fn ring off size count : Nat) (s : State) (t : State) (h : execCompletionDoorbell fn ring off size count s = .next t) : t.still = s.still := by
  unfold execCompletionDoorbell at h
  dsimp only at h
  (repeat' split at h) <;> (cases h; simp_all)

theorem keep_execCompletionDoorbell (fn ring off size count : Nat) (s : State) (t : State) (h : execCompletionDoorbell fn ring off size count s = .next t) : t.kept = s.kept :=
  kept_of_still (still_execCompletionDoorbell (h := h) ..)

@[simp] theorem still_State_fetchFault (s : State) (fn n : Nat) (poison : Bool) : (State.fetchFault s fn n poison).still = s.still := by
  unfold State.fetchFault
  simp

@[simp] theorem keep_State_fetchFault (s : State) (fn n : Nat) (poison : Bool) : (State.fetchFault s fn n poison).kept = s.kept :=
  kept_of_still (still_State_fetchFault ..)

@[simp] theorem still_State_listFetchFault (s : State) (p : Op) (poison : Bool) : (State.listFetchFault s p poison).still = s.still := by
  unfold State.listFetchFault
  simp

@[simp] theorem keep_State_listFetchFault (s : State) (p : Op) (poison : Bool) : (State.listFetchFault s p poison).kept = s.kept :=
  kept_of_still (still_State_listFetchFault ..)

@[simp] theorem keep_State_fetchDesc (s : State) (fn n c : Nat) (host : Bool) (pasid : Option Nat) (addr : Nat) (indic : Bool) (words : List Nat) (outcome : Outcome3) : (State.fetchDesc s fn n c host pasid addr indic words outcome).2.kept = s.kept := by
  unfold State.fetchDesc
  dsimp only
  (repeat' split) <;> simp_all

theorem keep_execDescriptorFetch (fn ring : Nat) (list : Option Nat) (words : List Nat) (outcome : Outcome3) (s : State) (t : State) (h : execDescriptorFetch fn ring list words outcome s = .next t) : t.kept = s.kept := by
  unfold execDescriptorFetch at h
  dsimp only at h
  (repeat' split at h) <;> (cases h; simp_all)

theorem still_execNop (fn ring : Nat) (s : State) (t : State) (h : execNop fn ring s = .next t) : t.still = s.still := by
  unfold execNop at h; cases h; simp

theorem keep_execNop (fn ring : Nat) (s : State) (t : State) (h : execNop fn ring s = .next t) : t.kept = s.kept :=
  kept_of_still (still_execNop (h := h) ..)

@[simp] theorem still_callListWork (o : Op) (s : State) : (callListWork o s).2.still = s.still := by
  unfold callListWork
  (repeat' split) <;> simp

@[simp] theorem keep_callListWork (o : Op) (s : State) : (callListWork o s).2.kept = s.kept :=
  kept_of_still (still_callListWork ..)

theorem still_execCallList (fn ring : Nat) (s : State) (t : State) (h : execCallList fn ring s = .next t) : t.still = s.still := by
  unfold execCallList at h; cases h; simp

theorem keep_execCallList (fn ring : Nat) (s : State) (t : State) (h : execCallList fn ring s = .next t) : t.kept = s.kept :=
  kept_of_still (still_execCallList (h := h) ..)

theorem still_execEventSourceBind (fn src owner : Nat) (bound : Bool) (s : State) (t : State) (h : execEventSourceBind fn src owner bound s = .next t) : t.still = s.still := by
  unfold execEventSourceBind at h
  dsimp only at h
  (repeat' split at h) <;> (cases h; simp_all)

theorem keep_execEventSourceBind (fn src owner : Nat) (bound : Bool) (s : State) (t : State) (h : execEventSourceBind fn src owner bound s = .next t) : t.kept = s.kept :=
  kept_of_still (still_execEventSourceBind (h := h) ..)

theorem still_execEventRouteApply (fn vec sense : Nat) (s : State) (t : State) (h : execEventRouteApply fn vec sense s = .next t) : t.still = s.still := by
  unfold execEventRouteApply at h
  dsimp only at h
  (repeat' split at h) <;> (cases h; simp_all)

theorem keep_execEventRouteApply (fn vec sense : Nat) (s : State) (t : State) (h : execEventRouteApply fn vec sense s = .next t) : t.kept = s.kept :=
  kept_of_still (still_execEventRouteApply (h := h) ..)

@[simp] theorem still_State_bellRaises (s : State) (n : Nat) (ports : List Nat) : (State.bellRaises s n ports).still = s.still := by
  unfold State.bellRaises
  simp

@[simp] theorem keep_State_bellRaises (s : State) (n : Nat) (ports : List Nat) : (State.bellRaises s n ports).kept = s.kept :=
  kept_of_still (still_State_bellRaises ..)

theorem still_execEventDoorbell (fn src : Nat) (rivals : List Nat) (s : State) (t : State) (h : execEventDoorbell fn src rivals s = .next t) : t.still = s.still := by
  unfold execEventDoorbell at h
  dsimp only at h
  (repeat' split at h) <;> (cases h; simp_all)

theorem keep_execEventDoorbell (fn src : Nat) (rivals : List Nat) (s : State) (t : State) (h : execEventDoorbell fn src rivals s = .next t) : t.kept = s.kept :=
  kept_of_still (still_execEventDoorbell (h := h) ..)

theorem still_execCoalesceTimerExpiry (fn vec : Nat) (s : State) (t : State) (h : execCoalesceTimerExpiry fn vec s = .next t) : t.still = s.still := by
  unfold execCoalesceTimerExpiry at h
  dsimp only at h
  (repeat' split at h) <;> (cases h; simp_all)

theorem keep_execCoalesceTimerExpiry (fn vec : Nat) (s : State) (t : State) (h : execCoalesceTimerExpiry fn vec s = .next t) : t.kept = s.kept :=
  kept_of_still (still_execCoalesceTimerExpiry (h := h) ..)

theorem still_execVectorUnmask (fn vec : Nat) (s : State) (t : State) (h : execVectorUnmask fn vec s = .next t) : t.still = s.still := by
  unfold execVectorUnmask at h
  (repeat' split at h) <;> (cases h; simp)

theorem keep_execVectorUnmask (fn vec : Nat) (s : State) (t : State) (h : execVectorUnmask fn vec s = .next t) : t.kept = s.kept :=
  kept_of_still (still_execVectorUnmask (h := h) ..)

@[simp] theorem still_State_claim (s : State) (fn vec : Nat) : (State.claim s fn vec).2.still = s.still := by
  unfold State.claim
  (repeat' split) <;> simp

@[simp] theorem keep_State_claim (s : State) (fn vec : Nat) : (State.claim s fn vec).2.kept = s.kept :=
  kept_of_still (still_State_claim ..)

theorem still_execEventClaim (fn vec : Nat) (ports : List Nat) (s : State) (t : State) (h : execEventClaim fn vec ports s = .next t) : t.still = s.still := by
  unfold execEventClaim at h
  (repeat' split at h) <;> (cases h; simp)

theorem keep_execEventClaim (fn vec : Nat) (ports : List Nat) (s : State) (t : State) (h : execEventClaim fn vec ports s = .next t) : t.kept = s.kept :=
  kept_of_still (still_execEventClaim (h := h) ..)

theorem still_execConcordSignalApply (obj : Nat) (requests : List (Nat × Nat × Nat)) (s : State) (t : State) (h : execConcordSignalApply obj requests s = .next t) : t.still = s.still := by
  unfold execConcordSignalApply at h
  cases h; simp

theorem keep_execConcordSignalApply (obj : Nat) (requests : List (Nat × Nat × Nat)) (s : State) (t : State) (h : execConcordSignalApply obj requests s = .next t) : t.kept = s.kept :=
  kept_of_still (still_execConcordSignalApply (h := h) ..)

theorem still_execConcordViewSignal (fn obj sigop : Nat) (s : State) (t : State) (h : execConcordViewSignal fn obj sigop s = .next t) : t.still = s.still := by
  unfold execConcordViewSignal at h
  dsimp only at h
  (repeat' split at h) <;> (cases h; simp_all)

theorem keep_execConcordViewSignal (fn obj sigop : Nat) (s : State) (t : State) (h : execConcordViewSignal fn obj sigop s = .next t) : t.kept = s.kept :=
  kept_of_still (still_execConcordViewSignal (h := h) ..)

theorem still_execConcordWindowSet (fn obj high : Nat) (s : State) (t : State) (h : execConcordWindowSet fn obj high s = .next t) : t.still = s.still := by
  unfold execConcordWindowSet at h
  dsimp only at h
  (repeat' split at h) <;> (cases h; simp_all)

theorem keep_execConcordWindowSet (fn obj high : Nat) (s : State) (t : State) (h : execConcordWindowSet fn obj high s = .next t) : t.kept = s.kept :=
  kept_of_still (still_execConcordWindowSet (h := h) ..)

@[simp] theorem still_conSignalWork (o : Op) (s : State) : (conSignalWork o s).2.still = s.still := by
  unfold conSignalWork
  simp

@[simp] theorem keep_conSignalWork (o : Op) (s : State) : (conSignalWork o s).2.kept = s.kept :=
  kept_of_still (still_conSignalWork ..)

@[simp] theorem still_conDisarmWork (o : Op) (s : State) : (conDisarmWork o s).2.still = s.still := by
  unfold conDisarmWork
  (repeat' split) <;> simp

@[simp] theorem keep_conDisarmWork (o : Op) (s : State) : (conDisarmWork o s).2.kept = s.kept :=
  kept_of_still (still_conDisarmWork ..)

theorem still_execConSignal (fn ring : Nat) (s : State) (t : State) (h : execConSignal fn ring s = .next t) : t.still = s.still := by
  unfold execConSignal at h
  cases h; simp

theorem keep_execConSignal (fn ring : Nat) (s : State) (t : State) (h : execConSignal fn ring s = .next t) : t.kept = s.kept :=
  kept_of_still (still_execConSignal (h := h) ..)

theorem still_execConRead (fn ring : Nat) (s : State) (t : State) (h : execConRead fn ring s = .next t) : t.still = s.still := by
  unfold execConRead at h
  cases h; simp

theorem keep_execConRead (fn ring : Nat) (s : State) (t : State) (h : execConRead fn ring s = .next t) : t.kept = s.kept :=
  kept_of_still (still_execConRead (h := h) ..)

theorem still_execConDisarm (fn ring : Nat) (s : State) (t : State) (h : execConDisarm fn ring s = .next t) : t.still = s.still := by
  unfold execConDisarm at h
  cases h; simp

theorem keep_execConDisarm (fn ring : Nat) (s : State) (t : State) (h : execConDisarm fn ring s = .next t) : t.kept = s.kept :=
  kept_of_still (still_execConDisarm (h := h) ..)

@[simp] theorem still_State_askPages (s : State) (fn : Nat) (pasid : Option Nat) (port va n : Nat) (write : Bool) : (State.askPages s fn pasid port va n write).still = s.still := by
  unfold State.askPages
  simp

@[simp] theorem keep_State_askPages (s : State) (fn : Nat) (pasid : Option Nat) (port va n : Nat) (write : Bool) : (State.askPages s fn pasid port va n write).kept = s.kept :=
  kept_of_still (still_State_askPages ..)

@[simp] theorem keep_State_srcStep (s : State) (o : Op) (h : Shape) (va n : Nat) : (State.srcStep s o h va n).2.2.kept = s.kept := by
  unfold State.srcStep
  dsimp only
  (repeat' split) <;> simp_all

@[simp] theorem keep_State_dstWrite (s : State) (o : Op) (h : Shape) (dva : Nat) (got : List Byte) :
    (s.dstWrite o h dva got).2.2.kept = s.kept := by
  unfold State.dstWrite
  split
  · dsimp only
    (repeat' split) <;> simp
  · dsimp only
    split <;> simp

@[simp] theorem still_State_dstWait (s : State) (o : Op) (h : Shape) (dva : Nat) (got : List Byte) (page : Nat) : (s.dstWait o h dva got page).2.still = s.still := by
  unfold State.dstWait
  simp

@[simp] theorem keep_State_dstWait (s : State) (o : Op) (h : Shape) (dva : Nat) (got : List Byte) (page : Nat) : (s.dstWait o h dva got page).2.kept = s.kept :=
  kept_of_still (still_State_dstWait (h := h) ..)

@[simp] theorem keep_State_poisonAt (s : State) (o : Op) (h : Shape) (va : Nat) : (State.poisonAt s o h va).kept = s.kept := by
  unfold State.poisonAt
  dsimp only
  (repeat' split) <;> simp_all

@[simp] theorem still_State_moveStop (s : State) (o : Op) (done : Nat) (f : Flt) : (State.moveStop s o done f).2.still = s.still := by
  unfold State.moveStop
  simp

@[simp] theorem keep_State_moveStop (s : State) (o : Op) (done : Nat) (f : Flt) : (State.moveStop s o done f).2.kept = s.kept :=
  kept_of_still (still_State_moveStop ..)

@[simp] theorem keep_moveRun (h : Shape) (fuel : Nat) (o : Op) (s : State) : (moveRun h fuel o s).2.kept = s.kept := by
  induction fuel generalizing o s with
  | zero => rfl
  | succ fuel ih =>
    unfold moveRun
    dsimp only
    (repeat' split) <;> (first
      | simp [ih]; done
      | (rename_i heq; have hk := congrArg (fun r : DstOut × Op × State => r.2.2.kept) heq; simp at hk; simp [hk, ih]))

@[simp] theorem still_State_notPinned (s : State) (o : Op) (port va pasid : Nat) (need : Need) : (State.notPinned s o port va pasid need).2.still = s.still := by
  unfold State.notPinned
  simp

@[simp] theorem keep_State_notPinned (s : State) (o : Op) (port va pasid : Nat) (need : Need) : (State.notPinned s o port va pasid need).2.kept = s.kept :=
  kept_of_still (still_State_notPinned ..)

@[simp] theorem keep_moveWork (o : Op) (s : State) : (moveWork o s).2.kept = s.kept := by
  unfold moveWork
  dsimp only
  (repeat' split) <;> simp

theorem keep_execMoveCopy (fn ring : Nat) (s : State) (t : State) (h : execMoveCopy fn ring s = .next t) : t.kept = s.kept := by
  unfold execMoveCopy at h
  cases h; simp

theorem keep_execMoveFill (fn ring : Nat) (s : State) (t : State) (h : execMoveFill fn ring s = .next t) : t.kept = s.kept := by
  unfold execMoveFill at h
  cases h; simp

theorem keep_execMove2d (fn ring : Nat) (s : State) (t : State) (h : execMove2d fn ring s = .next t) : t.kept = s.kept := by
  unfold execMove2d at h
  cases h; simp

@[simp] theorem still_probeWork (o : Op) (s : State) : (probeWork o s).2.still = s.still := by
  unfold probeWork
  dsimp only
  (repeat' split) <;> simp_all

@[simp] theorem keep_probeWork (o : Op) (s : State) : (probeWork o s).2.kept = s.kept :=
  kept_of_still (still_probeWork ..)

@[simp] theorem still_State_prefetchPage (s : State) (port c va : Nat) : (State.prefetchPage s port c va).2.still = s.still := by
  unfold State.prefetchPage
  (repeat' split) <;> simp

@[simp] theorem keep_State_prefetchPage (s : State) (port c va : Nat) : (State.prefetchPage s port c va).2.kept = s.kept :=
  kept_of_still (still_State_prefetchPage ..)

@[simp] theorem still_State_prefetch (s : State) (port c n va : Nat) : (s.prefetch port c n va).2.still = s.still := by
  induction n generalizing s va with
  | zero => rfl
  | succ n ih => simp [State.prefetch, ih]

@[simp] theorem keep_State_prefetch (s : State) (port c n va : Nat) : (s.prefetch port c n va).2.kept = s.kept :=
  kept_of_still (still_State_prefetch ..)

@[simp] theorem still_State_hostPrefetch (s : State) (fn : Nat) (pasid : Option Nat) (port n va : Nat) :
    (s.hostPrefetch fn pasid port n va).still = s.still := by
  induction n generalizing s va with
  | zero => rfl
  | succ n ih =>
    rw [State.hostPrefetch, ih]
    split <;> simp

@[simp] theorem keep_State_hostPrefetch (s : State) (fn : Nat) (pasid : Option Nat) (port n va : Nat) :
    (s.hostPrefetch fn pasid port n va).kept = s.kept :=
  kept_of_still (still_State_hostPrefetch ..)

@[simp] theorem still_prefetchWork (o : Op) (s : State) : (prefetchWork o s).2.still = s.still := by
  unfold prefetchWork
  dsimp only
  (repeat' split) <;> simp

@[simp] theorem keep_prefetchWork (o : Op) (s : State) : (prefetchWork o s).2.kept = s.kept :=
  kept_of_still (still_prefetchWork ..)

theorem still_execXlatePrefetch (fn ring : Nat) (s : State) (t : State) (h : execXlatePrefetch fn ring s = .next t) : t.still = s.still := by
  unfold execXlatePrefetch at h
  cases h; simp

theorem keep_execXlatePrefetch (fn ring : Nat) (s : State) (t : State) (h : execXlatePrefetch fn ring s = .next t) : t.kept = s.kept :=
  kept_of_still (still_execXlatePrefetch (h := h) ..)

theorem still_execXlateInvalidate (fn ring : Nat) (s : State) (t : State) (h : execXlateInvalidate fn ring s = .next t) : t.still = s.still := by
  unfold execXlateInvalidate at h
  cases h; simp

theorem keep_execXlateInvalidate (fn ring : Nat) (s : State) (t : State) (h : execXlateInvalidate fn ring s = .next t) : t.kept = s.kept :=
  kept_of_still (still_execXlateInvalidate (h := h) ..)

theorem still_execXlateProbe (fn ring : Nat) (s : State) (t : State) (h : execXlateProbe fn ring s = .next t) : t.still = s.still := by
  unfold execXlateProbe at h
  cases h; simp

theorem keep_execXlateProbe (fn ring : Nat) (s : State) (t : State) (h : execXlateProbe fn ring s = .next t) : t.kept = s.kept :=
  kept_of_still (still_execXlateProbe (h := h) ..)

@[simp] theorem keep_State_resumeOp (s : State) (id : Nat) : (State.resumeOp s id).kept = s.kept := by
  unfold State.resumeOp
  (repeat' split) <;> simp

@[simp] theorem keep_State_flushStop (s : State) (o : Op) (f : Flt) : (s.flushStop o f).2.kept = s.kept := by
  unfold State.flushStop
  dsimp only
  split <;> (rename_i heq; have hk := congrArg (fun r : DstOut × Op × State => r.2.2.kept) heq; simp at hk; simp [hk])

@[simp] theorem keep_State_endWaiter (s : State) (o : Op) (reason page : Nat) (denied : Bool) :
    (s.endWaiter o reason page denied).kept = s.kept := by
  unfold State.endWaiter
  simp

@[simp] theorem keep_State_pageFault (s : State) (o : Op) (page : Nat) (have' write : Bool) : (State.pageFault s o page have' write).kept = s.kept := by
  unfold State.pageFault
  simp

@[simp] theorem keep_State_wakeWaiter (s : State) (o : Op) (page : Nat) : (State.wakeWaiter s o page).kept = s.kept := by
  unfold State.wakeWaiter
  dsimp only
  (repeat' split) <;> simp_all

@[simp] theorem still_State_ringNoAccess (s : State) (fn w : Nat) : (State.ringNoAccess s fn w).still = s.still := by
  unfold State.ringNoAccess
  (repeat' split) <;> simp

@[simp] theorem keep_State_ringNoAccess (s : State) (fn w : Nat) : (State.ringNoAccess s fn w).kept = s.kept :=
  kept_of_still (still_State_ringNoAccess ..)

@[simp] theorem still_State_atsAnswer (s : State) (h : Held) (u : Option Nat × Nat) : (s.atsAnswer h u).still = s.still := by
  unfold State.atsAnswer
  dsimp only
  (repeat' split) <;> simp

@[simp] theorem keep_State_atsAnswer (s : State) (h : Held) (u : Option Nat × Nat) : (s.atsAnswer h u).kept = s.kept :=
  kept_of_still (still_State_atsAnswer (h := h) ..)

theorem keep_execAtsTranslationCompletion (fn : Nat) (pasid : Option Nat) (page size out flags : Nat) (s : State) (t : State) (h : execAtsTranslationCompletion fn pasid page size out flags s = .next t) : t.kept = s.kept := by
  unfold execAtsTranslationCompletion at h
  (repeat' split at h) <;> (cases h; simp)

@[simp] theorem still_State_dropPages (s : State) (fn : Nat) : (s.dropPages fn).still = s.still := by
  rfl

@[simp] theorem keep_State_dropPages (s : State) (fn : Nat) : (s.dropPages fn).kept = s.kept :=
  kept_of_still (still_State_dropPages ..)

@[simp] theorem still_State_processInv (s : State) (fn : Nat) (q : InvReq) : (s.processInv fn q).2.still = s.still := by
  unfold State.processInv
  simp

@[simp] theorem keep_State_processInv (s : State) (fn : Nat) (q : InvReq) : (s.processInv fn q).2.kept = s.kept :=
  kept_of_still (still_State_processInv ..)

theorem keep_execPrgResponse (fn idx : Nat) (pasid : Option Nat) (code : Nat) (s t : State)
    (h : execPrgResponse fn idx pasid code s = .next t) : t.kept = s.kept := by
  unfold execPrgResponse at h
  dsimp only at h
  (repeat' split at h) <;> cases h <;> simp

theorem still_execAtsInvalidateRequest (fn itag : Nat) (pasid : Option Nat) (global : Bool) (base size : Nat) (s : State) (t : State) (h : execAtsInvalidateRequest fn itag pasid global base size s = .next t) : t.still = s.still := by
  unfold execAtsInvalidateRequest at h
  refine still_next h ?_
  dsimp only
  simp only [still_mk, still_fold]
  split <;> simp

theorem keep_execAtsInvalidateRequest (fn itag : Nat) (pasid : Option Nat) (global : Bool) (base size : Nat) (s : State) (t : State) (h : execAtsInvalidateRequest fn itag pasid global base size s = .next t) : t.kept = s.kept :=
  kept_of_still (still_execAtsInvalidateRequest (h := h) ..)

theorem still_execAtsInvalidateCompletion (fn : Nat) (s : State) (t : State) (h : execAtsInvalidateCompletion fn s = .next t) : t.still = s.still := by
  unfold execAtsInvalidateCompletion at h
  (repeat' split at h) <;> (cases h; simp)

theorem keep_execAtsInvalidateCompletion (fn : Nat) (s : State) (t : State) (h : execAtsInvalidateCompletion fn s = .next t) : t.kept = s.kept :=
  kept_of_still (still_execAtsInvalidateCompletion (h := h) ..)

@[simp] theorem keep_State_hostBytes (s : State) (addr : Nat) (bs : List Nat) : (State.hostBytes s addr bs).kept = s.kept := by
  unfold State.hostBytes
  rfl

@[simp] theorem still_State_hostPoisonInc (s : State) (r : HostRead) (why : Nat) : (State.hostPoisonInc s r why).still = s.still := by
  unfold State.hostPoisonInc
  simp

@[simp] theorem keep_State_hostPoisonInc (s : State) (r : HostRead) (why : Nat) : (State.hostPoisonInc s r why).kept = s.kept :=
  kept_of_still (still_State_hostPoisonInc ..)

@[simp] theorem keep_State_poisonOp (s : State) (o : Op) : (s.poisonOp o).kept = s.kept := by
  unfold State.poisonOp
  dsimp only
  split <;> (rename_i heq; have hk := congrArg (fun r : DstOut × Op × State => r.2.2.kept) heq; simp at hk; simp [hk])

@[simp] theorem keep_State_refusedOp (s : State) (o : Op) (r : HostRead) : (s.refusedOp o r).kept = s.kept := by
  unfold State.refusedOp
  simp

@[simp] theorem still_State_readOwner (s : State) (r : HostRead) : (State.readOwner s r).2.still = s.still := by
  unfold State.readOwner
  (repeat' split) <;> simp

@[simp] theorem keep_State_readOwner (s : State) (r : HostRead) : (State.readOwner s r).2.kept = s.kept :=
  kept_of_still (still_State_readOwner ..)

theorem keep_execHostReadCompletion (tag : Nat) (data : List Nat) (outcome : Outcome3) (s : State) (t : State) (h : execHostReadCompletion tag data outcome s = .next t) : t.kept = s.kept := by
  unfold execHostReadCompletion at h
  dsimp only at h
  (repeat' split at h) <;> (cases h; simp_all)

theorem keep_execHostCompletionTimeout (tag : Nat) (s : State) (t : State) (h : execHostCompletionTimeout tag s = .next t) : t.kept = s.kept := by
  unfold execHostCompletionTimeout at h
  dsimp only at h
  (repeat' split at h) <;> (cases h; simp_all)

@[simp] theorem keep_State_atsOff (s : State) (fn : Nat) : (s.atsOff fn).kept = s.kept := by
  unfold State.atsOff
  dsimp only
  rw [kept_foldl _ (fun s o => by (repeat' split) <;> simp)]
  simp

@[simp] theorem keep_State_priOff (s : State) (fn : Nat) : (s.priOff fn).kept = s.kept := by
  unfold State.priOff
  dsimp only
  rw [kept_foldl _ (fun s a => kept_foldl _ (fun s p => kept_foldl _ (fun s o => by split <;> simp) _ _) _ _)]
  rfl

theorem keep_execConfigurationWrite (fn item value : Nat) (s : State) (t : State) (h : execConfigurationWrite fn item value s = .next t) : t.kept = s.kept := by
  unfold execConfigurationWrite at h
  split at h
  · exact kept_next h rfl
  · (repeat' split at h) <;> refine kept_next h ?_ <;> simp

@[simp] theorem keep_atomicWork (o : Op) (s : State) : (atomicWork o s).2.kept = s.kept := by
  unfold atomicWork
  dsimp only
  (repeat' split) <;> simp_all

theorem keep_execMoveAtomic (fn ring : Nat) (s : State) (t : State) (h : execMoveAtomic fn ring s = .next t) : t.kept = s.kept := by
  unfold execMoveAtomic at h
  cases h; simp

end Sys2Proof.Machine
end

