-- ==== Sys2Proof/Laws/Keep2.lean ====
section
/-! SUPPORT. What operations and meanings leave untouched (`State.kept`, and `State.still` where they store nothing): coherence, gather, pools, long operations, contracts, expansion, links. -/
namespace Sys2Proof.Machine

open Sys2Proof

@[simp] theorem still_State_refreshAgents (s : State) : s.refreshAgents.still = s.still := by
  unfold State.refreshAgents
  dsimp only
  rw [still_foldl _ (by simp)]
  refine still_foldl _ (fun s a => ?_) _ _
  split <;> simp

@[simp] theorem keep_State_refreshAgents (s : State) : s.refreshAgents.kept = s.kept :=
  kept_of_still (still_State_refreshAgents ..)

@[simp] theorem still_State_setEntry (s : State) (line : Nat) (e : FEntry) : (State.setEntry s line e).still = s.still := by
  unfold State.setEntry
  simp

@[simp] theorem keep_State_setEntry (s : State) (line : Nat) (e : FEntry) : (State.setEntry s line e).kept = s.kept :=
  kept_of_still (still_State_setEntry ..)

@[simp] theorem still_State_clearAgent (s : State) (line a : Nat) : (State.clearAgent s line a).still = s.still := by
  unfold State.clearAgent
  (repeat' split) <;> simp

@[simp] theorem keep_State_clearAgent (s : State) (line a : Nat) : (State.clearAgent s line a).kept = s.kept :=
  kept_of_still (still_State_clearAgent ..)

@[simp] theorem still_State_demoteOwner (s : State) (line a : Nat) : (State.demoteOwner s line a).still = s.still := by
  unfold State.demoteOwner
  (repeat' split) <;> simp

@[simp] theorem keep_State_demoteOwner (s : State) (line a : Nat) : (State.demoteOwner s line a).kept = s.kept :=
  kept_of_still (still_State_demoteOwner ..)

@[simp] theorem still_State_recordAgent (s : State) (line a : Nat) (own : Bool) : (State.recordAgent s line a own).still = s.still := by
  unfold State.recordAgent
  simp

@[simp] theorem keep_State_recordAgent (s : State) (line a : Nat) (own : Bool) : (State.recordAgent s line a own).kept = s.kept :=
  kept_of_still (still_State_recordAgent ..)

@[simp] theorem still_State_coh1 (s : State) (agent op line aux : Nat) (poison : Bool) (bs : List Byte) : (State.coh1 s agent op line aux poison bs).still = s.still := by
  unfold State.coh1
  rfl

@[simp] theorem keep_State_coh1 (s : State) (agent op line aux : Nat) (poison : Bool) (bs : List Byte) : (State.coh1 s agent op line aux poison bs).kept = s.kept :=
  kept_of_still (still_State_coh1 ..)

@[simp] theorem keep_State_sendLine (s : State) (r : CohReq) (op : Nat) : (State.sendLine s r op).kept = s.kept := by
  unfold State.sendLine
  simp

@[simp] theorem keep_State_homeWrite (s : State) (c a : Nat) (bs : List Byte) (poison : Bool) : (State.homeWrite s c a bs poison).kept = s.kept := by
  unfold State.homeWrite
  simp

@[simp] theorem still_State_setTrack (s : State) (t : Track) : (State.setTrack s t).still = s.still := by
  unfold State.setTrack
  rfl

@[simp] theorem keep_State_setTrack (s : State) (t : Track) : (State.setTrack s t).kept = s.kept :=
  kept_of_still (still_State_setTrack ..)

@[simp] theorem still_State_dropTrack (s : State) (t : Track) : (State.dropTrack s t).still = s.still := by
  unfold State.dropTrack
  rfl

@[simp] theorem keep_State_dropTrack (s : State) (t : Track) : (State.dropTrack s t).kept = s.kept :=
  kept_of_still (still_State_dropTrack ..)

@[simp] theorem still_State_forward (s : State) (t : Track) (op : Nat) (back : Bool) (agents : List Nat) : (State.forward s t op back agents).2.still = s.still := by
  unfold State.forward
  simp

@[simp] theorem keep_State_forward (s : State) (t : Track) (op : Nat) (back : Bool) (agents : List Nat) : (State.forward s t op back agents).2.kept = s.kept :=
  kept_of_still (still_State_forward ..)

@[simp] theorem keep_State_homeServe (s : State) (t : Track) : (State.homeServe s t).2.kept = s.kept := by
  unfold State.homeServe
  dsimp only
  (repeat' split) <;> simp_all

@[simp] theorem still_State_actOn (s : State) (t : Track) : (State.actOn s t).2.still = s.still := by
  unfold State.actOn
  dsimp only
  (repeat' split) <;> simp_all

@[simp] theorem keep_State_actOn (s : State) (t : Track) : (State.actOn s t).2.kept = s.kept :=
  kept_of_still (still_State_actOn ..)

@[simp] theorem keep_State_performReq (s : State) (r : CohReq) : (State.performReq s r).kept = s.kept := by
  unfold State.performReq
  dsimp only
  (repeat' split) <;> simp_all

@[simp] theorem still_State_reserveNext (s : State) (line : Nat) : (State.reserveNext s line).still = s.still := by
  unfold State.reserveNext
  (repeat' split) <;> simp

@[simp] theorem keep_State_reserveNext (s : State) (line : Nat) : (State.reserveNext s line).kept = s.kept :=
  kept_of_still (still_State_reserveNext ..)

@[simp] theorem still_State_unblock (s : State) (t : Track) : (State.unblock s t).still = s.still := by
  unfold State.unblock
  simp

@[simp] theorem keep_State_unblock (s : State) (t : Track) : (State.unblock s t).kept = s.kept :=
  kept_of_still (still_State_unblock ..)

@[simp] theorem keep_State_stage (s : State) (t : Track) : (State.stage s t).kept = s.kept := by
  unfold State.stage
  dsimp only
  (repeat' split) <;> simp_all

@[simp] theorem keep_State_acceptReq (s : State) (r : CohReq) : (State.acceptReq s r).kept = s.kept := by
  unfold State.acceptReq
  dsimp only
  split
  · simp only [kept_mk, kept_fold, keep_State_forward]
  · simp only [kept_mk, kept_fold, keep_State_stage, keep_State_actOn]

@[simp] theorem keep_State_wakeVictim (s : State) (line : Nat) : (State.wakeVictim s line).kept = s.kept := by
  unfold State.wakeVictim
  simp

@[simp] theorem still_State_starve (s : State) (slice : Nat) (r : CohReq) : (State.starve s slice r).still = s.still := by
  unfold State.starve
  simp

@[simp] theorem keep_State_starve (s : State) (slice : Nat) (r : CohReq) : (State.starve s slice r).kept = s.kept :=
  kept_of_still (still_State_starve ..)

@[simp] theorem keep_State_hostsGo (s : State) : (s.hostsGo).kept = s.kept := by
  unfold State.hostsGo
  dsimp only
  rw [kept_foldl _ (fun s q => by split <;> simp), kept_foldl _ (fun s q => by split <;> simp)]

@[simp] theorem keep_State_afterUnblock (s : State) (line : Nat) : (State.afterUnblock s line).kept = s.kept := by
  unfold State.afterUnblock
  simp

@[simp] theorem still_State_retryReq (s : State) (r : CohReq) : (State.retryReq s r).still = s.still := by
  unfold State.retryReq
  simp

@[simp] theorem keep_State_retryReq (s : State) (r : CohReq) : (State.retryReq s r).kept = s.kept :=
  kept_of_still (still_State_retryReq ..)

@[simp] theorem keep_State_arrive (s : State) (r : CohReq) : (State.arrive s r).kept = s.kept := by
  unfold State.arrive
  split
  · rfl
  · dsimp only
    (repeat' split) <;> simp only [keep_State_afterUnblock, keep_State_acceptReq, keep_State_retryReq, keep_State_starve, keep_State_bump,
      kept_mk, kept_fold]

@[simp] theorem still_State_cohError (s : State) (agent txn status seq : Nat) : (State.cohError s agent txn status seq).still = s.still := by
  unfold State.cohError
  rfl

@[simp] theorem keep_State_cohError (s : State) (agent txn status seq : Nat) : (State.cohError s agent txn status seq).kept = s.kept :=
  kept_of_still (still_State_cohError ..)

@[simp] theorem still_State_dieRequest (s : State) (agent txn va : Nat) (indic : Bool) (need : Need) (k : Nat → Nat → State → State)
    (h : ∀ c a s, (k c a s).still = s.still) : (s.dieRequest agent txn va indic need k).still = s.still := by
  unfold State.dieRequest
  dsimp only
  (repeat' split) <;> simp [h]

@[simp] theorem keep_State_dieRequest (s : State) (agent txn va : Nat) (indic : Bool) (need : Need) (k : Nat → Nat → State → State)
    (h : ∀ c a s, (k c a s).kept = s.kept) : (s.dieRequest agent txn va indic need k).kept = s.kept := by
  unfold State.dieRequest
  dsimp only
  (repeat' split) <;> simp [h]

@[simp] theorem still_State_agentRequest (s : State) (agent cmp txn addr : Nat) (indic : Bool) (need : Need) (k : Nat → Nat → State → State)
    (h : ∀ c a s, (k c a s).still = s.still) : (s.agentRequest agent cmp txn addr indic need k).still = s.still := by
  unfold State.agentRequest
  (repeat' split) <;> simp [h]

@[simp] theorem keep_State_agentRequest (s : State) (agent cmp txn addr : Nat) (indic : Bool) (need : Need) (k : Nat → Nat → State → State)
    (h : ∀ c a s, (k c a s).kept = s.kept) : (s.agentRequest agent cmp txn addr indic need k).kept = s.kept := by
  unfold State.agentRequest
  (repeat' split) <;> simp [h]

theorem keep_execGetCopy (agent txn addr : Nat) (indic : Bool) (age : Nat) (s : State) (t : State) (h : execGetCopy agent txn addr indic age s = .next t) : t.kept = s.kept := by
  unfold execGetCopy at h
  (repeat' split at h) <;> (cases h; simp)

theorem keep_execGetOwn (agent txn addr : Nat) (indic : Bool) (age : Nat) (s : State) (t : State) (h : execGetOwn agent txn addr indic age s = .next t) : t.kept = s.kept := by
  unfold execGetOwn at h
  (repeat' split at h) <;> (cases h; simp)

theorem keep_execClaimOwn (agent txn addr : Nat) (indic : Bool) (age : Nat) (s : State) (t : State) (h : execClaimOwn agent txn addr indic age s = .next t) : t.kept = s.kept := by
  unfold execClaimOwn at h
  (repeat' split at h) <;> (cases h; simp)

theorem keep_execPeek (agent cmp txn addr : Nat) (indic : Bool) (age : Nat) (s : State) (t : State) (h : execPeek agent cmp txn addr indic age s = .next t) : t.kept = s.kept := by
  unfold execPeek at h
  cases h; simp

theorem keep_execPutLine (agent cmp txn addr : Nat) (indic : Bool) (age : Nat) (data : List Nat) (s : State) (t : State) (h : execPutLine agent cmp txn addr indic age data s = .next t) : t.kept = s.kept := by
  unfold execPutLine at h
  cases h; simp

theorem keep_execPutBytes (agent cmp txn addr : Nat) (indic : Bool) (age mask : Nat) (data : List Nat) (s : State) (t : State) (h : execPutBytes agent cmp txn addr indic age mask data s = .next t) : t.kept = s.kept := by
  unfold execPutBytes at h
  cases h; simp

theorem keep_execAtomicFar (agent cmp txn addr : Nat) (indic : Bool) (age op fmt operand compare : Nat) (s : State) (t : State) (h : execAtomicFar agent cmp txn addr indic age op fmt operand compare s = .next t) : t.kept = s.kept := by
  unfold execAtomicFar at h
  (repeat' split at h) <;> (cases h; simp)

theorem still_execEvent (agent word : Nat) (s : State) (t : State) (h : execEvent agent word s = .next t) : t.still = s.still := by
  unfold execEvent at h
  dsimp only at h
  (repeat' split at h) <;> (cases h; simp_all)

theorem keep_execEvent (agent word : Nat) (s : State) (t : State) (h : execEvent agent word s = .next t) : t.kept = s.kept :=
  kept_of_still (still_execEvent (h := h) ..)

@[simp] theorem keep_State_answered (s : State) (t : Track) (agent : Nat) : (State.answered s t agent).kept = s.kept := by
  unfold State.answered
  simp

theorem keep_execInstalled (agent addr : Nat) (s : State) (t : State) (h : execInstalled agent addr s = .next t) : t.kept = s.kept := by
  unfold execInstalled at h
  dsimp only at h
  (repeat' split at h) <;> (cases h; simp_all)

@[simp] theorem still_State_ownerEnds (s : State) (line agent code : Nat) : (State.ownerEnds s line agent code).still = s.still := by
  unfold State.ownerEnds
  simp

@[simp] theorem keep_State_ownerEnds (s : State) (line agent code : Nat) : (State.ownerEnds s line agent code).kept = s.kept :=
  kept_of_still (still_State_ownerEnds ..)

@[simp] theorem keep_State_served (s : State) (agent line code : Nat) : (State.served s agent line code).kept = s.kept := by
  unfold State.served
  (repeat' split) <;> simp

@[simp] theorem keep_State_cleared (s : State) (agent line : Nat) : (State.cleared s agent line).kept = s.kept := by
  unfold State.cleared
  (repeat' split) <;> simp

@[simp] theorem keep_State_missed (s : State) (agent line : Nat) : (State.missed s agent line).kept = s.kept := by
  unfold State.missed
  (repeat' split) <;> simp

theorem keep_execRspServed (agent addr code : Nat) (s : State) (t : State) (h : execRspServed agent addr code s = .next t) : t.kept = s.kept := by
  unfold execRspServed at h
  cases h; simp

theorem keep_execRspCleared (agent addr : Nat) (s : State) (t : State) (h : execRspCleared agent addr s = .next t) : t.kept = s.kept := by
  unfold execRspCleared at h
  cases h; simp

theorem keep_execRspMiss (agent addr : Nat) (s : State) (t : State) (h : execRspMiss agent addr s = .next t) : t.kept = s.kept := by
  unfold execRspMiss at h
  cases h; simp

@[simp] theorem keep_State_crossing (s : State) (t : Track) (agent : Nat) : (State.crossing s t agent).kept = s.kept := by
  unfold State.crossing
  simp

theorem keep_execRspEvicting (agent addr : Nat) (s : State) (t : State) (h : execRspEvicting agent addr s = .next t) : t.kept = s.kept := by
  unfold execRspEvicting at h
  dsimp only at h
  (repeat' split at h) <;> (cases h; simp_all)

@[simp] theorem keep_State_writeback (s : State) (agent c line : Nat) (poison : Bool) (data : List Nat) : (State.writeback s agent c line poison data).kept = s.kept := by
  unfold State.writeback
  dsimp only
  (repeat' split) <;> simp_all

theorem keep_execLineWb (agent addr : Nat) (poison : Bool) (data : List Nat) (s : State) (t : State) (h : execLineWb agent addr poison data s = .next t) : t.kept = s.kept := by
  unfold execLineWb at h
  (repeat' split at h) <;> (cases h; simp)

theorem keep_execLineBack (agent addr : Nat) (poison : Bool) (data : List Nat) (s : State) (t : State) (h : execLineBack agent addr poison data s = .next t) : t.kept = s.kept := by
  unfold execLineBack at h
  dsimp only at h
  (repeat' split at h) <;> (cases h; simp_all)

theorem still_execLinePeek (agent requester addr : Nat) (poison : Bool) (data : List Nat) (s : State) (t : State) (h : execLinePeek agent requester addr poison data s = .next t) : t.still = s.still := by
  unfold execLinePeek at h
  dsimp only at h
  (repeat' split at h) <;> (cases h; simp_all)

theorem keep_execLinePeek (agent requester addr : Nat) (poison : Bool) (data : List Nat) (s : State) (t : State) (h : execLinePeek agent requester addr poison data s = .next t) : t.kept = s.kept :=
  kept_of_still (still_execLinePeek (h := h) ..)

theorem keep_execRetryResend (agent txn : Nat) (s : State) (t : State) (h : execRetryResend agent txn s = .next t) : t.kept = s.kept := by
  unfold execRetryResend at h
  (repeat' split at h) <;> (cases h; simp)

theorem keep_execReservationExpiry (line : Nat) (s : State) (t : State) (h : execReservationExpiry line s = .next t) : t.kept = s.kept := by
  unfold execReservationExpiry at h
  (repeat' split at h) <;> (cases h; simp)

@[simp] theorem still_State_removeLines (s : State) (i : Nat) (old : Nat × Nat) : (State.removeLines s i old).still = s.still := by
  unfold State.removeLines
  simp

@[simp] theorem keep_State_removeLines (s : State) (i : Nat) (old : Nat × Nat) : (State.removeLines s i old).kept = s.kept :=
  kept_of_still (still_State_removeLines ..)

@[simp] theorem still_State_cohWindowWritten (s : State) (source fn off i : Nat) (old : Nat × Nat) : (State.cohWindowWritten s source fn off i old).still = s.still := by
  unfold State.cohWindowWritten
  simp

@[simp] theorem keep_State_cohWindowWritten (s : State) (source fn off i : Nat) (old : Nat × Nat) : (State.cohWindowWritten s source fn off i old).kept = s.kept :=
  kept_of_still (still_State_cohWindowWritten ..)

theorem still_execCoherentWindowChangeDone (cmp : Nat) (s : State) (t : State) (h : execCoherentWindowChangeDone cmp s = .next t) : t.still = s.still := by
  unfold execCoherentWindowChangeDone at h
  (repeat' split at h) <;> (cases h; simp)

theorem keep_execCoherentWindowChangeDone (cmp : Nat) (s : State) (t : State) (h : execCoherentWindowChangeDone cmp s = .next t) : t.kept = s.kept :=
  kept_of_still (still_execCoherentWindowChangeDone (h := h) ..)

@[simp] theorem keep_State_loseAgents (s : State) (as : List Nat) : (State.loseAgents s as).kept = s.kept := by
  unfold State.loseAgents
  simp

theorem keep_execDiePortLinkDown (port : Nat) (s t : State) (h : execDiePortLinkDown port s = .next t) : t.kept = s.kept := by
  unfold execDiePortLinkDown at h
  split at h <;> (have e := Host.Outcome.next.inj h; subst e; simp)

theorem still_execDiePortLinkUp (port : Nat) (s t : State) (h : execDiePortLinkUp port s = .next t) : t.still = s.still := by
  unfold execDiePortLinkUp at h
  split at h <;> (have e := Host.Outcome.next.inj h; subst e; simp)

theorem keep_execDiePortLinkUp (port : Nat) (s t : State) (h : execDiePortLinkUp port s = .next t) : t.kept = s.kept :=
  kept_of_still (still_execDiePortLinkUp (h := h) ..)

@[simp] theorem keep_State_warmCoherence (s : State) : (State.warmCoherence s).kept = s.kept := by
  unfold State.warmCoherence
  simp

@[simp] theorem still_State_coldCoherence (s : State) : (State.coldCoherence s).still = s.still := by
  unfold State.coldCoherence
  rfl

@[simp] theorem keep_State_coldCoherence (s : State) : (State.coldCoherence s).kept = s.kept :=
  kept_of_still (still_State_coldCoherence ..)

@[simp] theorem still_State_memOutside (s : State) (port dpa : Nat) (write : Bool) : (State.memOutside s port dpa write).still = s.still := by
  unfold State.memOutside
  simp

@[simp] theorem keep_State_memOutside (s : State) (port dpa : Nat) (write : Bool) : (State.memOutside s port dpa write).kept = s.kept :=
  kept_of_still (still_State_memOutside ..)

theorem keep_execCxlM2sRequest (port kind metaV txn dpa mask : Nat) (data : List Nat) (s : State) (t : State) (h : execCxlM2sRequest port kind metaV txn dpa mask data s = .next t) : t.kept = s.kept := by
  unfold execCxlM2sRequest at h
  dsimp only at h
  (repeat' split at h) <;> (cases h; simp_all)

theorem keep_execCxlBirsp (port addr : Nat) (shared : Bool) (s : State) (t : State) (h : execCxlBirsp port addr shared s = .next t) : t.kept = s.kept := by
  unfold execCxlBirsp at h
  dsimp only at h
  (repeat' split at h) <;> (cases h; simp_all)

theorem still_execH2dSnoop (port tag : Nat) (s : State) (t : State) (h : execH2dSnoop port tag s = .next t) : t.still = s.still := by
  unfold execH2dSnoop at h
  (repeat' split at h) <;> (cases h; simp)

theorem keep_execH2dSnoop (port tag : Nat) (s : State) (t : State) (h : execH2dSnoop port tag s = .next t) : t.kept = s.kept :=
  kept_of_still (still_execH2dSnoop (h := h) ..)

theorem still_execBiconflict (port tag : Nat) (s : State) (t : State) (h : execBiconflict port tag s = .next t) : t.still = s.still := by
  unfold execBiconflict at h
  (repeat' split at h) <;> (cases h; simp)

theorem keep_execBiconflict (port tag : Nat) (s : State) (t : State) (h : execBiconflict port tag s = .next t) : t.kept = s.kept :=
  kept_of_still (still_execBiconflict (h := h) ..)

theorem still_execHostAtomicopRequest (port fn addr : Nat) (s : State) (t : State) (h : execHostAtomicopRequest port fn addr s = .next t) : t.still = s.still := by
  unfold execHostAtomicopRequest at h
  (repeat' split at h) <;> (cases h; simp)

theorem keep_execHostAtomicopRequest (port fn addr : Nat) (s : State) (t : State) (h : execHostAtomicopRequest port fn addr s = .next t) : t.kept = s.kept :=
  kept_of_still (still_execHostAtomicopRequest (h := h) ..)

theorem keep_execLineS (port op addr : Nat) (poison : Bool) (data : List Nat) (s : State) (t : State) (h : execLineS port op addr poison data s = .next t) : t.kept = s.kept := by
  unfold execLineS at h
  dsimp only at h
  (repeat' split at h) <;> (cases h; simp_all)

@[simp] theorem keep_State_gatherRun (s : State) (o : Op) (n : Nat) (g : GrRun) : (s.gatherRun o n g).2.2.2.kept = s.kept := by
  induction n generalizing s o g with
  | zero => rfl
  | succ n ih =>
    unfold State.gatherRun
    dsimp only
    (repeat' split) <;> simp [ih]

@[simp] theorem keep_gatherWork (o : Op) (s : State) : (gatherWork o s).2.kept = s.kept := by
  unfold gatherWork
  dsimp only
  (repeat' split) <;> simp

theorem keep_execGatherReduce (fn ring : Nat) (s : State) (t : State) (h : execGatherReduce fn ring s = .next t) : t.kept = s.kept := by
  unfold execGatherReduce at h
  cases h; simp

@[simp] theorem keep_State_grWrite (s : State) (o : Op) (row : List Nat) : (s.grWrite o row).2.kept = s.kept := by
  unfold State.grWrite
  dsimp only
  split
  · simp
  · dsimp only
    split
    · simp
    · rw [kept_foldl _ (fun s p => by split <;> simp)]
      simp

@[simp] theorem keep_State_wakeHeld (s : State) (c stack : Nat) : (State.wakeHeld s c stack).kept = s.kept := by
  unfold State.wakeHeld
  (repeat' split) <;> simp

theorem keep_execGrResultReturn (op : Nat) (s : State) (t : State) (h : execGrResultReturn op s = .next t) : t.kept = s.kept := by
  unfold execGrResultReturn at h
  (repeat' split at h) <;> (cases h; simp)

@[simp] theorem still_State_uncorrectable (s : State) (unit a : Nat) : (State.uncorrectable s unit a).still = s.still := by
  unfold State.uncorrectable
  (repeat' split) <;> simp

@[simp] theorem keep_State_uncorrectable (s : State) (unit a : Nat) : (State.uncorrectable s unit a).kept = s.kept :=
  kept_of_still (still_State_uncorrectable ..)

theorem keep_execStackReadReturn (addr error : Nat) (s : State) (t : State) (h : execStackReadReturn addr error s = .next t) : t.kept = s.kept := by
  unfold execStackReadReturn at h
  (repeat' split at h) <;> (cases h; simp)

@[simp] theorem still_State_stepChange (s : State) (code : Nat) (sev : Sev) (ctr : Fld) (st old new temp count : Nat) : (State.stepChange s code sev ctr st old new temp count).still = s.still := by
  unfold State.stepChange
  simp

@[simp] theorem keep_State_stepChange (s : State) (code : Nat) (sev : Sev) (ctr : Fld) (st old new temp count : Nat) : (State.stepChange s code sev ctr st old new temp count).kept = s.kept :=
  kept_of_still (still_State_stepChange ..)

theorem still_execActivityWindowBoundary (stack count temp : Nat) (s t : State) (h : execActivityWindowBoundary stack count temp s = .next t) :
    t.still = s.still := by
  unfold execActivityWindowBoundary at h
  split at h
  · exact still_next h rfl
  · dsimp only at h
    (repeat' split at h) <;> exact still_next h (by simp only [still_State_post, still_State_wr, still_State_stepChange, still_mk, still_fold])

theorem keep_execActivityWindowBoundary (stack count temp : Nat) (s t : State) (h : execActivityWindowBoundary stack count temp s = .next t) :
    t.kept = s.kept :=
  kept_of_still (still_execActivityWindowBoundary (h := h) ..)

@[simp] theorem still_State_endActive (s : State) (c : Nat) : (State.endActive s c).still = s.still := by
  unfold State.endActive
  simp

@[simp] theorem keep_State_endActive (s : State) (c : Nat) : (State.endActive s c).kept = s.kept :=
  kept_of_still (still_State_endActive ..)

@[simp] theorem still_State_dropStaged (s : State) (c : Nat) : (State.dropStaged s c).still = s.still := by
  unfold State.dropStaged
  simp

@[simp] theorem keep_State_dropStaged (s : State) (c : Nat) : (State.dropStaged s c).kept = s.kept :=
  kept_of_still (still_State_dropStaged ..)

@[simp] theorem still_State_endContracts (s : State) (c : Nat) : (State.endContracts s c).still = s.still := by
  unfold State.endContracts
  simp

@[simp] theorem keep_State_endContracts (s : State) (c : Nat) : (State.endContracts s c).kept = s.kept :=
  kept_of_still (still_State_endContracts ..)

@[simp] theorem still_State_tdispError (s : State) (fn : Nat) : (State.tdispError s fn).still = s.still := by
  unfold State.tdispError
  simp

@[simp] theorem keep_State_tdispError (s : State) (fn : Nat) : (State.tdispError s fn).kept = s.kept :=
  kept_of_still (still_State_tdispError ..)

@[simp] theorem still_State_enterState (s : State) (c : Nat) (st : CmpState) : (State.enterState s c st).still = s.still := by
  unfold State.enterState
  simp

@[simp] theorem keep_State_enterState (s : State) (c : Nat) (st : CmpState) : (State.enterState s c st).kept = s.kept :=
  kept_of_still (still_State_enterState ..)

@[simp] theorem still_State_taint (s : State) (c cause : Nat) : (State.taint s c cause).still = s.still := by
  unfold State.taint
  simp

@[simp] theorem keep_State_taint (s : State) (c cause : Nat) : (State.taint s c cause).kept = s.kept :=
  kept_of_still (still_State_taint ..)

@[simp] theorem still_State_unbindSources (s : State) (fn : Nat) : (State.unbindSources s fn).still = s.still := by
  unfold State.unbindSources
  simp

@[simp] theorem keep_State_unbindSources (s : State) (fn : Nat) : (State.unbindSources s fn).kept = s.kept :=
  kept_of_still (still_State_unbindSources ..)

@[simp] theorem still_State_unbindInstance (s : State) (fn : Nat) : (State.unbindInstance s fn).still = s.still := by
  unfold State.unbindInstance
  simp

@[simp] theorem keep_State_unbindInstance (s : State) (fn : Nat) : (State.unbindInstance s fn).kept = s.kept :=
  kept_of_still (still_State_unbindInstance ..)

@[simp] theorem still_State_clearBlocks (s : State) (c : Nat) : (State.clearBlocks s c).still = s.still := by
  unfold State.clearBlocks
  simp

@[simp] theorem keep_State_clearBlocks (s : State) (c : Nat) : (State.clearBlocks s c).kept = s.kept :=
  kept_of_still (still_State_clearBlocks ..)

theorem still_mid (s : State) (x : CacheSt) (y : CmpSt) (z : IncSt) : State.still { s with syc := x, cmp := y, inc := z } = s.still := rfl

theorem kept_mid (s : State) (x : CacheSt) (y : CmpSt) (z : IncSt) : State.kept { s with syc := x, cmp := y, inc := z } = s.kept :=
  kept_of_still (still_mid ..)

@[simp] theorem still_State_freeCompartment (s : State) (c : Nat) : (s.freeCompartment c).still = s.still := by
  unfold State.freeCompartment
  dsimp only
  rw [still_State_refreshAgents, still_State_wr, still_State_wr, still_State_wr, still_State_wr]
  refine (still_mid _ _ _ _).trans ?_
  simp only [still_State_setGrants, still_State_rst]
  rw [still_foldl _ still_State_unbindInstance]
  simp

@[simp] theorem keep_State_freeCompartment (s : State) (c : Nat) : (s.freeCompartment c).kept = s.kept :=
  kept_of_still (still_State_freeCompartment ..)

@[simp] theorem still_State_logHouse (s : State) (off lo asked got : Nat) : (State.logHouse s off lo asked got).still = s.still := by
  unfold State.logHouse
  simp

@[simp] theorem keep_State_logHouse (s : State) (off lo asked got : Nat) : (State.logHouse s off lo asked got).kept = s.kept :=
  kept_of_still (still_State_logHouse ..)

@[simp] theorem still_State_houseT2 (s : State) : (State.houseT2 s).still = s.still := by
  unfold State.houseT2
  simp

@[simp] theorem keep_State_houseT2 (s : State) : (State.houseT2 s).kept = s.kept :=
  kept_of_still (still_State_houseT2 ..)

@[simp] theorem still_State_houseGrants (s : State) : (State.houseGrants s).still = s.still := by
  unfold State.houseGrants
  simp

@[simp] theorem keep_State_houseGrants (s : State) : (State.houseGrants s).kept = s.kept :=
  kept_of_still (still_State_houseGrants ..)

@[simp] theorem still_State_houseUnits (s : State) : (State.houseUnits s).still = s.still := by
  unfold State.houseUnits
  simp

@[simp] theorem keep_State_houseUnits (s : State) : (State.houseUnits s).kept = s.kept :=
  kept_of_still (still_State_houseUnits ..)

@[simp] theorem still_adminGate (o : Op) (s : State) (k : Op → State → Op × State) (h : ∀ o s, (k o s).2.still = s.still) :
    (adminGate o s k).2.still = s.still := by
  unfold adminGate
  dsimp only
  (repeat' split) <;> simp [h]

@[simp] theorem keep_adminGate (o : Op) (s : State) (k : Op → State → Op × State) (h : ∀ o s, (k o s).2.kept = s.kept) :
    (adminGate o s k).2.kept = s.kept := by
  unfold adminGate
  dsimp only
  (repeat' split) <;> simp [h]

@[simp] theorem still_State_setLong (s : State) (i : Nat) (l : LongOp) : (State.setLong s i l).still = s.still := by
  unfold State.setLong
  rfl

@[simp] theorem keep_State_setLong (s : State) (i : Nat) (l : LongOp) : (State.setLong s i l).kept = s.kept :=
  kept_of_still (still_State_setLong ..)

@[simp] theorem still_State_startLong (s : State) (o : Op) (tkind c total : Nat) (words args : List Nat) (k : Nat → Op → State → Op × State)
    (h : ∀ i o s, (k i o s).2.still = s.still) : (s.startLong o tkind c total words args k).2.still = s.still := by
  unfold State.startLong
  dsimp only
  (repeat' split) <;> simp [h]

@[simp] theorem keep_State_startLong (s : State) (o : Op) (tkind c total : Nat) (words args : List Nat) (k : Nat → Op → State → Op × State)
    (h : ∀ i o s, (k i o s).2.kept = s.kept) : (s.startLong o tkind c total words args k).2.kept = s.kept := by
  unfold State.startLong
  dsimp only
  (repeat' split) <;> simp [h]

@[simp] theorem still_State_finLong (s : State) (i status result : Nat) : (State.finLong s i status result).still = s.still := by
  unfold State.finLong
  (repeat' split) <;> simp

@[simp] theorem keep_State_finLong (s : State) (i status result : Nat) : (State.finLong s i status result).kept = s.kept :=
  kept_of_still (still_State_finLong ..)

@[simp] theorem still_State_setDetail (s : State) (i d : Nat) : (State.setDetail s i d).still = s.still := by
  unfold State.setDetail
  (repeat' split) <;> simp

@[simp] theorem keep_State_setDetail (s : State) (i d : Nat) : (State.setDetail s i d).kept = s.kept :=
  kept_of_still (still_State_setDetail ..)

@[simp] theorem still_State_endSlot (s : State) (i status : Nat) : (State.endSlot s i status).still = s.still := by
  unfold State.endSlot
  (repeat' split) <;> simp

@[simp] theorem keep_State_endSlot (s : State) (i status : Nat) : (State.endSlot s i status).kept = s.kept :=
  kept_of_still (still_State_endSlot ..)

@[simp] theorem still_State_endLong (s : State) (i status result : Nat) : (State.endLong s i status result).still = s.still := by
  unfold State.endLong
  dsimp only
  (repeat' split) <;> simp_all

@[simp] theorem keep_State_endLong (s : State) (i status result : Nat) : (State.endLong s i status result).kept = s.kept :=
  kept_of_still (still_State_endLong ..)

theorem still_execLongOperationEnd (slot : Nat) (s : State) (t : State) (h : execLongOperationEnd slot s = .next t) : t.still = s.still := by
  unfold execLongOperationEnd at h
  (repeat' split at h) <;> (cases h; simp)

theorem keep_execLongOperationEnd (slot : Nat) (s : State) (t : State) (h : execLongOperationEnd slot s = .next t) : t.kept = s.kept :=
  kept_of_still (still_execLongOperationEnd (h := h) ..)

@[simp] theorem still_State_resetLong (s : State) (i : Nat) : (State.resetLong s i).still = s.still := by
  unfold State.resetLong
  (repeat' split) <;> simp

@[simp] theorem keep_State_resetLong (s : State) (i : Nat) : (State.resetLong s i).kept = s.kept :=
  kept_of_still (still_State_resetLong ..)

@[simp] theorem keep_State_readRecord (s : State) (o : Op) (n : Nat) : (State.readRecord s o n).2.kept = s.kept := by
  unfold State.readRecord
  dsimp only
  (repeat' split) <;> simp_all

@[simp] theorem still_State_pinEntry (s : State) (c : Nat) (e : Nat × Nat) : (State.pinEntry s c e).still = s.still := by
  unfold State.pinEntry
  rfl

@[simp] theorem keep_State_pinEntry (s : State) (c : Nat) (e : Nat × Nat) : (State.pinEntry s c e).kept = s.kept :=
  kept_of_still (still_State_pinEntry ..)

@[simp] theorem keep_State_readPreload (s : State) (ws : List Nat) : (State.readPreload s ws).2.kept = s.kept := by
  unfold State.readPreload
  dsimp only
  (repeat' split) <;> simp_all

@[simp] theorem keep_State_loadContract (s : State) (i : Nat) (o : Op) (rec : Option (List Nat)) : (State.loadContract s i o rec).kept = s.kept := by
  unfold State.loadContract
  dsimp only
  (repeat' split) <;> simp_all

@[simp] theorem keep_contractLoadWork (o : Op) (s : State) : (contractLoadWork o s).2.kept = s.kept := by
  unfold contractLoadWork
  refine keep_adminGate _ _ _ (fun o s => ?_)
  split
  · rfl
  · exact keep_State_startLong _ _ _ _ _ _ _ _ (by simp)

theorem keep_execTableLoadContract (fn ring : Nat) (s : State) (t : State) (h : execTableLoadContract fn ring s = .next t) : t.kept = s.kept := by
  unfold execTableLoadContract at h
  cases h; simp

@[simp] theorem still_State_unpinLoad (s : State) (c : Nat) (es : List Nat) : (State.unpinLoad s c es).still = s.still := by
  unfold State.unpinLoad
  simp

@[simp] theorem keep_State_unpinLoad (s : State) (c : Nat) (es : List Nat) : (State.unpinLoad s c es).kept = s.kept :=
  kept_of_still (still_State_unpinLoad ..)

@[simp] theorem still_State_stageContract (s : State) (c i : Nat) : (State.stageContract s c i).still = s.still := by
  unfold State.stageContract
  (repeat' split) <;> simp

@[simp] theorem keep_State_stageContract (s : State) (c i : Nat) : (State.stageContract s c i).kept = s.kept :=
  kept_of_still (still_State_stageContract ..)

theorem still_execContractPreloadDone (cmp : Nat) (loads : List Nat) (s : State) (t : State) (h : execContractPreloadDone cmp loads s = .next t) : t.still = s.still := by
  unfold execContractPreloadDone at h
  cases h; simp

theorem keep_execContractPreloadDone (cmp : Nat) (loads : List Nat) (s : State) (t : State) (h : execContractPreloadDone cmp loads s = .next t) : t.kept = s.kept :=
  kept_of_still (still_execContractPreloadDone (h := h) ..)

theorem still_execContractEnd (cmp : Nat) (s : State) (t : State) (h : execContractEnd cmp s = .next t) : t.still = s.still := by
  unfold execContractEnd at h
  (repeat' split at h) <;> (cases h; simp)

theorem keep_execContractEnd (cmp : Nat) (s : State) (t : State) (h : execContractEnd cmp s = .next t) : t.kept = s.kept :=
  kept_of_still (still_execContractEnd (h := h) ..)

@[simp] theorem still_State_setCplOp (s : State) (o : Op) : (State.setCplOp s o).still = s.still := by
  unfold State.setCplOp
  rfl

@[simp] theorem keep_State_setCplOp (s : State) (o : Op) : (State.setCplOp s o).kept = s.kept :=
  kept_of_still (still_State_setCplOp ..)

theorem still_execDeadlineMissed (op : Nat) (s : State) (t : State) (h : execDeadlineMissed op s = .next t) : t.still = s.still := by
  unfold execDeadlineMissed at h
  (repeat' split at h) <;> (cases h; simp)

theorem keep_execDeadlineMissed (op : Nat) (s : State) (t : State) (h : execDeadlineMissed op s = .next t) : t.kept = s.kept :=
  kept_of_still (still_execDeadlineMissed (h := h) ..)

@[simp] theorem still_State_serveSlot (s : State) (l : Nat) (shared : Bool) (r : SlotReq) : (State.serveSlot s l shared r).still = s.still := by
  unfold State.serveSlot
  simp

@[simp] theorem keep_State_serveSlot (s : State) (l : Nat) (shared : Bool) (r : SlotReq) : (State.serveSlot s l shared r).kept = s.kept :=
  kept_of_still (still_State_serveSlot ..)

@[simp] theorem still_State_nextSlot (s : State) (l : Nat) : (State.nextSlot s l).still = s.still := by
  unfold State.nextSlot
  simp

@[simp] theorem keep_State_nextSlot (s : State) (l : Nat) : (State.nextSlot s l).kept = s.kept :=
  kept_of_still (still_State_nextSlot ..)

theorem still_execServiceSlotGrant (lane : Nat) (requests : List (Nat × Nat × Nat)) (s : State) (t : State) (h : execServiceSlotGrant lane requests s = .next t) : t.still = s.still := by
  unfold execServiceSlotGrant at h
  dsimp only at h
  (repeat' split at h) <;> (cases h; simp_all)

theorem keep_execServiceSlotGrant (lane : Nat) (requests : List (Nat × Nat × Nat)) (s : State) (t : State) (h : execServiceSlotGrant lane requests s = .next t) : t.kept = s.kept :=
  kept_of_still (still_execServiceSlotGrant (h := h) ..)

@[simp] theorem still_State_setPort (s : State) (p : Nat) (st : PortState) : (State.setPort s p st).still = s.still := by
  unfold State.setPort
  rfl

@[simp] theorem keep_State_setPort (s : State) (p : Nat) (st : PortState) : (State.setPort s p st).kept = s.kept :=
  kept_of_still (still_State_setPort ..)

@[simp] theorem still_State_enumStart (s : State) : (State.enumStart s).still = s.still := by
  unfold State.enumStart
  rfl

@[simp] theorem keep_State_enumStart (s : State) : (State.enumStart s).kept = s.kept :=
  kept_of_still (still_State_enumStart ..)

theorem still_execEnumerationStart (fn : Nat) (s : State) (t : State) (h : execEnumerationStart fn s = .next t) : t.still = s.still := by
  unfold execEnumerationStart at h
  (repeat' split at h) <;> (cases h; simp)

theorem keep_execEnumerationStart (fn : Nat) (s : State) (t : State) (h : execEnumerationStart fn s = .next t) : t.kept = s.kept :=
  kept_of_still (still_execEnumerationStart (h := h) ..)

@[simp] theorem still_State_expSession (s : State) (p serial : Nat) : (State.expSession s p serial).still = s.still := by
  unfold State.expSession
  rfl

@[simp] theorem keep_State_expSession (s : State) (p serial : Nat) : (State.expSession s p serial).kept = s.kept :=
  kept_of_still (still_State_expSession ..)

theorem still_execEnumerationPortVisit (port : Nat) (link hdmh : Bool) (gib serial : Nat) (ide decoder : Bool) (s : State) (t : State) (h : execEnumerationPortVisit port link hdmh gib serial ide decoder s = .next t) : t.still = s.still := by
  unfold execEnumerationPortVisit at h
  (repeat' split at h) <;> (cases h; simp)

theorem keep_execEnumerationPortVisit (port : Nat) (link hdmh : Bool) (gib serial : Nat) (ide decoder : Bool) (s : State) (t : State) (h : execEnumerationPortVisit port link hdmh gib serial ide decoder s = .next t) : t.kept = s.kept :=
  kept_of_still (still_execEnumerationPortVisit (h := h) ..)

@[simp] theorem still_State_mapPort (s : State) (p : Nat) : (State.mapPort s p).still = s.still := by
  unfold State.mapPort
  dsimp only
  (repeat' split) <;> simp_all

@[simp] theorem keep_State_mapPort (s : State) (p : Nat) : (State.mapPort s p).kept = s.kept :=
  kept_of_still (still_State_mapPort ..)

@[simp] theorem still_State_applyMap (s : State) : (State.applyMap s).still = s.still := by
  unfold State.applyMap
  simp

@[simp] theorem keep_State_applyMap (s : State) : (State.applyMap s).kept = s.kept :=
  kept_of_still (still_State_applyMap ..)

@[simp] theorem still_State_abortEnum (s : State) : (State.abortEnum s).still = s.still := by
  unfold State.abortEnum
  simp

@[simp] theorem keep_State_abortEnum (s : State) : (State.abortEnum s).kept = s.kept :=
  kept_of_still (still_State_abortEnum ..)

theorem still_execExpansionLinkUp (port : Nat) (s : State) (t : State) (h : execExpansionLinkUp port s = .next t) : t.still = s.still := by
  unfold execExpansionLinkUp at h
  (repeat' split at h) <;> (cases h; simp)

theorem keep_execExpansionLinkUp (port : Nat) (s : State) (t : State) (h : execExpansionLinkUp port s = .next t) : t.kept = s.kept :=
  kept_of_still (still_execExpansionLinkUp (h := h) ..)

@[simp] theorem still_State_expanderLost (s : State) (p : Nat) : (State.expanderLost s p).still = s.still := by
  unfold State.expanderLost
  simp

@[simp] theorem keep_State_expanderLost (s : State) (p : Nat) : (State.expanderLost s p).kept = s.kept :=
  kept_of_still (still_State_expanderLost ..)

@[simp] theorem still_State_expansionLoss (s : State) (p : Nat) : (State.expansionLoss s p).still = s.still := by
  unfold State.expansionLoss
  simp

@[simp] theorem keep_State_expansionLoss (s : State) (p : Nat) : (State.expansionLoss s p).kept = s.kept :=
  kept_of_still (still_State_expansionLoss ..)

theorem still_execExpansionLinkDown (port : Nat) (s : State) (t : State) (h : execExpansionLinkDown port s = .next t) : t.still = s.still := by
  unfold execExpansionLinkDown at h
  (repeat' split at h) <;> (cases h; simp)

theorem keep_execExpansionLinkDown (port : Nat) (s : State) (t : State) (h : execExpansionLinkDown port s = .next t) : t.kept = s.kept :=
  kept_of_still (still_execExpansionLinkDown (h := h) ..)

theorem keep_execExpanderResponse (addr : Nat) (write poison : Bool) (latency : Nat) (s : State) (t : State) (h : execExpanderResponse addr write poison latency s = .next t) : t.kept = s.kept := by
  unfold execExpanderResponse at h
  dsimp only at h
  (repeat' split at h) <;> (cases h; simp_all)

theorem still_execExpanderEvent (port : Nat) (record : List Nat) (s : State) (t : State) (h : execExpanderEvent port record s = .next t) : t.still = s.still := by
  unfold execExpanderEvent at h
  (repeat' split at h) <;> (cases h; simp)

theorem keep_execExpanderEvent (port : Nat) (record : List Nat) (s : State) (t : State) (h : execExpanderEvent port record s = .next t) : t.kept = s.kept :=
  kept_of_still (still_execExpanderEvent (h := h) ..)

@[simp] theorem still_State_setLink (s : State) (l : Nat) (st : LinkState) : (State.setLink s l st).still = s.still := by
  unfold State.setLink
  rfl

@[simp] theorem keep_State_setLink (s : State) (l : Nat) (st : LinkState) : (State.setLink s l st).kept = s.kept :=
  kept_of_still (still_State_setLink ..)

@[simp] theorem still_State_setLnk (s : State) (l : Nat) (x : Lnk) : (State.setLnk s l x).still = s.still := by
  unfold State.setLnk
  rfl

@[simp] theorem keep_State_setLnk (s : State) (l : Nat) (x : Lnk) : (State.setLnk s l x).kept = s.kept :=
  kept_of_still (still_State_setLnk ..)

@[simp] theorem still_State_loseLock (s : State) : (State.loseLock s).still = s.still := by
  unfold State.loseLock
  simp

@[simp] theorem keep_State_loseLock (s : State) : (State.loseLock s).kept = s.kept :=
  kept_of_still (still_State_loseLock ..)

@[simp] theorem still_State_portEvent (s : State) (fns : List Nat) (code port seq : Nat) : (State.portEvent s fns code port seq).still = s.still := by
  unfold State.portEvent
  simp

@[simp] theorem keep_State_portEvent (s : State) (fns : List Nat) (code port seq : Nat) : (State.portEvent s fns code port seq).kept = s.kept :=
  kept_of_still (still_State_portEvent ..)

@[simp] theorem still_State_dropPartial (s : State) (l : Nat) : (State.dropPartial s l).still = s.still := by
  unfold State.dropPartial
  rfl

@[simp] theorem keep_State_dropPartial (s : State) (l : Nat) : (State.dropPartial s l).kept = s.kept :=
  kept_of_still (still_State_dropPartial ..)

@[simp] theorem still_State_exitUp (s : State) (l : Nat) (st : LinkState) (exhausted : Bool) : (State.exitUp s l st exhausted).still = s.still := by
  unfold State.exitUp
  simp

@[simp] theorem keep_State_exitUp (s : State) (l : Nat) (st : LinkState) (exhausted : Bool) : (State.exitUp s l st exhausted).kept = s.kept :=
  kept_of_still (still_State_exitUp ..)

@[simp] theorem still_State_moveLink (s : State) (l : Nat) (st : LinkState) : (State.moveLink s l st).still = s.still := by
  unfold State.moveLink
  simp

@[simp] theorem keep_State_moveLink (s : State) (l : Nat) (st : LinkState) : (State.moveLink s l st).kept = s.kept :=
  kept_of_still (still_State_moveLink ..)

@[simp] theorem still_State_linkStart (s : State) (l : Nat) : (State.linkStart s l).still = s.still := by
  unfold State.linkStart
  simp

@[simp] theorem keep_State_linkStart (s : State) (l : Nat) : (State.linkStart s l).kept = s.kept :=
  kept_of_still (still_State_linkStart ..)

@[simp] theorem still_State_linkEnable (s : State) (l value : Nat) : (State.linkEnable s l value).still = s.still := by
  unfold State.linkEnable
  simp

@[simp] theorem keep_State_linkEnable (s : State) (l value : Nat) : (State.linkEnable s l value).kept = s.kept :=
  kept_of_still (still_State_linkEnable ..)

@[simp] theorem still_State_linkEnValue (s : State) (source fn l value : Nat) : (State.linkEnValue s source fn l value).2.still = s.still := by
  unfold State.linkEnValue
  (repeat' split) <;> simp

@[simp] theorem keep_State_linkEnValue (s : State) (source fn l value : Nat) : (State.linkEnValue s source fn l value).2.kept = s.kept :=
  kept_of_still (still_State_linkEnValue ..)

theorem still_execPlkLinkEnable (fn link value : Nat) (s : State) (t : State) (h : execPlkLinkEnable fn link value s = .next t) : t.still = s.still := by
  unfold execPlkLinkEnable at h
  (repeat' split at h) <;> (cases h; simp)

theorem keep_execPlkLinkEnable (fn link value : Nat) (s : State) (t : State) (h : execPlkLinkEnable fn link value s = .next t) : t.kept = s.kept :=
  kept_of_still (still_execPlkLinkEnable (h := h) ..)

theorem still_execLinkRetrain (fn link : Nat) (s : State) (t : State) (h : execLinkRetrain fn link s = .next t) : t.still = s.still := by
  unfold execLinkRetrain at h
  (repeat' split at h) <;> (cases h; simp)

theorem keep_execLinkRetrain (fn link : Nat) (s : State) (t : State) (h : execLinkRetrain fn link s = .next t) : t.kept = s.kept :=
  kept_of_still (still_execLinkRetrain (h := h) ..)

@[simp] theorem still_State_train (s : State) (l : Nat) (was st : LinkState) : (State.train s l was st).still = s.still := by
  unfold State.train
  simp

@[simp] theorem keep_State_train (s : State) (l : Nat) (was st : LinkState) : (State.train s l was st).kept = s.kept :=
  kept_of_still (still_State_train ..)

theorem still_execLinkSignalDetected (link : Nat) (s : State) (t : State) (h : execLinkSignalDetected link s = .next t) : t.still = s.still := by
  unfold execLinkSignalDetected at h
  cases h; simp

theorem keep_execLinkSignalDetected (link : Nat) (s : State) (t : State) (h : execLinkSignalDetected link s = .next t) : t.kept = s.kept :=
  kept_of_still (still_execLinkSignalDetected (h := h) ..)

theorem still_execLinkEqualizeDone (link : Nat) (s : State) (t : State) (h : execLinkEqualizeDone link s = .next t) : t.still = s.still := by
  unfold execLinkEqualizeDone at h
  cases h; simp

theorem keep_execLinkEqualizeDone (link : Nat) (s : State) (t : State) (h : execLinkEqualizeDone link s = .next t) : t.kept = s.kept :=
  kept_of_still (still_execLinkEqualizeDone (h := h) ..)

theorem still_execLinkEqualizeTimeout (link : Nat) (s : State) (t : State) (h : execLinkEqualizeTimeout link s = .next t) : t.still = s.still := by
  unfold execLinkEqualizeTimeout at h
  (repeat' split at h) <;> (cases h; simp)

theorem keep_execLinkEqualizeTimeout (link : Nat) (s : State) (t : State) (h : execLinkEqualizeTimeout link s = .next t) : t.kept = s.kept :=
  kept_of_still (still_execLinkEqualizeTimeout (h := h) ..)

theorem still_execLinkAlignLock (link : Nat) (s : State) (t : State) (h : execLinkAlignLock link s = .next t) : t.still = s.still := by
  unfold execLinkAlignLock at h
  cases h; simp

theorem keep_execLinkAlignLock (link : Nat) (s : State) (t : State) (h : execLinkAlignLock link s = .next t) : t.kept = s.kept :=
  kept_of_still (still_execLinkAlignLock (h := h) ..)

theorem still_execLinkAlignTimeout (link : Nat) (s : State) (t : State) (h : execLinkAlignTimeout link s = .next t) : t.still = s.still := by
  unfold execLinkAlignTimeout at h
  cases h; simp

theorem keep_execLinkAlignTimeout (link : Nat) (s : State) (t : State) (h : execLinkAlignTimeout link s = .next t) : t.kept = s.kept :=
  kept_of_still (still_execLinkAlignTimeout (h := h) ..)

theorem still_execLinkInitTimeout (link : Nat) (s : State) (t : State) (h : execLinkInitTimeout link s = .next t) : t.still = s.still := by
  unfold execLinkInitTimeout at h
  cases h; simp

theorem keep_execLinkInitTimeout (link : Nat) (s : State) (t : State) (h : execLinkInitTimeout link s = .next t) : t.kept = s.kept :=
  kept_of_still (still_execLinkInitTimeout (h := h) ..)

theorem still_execLinkInitDone (link serial far : Nat) (s : State) (t : State) (h : execLinkInitDone link serial far s = .next t) : t.still = s.still := by
  unfold execLinkInitDone at h
  (repeat' split at h) <;> (cases h; simp)

theorem keep_execLinkInitDone (link serial far : Nat) (s : State) (t : State) (h : execLinkInitDone link serial far s = .next t) : t.kept = s.kept :=
  kept_of_still (still_execLinkInitDone (h := h) ..)

theorem still_execLinkSignalLost (link : Nat) (s : State) (t : State) (h : execLinkSignalLost link s = .next t) : t.still = s.still := by
  unfold execLinkSignalLost at h
  (repeat' split at h) <;> (cases h; simp)

theorem keep_execLinkSignalLost (link : Nat) (s : State) (t : State) (h : execLinkSignalLost link s = .next t) : t.kept = s.kept :=
  kept_of_still (still_execLinkSignalLost (h := h) ..)

@[simp] theorem still_State_noRoute (s : State) (c : Nat) (via : Option Nat) (out dst : Nat) (indic : Bool) : (State.noRoute s c via out dst indic).still = s.still := by
  unfold State.noRoute
  (repeat' split) <;> simp

@[simp] theorem keep_State_noRoute (s : State) (c : Nat) (via : Option Nat) (out dst : Nat) (indic : Bool) : (State.noRoute s c via out dst indic).kept = s.kept :=
  kept_of_still (still_State_noRoute ..)

@[simp] theorem still_State_setRx (s : State) (c : Nat) (ms : List RxMsg) : (State.setRx s c ms).still = s.still := by
  unfold State.setRx
  rfl

@[simp] theorem keep_State_setRx (s : State) (c : Nat) (ms : List RxMsg) : (State.setRx s c ms).kept = s.kept :=
  kept_of_still (still_State_setRx ..)

@[simp] theorem still_State_oweOne (s : State) (l key : Nat) : (State.oweOne s l key).still = s.still := by
  unfold State.oweOne
  simp

@[simp] theorem keep_State_oweOne (s : State) (l key : Nat) : (State.oweOne s l key).kept = s.kept :=
  kept_of_still (still_State_oweOne ..)

@[simp] theorem still_State_enterFlit (s : State) (l c : Nat) (f : Flit) (indic tagOk : Bool) : (State.enterFlit s l c f indic tagOk).2.still = s.still := by
  unfold State.enterFlit
  dsimp only
  (repeat' split) <;> simp_all

@[simp] theorem keep_State_enterFlit (s : State) (l c : Nat) (f : Flit) (indic tagOk : Bool) : (State.enterFlit s l c f indic tagOk).2.kept = s.kept :=
  kept_of_still (still_State_enterFlit ..)

@[simp] theorem still_State_localFlit (s : State) (l c : Nat) (f : Flit) (indic tagOk : Bool) : (State.localFlit s l c f indic tagOk).still = s.still := by
  unfold State.localFlit
  simp

@[simp] theorem keep_State_localFlit (s : State) (l c : Nat) (f : Flit) (indic tagOk : Bool) : (State.localFlit s l c f indic tagOk).kept = s.kept :=
  kept_of_still (still_State_localFlit ..)

@[simp] theorem still_State_retryHeld (s : State) (l c : Nat) : (s.retryHeld l c).still = s.still := by
  unfold State.retryHeld
  refine (kept_fold_of (fun (a : State × List Nat) => a.1.still) _ (fun a h => ?_) _ _).trans (by simp)
  dsimp only
  (repeat' split) <;> simp

@[simp] theorem keep_State_retryHeld (s : State) (l c : Nat) : (s.retryHeld l c).kept = s.kept :=
  kept_of_still (still_State_retryHeld ..)

@[simp] theorem still_State_takeRx (s : State) (c id : Nat) : (State.takeRx s c id).still = s.still := by
  unfold State.takeRx
  simp

@[simp] theorem keep_State_takeRx (s : State) (c id : Nat) : (State.takeRx s c id).kept = s.kept :=
  kept_of_still (still_State_takeRx ..)

@[simp] theorem still_State_useLink (s : State) (op : Option Nat) (l : Nat) : (State.useLink s op l).still = s.still := by
  unfold State.useLink
  rfl

@[simp] theorem keep_State_useLink (s : State) (op : Option Nat) (l : Nat) : (State.useLink s op l).kept = s.kept :=
  kept_of_still (still_State_useLink ..)

@[simp] theorem still_State_queueMsg (s : State) (c : Nat) (indic : Bool) (dst : Nat) (op : Option Nat) (m : Msg) : (State.queueMsg s c indic dst op m).2.still = s.still := by
  unfold State.queueMsg
  dsimp only
  (repeat' split) <;> simp_all

@[simp] theorem keep_State_queueMsg (s : State) (c : Nat) (indic : Bool) (dst : Nat) (op : Option Nat) (m : Msg) : (State.queueMsg s c indic dst op m).2.kept = s.kept :=
  kept_of_still (still_State_queueMsg ..)

@[simp] theorem still_State_slotMissed (s : State) (l n : Nat) (cause : Option Nat) : (State.slotMissed s l n cause).still = s.still := by
  unfold State.slotMissed
  dsimp only
  (repeat' split) <;> simp_all

@[simp] theorem keep_State_slotMissed (s : State) (l n : Nat) (cause : Option Nat) : (State.slotMissed s l n cause).kept = s.kept :=
  kept_of_still (still_State_slotMissed ..)

@[simp] theorem still_State_sendFresh (s : State) (l n : Nat) (f : Flit) : (State.sendFresh s l n f).still = s.still := by
  unfold State.sendFresh
  rfl

@[simp] theorem keep_State_sendFresh (s : State) (l n : Nat) (f : Flit) : (State.sendFresh s l n f).kept = s.kept :=
  kept_of_still (still_State_sendFresh ..)

@[simp] theorem still_State_takeFlit (s : State) (l : Nat) (m : TxMsg) : (State.takeFlit s l m).still = s.still := by
  unfold State.takeFlit
  (repeat' split) <;> simp

@[simp] theorem keep_State_takeFlit (s : State) (l : Nat) (m : TxMsg) : (State.takeFlit s l m).kept = s.kept :=
  kept_of_still (still_State_takeFlit ..)

@[simp] theorem still_State_freshSlot (s : State) (l n : Nat) : (State.freshSlot s l n).still = s.still := by
  unfold State.freshSlot
  dsimp only
  (repeat' split) <;> simp_all

@[simp] theorem keep_State_freshSlot (s : State) (l n : Nat) : (State.freshSlot s l n).kept = s.kept :=
  kept_of_still (still_State_freshSlot ..)

theorem still_execSlotTransmit (link : Nat) (s : State) (t : State) (h : execSlotTransmit link s = .next t) : t.still = s.still := by
  unfold execSlotTransmit at h
  dsimp only at h
  (repeat' split at h) <;> (cases h; simp_all)

theorem keep_execSlotTransmit (link : Nat) (s : State) (t : State) (h : execSlotTransmit link s = .next t) : t.kept = s.kept :=
  kept_of_still (still_execSlotTransmit (h := h) ..)

@[simp] theorem still_State_startRound (s : State) (l failed : Nat) : (State.startRound s l failed).still = s.still := by
  unfold State.startRound
  dsimp only
  (repeat' split) <;> simp_all

@[simp] theorem keep_State_startRound (s : State) (l failed : Nat) : (State.startRound s l failed).kept = s.kept :=
  kept_of_still (still_State_startRound ..)

theorem still_execReplayBufferFullTimeout (link : Nat) (s : State) (t : State) (h : execReplayBufferFullTimeout link s = .next t) : t.still = s.still := by
  unfold execReplayBufferFullTimeout at h
  (repeat' split at h) <;> (cases h; simp)

theorem keep_execReplayBufferFullTimeout (link : Nat) (s : State) (t : State) (h : execReplayBufferFullTimeout link s = .next t) : t.kept = s.kept :=
  kept_of_still (still_execReplayBufferFullTimeout (h := h) ..)

theorem still_execReplayRoundTimeout (link : Nat) (s : State) (t : State) (h : execReplayRoundTimeout link s = .next t) : t.still = s.still := by
  unfold execReplayRoundTimeout at h
  (repeat' split at h) <;> (cases h; simp)

theorem keep_execReplayRoundTimeout (link : Nat) (s : State) (t : State) (h : execReplayRoundTimeout link s = .next t) : t.kept = s.kept :=
  kept_of_still (still_execReplayRoundTimeout (h := h) ..)

@[simp] theorem still_State_gapFlit (s : State) (l : Nat) : (State.gapFlit s l).still = s.still := by
  unfold State.gapFlit
  simp

@[simp] theorem keep_State_gapFlit (s : State) (l : Nat) : (State.gapFlit s l).kept = s.kept :=
  kept_of_still (still_State_gapFlit ..)

@[simp] theorem still_State_passOn (s : State) (out l c : Nat) (f : Flit) (indic : Bool) : (State.passOn s out l c f indic).still = s.still := by
  unfold State.passOn
  dsimp only
  (repeat' split) <;> simp_all

@[simp] theorem keep_State_passOn (s : State) (out l c : Nat) (f : Flit) (indic : Bool) : (State.passOn s out l c f indic).kept = s.kept :=
  kept_of_still (still_State_passOn ..)

@[simp] theorem still_State_wayOf (s : State) (l c : Nat) (f : Flit) (indic : Bool) : (State.wayOf s l c f indic).2.still = s.still := by
  unfold State.wayOf
  dsimp only
  (repeat' split) <;> simp_all

@[simp] theorem keep_State_wayOf (s : State) (l c : Nat) (f : Flit) (indic : Bool) : (State.wayOf s l c f indic).2.kept = s.kept :=
  kept_of_still (still_State_wayOf ..)

@[simp] theorem still_State_dataIn (s : State) (l : Nat) (f : Flit) (tagOk : Bool) : (State.dataIn s l f tagOk).still = s.still := by
  unfold State.dataIn
  (repeat' split) <;> simp

@[simp] theorem keep_State_dataIn (s : State) (l : Nat) (f : Flit) (tagOk : Bool) : (State.dataIn s l f tagOk).kept = s.kept :=
  kept_of_still (still_State_dataIn ..)

theorem still_execFlitReceive (link pos corrected : Nat) (lost crcOk tagOk : Bool) (flit : Flit) (s : State) (t : State) (h : execFlitReceive link pos corrected lost crcOk tagOk flit s = .next t) : t.still = s.still := by
  unfold execFlitReceive at h
  dsimp only at h
  (repeat' split at h) <;> (cases h; simp_all)

theorem keep_execFlitReceive (link pos corrected : Nat) (lost crcOk tagOk : Bool) (flit : Flit) (s : State) (t : State) (h : execFlitReceive link pos corrected lost crcOk tagOk flit s = .next t) : t.kept = s.kept :=
  kept_of_still (still_execFlitReceive (h := h) ..)

@[simp] theorem keep_State_tableRead (s : State) (o : Op) (n : Nat) : (State.tableRead s o n).2.kept = s.kept := by
  unfold State.tableRead
  dsimp only
  (repeat' split) <;> simp_all

@[simp] theorem still_State_loadPlan (s : State) (i : Nat) (rec : Option (List Nat)) : (State.loadPlan s i rec).still = s.still := by
  unfold State.loadPlan
  (repeat' split) <;> simp

@[simp] theorem keep_State_loadPlan (s : State) (i : Nat) (rec : Option (List Nat)) : (State.loadPlan s i rec).kept = s.kept :=
  kept_of_still (still_State_loadPlan ..)

@[simp] theorem keep_slotPlanWork (o : Op) (s : State) : (slotPlanWork o s).2.kept = s.kept := by
  unfold slotPlanWork
  refine keep_adminGate _ _ _ (fun o s => keep_State_startLong _ _ _ _ _ _ _ _ (fun i o s => ?_))
  dsimp only
  split <;> simp

theorem keep_execTableLoadSlotPlan (fn ring : Nat) (s : State) (t : State) (h : execTableLoadSlotPlan fn ring s = .next t) : t.kept = s.kept := by
  unfold execTableLoadSlotPlan at h
  cases h; simp

@[simp] theorem keep_routingWork (o : Op) (s : State) : (routingWork o s).2.kept = s.kept := by
  unfold routingWork
  refine keep_adminGate _ _ _ (fun o s => keep_State_startLong _ _ _ _ _ _ _ _ (fun i o s => ?_))
  dsimp only
  have hr : (if adPtr o.desc % 64 = 0 then s.adminRead true (adPtr o.desc) 256 else (ReadOut.poison, s)).2.kept = s.kept := by
    split <;> simp
  generalize (if adPtr o.desc % 64 = 0 then s.adminRead true (adPtr o.desc) 256 else (ReadOut.poison, s)) = r at hr
  (repeat' split) <;> simp [hr]

theorem keep_execTableLoadRouting (fn ring : Nat) (s : State) (t : State) (h : execTableLoadRouting fn ring s = .next t) : t.kept = s.kept := by
  unfold execTableLoadRouting at h
  cases h; simp

@[simp] theorem still_State_switchCredits (s : State) (l : Nat) (old new : List Nat) : (State.switchCredits s l old new).still = s.still := by
  unfold State.switchCredits
  rfl

@[simp] theorem keep_State_switchCredits (s : State) (l : Nat) (old new : List Nat) : (State.switchCredits s l old new).kept = s.kept :=
  kept_of_still (still_State_switchCredits ..)

theorem still_execSlotPlanSwitch (link : Nat) (s : State) (t : State) (h : execSlotPlanSwitch link s = .next t) : t.still = s.still := by
  unfold execSlotPlanSwitch at h
  dsimp only at h
  (repeat' split at h) <;> (cases h; simp_all)

theorem keep_execSlotPlanSwitch (link : Nat) (s : State) (t : State) (h : execSlotPlanSwitch link s = .next t) : t.kept = s.kept :=
  kept_of_still (still_execSlotPlanSwitch (h := h) ..)

@[simp] theorem still_State_stepBeat (s : State) (th : Int) : (State.stepBeat s th).still = s.still := by
  unfold State.stepBeat
  simp

@[simp] theorem keep_State_stepBeat (s : State) (th : Int) : (State.stepBeat s th).kept = s.kept :=
  kept_of_still (still_State_stepBeat ..)

@[simp] theorem still_State_exchange (s : State) (b : TimeBody) (th : Int) : (State.exchange s b th).still = s.still := by
  unfold State.exchange
  simp

@[simp] theorem keep_State_exchange (s : State) (b : TimeBody) (th : Int) : (State.exchange s b th).kept = s.kept :=
  kept_of_still (still_State_exchange ..)

theorem still_execTimeFlitReceive (link : Nat) (replayed : Bool) (body : TimeBody) (s : State) (t : State) (h : execTimeFlitReceive link replayed body s = .next t) : t.still = s.still := by
  unfold execTimeFlitReceive at h
  dsimp only at h
  (repeat' split at h) <;> (cases h; simp_all)

theorem keep_execTimeFlitReceive (link : Nat) (replayed : Bool) (body : TimeBody) (s : State) (t : State) (h : execTimeFlitReceive link replayed body s = .next t) : t.kept = s.kept :=
  kept_of_still (still_execTimeFlitReceive (h := h) ..)

theorem still_execTimeExchangeTimeout (s : State) (t : State) (h : execTimeExchangeTimeout s = .next t) : t.still = s.still := by
  unfold execTimeExchangeTimeout at h
  (repeat' split at h) <;> (cases h; simp)

theorem keep_execTimeExchangeTimeout (s : State) (t : State) (h : execTimeExchangeTimeout s = .next t) : t.kept = s.kept :=
  kept_of_still (still_execTimeExchangeTimeout (h := h) ..)

@[simp] theorem keep_State_adminWrite (s : State) (va : Nat) (bs : List Byte) : (s.adminWrite va bs).2.kept = s.kept := by
  unfold State.adminWrite
  dsimp only
  (repeat' split) <;> simp

@[simp] theorem keep_State_rollFinish (s : State) (r : Roll) (status opStatus : Nat) : (s.rollFinish r status opStatus).kept = s.kept := by
  unfold State.rollFinish
  dsimp only
  split
  · simp
  · simp only [keep_State_finLong]
    rw [kept_foldl_snd _ (fun a e => by split <;> simp)]
    simp

@[simp] theorem keep_State_rollGo (s : State) (r : Roll) : (State.rollGo s r).kept = s.kept := by
  unfold State.rollGo
  dsimp only
  (repeat' split) <;> simp_all

@[simp] theorem still_rollWork (o : Op) (s : State) : (rollWork o s).2.still = s.still := by
  unfold rollWork
  refine still_adminGate _ _ _ (fun o s => still_State_startLong _ _ _ _ _ _ _ _ (fun i o s => ?_))
  dsimp only
  split <;> simp

@[simp] theorem keep_rollWork (o : Op) (s : State) : (rollWork o s).2.kept = s.kept :=
  kept_of_still (still_rollWork ..)

theorem keep_execRollCall (fn ring : Nat) (s : State) (t : State) (h : execRollCall fn ring s = .next t) : t.kept = s.kept := by
  unfold execRollCall at h
  dsimp only at h
  (repeat' split at h) <;> (cases h; simp_all)

theorem still_execRollQueryReceive (link since : Nat) (stop : Option Nat) (s : State) (t : State) (h : execRollQueryReceive link since stop s = .next t) : t.still = s.still := by
  unfold execRollQueryReceive at h
  (repeat' split at h) <;> (cases h; simp)

theorem keep_execRollQueryReceive (link since : Nat) (stop : Option Nat) (s : State) (t : State) (h : execRollQueryReceive link since stop s = .next t) : t.kept = s.kept :=
  kept_of_still (still_execRollQueryReceive (h := h) ..)

theorem keep_execRollAnswerReceive (junction jid : Nat) (links : List LinkSeen) (s : State) (t : State) (h : execRollAnswerReceive junction jid links s = .next t) : t.kept = s.kept := by
  unfold execRollAnswerReceive at h
  (repeat' split at h) <;> (cases h; simp)

theorem keep_execRollQueryTimeout (junction : Nat) (s : State) (t : State) (h : execRollQueryTimeout junction s = .next t) : t.kept = s.kept := by
  unfold execRollQueryTimeout at h
  (repeat' split at h) <;> (cases h; simp)

end Sys2Proof.Machine
end

