-- ==== Sys2Proof/Laws/Keep3.lean ====
section
/-! SUPPORT. What operations and meanings leave untouched (`State.kept`, and `State.still` where they store nothing): remote access, the network, functions, compartments, frames, walks, incidents. -/
namespace Sys2Proof.Machine

open Sys2Proof

@[simp] theorem still_State_netDone (s : State) (fn : Nat) (st : CmdSt) (res : Option Nat) : (State.netDone s fn st res).still = s.still := by
  unfold State.netDone
  dsimp only
  (repeat' split) <;> simp_all

@[simp] theorem keep_State_netDone (s : State) (fn : Nat) (st : CmdSt) (res : Option Nat) : (State.netDone s fn st res).kept = s.kept :=
  kept_of_still (still_State_netDone ..)

@[simp] theorem still_State_netCmd (s : State) (fn : Nat) (k : State → CmdSt × Option Nat × State) (h : ∀ s, (k s).2.2.still = s.still) :
    (s.netCmd fn k).still = s.still := by
  unfold State.netCmd
  split <;> simp [h]

@[simp] theorem keep_State_netCmd (s : State) (fn : Nat) (k : State → CmdSt × Option Nat × State) (h : ∀ s, (k s).2.2.kept = s.kept) :
    (s.netCmd fn k).kept = s.kept := by
  unfold State.netCmd
  split <;> simp [h]

@[simp] theorem still_netFail (s : State) (st : CmdSt) : (netFail s st).2.2.still = s.still := by
  unfold netFail
  rfl

@[simp] theorem keep_netFail (s : State) (st : CmdSt) : (netFail s st).2.2.kept = s.kept :=
  kept_of_still (still_netFail ..)

@[simp] theorem still_State_netAlloc (s : State) (fn : Nat) (rivals : List Nat) (k : Nat → State → CmdSt × Option Nat × State)
    (h : ∀ f s, (k f s).2.2.still = s.still) : (s.netAlloc fn rivals k).still = s.still := by
  unfold State.netAlloc
  split
  · simp
  · split
    · rfl
    · dsimp only
      rw [still_foldl _ (fun s f => still_State_netCmd _ _ _ (h f))]
      split <;> simp

@[simp] theorem keep_State_netAlloc (s : State) (fn : Nat) (rivals : List Nat) (k : Nat → State → CmdSt × Option Nat × State)
    (h : ∀ f s, (k f s).2.2.kept = s.kept) : (s.netAlloc fn rivals k).kept = s.kept := by
  unfold State.netAlloc
  split
  · simp
  · split
    · rfl
    · dsimp only
      rw [kept_foldl _ (fun s f => keep_State_netCmd _ _ _ (h f))]
      split <;> simp

@[simp] theorem still_State_allocEmpty (s : State) (fn : Nat) : (State.allocEmpty s fn).2.2.still = s.still := by
  unfold State.allocEmpty
  (repeat' split) <;> simp

@[simp] theorem keep_State_allocEmpty (s : State) (fn : Nat) : (State.allocEmpty s fn).2.2.kept = s.kept :=
  kept_of_still (still_State_allocEmpty ..)

@[simp] theorem still_State_setQp (s : State) (n : Nat) (q : Qp) : (State.setQp s n q).still = s.still := by
  unfold State.setQp
  rfl

@[simp] theorem keep_State_setQp (s : State) (n : Nat) (q : Qp) : (State.setQp s n q).kept = s.kept :=
  kept_of_still (still_State_setQp ..)

@[simp] theorem still_State_setCq (s : State) (n : Nat) (q : Cq) : (State.setCq s n q).still = s.still := by
  unfold State.setCq
  rfl

@[simp] theorem keep_State_setCq (s : State) (n : Nat) (q : Cq) : (State.setCq s n q).kept = s.kept :=
  kept_of_still (still_State_setCq ..)

@[simp] theorem still_State_setSrq (s : State) (n : Nat) (q : Srq) : (State.setSrq s n q).still = s.still := by
  unfold State.setSrq
  rfl

@[simp] theorem keep_State_setSrq (s : State) (n : Nat) (q : Srq) : (State.setSrq s n q).kept = s.kept :=
  kept_of_still (still_State_setSrq ..)

@[simp] theorem still_State_setKey (s : State) (n : Nat) (k : Key) : (State.setKey s n k).still = s.still := by
  unfold State.setKey
  rfl

@[simp] theorem keep_State_setKey (s : State) (n : Nat) (k : Key) : (State.setKey s n k).kept = s.kept :=
  kept_of_still (still_State_setKey ..)

@[simp] theorem still_State_qpError (s : State) (n : Nat) (but : Option Nat) (seq : Nat) : (State.qpError s n but seq).still = s.still := by
  unfold State.qpError
  (repeat' split) <;> simp

@[simp] theorem keep_State_qpError (s : State) (n : Nat) (but : Option Nat) (seq : Nat) : (State.qpError s n but seq).kept = s.kept :=
  kept_of_still (still_State_qpError ..)

@[simp] theorem still_State_qpCreate (s : State) (fn : Nat) : (State.qpCreate s fn).2.2.still = s.still := by
  unfold State.qpCreate
  dsimp only
  (repeat' split) <;> simp_all

@[simp] theorem keep_State_qpCreate (s : State) (fn : Nat) : (State.qpCreate s fn).2.2.kept = s.kept :=
  kept_of_still (still_State_qpCreate ..)

@[simp] theorem still_State_clampQp (s : State) (source fn n : Nat) (q : Qp) : (State.clampQp s source fn n q).still = s.still := by
  unfold State.clampQp
  simp

@[simp] theorem keep_State_clampQp (s : State) (source fn n : Nat) (q : Qp) : (State.clampQp s source fn n q).kept = s.kept :=
  kept_of_still (still_State_clampQp ..)

@[simp] theorem still_State_qpMove (s : State) (fn n : Nat) (q : Qp) (target : Nat) : (State.qpMove s fn n q target).2.2.still = s.still := by
  unfold State.qpMove
  dsimp only
  (repeat' split) <;> simp_all

@[simp] theorem keep_State_qpMove (s : State) (fn n : Nat) (q : Qp) (target : Nat) : (State.qpMove s fn n q target).2.2.kept = s.kept :=
  kept_of_still (still_State_qpMove ..)

@[simp] theorem still_State_qpModify (s : State) (fn : Nat) : (State.qpModify s fn).2.2.still = s.still := by
  unfold State.qpModify
  dsimp only
  (repeat' split) <;> simp_all

@[simp] theorem keep_State_qpModify (s : State) (fn : Nat) : (State.qpModify s fn).2.2.kept = s.kept :=
  kept_of_still (still_State_qpModify ..)

@[simp] theorem still_State_qpDestroy (s : State) (fn : Nat) : (State.qpDestroy s fn).2.2.still = s.still := by
  unfold State.qpDestroy
  dsimp only
  (repeat' split) <;> simp_all

@[simp] theorem keep_State_qpDestroy (s : State) (fn : Nat) : (State.qpDestroy s fn).2.2.kept = s.kept :=
  kept_of_still (still_State_qpDestroy ..)

@[simp] theorem still_State_qpQuery (s : State) (fn : Nat) : (State.qpQuery s fn).2.2.still = s.still := by
  unfold State.qpQuery
  dsimp only
  (repeat' split) <;> simp_all

@[simp] theorem keep_State_qpQuery (s : State) (fn : Nat) : (State.qpQuery s fn).2.2.kept = s.kept :=
  kept_of_still (still_State_qpQuery ..)

@[simp] theorem still_State_cqCreate (fn : Nat) (s : State) : (State.cqCreate fn s).2.2.still = s.still := by
  unfold State.cqCreate
  dsimp only
  (repeat' split) <;> simp_all

@[simp] theorem keep_State_cqCreate (fn : Nat) (s : State) : (State.cqCreate fn s).2.2.kept = s.kept :=
  kept_of_still (still_State_cqCreate ..)

@[simp] theorem still_State_cqDestroy (fn : Nat) (s : State) : (State.cqDestroy fn s).2.2.still = s.still := by
  unfold State.cqDestroy
  dsimp only
  (repeat' split) <;> simp_all

@[simp] theorem keep_State_cqDestroy (fn : Nat) (s : State) : (State.cqDestroy fn s).2.2.kept = s.kept :=
  kept_of_still (still_State_cqDestroy ..)

@[simp] theorem still_State_srqCreate (fn : Nat) (s : State) : (State.srqCreate fn s).2.2.still = s.still := by
  unfold State.srqCreate
  dsimp only
  (repeat' split) <;> simp_all

@[simp] theorem keep_State_srqCreate (fn : Nat) (s : State) : (State.srqCreate fn s).2.2.kept = s.kept :=
  kept_of_still (still_State_srqCreate ..)

@[simp] theorem still_State_srqDestroy (fn : Nat) (s : State) : (State.srqDestroy fn s).2.2.still = s.still := by
  unfold State.srqDestroy
  dsimp only
  (repeat' split) <;> simp_all

@[simp] theorem keep_State_srqDestroy (fn : Nat) (s : State) : (State.srqDestroy fn s).2.2.kept = s.kept :=
  kept_of_still (still_State_srqDestroy ..)

@[simp] theorem still_State_pdAlloc (fn : Nat) (s : State) : (State.pdAlloc fn s).2.2.still = s.still := by
  unfold State.pdAlloc
  (repeat' split) <;> simp

@[simp] theorem keep_State_pdAlloc (fn : Nat) (s : State) : (State.pdAlloc fn s).2.2.kept = s.kept :=
  kept_of_still (still_State_pdAlloc ..)

@[simp] theorem still_State_pdFree (fn : Nat) (s : State) : (State.pdFree fn s).2.2.still = s.still := by
  unfold State.pdFree
  dsimp only
  (repeat' split) <;> simp_all

@[simp] theorem keep_State_pdFree (fn : Nat) (s : State) : (State.pdFree fn s).2.2.kept = s.kept :=
  kept_of_still (still_State_pdFree ..)

@[simp] theorem still_State_allocKey (s : State) (fn : Nat) (k : Key) : (State.allocKey s fn k).2.2.still = s.still := by
  unfold State.allocKey
  (repeat' split) <;> simp

@[simp] theorem keep_State_allocKey (s : State) (fn : Nat) (k : Key) : (State.allocKey s fn k).2.2.kept = s.kept :=
  kept_of_still (still_State_allocKey ..)

@[simp] theorem still_State_regRegion (fn : Nat) (s : State) : (State.regRegion fn s).2.2.still = s.still := by
  unfold State.regRegion
  dsimp only
  (repeat' split) <;> simp_all

@[simp] theorem keep_State_regRegion (fn : Nat) (s : State) : (State.regRegion fn s).2.2.kept = s.kept :=
  kept_of_still (still_State_regRegion ..)

@[simp] theorem still_State_openWindow (fn : Nat) (s : State) : (State.openWindow fn s).2.2.still = s.still := by
  unfold State.openWindow
  dsimp only
  (repeat' split) <;> simp_all

@[simp] theorem keep_State_openWindow (fn : Nat) (s : State) : (State.openWindow fn s).2.2.kept = s.kept :=
  kept_of_still (still_State_openWindow ..)

@[simp] theorem still_State_stampKeys (s : State) (is : List Nat) : (State.stampKeys s is).still = s.still := by
  unfold State.stampKeys
  simp

@[simp] theorem keep_State_stampKeys (s : State) (is : List Nat) : (State.stampKeys s is).kept = s.kept :=
  kept_of_still (still_State_stampKeys ..)

@[simp] theorem still_State_revokeBreach (s : State) (i : Nat) : (State.revokeBreach s i).still = s.still := by
  unfold State.revokeBreach
  dsimp only
  (repeat' split) <;> simp_all

@[simp] theorem keep_State_revokeBreach (s : State) (i : Nat) : (State.revokeBreach s i).kept = s.kept :=
  kept_of_still (still_State_revokeBreach ..)

@[simp] theorem still_State_revokeKey (s : State) (i : Nat) : (State.revokeKey s i).still = s.still := by
  unfold State.revokeKey
  simp

@[simp] theorem keep_State_revokeKey (s : State) (i : Nat) : (State.revokeKey s i).kept = s.kept :=
  kept_of_still (still_State_revokeKey ..)

@[simp] theorem still_State_freeKeys (s : State) (is : List Nat) : (State.freeKeys s is).still = s.still := by
  unfold State.freeKeys
  simp

@[simp] theorem keep_State_freeKeys (s : State) (is : List Nat) : (State.freeKeys s is).kept = s.kept :=
  kept_of_still (still_State_freeKeys ..)

@[simp] theorem still_State_startRevoke (s : State) (who : Nat) (is : List Nat) : (State.startRevoke s who is).still = s.still := by
  unfold State.startRevoke
  rfl

@[simp] theorem keep_State_startRevoke (s : State) (who : Nat) (is : List Nat) : (State.startRevoke s who is).kept = s.kept :=
  kept_of_still (still_State_startRevoke ..)

theorem still_execRevoke (fn : Nat) (s : State) (t : State) (h : execRevoke fn s = .next t) : t.still = s.still := by
  unfold execRevoke at h
  dsimp only at h
  (repeat' split at h) <;> (cases h; simp_all)

theorem keep_execRevoke (fn : Nat) (s : State) (t : State) (h : execRevoke fn s = .next t) : t.kept = s.kept :=
  kept_of_still (still_execRevoke (h := h) ..)

theorem still_execManagerRevoke (fn key : Nat) (rival : Bool) (s : State) (t : State) (h : execManagerRevoke fn key rival s = .next t) : t.still = s.still := by
  unfold execManagerRevoke at h
  dsimp only at h
  (repeat' split at h) <;> (cases h; simp_all)

theorem keep_execManagerRevoke (fn key : Nat) (rival : Bool) (s : State) (t : State) (h : execManagerRevoke fn key rival s = .next t) : t.kept = s.kept :=
  kept_of_still (still_execManagerRevoke (h := h) ..)

theorem still_execRevokeDrainDone (fn : Nat) (s : State) (t : State) (h : execRevokeDrainDone fn s = .next t) : t.still = s.still := by
  unfold execRevokeDrainDone at h
  (repeat' split at h) <;> (cases h; simp)

theorem keep_execRevokeDrainDone (fn : Nat) (s : State) (t : State) (h : execRevokeDrainDone fn s = .next t) : t.kept = s.kept :=
  kept_of_still (still_execRevokeDrainDone (h := h) ..)

@[simp] theorem still_State_revokeAll (s : State) (fn : Nat) : (State.revokeAll s fn).still = s.still := by
  unfold State.revokeAll
  simp

@[simp] theorem keep_State_revokeAll (s : State) (fn : Nat) : (State.revokeAll s fn).kept = s.kept :=
  kept_of_still (still_State_revokeAll ..)

theorem still_execQpCreate (fn : Nat) (s : State) (t : State) (h : execQpCreate fn s = .next t) : t.still = s.still := by
  unfold execQpCreate at h
  cases h; simp

theorem keep_execQpCreate (fn : Nat) (s : State) (t : State) (h : execQpCreate fn s = .next t) : t.kept = s.kept :=
  kept_of_still (still_execQpCreate (h := h) ..)

theorem still_execQpModify (fn : Nat) (s : State) (t : State) (h : execQpModify fn s = .next t) : t.still = s.still := by
  unfold execQpModify at h
  cases h; simp

theorem keep_execQpModify (fn : Nat) (s : State) (t : State) (h : execQpModify fn s = .next t) : t.kept = s.kept :=
  kept_of_still (still_execQpModify (h := h) ..)

theorem still_execQpDestroy (fn : Nat) (s : State) (t : State) (h : execQpDestroy fn s = .next t) : t.still = s.still := by
  unfold execQpDestroy at h
  cases h; simp

theorem keep_execQpDestroy (fn : Nat) (s : State) (t : State) (h : execQpDestroy fn s = .next t) : t.kept = s.kept :=
  kept_of_still (still_execQpDestroy (h := h) ..)

theorem still_execQpQuery (fn : Nat) (s : State) (t : State) (h : execQpQuery fn s = .next t) : t.still = s.still := by
  unfold execQpQuery at h
  cases h; simp

theorem keep_execQpQuery (fn : Nat) (s : State) (t : State) (h : execQpQuery fn s = .next t) : t.kept = s.kept :=
  kept_of_still (still_execQpQuery (h := h) ..)

theorem still_execCqCreate (fn : Nat) (rivals : List Nat) (s : State) (t : State) (h : execCqCreate fn rivals s = .next t) : t.still = s.still := by
  unfold execCqCreate at h
  cases h; simp

theorem keep_execCqCreate (fn : Nat) (rivals : List Nat) (s : State) (t : State) (h : execCqCreate fn rivals s = .next t) : t.kept = s.kept :=
  kept_of_still (still_execCqCreate (h := h) ..)

theorem still_execCqDestroy (fn : Nat) (s : State) (t : State) (h : execCqDestroy fn s = .next t) : t.still = s.still := by
  unfold execCqDestroy at h
  cases h; simp

theorem keep_execCqDestroy (fn : Nat) (s : State) (t : State) (h : execCqDestroy fn s = .next t) : t.kept = s.kept :=
  kept_of_still (still_execCqDestroy (h := h) ..)

theorem still_execSrqCreate (fn : Nat) (rivals : List Nat) (s : State) (t : State) (h : execSrqCreate fn rivals s = .next t) : t.still = s.still := by
  unfold execSrqCreate at h
  cases h; simp

theorem keep_execSrqCreate (fn : Nat) (rivals : List Nat) (s : State) (t : State) (h : execSrqCreate fn rivals s = .next t) : t.kept = s.kept :=
  kept_of_still (still_execSrqCreate (h := h) ..)

theorem still_execSrqDestroy (fn : Nat) (s : State) (t : State) (h : execSrqDestroy fn s = .next t) : t.still = s.still := by
  unfold execSrqDestroy at h
  cases h; simp

theorem keep_execSrqDestroy (fn : Nat) (s : State) (t : State) (h : execSrqDestroy fn s = .next t) : t.kept = s.kept :=
  kept_of_still (still_execSrqDestroy (h := h) ..)

theorem still_execPdAlloc (fn : Nat) (rivals : List Nat) (s : State) (t : State) (h : execPdAlloc fn rivals s = .next t) : t.still = s.still := by
  unfold execPdAlloc at h
  cases h; simp

theorem keep_execPdAlloc (fn : Nat) (rivals : List Nat) (s : State) (t : State) (h : execPdAlloc fn rivals s = .next t) : t.kept = s.kept :=
  kept_of_still (still_execPdAlloc (h := h) ..)

theorem still_execPdFree (fn : Nat) (s : State) (t : State) (h : execPdFree fn s = .next t) : t.still = s.still := by
  unfold execPdFree at h
  cases h; simp

theorem keep_execPdFree (fn : Nat) (s : State) (t : State) (h : execPdFree fn s = .next t) : t.kept = s.kept :=
  kept_of_still (still_execPdFree (h := h) ..)

theorem still_execRegRegion (fn : Nat) (rivals : List Nat) (s : State) (t : State) (h : execRegRegion fn rivals s = .next t) : t.still = s.still := by
  unfold execRegRegion at h
  cases h; simp

theorem keep_execRegRegion (fn : Nat) (rivals : List Nat) (s : State) (t : State) (h : execRegRegion fn rivals s = .next t) : t.kept = s.kept :=
  kept_of_still (still_execRegRegion (h := h) ..)

theorem still_execOpenWindow (fn : Nat) (rivals : List Nat) (s : State) (t : State) (h : execOpenWindow fn rivals s = .next t) : t.still = s.still := by
  unfold execOpenWindow at h
  cases h; simp

theorem keep_execOpenWindow (fn : Nat) (rivals : List Nat) (s : State) (t : State) (h : execOpenWindow fn rivals s = .next t) : t.kept = s.kept :=
  kept_of_still (still_execOpenWindow (h := h) ..)

theorem still_State_applyQp (s : State) (n code : Nat) (t : State) (h : State.applyQp s n code = some t) : t.still = s.still := by
  unfold State.applyQp at h
  (repeat' split at h) <;> (cases h) <;> simp

theorem keep_State_applyQp (s : State) (n code : Nat) (t : State) (h : State.applyQp s n code = some t) : t.kept = s.kept :=
  kept_of_still (still_State_applyQp (h := h) ..)

@[simp] theorem still_State_qpOrder (s : State) (issuer fn n code : Nat) (rival : Bool) :
    (s.qpOrder issuer fn n code rival).still = s.still := by
  have hg : (match s.applyQp n code with
      | some t => t.wr .INS_ORD_STATUS fn 0
      | none => s.wr .INS_ORD_STATUS fn 2).still = s.still := by
    split
    · rename_i t ht
      simp [still_State_applyQp _ _ _ _ ht]
    · simp
  unfold State.qpOrder
  dsimp only
  generalize (match s.applyQp n code with
      | some t => t.wr .INS_ORD_STATUS fn 0
      | none => s.wr .INS_ORD_STATUS fn 2) = u at hg ⊢
  (repeat' split) <;> first
    | (simp [hg]; done)
    | (rename_i t ht; simp [still_State_applyQp _ _ _ _ ht])

@[simp] theorem keep_State_qpOrder (s : State) (issuer fn n code : Nat) (rival : Bool) :
    (s.qpOrder issuer fn n code rival).kept = s.kept :=
  kept_of_still (still_State_qpOrder ..)

theorem still_execQpStopOrder (issuer fn qp : Nat) (rival : Bool) (s : State) (t : State) (h : execQpStopOrder issuer fn qp rival s = .next t) : t.still = s.still := by
  unfold execQpStopOrder at h
  cases h; simp

theorem keep_execQpStopOrder (issuer fn qp : Nat) (rival : Bool) (s : State) (t : State) (h : execQpStopOrder issuer fn qp rival s = .next t) : t.kept = s.kept :=
  kept_of_still (still_execQpStopOrder (h := h) ..)

theorem still_execQpStartOrder (issuer fn qp : Nat) (rival : Bool) (s : State) (t : State) (h : execQpStartOrder issuer fn qp rival s = .next t) : t.still = s.still := by
  unfold execQpStartOrder at h
  cases h; simp

theorem keep_execQpStartOrder (issuer fn qp : Nat) (rival : Bool) (s : State) (t : State) (h : execQpStartOrder issuer fn qp rival s = .next t) : t.kept = s.kept :=
  kept_of_still (still_execQpStartOrder (h := h) ..)

theorem still_execSrqDoorbell (fn slot off size count : Nat) (s : State) (t : State) (h : execSrqDoorbell fn slot off size count s = .next t) : t.still = s.still := by
  unfold execSrqDoorbell at h
  dsimp only at h
  (repeat' split at h) <;> (cases h; simp_all)

theorem keep_execSrqDoorbell (fn slot off size count : Nat) (s : State) (t : State) (h : execSrqDoorbell fn slot off size count s = .next t) : t.kept = s.kept :=
  kept_of_still (still_execSrqDoorbell (h := h) ..)

theorem still_execCqDoorbell (fn slot off size count : Nat) (s : State) (t : State) (h : execCqDoorbell fn slot off size count s = .next t) : t.still = s.still := by
  unfold execCqDoorbell at h
  dsimp only at h
  (repeat' split at h) <;> (cases h; simp_all)

theorem keep_execCqDoorbell (fn slot off size count : Nat) (s : State) (t : State) (h : execCqDoorbell fn slot off size count s = .next t) : t.kept = s.kept :=
  kept_of_still (still_execCqDoorbell (h := h) ..)

theorem still_execAeqRead (fn : Nat) (s : State) (t : State) (h : execAeqRead fn s = .next t) : t.still = s.still := by
  unfold execAeqRead at h
  dsimp only at h
  (repeat' split at h) <;> (cases h; simp_all)

theorem keep_execAeqRead (fn : Nat) (s : State) (t : State) (h : execAeqRead fn s = .next t) : t.kept = s.kept :=
  kept_of_still (still_execAeqRead (h := h) ..)

@[simp] theorem still_State_sendFrame (s : State) (p c : Nat) (ws : List Nat) : (State.sendFrame s p c ws).still = s.still := by
  unfold State.sendFrame
  simp

@[simp] theorem keep_State_sendFrame (s : State) (p c : Nat) (ws : List Nat) : (State.sendFrame s p c ws).kept = s.kept :=
  kept_of_still (still_State_sendFrame ..)

@[simp] theorem still_State_flushFrames (s : State) (p prio : Nat) : (State.flushFrames s p prio).still = s.still := by
  unfold State.flushFrames
  simp

@[simp] theorem keep_State_flushFrames (s : State) (p prio : Nat) : (State.flushFrames s p prio).kept = s.kept :=
  kept_of_still (still_State_flushFrames ..)

@[simp] theorem still_State_frameOf (s : State) (q : Qp) (opcode : Nat) (ackReq : Bool) (psn : Nat) (ext data : List Nat) : (State.frameOf s q opcode ackReq psn ext data).2.still = s.still := by
  unfold State.frameOf
  simp

@[simp] theorem keep_State_frameOf (s : State) (q : Qp) (opcode : Nat) (ackReq : Bool) (psn : Nat) (ext data : List Nat) : (State.frameOf s q opcode ackReq psn ext data).2.kept = s.kept :=
  kept_of_still (still_State_frameOf ..)

@[simp] theorem still_State_sendPacket (s : State) (q : Qp) (opcode : Nat) (ackReq : Bool) (psn : Nat) (ext data : List Nat) : (State.sendPacket s q opcode ackReq psn ext data).still = s.still := by
  unfold State.sendPacket
  simp

@[simp] theorem keep_State_sendPacket (s : State) (q : Qp) (opcode : Nat) (ackReq : Bool) (psn : Nat) (ext data : List Nat) : (State.sendPacket s q opcode ackReq psn ext data).kept = s.kept :=
  kept_of_still (still_State_sendPacket ..)

@[simp] theorem still_State_endRemote (s : State) (n : Nat) (o : Op) : (State.endRemote s n o).still = s.still := by
  unfold State.endRemote
  (repeat' split) <;> simp

@[simp] theorem keep_State_endRemote (s : State) (n : Nat) (o : Op) : (State.endRemote s n o).kept = s.kept :=
  kept_of_still (still_State_endRemote ..)

@[simp] theorem still_State_remoteFail (s : State) (n id syndrome : Nat) : (State.remoteFail s n id syndrome).still = s.still := by
  unfold State.remoteFail
  (repeat' split) <;> simp

@[simp] theorem keep_State_remoteFail (s : State) (n id syndrome : Nat) : (State.remoteFail s n id syndrome).kept = s.kept :=
  kept_of_still (still_State_remoteFail ..)

@[simp] theorem still_State_restartTimer (s : State) (id : Nat) : (State.restartTimer s id).still = s.still := by
  unfold State.restartTimer
  (repeat' split) <;> simp

@[simp] theorem keep_State_restartTimer (s : State) (id : Nat) : (State.restartTimer s id).kept = s.kept :=
  kept_of_still (still_State_restartTimer ..)

@[simp] theorem keep_State_fillMsg (s : State) (n : Nat) (m : Sent) : (State.fillMsg s n m).2.kept = s.kept := by
  unfold State.fillMsg
  dsimp only
  (repeat' split) <;> simp_all

@[simp] theorem still_State_markUsed (s : State) (n : Nat) : (State.markUsed s n).still = s.still := by
  unfold State.markUsed
  rfl

@[simp] theorem keep_State_markUsed (s : State) (n : Nat) : (State.markUsed s n).kept = s.kept :=
  kept_of_still (still_State_markUsed ..)

@[simp] theorem still_State_launch (s : State) (n : Nat) (q : Qp) (m : Sent) : (State.launch s n q m).still = s.still := by
  unfold State.launch
  simp

@[simp] theorem keep_State_launch (s : State) (n : Nat) (q : Qp) (m : Sent) : (State.launch s n q m).kept = s.kept :=
  kept_of_still (still_State_launch ..)

theorem keep_State_pumpOne (s : State) (n : Nat) (t : State) (h : s.pumpOne n = some t) : t.kept = s.kept := by
  unfold State.pumpOne at h
  dsimp only at h
  (repeat' split at h) <;> first | (cases h; simp) | cases h

@[simp] theorem keep_State_pumpN (k n : Nat) (s : State) : (s.pumpN k n).kept = s.kept := by
  induction k generalizing s with
  | zero => rfl
  | succ k ih =>
    unfold State.pumpN
    split
    · rename_i t ht
      rw [ih, keep_State_pumpOne _ _ _ ht]
    · rfl

@[simp] theorem keep_State_pump (s : State) (n : Nat) : (s.pump n).kept = s.kept := by
  unfold State.pump
  split <;> simp

@[simp] theorem still_remoteWork (o : Op) (s : State) : (remoteWork o s).2.still = s.still := by
  unfold remoteWork
  dsimp only
  (repeat' split) <;> simp_all

@[simp] theorem keep_remoteWork (o : Op) (s : State) : (remoteWork o s).2.kept = s.kept :=
  kept_of_still (still_remoteWork ..)

@[simp] theorem keep_State_startRemote (s : State) (fn ring opcode : Nat) : (s.startRemote fn ring opcode).kept = s.kept := by
  unfold State.startRemote
  dsimp only
  (repeat' split) <;> simp

theorem keep_execRemoteWrite (fn ring : Nat) (s : State) (t : State) (h : execRemoteWrite fn ring s = .next t) : t.kept = s.kept := by
  unfold execRemoteWrite at h
  cases h; simp

theorem keep_execRemoteRead (fn ring : Nat) (s : State) (t : State) (h : execRemoteRead fn ring s = .next t) : t.kept = s.kept := by
  unfold execRemoteRead at h
  cases h; simp

theorem keep_execRemoteSend (fn ring : Nat) (s : State) (t : State) (h : execRemoteSend fn ring s = .next t) : t.kept = s.kept := by
  unfold execRemoteSend at h
  cases h; simp

theorem keep_execRemoteAtomic (fn ring : Nat) (s : State) (t : State) (h : execRemoteAtomic fn ring s = .next t) : t.kept = s.kept := by
  unfold execRemoteAtomic at h
  cases h; simp

@[simp] theorem keep_State_retryPeriod (s : State) (n : Nat) (q : Qp) (frm : Nat) : (State.retryPeriod s n q frm).kept = s.kept := by
  unfold State.retryPeriod
  simp

theorem keep_execAckTimeout (qp : Nat) (s : State) (t : State) (h : execAckTimeout qp s = .next t) : t.kept = s.kept := by
  unfold execAckTimeout at h
  (repeat' split at h) <;> (cases h; simp)

theorem keep_execRnrWaitExpiry (qp : Nat) (s : State) (t : State) (h : execRnrWaitExpiry qp s = .next t) : t.kept = s.kept := by
  unfold execRnrWaitExpiry at h
  (repeat' split at h) <;> (cases h; simp)

theorem still_execTransportTimeout (op : Nat) (s : State) (t : State) (h : execTransportTimeout op s = .next t) : t.still = s.still := by
  unfold execTransportTimeout at h
  (repeat' split at h) <;> (cases h; simp)

theorem keep_execTransportTimeout (op : Nat) (s : State) (t : State) (h : execTransportTimeout op s = .next t) : t.kept = s.kept :=
  kept_of_still (still_execTransportTimeout (h := h) ..)

@[simp] theorem still_State_armSlot (s : State) (o : Op) (d : List Nat) : (State.armSlot s o d).2.still = s.still := by
  unfold State.armSlot
  dsimp only
  (repeat' split) <;> simp_all

@[simp] theorem keep_State_armSlot (s : State) (o : Op) (d : List Nat) : (State.armSlot s o d).2.kept = s.kept :=
  kept_of_still (still_State_armSlot ..)

@[simp] theorem keep_armWork (o : Op) (s : State) : (armWork o s).2.kept = s.kept := by
  unfold armWork
  dsimp only
  (repeat' split) <;> simp_all

theorem keep_execConArm (fn ring : Nat) (s : State) (t : State) (h : execConArm fn ring s = .next t) : t.kept = s.kept := by
  unfold execConArm at h
  cases h; simp

@[simp] theorem still_State_respond (s : State) (n : Nat) (m : Msg) : (State.respond s n m).still = s.still := by
  unfold State.respond
  (repeat' split) <;> simp

@[simp] theorem keep_State_respond (s : State) (n : Nat) (m : Msg) : (State.respond s n m).kept = s.kept :=
  kept_of_still (still_State_respond ..)

@[simp] theorem still_State_refuse (s : State) (c : Nat) (r : RxMsg) (m : Msg) (syn : Nat) (toDev : Bool) : (State.refuse s c r m syn toDev).still = s.still := by
  unfold State.refuse
  dsimp only
  (repeat' split) <;> simp_all

@[simp] theorem keep_State_refuse (s : State) (c : Nat) (r : RxMsg) (m : Msg) (syn : Nat) (toDev : Bool) : (State.refuse s c r m syn toDev).kept = s.kept :=
  kept_of_still (still_State_refuse ..)

@[simp] theorem still_State_rxMap (s : State) (c n : Nat) (indic : Bool) (need : Need) (va len : Nat) :
    (s.rxMap c n indic need va len).2.still = s.still := by
  unfold State.rxMap
  dsimp only
  (repeat' split) <;> simp

@[simp] theorem keep_State_rxMap (s : State) (c n : Nat) (indic : Bool) (need : Need) (va len : Nat) :
    (s.rxMap c n indic need va len).2.kept = s.kept :=
  kept_of_still (still_State_rxMap ..)

@[simp] theorem keep_State_rxWrite (s : State) (c n : Nat) (indic : Bool) (va : Nat) (data : List Nat) :
    (s.rxWrite c n indic va data).2.kept = s.kept := by
  unfold State.rxWrite
  dsimp only
  split <;> simp

@[simp] theorem keep_State_doRead (s : State) (c n : Nat) (q : Qp) (r : RxMsg) (m : Msg) : (State.doRead s c n q r m).2.kept = s.kept := by
  unfold State.doRead
  dsimp only
  (repeat' split) <;> simp_all

@[simp] theorem keep_State_doAtomic (s : State) (c n : Nat) (r : RxMsg) (m : Msg) : (State.doAtomic s c n r m).2.2.kept = s.kept := by
  unfold State.doAtomic
  dsimp only
  (repeat' split) <;> simp_all

@[simp] theorem keep_State_claimBuffer (s : State) (c n srq : Nat) (indic : Bool) : (State.claimBuffer s c n srq indic).2.kept = s.kept := by
  unfold State.claimBuffer
  dsimp only
  (repeat' split) <;> simp_all

@[simp] theorem keep_State_doSend (s : State) (c n : Nat) (q : Qp) (r : RxMsg) (m : Msg) (off : Nat) : (State.doSend s c n q r m off).2.2.2.kept = s.kept := by
  unfold State.doSend
  dsimp only
  (repeat' split) <;> simp_all

@[simp] theorem keep_State_tenth (s : State) (c n : Nat) (q : Qp) (r : RxMsg) (first : Bool) : (State.tenth s c n q r first).2.kept = s.kept := by
  unfold State.tenth
  dsimp only
  (repeat' split) <;> simp_all

@[simp] theorem still_State_pass (s : State) (n : Nat) (p : Passed) : (State.pass s n p).still = s.still := by
  unfold State.pass
  (repeat' split) <;> simp

@[simp] theorem keep_State_pass (s : State) (n : Nat) (p : Passed) : (State.pass s n p).kept = s.kept :=
  kept_of_still (still_State_pass ..)

@[simp] theorem still_State_recvStop (s : State) (c n : Nat) (q : Qp) (r : RxMsg) (m : Msg) (advance : Bool) (msn syn : Nat) : (State.recvStop s c n q r m advance msn syn).still = s.still := by
  unfold State.recvStop
  simp

@[simp] theorem keep_State_recvStop (s : State) (c n : Nat) (q : Qp) (r : RxMsg) (m : Msg) (advance : Bool) (msn syn : Nat) : (State.recvStop s c n q r m advance msn syn).kept = s.kept :=
  kept_of_still (still_State_recvStop ..)

@[simp] theorem still_State_recvDone (s : State) (c n : Nat) (q : Qp) (r : RxMsg) (m : Msg) (advance : Bool) (msn key : Nat) (d : Done) (tag : Option Nat) (cqe : Option (List Nat)) : (State.recvDone s c n q r m advance msn key d tag cqe).still = s.still := by
  unfold State.recvDone
  (repeat' split) <;> simp

@[simp] theorem keep_State_recvDone (s : State) (c n : Nat) (q : Qp) (r : RxMsg) (m : Msg) (advance : Bool) (msn key : Nat) (d : Done) (tag : Option Nat) (cqe : Option (List Nat)) : (State.recvDone s c n q r m advance msn key d tag cqe).kept = s.kept :=
  kept_of_still (still_State_recvDone ..)

@[simp] theorem still_State_revokedBreach (s : State) (c n : Nat) (r : RxMsg) (syn word : Nat) : (State.revokedBreach s c n r syn word).still = s.still := by
  unfold State.revokedBreach
  simp

@[simp] theorem keep_State_revokedBreach (s : State) (c n : Nat) (r : RxMsg) (syn word : Nat) : (State.revokedBreach s c n r syn word).kept = s.kept :=
  kept_of_still (still_State_revokedBreach ..)

@[simp] theorem keep_State_performSend (s : State) (c n : Nat) (q : Qp) (r : RxMsg) (m : Msg) (advance : Bool) (msn : Nat) (imm : Option Nat) : (State.performSend s c n q r m advance msn imm).kept = s.kept := by
  unfold State.performSend
  dsimp only
  (repeat' split) <;> simp_all

@[simp] theorem still_State_performBell (s : State) (c n : Nat) (q : Qp) (r : RxMsg) (m : Msg) (advance : Bool) (msn : Nat) (imm : Option Nat) : (State.performBell s c n q r m advance msn imm).still = s.still := by
  unfold State.performBell
  simp

@[simp] theorem keep_State_performBell (s : State) (c n : Nat) (q : Qp) (r : RxMsg) (m : Msg) (advance : Bool) (msn : Nat) (imm : Option Nat) : (State.performBell s c n q r m advance msn imm).kept = s.kept :=
  kept_of_still (still_State_performBell ..)

@[simp] theorem keep_State_performWrite (s : State) (c n : Nat) (q : Qp) (r : RxMsg) (m : Msg) (advance : Bool) (msn : Nat) (imm : Option Nat) : (State.performWrite s c n q r m advance msn imm).kept = s.kept := by
  unfold State.performWrite
  dsimp only
  (repeat' split) <;> simp_all

@[simp] theorem keep_State_performRead (s : State) (c n : Nat) (q : Qp) (r : RxMsg) (m : Msg) (advance : Bool) (msn : Nat) : (State.performRead s c n q r m advance msn).kept = s.kept := by
  unfold State.performRead
  dsimp only
  (repeat' split) <;> simp_all

@[simp] theorem keep_State_perform (s : State) (c n : Nat) (q : Qp) (r : RxMsg) (m : Msg) (advance : Bool) : (State.perform s c n q r m advance).kept = s.kept := by
  unfold State.perform
  simp

@[simp] theorem keep_State_duplicate (s : State) (c n : Nat) (q : Qp) (r : RxMsg) (m : Msg) : (State.duplicate s c n q r m).kept = s.kept := by
  unfold State.duplicate
  (repeat' split) <;> simp

@[simp] theorem keep_State_checkRequest (s : State) (c : Nat) (r : RxMsg) (m : Msg) : (State.checkRequest s c r m).kept = s.kept := by
  unfold State.checkRequest
  dsimp only
  (repeat' split) <;> simp_all

@[simp] theorem still_State_drainAllot (s : State) (c : Nat) : (State.drainAllot s c).still = s.still := by
  unfold State.drainAllot
  simp

@[simp] theorem keep_State_drainAllot (s : State) (c : Nat) : (State.drainAllot s c).kept = s.kept :=
  kept_of_still (still_State_drainAllot ..)

@[simp] theorem still_State_leaveRx (s : State) (c id : Nat) : (State.leaveRx s c id).still = s.still := by
  unfold State.leaveRx
  simp

@[simp] theorem keep_State_leaveRx (s : State) (c id : Nat) : (State.leaveRx s c id).kept = s.kept :=
  kept_of_still (still_State_leaveRx ..)

@[simp] theorem still_State_orderClaims (s : State) (c : Nat) (ids : List Nat) : (s.orderClaims c ids).2.still = s.still := by
  unfold State.orderClaims
  dsimp only
  rw [still_foldl_snd _ (fun a q => by split <;> simp)]

@[simp] theorem keep_State_orderClaims (s : State) (c : Nat) (ids : List Nat) : (s.orderClaims c ids).2.kept = s.kept :=
  kept_of_still (still_State_orderClaims ..)

theorem keep_execRemoteRequestReceive (cmp : Nat) (ids : List Nat) (s t : State) (h : execRemoteRequestReceive cmp ids s = .next t) :
    t.kept = s.kept := by
  unfold execRemoteRequestReceive at h
  refine kept_next h ?_
  rw [kept_foldl _ (fun s id => by split <;> simp)]
  simp

@[simp] theorem still_State_tagged (s : State) (n : Nat) (tag : Option Nat) : (State.tagged s n tag).still = s.still := by
  unfold State.tagged
  (repeat' split) <;> simp

@[simp] theorem keep_State_tagged (s : State) (n : Nat) (tag : Option Nat) : (State.tagged s n tag).kept = s.kept :=
  kept_of_still (still_State_tagged ..)

@[simp] theorem still_State_cqWritten (s : State) (n : Nat) (q : Cq) : (State.cqWritten s n q).still = s.still := by
  unfold State.cqWritten
  (repeat' split) <;> simp

@[simp] theorem keep_State_cqWritten (s : State) (n : Nat) (q : Cq) : (State.cqWritten s n q).kept = s.kept :=
  kept_of_still (still_State_cqWritten ..)

@[simp] theorem keep_State_cqWrite (s : State) (n c qn : Nat) (indic : Bool) (ws : List Nat) (outcome : Outcome3) :
    (s.cqWrite n c qn indic ws outcome).2.kept = s.kept := by
  unfold State.cqWrite
  dsimp only
  (repeat' split) <;> simp

@[simp] theorem still_State_cqWaits (s : State) (n : Nat) (q : Qp) (p : Passed) : (State.cqWaits s n q p).still = s.still := by
  unfold State.cqWaits
  simp

@[simp] theorem keep_State_cqWaits (s : State) (n : Nat) (q : Qp) (p : Passed) : (State.cqWaits s n q p).kept = s.kept :=
  kept_of_still (still_State_cqWaits ..)

theorem keep_execRemoteMessageVisible (qp : Nat) (outcome : Outcome3) (s : State) (t : State) (h : execRemoteMessageVisible qp outcome s = .next t) : t.kept = s.kept := by
  unfold execRemoteMessageVisible at h
  dsimp only at h
  (repeat' split at h) <;> (cases h; simp_all)

@[simp] theorem still_State_lateRsp (s : State) (c : Nat) (old : Bool) : (State.lateRsp s c old).still = s.still := by
  unfold State.lateRsp
  simp

@[simp] theorem keep_State_lateRsp (s : State) (c : Nat) (old : Bool) : (State.lateRsp s c old).kept = s.kept :=
  kept_of_still (still_State_lateRsp ..)

@[simp] theorem still_State_addBytes (s : State) (id n : Nat) : (State.addBytes s id n).still = s.still := by
  unfold State.addBytes
  (repeat' split) <;> simp

@[simp] theorem keep_State_addBytes (s : State) (id n : Nat) : (State.addBytes s id n).kept = s.kept :=
  kept_of_still (still_State_addBytes ..)

@[simp] theorem still_State_finishOp (s : State) (n id : Nat) : (State.finishOp s n id).still = s.still := by
  unfold State.finishOp
  (repeat' split) <;> simp

@[simp] theorem keep_State_finishOp (s : State) (n id : Nat) : (State.finishOp s n id).kept = s.kept :=
  kept_of_still (still_State_finishOp ..)

@[simp] theorem still_State_unspend (s : State) (n : Nat) : (State.unspend s n).still = s.still := by
  unfold State.unspend
  (repeat' split) <;> simp

@[simp] theorem keep_State_unspend (s : State) (n : Nat) : (State.unspend s n).kept = s.kept :=
  kept_of_still (still_State_unspend ..)

@[simp] theorem still_State_acknowledge (s : State) (n : Nat) (upTo : Sent → Bool) : (State.acknowledge s n upTo).still = s.still := by
  unfold State.acknowledge
  (repeat' split) <;> simp

@[simp] theorem keep_State_acknowledge (s : State) (n : Nat) (upTo : Sent → Bool) : (State.acknowledge s n upTo).kept = s.kept :=
  kept_of_still (still_State_acknowledge ..)

@[simp] theorem still_State_moveAck (s : State) (n : Nat) : (State.moveAck s n).still = s.still := by
  unfold State.moveAck
  (repeat' split) <;> simp

@[simp] theorem keep_State_moveAck (s : State) (n : Nat) : (State.moveAck s n).kept = s.kept :=
  kept_of_still (still_State_moveAck ..)

@[simp] theorem keep_State_progress (s : State) (n : Nat) : (State.progress s n).kept = s.kept := by
  unfold State.progress
  simp

@[simp] theorem still_State_notReady (s : State) (n : Nat) (q : Qp) (m : Sent) (wait : Nat) : (State.notReady s n q m wait).still = s.still := by
  unfold State.notReady
  simp

@[simp] theorem keep_State_notReady (s : State) (n : Nat) (q : Qp) (m : Sent) (wait : Nat) : (State.notReady s n q m wait).kept = s.kept :=
  kept_of_still (still_State_notReady ..)

@[simp] theorem keep_State_readArrives (s : State) (n : Nat) (q : Qp) (m : Sent) (off : Nat) (data : List Nat) :
    (s.readArrives n q m off data).kept = s.kept := by
  unfold State.readArrives
  dsimp only
  split
  · rfl
  · split
    · simp
    · split <;> simp

@[simp] theorem still_State_atomArrives (s : State) (n : Nat) (q : Qp) (m : Sent) (old : Nat) : (State.atomArrives s n q m old).still = s.still := by
  unfold State.atomArrives
  dsimp only
  (repeat' split) <;> simp_all

@[simp] theorem keep_State_atomArrives (s : State) (n : Nat) (q : Qp) (m : Sent) (old : Nat) : (State.atomArrives s n q m old).kept = s.kept :=
  kept_of_still (still_State_atomArrives ..)

@[simp] theorem keep_State_peerRsp (s : State) (c n : Nat) (q : Qp) (m : Msg) : (State.peerRsp s c n q m).kept = s.kept := by
  unfold State.peerRsp
  (repeat' split) <;> simp

@[simp] theorem keep_State_netRsp (s : State) (c n : Nat) (q : Qp) (psn : Nat) (m : Msg) : (State.netRsp s c n q psn m).kept = s.kept := by
  unfold State.netRsp
  dsimp only
  (repeat' split) <;> simp_all

theorem keep_execRemoteResponseReceive (cmp id : Nat) (s t : State) (h : execRemoteResponseReceive cmp id s = .next t) :
    t.kept = s.kept := by
  unfold execRemoteResponseReceive at h
  split at h
  · exact kept_next h rfl
  · split at h
    · exact kept_next h rfl
    · split at h
      · exact kept_next h rfl
      · refine kept_next h ?_
        simp only [keep_State_leaveRx]
        (repeat' split) <;> simp

@[simp] theorem still_State_pfcSend (s : State) (p prio quanta : Nat) : (State.pfcSend s p prio quanta).still = s.still := by
  unfold State.pfcSend
  rfl

@[simp] theorem keep_State_pfcSend (s : State) (p prio quanta : Nat) : (State.pfcSend s p prio quanta).kept = s.kept :=
  kept_of_still (still_State_pfcSend ..)

@[simp] theorem still_State_intake (s : State) (p prio occupancy : Nat) : (State.intake s p prio occupancy).still = s.still := by
  unfold State.intake
  simp

@[simp] theorem keep_State_intake (s : State) (p prio occupancy : Nat) : (State.intake s p prio occupancy).kept = s.kept :=
  kept_of_still (still_State_intake ..)

@[simp] theorem still_State_allotIn (s : State) (c p : Nat) (k : Packet) : (State.allotIn s c p k).still = s.still := by
  unfold State.allotIn
  simp

@[simp] theorem keep_State_allotIn (s : State) (c p : Nat) (k : Packet) : (State.allotIn s c p k).kept = s.kept :=
  kept_of_still (still_State_allotIn ..)

@[simp] theorem still_State_ceMark (s : State) (n : Nat) (k : Packet) : (State.ceMark s n k).still = s.still := by
  unfold State.ceMark
  (repeat' split) <;> simp

@[simp] theorem keep_State_ceMark (s : State) (n : Nat) (k : Packet) : (State.ceMark s n k).kept = s.kept :=
  kept_of_still (still_State_ceMark ..)

@[simp] theorem still_State_tagFail (s : State) (c p n : Nat) : (State.tagFail s c p n).still = s.still := by
  unfold State.tagFail
  simp

@[simp] theorem keep_State_tagFail (s : State) (c p n : Nat) : (State.tagFail s c p n).kept = s.kept :=
  kept_of_still (still_State_tagFail ..)

@[simp] theorem still_State_packetIn (s : State) (p occupancy : Nat) (k : Packet) (next : State → Nat → State)
    (h : ∀ s c, (next s c).still = s.still) : (s.packetIn p occupancy k next).still = s.still := by
  unfold State.packetIn
  dsimp only
  (repeat' split) <;> simp [h]

@[simp] theorem keep_State_packetIn (s : State) (p occupancy : Nat) (k : Packet) (next : State → Nat → State)
    (h : ∀ s c, (next s c).kept = s.kept) : (s.packetIn p occupancy k next).kept = s.kept := by
  unfold State.packetIn
  dsimp only
  (repeat' split) <;> simp [h]

theorem still_execRocePacketReceive (port occupancy : Nat) (packet : Packet) (s t : State)
    (h : execRocePacketReceive port occupancy packet s = .next t) : t.still = s.still := by
  unfold execRocePacketReceive at h
  cases h
  refine still_State_packetIn _ _ _ _ _ (fun s c => ?_)
  dsimp only
  (repeat' split) <;> simp

theorem keep_execRocePacketReceive (port occupancy : Nat) (packet : Packet) (s t : State)
    (h : execRocePacketReceive port occupancy packet s = .next t) : t.kept = s.kept :=
  kept_of_still (still_execRocePacketReceive (h := h) ..)

theorem still_execCnpReceive (port : Nat) (packet : Packet) (s t : State)
    (h : execCnpReceive port packet s = .next t) : t.still = s.still := by
  unfold execCnpReceive at h
  cases h
  refine still_State_packetIn _ _ _ _ _ (fun s c => ?_)
  (repeat' split) <;> simp

theorem keep_execCnpReceive (port : Nat) (packet : Packet) (s t : State)
    (h : execCnpReceive port packet s = .next t) : t.kept = s.kept :=
  kept_of_still (still_execCnpReceive (h := h) ..)

theorem still_execCcAlphaTimer (qp : Nat) (s : State) (t : State) (h : execCcAlphaTimer qp s = .next t) : t.still = s.still := by
  unfold execCcAlphaTimer at h
  dsimp only at h
  (repeat' split at h) <;> (cases h; simp_all)

theorem keep_execCcAlphaTimer (qp : Nat) (s : State) (t : State) (h : execCcAlphaTimer qp s = .next t) : t.kept = s.kept :=
  kept_of_still (still_execCcAlphaTimer (h := h) ..)

theorem still_execCcRateTimer (qp : Nat) (s : State) (t : State) (h : execCcRateTimer qp s = .next t) : t.still = s.still := by
  unfold execCcRateTimer at h
  (repeat' split at h) <;> (cases h; simp)

theorem keep_execCcRateTimer (qp : Nat) (s : State) (t : State) (h : execCcRateTimer qp s = .next t) : t.kept = s.kept :=
  kept_of_still (still_execCcRateTimer (h := h) ..)

theorem still_execPfcFrameReceive (port prio quanta : Nat) (s : State) (t : State) (h : execPfcFrameReceive port prio quanta s = .next t) : t.still = s.still := by
  unfold execPfcFrameReceive at h
  dsimp only at h
  (repeat' split at h) <;> (cases h; simp_all)

theorem keep_execPfcFrameReceive (port prio quanta : Nat) (s : State) (t : State) (h : execPfcFrameReceive port prio quanta s = .next t) : t.kept = s.kept :=
  kept_of_still (still_execPfcFrameReceive (h := h) ..)

theorem still_execPfcPauseExpiry (port prio : Nat) (s : State) (t : State) (h : execPfcPauseExpiry port prio s = .next t) : t.still = s.still := by
  unfold execPfcPauseExpiry at h
  dsimp only at h
  (repeat' split at h) <;> (cases h; simp_all)

theorem keep_execPfcPauseExpiry (port prio : Nat) (s : State) (t : State) (h : execPfcPauseExpiry port prio s = .next t) : t.kept = s.kept :=
  kept_of_still (still_execPfcPauseExpiry (h := h) ..)

theorem still_execPfcStorm (port prio : Nat) (s : State) (t : State) (h : execPfcStorm port prio s = .next t) : t.still = s.still := by
  unfold execPfcStorm at h
  dsimp only at h
  (repeat' split at h) <;> (cases h; simp_all)

theorem keep_execPfcStorm (port prio : Nat) (s : State) (t : State) (h : execPfcStorm port prio s = .next t) : t.kept = s.kept :=
  kept_of_still (still_execPfcStorm (h := h) ..)

theorem still_execPfcRefreshTimer (port prio : Nat) (s : State) (t : State) (h : execPfcRefreshTimer port prio s = .next t) : t.still = s.still := by
  unfold execPfcRefreshTimer at h
  (repeat' split at h) <;> (cases h; simp)

theorem keep_execPfcRefreshTimer (port prio : Nat) (s : State) (t : State) (h : execPfcRefreshTimer port prio s = .next t) : t.kept = s.kept :=
  kept_of_still (still_execPfcRefreshTimer (h := h) ..)

theorem still_execIntakeBelowXon (port prio : Nat) (s : State) (t : State) (h : execIntakeBelowXon port prio s = .next t) : t.still = s.still := by
  unfold execIntakeBelowXon at h
  (repeat' split at h) <;> (cases h; simp)

theorem keep_execIntakeBelowXon (port prio : Nat) (s : State) (t : State) (h : execIntakeBelowXon port prio s = .next t) : t.kept = s.kept :=
  kept_of_still (still_execIntakeBelowXon (h := h) ..)

@[simp] theorem still_State_netDown (s : State) (p : Nat) : (State.netDown s p).still = s.still := by
  unfold State.netDown
  simp

@[simp] theorem keep_State_netDown (s : State) (p : Nat) : (State.netDown s p).kept = s.kept :=
  kept_of_still (still_State_netDown ..)

theorem still_execNetLinkDown (port : Nat) (s t : State) (h : execNetLinkDown port s = .next t) : t.still = s.still := by
  unfold execNetLinkDown at h
  (repeat' split at h) <;> exact still_next h (by simp)

theorem keep_execNetLinkDown (port : Nat) (s t : State) (h : execNetLinkDown port s = .next t) : t.kept = s.kept :=
  kept_of_still (still_execNetLinkDown (h := h) ..)

theorem still_execNetLinkUp (port : Nat) (s t : State) (h : execNetLinkUp port s = .next t) : t.still = s.still := by
  unfold execNetLinkUp at h
  split at h
  · exact still_next h rfl
  · refine still_next h ?_
    rw [still_foldl _ (fun s p => by simp)]
    simp

theorem keep_execNetLinkUp (port : Nat) (s t : State) (h : execNetLinkUp port s = .next t) : t.kept = s.kept :=
  kept_of_still (still_execNetLinkUp (h := h) ..)

@[simp] theorem keep_State_squash (s : State) (fn : Nat) : (State.squash s fn).kept = s.kept := by
  unfold State.squash
  simp

@[simp] theorem still_State_rstKeys (s : State) (fs : List Fld) (p : Nat → Bool) : (State.rstKeys s fs p).still = s.still := by
  unfold State.rstKeys
  rfl

@[simp] theorem keep_State_rstKeys (s : State) (fs : List Fld) (p : Nat → Bool) : (State.rstKeys s fs p).kept = s.kept :=
  kept_of_still (still_State_rstKeys ..)

@[simp] theorem still_State_clearMailbox (s : State) (i : Nat) : (State.clearMailbox s i).still = s.still := by
  unfold State.clearMailbox
  rfl

@[simp] theorem keep_State_clearMailbox (s : State) (i : Nat) : (State.clearMailbox s i).kept = s.kept :=
  kept_of_still (still_State_clearMailbox ..)

@[simp] theorem still_State_clearFunction (s : State) (fn : Nat) : (State.clearFunction s fn).still = s.still := by
  unfold State.clearFunction
  rfl

@[simp] theorem keep_State_clearFunction (s : State) (fn : Nat) : (State.clearFunction s fn).kept = s.kept :=
  kept_of_still (still_State_clearFunction ..)

@[simp] theorem still_State_qpsError (s : State) (fn : Nat) : (State.qpsError s fn).still = s.still := by
  unfold State.qpsError
  simp

@[simp] theorem keep_State_qpsError (s : State) (fn : Nat) : (State.qpsError s fn).kept = s.kept :=
  kept_of_still (still_State_qpsError ..)

@[simp] theorem keep_State_resetCut (s : State) (i : Nat) : (State.resetCut s i).kept = s.kept := by
  unfold State.resetCut
  simp

@[simp] theorem still_State_resetEnd (s : State) (i writes : Nat) : (State.resetEnd s i writes).still = s.still := by
  unfold State.resetEnd
  simp

@[simp] theorem keep_State_resetEnd (s : State) (i writes : Nat) : (State.resetEnd s i writes).kept = s.kept :=
  kept_of_still (still_State_resetEnd ..)

theorem keep_execInstanceReset (idx : Nat) (s : State) (t : State) (h : execInstanceReset idx s = .next t) : t.kept = s.kept := by
  unfold execInstanceReset at h
  (repeat' split at h) <;> (cases h; simp)

theorem still_execInstanceResetDrained (idx writes : Nat) (s : State) (t : State) (h : execInstanceResetDrained idx writes s = .next t) : t.still = s.still := by
  unfold execInstanceResetDrained at h
  (repeat' split at h) <;> (cases h; simp)

theorem keep_execInstanceResetDrained (idx writes : Nat) (s : State) (t : State) (h : execInstanceResetDrained idx writes s = .next t) : t.kept = s.kept :=
  kept_of_still (still_execInstanceResetDrained (h := h) ..)

@[simp] theorem keep_State_resetInstances (s : State) (port : Nat) (drained : List (Nat × Nat)) : (State.resetInstances s port drained).kept = s.kept := by
  unfold State.resetInstances
  simp

@[simp] theorem keep_State_managerClear (s : State) (port : Nat) (drained : List (Nat × Nat)) : (State.managerClear s port drained).kept = s.kept := by
  unfold State.managerClear
  simp

theorem keep_execManagerReset (port : Nat) (drained : List (Nat × Nat)) (s t : State) (h : execManagerReset port drained s = .next t) :
    t.kept = s.kept := by
  unfold execManagerReset at h
  split at h <;> exact kept_next h (by simp)

@[simp] theorem still_State_setMbWord (s : State) (i w v : Nat) : (State.setMbWord s i w v).still = s.still := by
  unfold State.setMbWord
  rfl

@[simp] theorem keep_State_setMbWord (s : State) (i w v : Nat) : (State.setMbWord s i w v).kept = s.kept :=
  kept_of_still (still_State_setMbWord ..)

@[simp] theorem still_State_setMbWords (s : State) (i w : Nat) (vs : List Nat) : (s.setMbWords i w vs).still = s.still := by
  induction vs generalizing s w with
  | nil => rfl
  | cons v vs ih => rw [State.setMbWords, ih]; simp

@[simp] theorem keep_State_setMbWords (s : State) (i w : Nat) (vs : List Nat) : (s.setMbWords i w vs).kept = s.kept :=
  kept_of_still (still_State_setMbWords ..)

@[simp] theorem still_State_mbRing (s : State) (i : Nat) (reply : Bool) : (State.mbRing s i reply).still = s.still := by
  unfold State.mbRing
  rfl

@[simp] theorem keep_State_mbRing (s : State) (i : Nat) (reply : Bool) : (State.mbRing s i reply).kept = s.kept :=
  kept_of_still (still_State_mbRing ..)

@[simp] theorem still_State_mbSend (s : State) (i : Nat) : (State.mbSend s i).still = s.still := by
  unfold State.mbSend
  simp

@[simp] theorem keep_State_mbSend (s : State) (i : Nat) : (State.mbSend s i).kept = s.kept :=
  kept_of_still (still_State_mbSend ..)

theorem still_execMailboxSend (fn : Nat) (rivals : List Nat) (s : State) (t : State) (h : execMailboxSend fn rivals s = .next t) : t.still = s.still := by
  unfold execMailboxSend at h
  cases h; simp

theorem keep_execMailboxSend (fn : Nat) (rivals : List Nat) (s : State) (t : State) (h : execMailboxSend fn rivals s = .next t) : t.kept = s.kept :=
  kept_of_still (still_execMailboxSend (h := h) ..)

@[simp] theorem still_State_mbProcessed (s : State) (i next : Nat) : (State.mbProcessed s i next).still = s.still := by
  unfold State.mbProcessed
  rfl

@[simp] theorem keep_State_mbProcessed (s : State) (i next : Nat) : (State.mbProcessed s i next).kept = s.kept :=
  kept_of_still (still_State_mbProcessed ..)

@[simp] theorem still_State_mbReplyWith (s : State) (i status len : Nat) (payload : List Nat) : (State.mbReplyWith s i status len payload).still = s.still := by
  unfold State.mbReplyWith
  simp

@[simp] theorem keep_State_mbReplyWith (s : State) (i status len : Nat) (payload : List Nat) : (State.mbReplyWith s i status len payload).kept = s.kept :=
  kept_of_still (still_State_mbReplyWith ..)

@[simp] theorem still_State_mbServe (s : State) (i : Nat) (served : Nat → Bool) (k : State → State) (h : ∀ s, (k s).still = s.still) :
    (s.mbServe i served k).still = s.still := by
  unfold State.mbServe
  dsimp only
  (repeat' split) <;> simp [h]

@[simp] theorem keep_State_mbServe (s : State) (i : Nat) (served : Nat → Bool) (k : State → State) (h : ∀ s, (k s).kept = s.kept) :
    (s.mbServe i served k).kept = s.kept := by
  unfold State.mbServe
  dsimp only
  (repeat' split) <;> simp [h]

theorem still_execMailboxRequestProcess (idx : Nat) (s : State) (t : State) (h : execMailboxRequestProcess idx s = .next t) : t.still = s.still := by
  unfold execMailboxRequestProcess at h
  cases h; simp

theorem keep_execMailboxRequestProcess (idx : Nat) (s : State) (t : State) (h : execMailboxRequestProcess idx s = .next t) : t.kept = s.kept :=
  kept_of_still (still_execMailboxRequestProcess (h := h) ..)

@[simp] theorem still_State_mbQuery (s : State) (i code len : Nat) (payload : State → List Nat) :
    (s.mbQuery i code len payload).still = s.still := by
  unfold State.mbQuery
  split <;> simp

@[simp] theorem keep_State_mbQuery (s : State) (i code len : Nat) (payload : State → List Nat) :
    (s.mbQuery i code len payload).kept = s.kept :=
  kept_of_still (still_State_mbQuery ..)

theorem still_execQueryState (idx : Nat) (s : State) (t : State) (h : execQueryState idx s = .next t) : t.still = s.still := by
  unfold execQueryState at h
  cases h; simp

theorem keep_execQueryState (idx : Nat) (s : State) (t : State) (h : execQueryState idx s = .next t) : t.kept = s.kept :=
  kept_of_still (still_execQueryState (h := h) ..)

theorem still_execQueryGrants (idx : Nat) (s : State) (t : State) (h : execQueryGrants idx s = .next t) : t.still = s.still := by
  unfold execQueryGrants at h
  cases h; simp

theorem keep_execQueryGrants (idx : Nat) (s : State) (t : State) (h : execQueryGrants idx s = .next t) : t.kept = s.kept :=
  kept_of_still (still_execQueryGrants (h := h) ..)

theorem still_execQueryIdentity (idx : Nat) (s : State) (t : State) (h : execQueryIdentity idx s = .next t) : t.still = s.still := by
  unfold execQueryIdentity at h
  cases h; simp

theorem keep_execQueryIdentity (idx : Nat) (s : State) (t : State) (h : execQueryIdentity idx s = .next t) : t.kept = s.kept :=
  kept_of_still (still_execQueryIdentity (h := h) ..)

theorem still_execMailboxReply (fn idx : Nat) (s : State) (t : State) (h : execMailboxReply fn idx s = .next t) : t.still = s.still := by
  unfold execMailboxReply at h
  (repeat' split at h) <;> (cases h; simp)

theorem keep_execMailboxReply (fn idx : Nat) (s : State) (t : State) (h : execMailboxReply fn idx s = .next t) : t.kept = s.kept :=
  kept_of_still (still_execMailboxReply (h := h) ..)

theorem still_execMailboxReplyProcess (idx : Nat) (s : State) (t : State) (h : execMailboxReplyProcess idx s = .next t) : t.still = s.still := by
  unfold execMailboxReplyProcess at h
  dsimp only at h
  (repeat' split at h) <;> (cases h; simp_all)

theorem keep_execMailboxReplyProcess (idx : Nat) (s : State) (t : State) (h : execMailboxReplyProcess idx s = .next t) : t.kept = s.kept :=
  kept_of_still (still_execMailboxReplyProcess (h := h) ..)

theorem still_execManagementWindowEnd (cmp : Nat) (s : State) (t : State) (h : execManagementWindowEnd cmp s = .next t) : t.still = s.still := by
  unfold execManagementWindowEnd at h
  cases h; simp

theorem keep_execManagementWindowEnd (cmp : Nat) (s : State) (t : State) (h : execManagementWindowEnd cmp s = .next t) : t.kept = s.kept :=
  kept_of_still (still_execManagementWindowEnd (h := h) ..)

theorem still_execMailboxNoticeSet (fn idx value : Nat) (s : State) (t : State) (h : execMailboxNoticeSet fn idx value s = .next t) : t.still = s.still := by
  unfold execMailboxNoticeSet at h
  (repeat' split at h) <;> (cases h; simp)

theorem keep_execMailboxNoticeSet (fn idx value : Nat) (s : State) (t : State) (h : execMailboxNoticeSet fn idx value s = .next t) : t.kept = s.kept :=
  kept_of_still (still_execMailboxNoticeSet (h := h) ..)

@[simp] theorem still_State_floorsLowered (s old : State) : (State.floorsLowered s old).still = s.still := by
  unfold State.floorsLowered
  simp

@[simp] theorem keep_State_floorsLowered (s old : State) : (State.floorsLowered s old).kept = s.kept :=
  kept_of_still (still_State_floorsLowered ..)

@[simp] theorem still_State_bindPlan (s : State) (c : Nat) (ws : List Nat) (pats : List (List Nat)) : (State.bindPlan s c ws pats).still = s.still := by
  unfold State.bindPlan
  simp

@[simp] theorem keep_State_bindPlan (s : State) (c : Nat) (ws : List Nat) (pats : List (List Nat)) : (State.bindPlan s c ws pats).kept = s.kept :=
  kept_of_still (still_State_bindPlan ..)

@[simp] theorem still_State_claimPlan (s : State) (c : Nat) (ws : List Nat) : (State.claimPlan s c ws).2.still = s.still := by
  unfold State.claimPlan
  (repeat' split) <;> simp

@[simp] theorem keep_State_claimPlan (s : State) (c : Nat) (ws : List Nat) : (State.claimPlan s c ws).2.kept = s.kept :=
  kept_of_still (still_State_claimPlan ..)

@[simp] theorem keep_assignWork (o : Op) (s : State) : (assignWork o s).2.kept = s.kept := by
  unfold assignWork
  refine keep_adminGate _ _ _ (fun o s => ?_)
  dsimp only
  split
  · rfl
  · split
    · simp
    · (repeat' split) <;> simp

@[simp] theorem still_State_claimAssign (s : State) (o : Op) : (State.claimAssign s o).still = s.still := by
  unfold State.claimAssign
  simp

@[simp] theorem keep_State_claimAssign (s : State) (o : Op) : (State.claimAssign s o).kept = s.kept :=
  kept_of_still (still_State_claimAssign ..)

@[simp] theorem keep_State_startAssigns (s : State) (fn : Nat) (rings : List Nat) : (State.startAssigns s fn rings).kept = s.kept := by
  unfold State.startAssigns
  simp

@[simp] theorem still_State_claimRound (s : State) (map : Bool) : (s.claimRound map).still = s.still := by
  unfold State.claimRound
  dsimp only
  rw [still_foldl _ (fun t r => by (repeat' split) <;> simp)]
  (repeat' split) <;> simp

@[simp] theorem keep_State_claimRound (s : State) (map : Bool) : (s.claimRound map).kept = s.kept :=
  kept_of_still (still_State_claimRound ..)

theorem keep_execAssign (fn ring : Nat) (rivals : List Nat) (s : State) (t : State) (h : execAssign fn ring rivals s = .next t) : t.kept = s.kept := by
  unfold execAssign at h
  cases h; simp

theorem keep_execEnumerationMapApply (rings : List Nat) (s : State) (t : State) (h : execEnumerationMapApply rings s = .next t) : t.kept = s.kept := by
  unfold execEnumerationMapApply at h
  (repeat' split at h) <;> (cases h; simp)

@[simp] theorem still_quiesceWork (o : Op) (s : State) : (quiesceWork o s).2.still = s.still := by
  unfold quiesceWork
  refine still_adminGate _ _ _ (fun o s => ?_)
  dsimp only
  split
  · rfl
  · exact still_State_startLong _ _ _ _ _ _ _ _ (by simp)

@[simp] theorem keep_quiesceWork (o : Op) (s : State) : (quiesceWork o s).2.kept = s.kept :=
  kept_of_still (still_quiesceWork ..)

@[simp] theorem still_reopenWork (o : Op) (s : State) : (reopenWork o s).2.still = s.still := by
  unfold reopenWork
  refine still_adminGate _ _ _ (fun o s => ?_)
  dsimp only
  split <;> simp

@[simp] theorem keep_reopenWork (o : Op) (s : State) : (reopenWork o s).2.kept = s.kept :=
  kept_of_still (still_reopenWork ..)

@[simp] theorem still_reopenDiscarded (o : Op) (s : State) : (reopenDiscarded o s).2.still = s.still := by
  unfold reopenDiscarded
  simp

@[simp] theorem keep_reopenDiscarded (o : Op) (s : State) : (reopenDiscarded o s).2.kept = s.kept :=
  kept_of_still (still_reopenDiscarded ..)

theorem still_execQuiesce (fn ring : Nat) (rival : Option Nat) (s t : State) (h : execQuiesce fn ring rival s = .next t) :
    t.still = s.still := by
  unfold execQuiesce at h
  dsimp only at h
  (repeat' split at h) <;> exact still_next h (by simp)

theorem keep_execQuiesce (fn ring : Nat) (rival : Option Nat) (s t : State) (h : execQuiesce fn ring rival s = .next t) :
    t.kept = s.kept :=
  kept_of_still (still_execQuiesce (h := h) ..)

theorem still_execQuiesceDrainComplete (cmp : Nat) (s : State) (t : State) (h : execQuiesceDrainComplete cmp s = .next t) : t.still = s.still := by
  unfold execQuiesceDrainComplete at h
  (repeat' split at h) <;> (cases h; simp)

theorem keep_execQuiesceDrainComplete (cmp : Nat) (s : State) (t : State) (h : execQuiesceDrainComplete cmp s = .next t) : t.kept = s.kept :=
  kept_of_still (still_execQuiesceDrainComplete (h := h) ..)

theorem still_execReopen (fn ring : Nat) (s : State) (t : State) (h : execReopen fn ring s = .next t) : t.still = s.still := by
  unfold execReopen at h
  cases h; simp

theorem keep_execReopen (fn ring : Nat) (s : State) (t : State) (h : execReopen fn ring s = .next t) : t.kept = s.kept :=
  kept_of_still (still_execReopen (h := h) ..)

@[simp] theorem still_State_destroyKeys (s : State) (c : Nat) : (State.destroyKeys s c).still = s.still := by
  unfold State.destroyKeys
  rfl

@[simp] theorem keep_State_destroyKeys (s : State) (c : Nat) : (State.destroyKeys s c).kept = s.kept :=
  kept_of_still (still_State_destroyKeys ..)

@[simp] theorem still_State_freshKeys (s : State) (c : Nat) : (State.freshKeys s c).still = s.still := by
  unfold State.freshKeys
  simp

@[simp] theorem keep_State_freshKeys (s : State) (c : Nat) : (State.freshKeys s c).kept = s.kept :=
  kept_of_still (still_State_freshKeys ..)

@[simp] theorem still_State_scrubTranslations (s : State) (c : Nat) : (State.scrubTranslations s c).still = s.still := by
  unfold State.scrubTranslations
  rfl

@[simp] theorem keep_State_scrubTranslations (s : State) (c : Nat) : (State.scrubTranslations s c).kept = s.kept :=
  kept_of_still (still_State_scrubTranslations ..)

@[simp] theorem keep_State_scrubSlices (s : State) (c : Nat) : (State.scrubSlices s c).kept = s.kept := by
  unfold State.scrubSlices
  simp

@[simp] theorem keep_State_zeroLines (s : State) (p : Nat → Bool) : (State.zeroLines s p).kept = s.kept := by
  unfold State.zeroLines
  rfl

@[simp] theorem keep_State_scrubT2 (s : State) (c : Nat) : (State.scrubT2 s c).kept = s.kept := by
  unfold State.scrubT2
  simp

@[simp] theorem still_State_scrubLinks (s : State) (c : Nat) : (State.scrubLinks s c).still = s.still := by
  unfold State.scrubLinks
  rfl

@[simp] theorem keep_State_scrubLinks (s : State) (c : Nat) : (State.scrubLinks s c).kept = s.kept :=
  kept_of_still (still_State_scrubLinks ..)

@[simp] theorem keep_State_scrubAction (s : State) (c step : Nat) : (State.scrubAction s c step).kept = s.kept := by
  unfold State.scrubAction
  (repeat' split) <;> simp

@[simp] theorem keep_scrubWork (o : Op) (s : State) : (scrubWork o s).2.kept = s.kept := by
  unfold scrubWork
  refine keep_adminGate _ _ _ (fun o s => ?_)
  dsimp only
  split
  · rfl
  · exact keep_State_startLong _ _ _ _ _ _ _ _ (by simp)

theorem keep_execScrub (fn ring : Nat) (s : State) (t : State) (h : execScrub fn ring s = .next t) : t.kept = s.kept := by
  unfold execScrub at h
  cases h; simp

@[simp] theorem keep_State_releaseFunctions (s : State) (c : Nat) : (State.releaseFunctions s c).kept = s.kept := by
  unfold State.releaseFunctions
  simp

theorem keep_execScrubStepComplete (cmp : Nat) (verified : Bool) (s t : State) (h : execScrubStepComplete cmp verified s = .next t) :
    t.kept = s.kept := by
  unfold execScrubStepComplete at h
  split at h
  · exact kept_next h rfl
  · dsimp only at h
    split at h
    · exact kept_next h rfl
    · split at h
      · exact kept_next h (by simp)
      · split at h <;> exact kept_next h (by simp)

@[simp] theorem still_State_reclamp (s : State) (c : Nat) : (State.reclamp s c).still = s.still := by
  unfold State.reclamp
  simp

@[simp] theorem keep_State_reclamp (s : State) (c : Nat) : (State.reclamp s c).kept = s.kept :=
  kept_of_still (still_State_reclamp ..)

@[simp] theorem still_State_activate (s : State) (c : Nat) (t : Contract) : (State.activate s c t).still = s.still := by
  unfold State.activate
  simp

@[simp] theorem keep_State_activate (s : State) (c : Nat) (t : Contract) : (State.activate s c t).kept = s.kept :=
  kept_of_still (still_State_activate ..)

theorem still_execContractActivate (cmp : Nat) (s : State) (t : State) (h : execContractActivate cmp s = .next t) : t.still = s.still := by
  unfold execContractActivate at h
  (repeat' split at h) <;> (cases h; simp)

theorem keep_execContractActivate (cmp : Nat) (s : State) (t : State) (h : execContractActivate cmp s = .next t) : t.kept = s.kept :=
  kept_of_still (still_execContractActivate (h := h) ..)

@[simp] theorem still_State_latchFrame (s : State) : (State.latchFrame s).still = s.still := by
  unfold State.latchFrame
  simp

@[simp] theorem keep_State_latchFrame (s : State) : (State.latchFrame s).kept = s.kept :=
  kept_of_still (still_State_latchFrame ..)

@[simp] theorem still_State_postSuppressed (s : State) (c frame : Nat) : (State.postSuppressed s c frame).still = s.still := by
  unfold State.postSuppressed
  simp

@[simp] theorem keep_State_postSuppressed (s : State) (c frame : Nat) : (State.postSuppressed s c frame).kept = s.kept :=
  kept_of_still (still_State_postSuppressed ..)

@[simp] theorem still_State_newLimits (s : State) : (State.newLimits s).still = s.still := by
  unfold State.newLimits
  exact (still_incCmp _ _ _).trans (still_State_rst _ _ _)

@[simp] theorem keep_State_newLimits (s : State) : (State.newLimits s).kept = s.kept :=
  kept_of_still (still_State_newLimits ..)

theorem still_execFrameBoundary (s t : State) (h : execFrameBoundary s = .next t) : t.still = s.still := by
  unfold execFrameBoundary at h
  split at h
  · exact still_next h rfl
  · refine still_next h ((still_pwr _ _).trans ?_)
    rw [still_State_wr, still_State_newLimits, still_foldl _ (fun s c => by simp), still_State_latchFrame]

theorem keep_execFrameBoundary (s t : State) (h : execFrameBoundary s = .next t) : t.kept = s.kept :=
  kept_of_still (still_execFrameBoundary (h := h) ..)

@[simp] theorem still_State_setWalk (s : State) (w : Walk) : (State.setWalk s w).still = s.still := by
  unfold State.setWalk
  rfl

@[simp] theorem keep_State_setWalk (s : State) (w : Walk) : (State.setWalk s w).kept = s.kept :=
  kept_of_still (still_State_setWalk ..)

@[simp] theorem still_State_dropWalk (s : State) (id : Nat) : (State.dropWalk s id).still = s.still := by
  unfold State.dropWalk
  rfl

@[simp] theorem keep_State_dropWalk (s : State) (id : Nat) : (State.dropWalk s id).kept = s.kept :=
  kept_of_still (still_State_dropWalk ..)

@[simp] theorem still_State_giveTrans (s : State) (w : Walk) (t : Trans) (f : Flt) (q : WalkReq) : (s.giveTrans w t f q).still = s.still := by
  unfold State.giveTrans
  dsimp only
  split <;> simp

@[simp] theorem keep_State_giveTrans (s : State) (w : Walk) (t : Trans) (f : Flt) (q : WalkReq) : (s.giveTrans w t f q).kept = s.kept :=
  kept_of_still (still_State_giveTrans ..)

@[simp] theorem still_State_walkResult (s : State) (w : Walk) (r : Except Flt (Trans × Flt)) : (s.walkResult w r).still = s.still := by
  unfold State.walkResult
  split <;> simp

@[simp] theorem keep_State_walkResult (s : State) (w : Walk) (r : Except Flt (Trans × Flt)) : (s.walkResult w r).kept = s.kept :=
  kept_of_still (still_State_walkResult ..)

@[simp] theorem still_State_walkBegin (s : State) (w : Walk) : (s.walkBegin w).still = s.still := by
  unfold State.walkBegin
  dsimp only
  (repeat' split) <;> simp

@[simp] theorem keep_State_walkBegin (s : State) (w : Walk) : (s.walkBegin w).kept = s.kept :=
  kept_of_still (still_State_walkBegin ..)

@[simp] theorem still_State_serveQueue (s : State) (c n : Nat) : (s.serveQueue c n).still = s.still := by
  induction n generalizing s with
  | zero => rfl
  | succ n ih =>
    unfold State.serveQueue
    split
    · dsimp only
      rw [ih]
      simp only [still_State_walkBegin]
      split <;> simp
    · rfl

@[simp] theorem keep_State_serveQueue (s : State) (c n : Nat) : (s.serveQueue c n).kept = s.kept :=
  kept_of_still (still_State_serveQueue ..)

@[simp] theorem still_State_useTrans (s : State) (c : Nat) (indic : Bool) (t : Trans) (r : WalkReq) : (s.useTrans c indic t r).still = s.still := by
  unfold State.useTrans
  split <;> simp

@[simp] theorem keep_State_useTrans (s : State) (c : Nat) (indic : Bool) (t : Trans) (r : WalkReq) : (s.useTrans c indic t r).kept = s.kept :=
  kept_of_still (still_State_useTrans ..)

@[simp] theorem still_State_walkMiss (s : State) (cmp stream va : Nat) (indic : Bool) : (s.walkMiss cmp stream va indic).still = s.still := by
  unfold State.walkMiss
  simp

@[simp] theorem keep_State_walkMiss (s : State) (cmp stream va : Nat) (indic : Bool) : (s.walkMiss cmp stream va indic).kept = s.kept :=
  kept_of_still (still_State_walkMiss ..)

@[simp] theorem still_State_walkLookup (s : State) (c : Nat) (indic : Bool) (r : WalkReq) : (s.walkLookup c indic r).2.still = s.still := by
  unfold State.walkLookup
  dsimp only
  (repeat' split) <;> simp

@[simp] theorem keep_State_walkLookup (s : State) (c : Nat) (indic : Bool) (r : WalkReq) : (s.walkLookup c indic r).2.kept = s.kept :=
  kept_of_still (still_State_walkLookup ..)

@[simp] theorem still_State_walkQueue (s : State) (c : Nat) (indic : Bool) (r : WalkReq) : (s.walkQueue c indic r).still = s.still := by
  unfold State.walkQueue
  dsimp only
  (repeat' split) <;> simp

@[simp] theorem keep_State_walkQueue (s : State) (c : Nat) (indic : Bool) (r : WalkReq) : (s.walkQueue c indic r).kept = s.kept :=
  kept_of_still (still_State_walkQueue ..)

@[simp] theorem still_State_serveHeld (s : State) (c n : Nat) : (s.serveHeld c n).still = s.still := by
  induction n generalizing s with
  | zero => rfl
  | succ n ih =>
    unfold State.serveHeld
    split
    · rfl
    · dsimp only
      split <;> simp [ih]

@[simp] theorem keep_State_serveHeld (s : State) (c n : Nat) : (s.serveHeld c n).kept = s.kept :=
  kept_of_still (still_State_serveHeld ..)

@[simp] theorem still_State_serveWalks (s : State) : (s.serveWalks).still = s.still := by
  unfold State.serveWalks
  simp

@[simp] theorem keep_State_serveWalks (s : State) : (s.serveWalks).kept = s.kept :=
  kept_of_still (still_State_serveWalks ..)

theorem still_execWalkStart (port cmp stream va : Nat) (indic : Bool) (access : Nat) (s t : State)
    (h : execWalkStart port cmp stream va indic access s = .next t) : t.still = s.still := by
  unfold execWalkStart at h
  dsimp only at h
  split at h
  · exact still_next h rfl
  · split at h
    · exact still_next h rfl
    · exact still_next h (by split <;> simp)

theorem keep_execWalkStart (port cmp stream va : Nat) (indic : Bool) (access : Nat) (s t : State)
    (h : execWalkStart port cmp stream va indic access s = .next t) : t.kept = s.kept :=
  kept_of_still (still_execWalkStart (h := h) ..)

theorem still_execWalkEntryReturn (id : Nat) (poison : Bool) (s t : State) (h : execWalkEntryReturn id poison s = .next t) :
    t.still = s.still := by
  unfold execWalkEntryReturn at h
  split at h
  · exact still_next h rfl
  · dsimp only at h
    split at h
    · exact still_next h (by simp)
    · (repeat' split at h) <;> exact still_next h (by simp)

theorem keep_execWalkEntryReturn (id : Nat) (poison : Bool) (s t : State) (h : execWalkEntryReturn id poison s = .next t) :
    t.kept = s.kept :=
  kept_of_still (still_execWalkEntryReturn (h := h) ..)

theorem still_execManagerInvalidation (fn cmp : Nat) (s : State) (t : State) (h : execManagerInvalidation fn cmp s = .next t) : t.still = s.still := by
  unfold execManagerInvalidation at h
  (repeat' split at h) <;> (cases h; simp)

theorem keep_execManagerInvalidation (fn cmp : Nat) (s : State) (t : State) (h : execManagerInvalidation fn cmp s = .next t) : t.kept = s.kept :=
  kept_of_still (still_execManagerInvalidation (h := h) ..)

theorem still_execManagerInvalidationDone (s : State) (t : State) (h : execManagerInvalidationDone s = .next t) : t.still = s.still := by
  unfold execManagerInvalidationDone at h
  cases h; simp

theorem keep_execManagerInvalidationDone (s : State) (t : State) (h : execManagerInvalidationDone s = .next t) : t.kept = s.kept :=
  kept_of_still (still_execManagerInvalidationDone (h := h) ..)

@[simp] theorem keep_State_readRanges (s : State) (ptr n k : Nat) : (s.readRanges ptr n k).2.kept = s.kept := by
  induction n generalizing s k with
  | zero => rfl
  | succ n ih =>
    unfold State.readRanges
    dsimp only
    split <;> simp [ih]

@[simp] theorem still_State_writeRanges (s : State) (c first : Nat) (es : List (List Nat)) : (State.writeRanges s c first es).still = s.still := by
  unfold State.writeRanges
  rfl

@[simp] theorem keep_State_writeRanges (s : State) (c first : Nat) (es : List (List Nat)) : (State.writeRanges s c first es).kept = s.kept :=
  kept_of_still (still_State_writeRanges ..)

@[simp] theorem keep_rangeLoadWork (o : Op) (s : State) : (rangeLoadWork o s).2.kept = s.kept := by
  unfold rangeLoadWork
  refine keep_adminGate _ _ _ (fun o s => keep_State_startLong _ _ _ _ _ _ _ _ (fun i o s => ?_))
  dsimp only
  split
  · simp
  · split
    · simp
    · split <;> simp

theorem keep_execTableLoadRangeTable (fn ring : Nat) (s : State) (t : State) (h : execTableLoadRangeTable fn ring s = .next t) : t.kept = s.kept := by
  unfold execTableLoadRangeTable at h
  cases h; simp

@[simp] theorem still_State_incWr (s : State) (dev cmp : Fld) (ring v : Nat) : (State.incWr s dev cmp ring v).still = s.still := by
  unfold State.incWr
  simp

@[simp] theorem keep_State_incWr (s : State) (dev cmp : Fld) (ring v : Nat) : (State.incWr s dev cmp ring v).kept = s.kept :=
  kept_of_still (still_State_incWr ..)

@[simp] theorem still_State_setIncQ (s : State) (ring : Nat) (q : List Incident) : (State.setIncQ s ring q).still = s.still := by
  unfold State.setIncQ
  simp

@[simp] theorem keep_State_setIncQ (s : State) (ring : Nat) (q : List Incident) : (State.setIncQ s ring q).kept = s.kept :=
  kept_of_still (still_State_setIncQ ..)

@[simp] theorem still_State_reportLost (s : State) (ring : Nat) : (State.reportLost s ring).still = s.still := by
  unfold State.reportLost
  simp

@[simp] theorem keep_State_reportLost (s : State) (ring : Nat) : (State.reportLost s ring).kept = s.kept :=
  kept_of_still (still_State_reportLost ..)

@[simp] theorem still_State_incWritten (s : State) (ring : Nat) : (State.incWritten s ring).still = s.still := by
  unfold State.incWritten
  simp

@[simp] theorem keep_State_incWritten (s : State) (ring : Nat) : (State.incWritten s ring).kept = s.kept :=
  kept_of_still (still_State_incWritten ..)

@[simp] theorem still_State_incError (s : State) (ring : Nat) (poison : Bool) : (State.incError s ring poison).still = s.still := by
  unfold State.incError
  simp

@[simp] theorem keep_State_incError (s : State) (ring : Nat) (poison : Bool) : (State.incError s ring poison).kept = s.kept :=
  kept_of_still (still_State_incError ..)

@[simp] theorem keep_State_incStore (s : State) (ring : Nat) (r : Incident) : (State.incStore s ring r).kept = s.kept := by
  unfold State.incStore
  simp

theorem keep_execIncidentRecordWrite (ring : Nat) (outcome : Outcome3) (s : State) (t : State) (h : execIncidentRecordWrite ring outcome s = .next t) : t.kept = s.kept := by
  unfold execIncidentRecordWrite at h
  (repeat' split at h) <;> (cases h; simp)

theorem still_execDevicePendingClear (fn : Nat) (s : State) (t : State) (h : execDevicePendingClear fn s = .next t) : t.still = s.still := by
  unfold execDevicePendingClear at h
  (repeat' split at h) <;> (cases h; simp)

theorem keep_execDevicePendingClear (fn : Nat) (s : State) (t : State) (h : execDevicePendingClear fn s = .next t) : t.kept = s.kept :=
  kept_of_still (still_execDevicePendingClear (h := h) ..)

end Sys2Proof.Machine
end

