-- ==== Sys2Proof/Laws/Keep4.lean ====
section
/-! SUPPORT. What operations and meanings leave untouched (`State.kept`, and `State.still` where they store nothing): resets, power, bulk operations, security, boot, register accesses, the tick. -/
namespace Sys2Proof.Machine

open Sys2Proof

theorem keep_State_setPerst (s : State) (port : Nat) (v : Bool) : (s.setPerst port v).kept =
    (s.pending, (if port = 0 then { s.pins with perstA := v } else { s.pins with perstB := v }), s.boot.sysHeld, s.boot.warmStep) := rfl

theorem keep_State_setHostUp (s : State) (port : Nat) (up : Bool) : (s.setHostUp port up).kept =
    (s.pending, { s.pins with hostUp := if up then addOnce s.pins.hostUp port else s.pins.hostUp.filter (fun p => p != port) },
      s.boot.sysHeld, s.boot.warmStep) := by
  unfold State.setHostUp
  rw [keep_State_refreshAgents]
  rfl

@[simp] theorem keep_State_writeRecords (fn ring n : Nat) (s : State) : (State.writeRecords fn ring n s).kept = s.kept := by
  induction n generalizing s with
  | zero => rfl
  | succ n ih =>
    rw [State.writeRecords, ih]
    cases h : execCompletionRecordWrite fn ring .ok s with
    | next t => exact keep_execCompletionRecordWrite _ _ _ _ _ h
    | fault r => rfl
    | refused r => rfl

@[simp] theorem keep_State_endPageWaits (s : State) (port : Nat) : (s.endPageWaits port).kept = s.kept := by
  have h1 : ∀ (ids : List Nat) (s : State), ((execOperationComplete ids s).state s).kept = s.kept := by
    intro ids s
    cases h : execOperationComplete ids s with
    | next t => exact keep_execOperationComplete _ _ _ h
    | fault r => rfl
    | refused r => rfl
  unfold State.endPageWaits
  dsimp only
  rw [kept_foldl _ (fun s k => by simp), h1, kept_foldl _ (fun s k => by simp)]

@[simp] theorem still_State_clearConfig (s : State) (port : Nat) : (State.clearConfig s port).still = s.still := by
  unfold State.clearConfig
  rfl

@[simp] theorem keep_State_clearConfig (s : State) (port : Nat) : (State.clearConfig s port).kept = s.kept :=
  kept_of_still (still_State_clearConfig ..)

@[simp] theorem still_State_dropIde (s : State) (port : Nat) : (State.dropIde s port).still = s.still := by
  unfold State.dropIde
  rfl

@[simp] theorem keep_State_dropIde (s : State) (port : Nat) : (State.dropIde s port).kept = s.kept :=
  kept_of_still (still_State_dropIde ..)

@[simp] theorem keep_State_hostLink (s : State) (port : Nat) (drained : List (Nat × Nat)) : (State.hostLink s port drained).kept = s.kept := by
  unfold State.hostLink
  simp

@[simp] theorem keep_State_warmSquash (s : State) (fn : Nat) : (State.warmSquash s fn).kept = s.kept := by
  unfold State.warmSquash
  simp

@[simp] theorem keep_State_drainRing (ring n : Nat) (s : State) : (State.drainRing ring n s).kept = s.kept := by
  induction n generalizing s with
  | zero => rfl
  | succ n ih =>
    rw [State.drainRing, ih]
    cases h : execIncidentRecordWrite ring .ok s with
    | next t => exact keep_execIncidentRecordWrite _ _ _ _ h
    | fault r => rfl
    | refused r => rfl

@[simp] theorem keep_State_drainIncidents (s : State) : (State.drainIncidents s).kept = s.kept := by
  unfold State.drainIncidents
  simp

@[simp] theorem still_State_abortRoll (s : State) : (State.abortRoll s).still = s.still := by
  unfold State.abortRoll
  (repeat' split) <;> simp

@[simp] theorem keep_State_abortRoll (s : State) : (State.abortRoll s).kept = s.kept :=
  kept_of_still (still_State_abortRoll ..)

@[simp] theorem still_State_resetLongs (s : State) : s.resetLongs.still = s.still := by
  unfold State.resetLongs
  rw [still_foldl _ (fun s i => by (repeat' split) <;> simp)]
  simp

@[simp] theorem keep_State_resetLongs (s : State) : s.resetLongs.kept = s.kept :=
  kept_of_still (still_State_resetLongs ..)

@[simp] theorem still_State_warmCompartments (s : State) : s.warmCompartments.still = s.still := by
  unfold State.warmCompartments
  rw [still_foldl _ (fun s c => by split <;> simp)]

@[simp] theorem keep_State_warmCompartments (s : State) : s.warmCompartments.kept = s.kept :=
  kept_of_still (still_State_warmCompartments ..)

@[simp] theorem still_State_warmBlocks (s : State) : (State.warmBlocks s).still = s.still := by
  unfold State.warmBlocks
  simp

@[simp] theorem keep_State_warmBlocks (s : State) : (State.warmBlocks s).kept = s.kept :=
  kept_of_still (still_State_warmBlocks ..)

@[simp] theorem keep_State_warmSteps (s : State) : (State.warmSteps s).kept = s.kept := by
  unfold State.warmSteps
  simp

@[simp] theorem still_State_recordStart (s : State) (typ cause : Nat) : (State.recordStart s typ cause).still = s.still := by
  unfold State.recordStart
  simp

@[simp] theorem keep_State_recordStart (s : State) (typ cause : Nat) : (State.recordStart s typ cause).kept = s.kept :=
  kept_of_still (still_State_recordStart ..)

theorem keep_State_enterFawn (s : State) (cause : Nat) : (s.enterFawn cause).kept = (s.pending, s.pins, s.boot.sysHeld, 0) := by
  have h := fun (t : State) (h : t.kept = s.kept) => And.intro (congrArg (·.1) h) (And.intro (congrArg (·.2.1) h) (congrArg (·.2.2.1) h))
  unfold State.enterFawn
  simp only [keep_State_recordStart]
  have e := h ((((s.wr .BOOT_FAWN 0 1).wr .BOOT_FAWN_REASON 0 (if s.rd .BOOT_FAWN_REQ 0 = 1 then 2 else 1)).wr .BOOT_FAWN_REQ 0 0).wr .BOOT_READY 0 0) (by simp)
  exact Prod.ext e.1 (Prod.ext e.2.1 (Prod.ext e.2.2 rfl))

@[simp] theorem still_State_attempt (s : State) : (State.attempt s).still = s.still := by
  unfold State.attempt
  rfl

@[simp] theorem keep_State_attempt (s : State) : (State.attempt s).kept = s.kept :=
  kept_of_still (still_State_attempt ..)

@[simp] theorem keep_State_warmRun (s : State) (fawn : Bool) : (s.warmRun fawn).kept = s.kept := by
  unfold State.warmRun
  refine (keep_State_warmSteps _).trans ?_
  cases fawn <;> simp

theorem keep_State_reachReady (s : State) (typ cause ms : Nat) : (s.reachReady typ cause ms).kept = (s.pending, s.pins, s.boot.sysHeld, 0) := by
  unfold State.reachReady
  simp only [keep_State_recordStart]
  have e : ((((s.wr .BOOT_READY 0 1).wr .BOOT_PHASE 0 6).wr .BOOT_ATTEMPTS 0 0).wr .BOOT_READY_MS 0 ms).kept = s.kept := by simp
  exact Prod.ext (congrArg (·.1) e) (Prod.ext (congrArg (·.2.1) e) (Prod.ext (congrArg (·.2.2.1) e) rfl))

@[simp] theorem still_State_setBeat (s : State) (v : Nat) : (State.setBeat s v).still = s.still := by
  unfold State.setBeat
  simp

@[simp] theorem keep_State_setBeat (s : State) (v : Nat) : (State.setBeat s v).kept = s.kept :=
  kept_of_still (still_State_setBeat ..)

@[simp] theorem still_State_applyRootTime (s : State) : (State.applyRootTime s).still = s.still := by
  unfold State.applyRootTime
  simp

@[simp] theorem keep_State_applyRootTime (s : State) : (State.applyRootTime s).kept = s.kept :=
  kept_of_still (still_State_applyRootTime ..)

@[simp] theorem still_State_rootLost (s : State) : (State.rootLost s).still = s.still := by
  unfold State.rootLost
  simp

@[simp] theorem keep_State_rootLost (s : State) : (State.rootLost s).kept = s.kept :=
  kept_of_still (still_State_rootLost ..)

theorem still_execTsyncEdge (err : Nat) (s : State) (t : State) (h : execTsyncEdge err s = .next t) : t.still = s.still := by
  unfold execTsyncEdge at h
  dsimp only at h
  (repeat' split at h) <;> (cases h; simp_all)

theorem keep_execTsyncEdge (err : Nat) (s : State) (t : State) (h : execTsyncEdge err s = .next t) : t.kept = s.kept :=
  kept_of_still (still_execTsyncEdge (h := h) ..)

theorem still_execTsyncEdgeMissing (s : State) (t : State) (h : execTsyncEdgeMissing s = .next t) : t.still = s.still := by
  unfold execTsyncEdgeMissing at h
  dsimp only at h
  (repeat' split at h) <;> (cases h; simp_all)

theorem keep_execTsyncEdgeMissing (s : State) (t : State) (h : execTsyncEdgeMissing s = .next t) : t.kept = s.kept :=
  kept_of_still (still_execTsyncEdgeMissing (h := h) ..)

theorem still_execRootTimeSet (fn high : Nat) (s : State) (t : State) (h : execRootTimeSet fn high s = .next t) : t.still = s.still := by
  unfold execRootTimeSet at h
  dsimp only at h
  (repeat' split at h) <;> (cases h; simp_all)

theorem keep_execRootTimeSet (fn high : Nat) (s : State) (t : State) (h : execRootTimeSet fn high s = .next t) : t.kept = s.kept :=
  kept_of_still (still_execRootTimeSet (h := h) ..)

@[simp] theorem still_State_dropSlice (s : State) (n : Nat) : (State.dropSlice s n).still = s.still := by
  unfold State.dropSlice
  rfl

@[simp] theorem keep_State_dropSlice (s : State) (n : Nat) : (State.dropSlice s n).kept = s.kept :=
  kept_of_still (still_State_dropSlice ..)

@[simp] theorem still_State_gateField (s : State) (source fn off : Nat) (f : Fld) (i first code v : Nat) : (State.gateField s source fn off f i first code v).still = s.still := by
  unfold State.gateField
  simp

@[simp] theorem keep_State_gateField (s : State) (source fn off : Nat) (f : Fld) (i first code v : Nat) : (State.gateField s source fn off f i first code v).kept = s.kept :=
  kept_of_still (still_State_gateField ..)

@[simp] theorem still_State_gateWrite (s : State) (source fn off val : Nat) : (State.gateWrite s source fn off val).still = s.still := by
  unfold State.gateWrite
  simp

@[simp] theorem keep_State_gateWrite (s : State) (source fn off val : Nat) : (State.gateWrite s source fn off val).kept = s.kept :=
  kept_of_still (still_State_gateWrite ..)

theorem still_execBlockGate (fn off val : Nat) (s : State) (t : State) (h : execBlockGate fn off val s = .next t) : t.still = s.still := by
  unfold execBlockGate at h
  dsimp only at h
  (repeat' split at h) <;> (cases h; simp_all)

theorem keep_execBlockGate (fn off val : Nat) (s : State) (t : State) (h : execBlockGate fn off val s = .next t) : t.kept = s.kept :=
  kept_of_still (still_execBlockGate (h := h) ..)

theorem still_execUngateDone (block : Nat) (s : State) (t : State) (h : execUngateDone block s = .next t) : t.still = s.still := by
  unfold execUngateDone at h
  (repeat' split at h) <;> (cases h; simp)

theorem keep_execUngateDone (block : Nat) (s : State) (t : State) (h : execUngateDone block s = .next t) : t.kept = s.kept :=
  kept_of_still (still_execUngateDone (h := h) ..)

@[simp] theorem still_State_alarm (s : State) (code need : Nat) (ovf under : Bool) : (State.alarm s code need ovf under).still = s.still := by
  unfold State.alarm
  simp

@[simp] theorem keep_State_alarm (s : State) (code need : Nat) (ovf under : Bool) : (State.alarm s code need ovf under).kept = s.kept :=
  kept_of_still (still_State_alarm ..)

@[simp] theorem still_State_overheat (s : State) : (State.overheat s).still = s.still := by
  unfold State.overheat
  simp

@[simp] theorem keep_State_overheat (s : State) : (State.overheat s).kept = s.kept :=
  kept_of_still (still_State_overheat ..)

@[simp] theorem still_State_sample (s : State) (temps rails : List Nat) (power energy : Nat) : (State.sample s temps rails power energy).still = s.still := by
  unfold State.sample
  simp

@[simp] theorem keep_State_sample (s : State) (temps rails : List Nat) (power energy : Nat) : (State.sample s temps rails power energy).kept = s.kept :=
  kept_of_still (still_State_sample ..)

@[simp] theorem still_State_alarms (s : State) (target : Nat) : (State.alarms s target).still = s.still := by
  unfold State.alarms
  simp

@[simp] theorem keep_State_alarms (s : State) (target : Nat) : (State.alarms s target).kept = s.kept :=
  kept_of_still (still_State_alarms ..)

theorem still_execTelemetrySample (temps rails : List Nat) (power energy avs : Nat) (s : State) (t : State) (h : execTelemetrySample temps rails power energy avs s = .next t) : t.still = s.still := by
  unfold execTelemetrySample at h
  (repeat' split at h) <;> (cases h; simp)

theorem keep_execTelemetrySample (temps rails : List Nat) (power energy avs : Nat) (s : State) (t : State) (h : execTelemetrySample temps rails power energy avs s = .next t) : t.kept = s.kept :=
  kept_of_still (still_execTelemetrySample (h := h) ..)

theorem still_execI3cTelemetryRead (index : Nat) (s : State) (t : State) (h : execI3cTelemetryRead index s = .next t) : t.still = s.still := by
  unfold execI3cTelemetryRead at h
  (repeat' split at h) <;> (cases h; simp)

theorem keep_execI3cTelemetryRead (index : Nat) (s : State) (t : State) (h : execI3cTelemetryRead index s = .next t) : t.kept = s.kept :=
  kept_of_still (still_execI3cTelemetryRead (h := h) ..)

theorem still_execI3cFawnRequest (index val : Nat) (s : State) (t : State) (h : execI3cFawnRequest index val s = .next t) : t.still = s.still := by
  unfold execI3cFawnRequest at h
  (repeat' split at h) <;> (cases h; simp)

theorem keep_execI3cFawnRequest (index val : Nat) (s : State) (t : State) (h : execI3cFawnRequest index val s = .next t) : t.kept = s.kept :=
  kept_of_still (still_execI3cFawnRequest (h := h) ..)

@[simp] theorem still_State_setAddress (s : State) (a : Option Nat) : (State.setAddress s a).still = s.still := by
  unfold State.setAddress
  rfl

@[simp] theorem keep_State_setAddress (s : State) (a : Option Nat) : (State.setAddress s a).kept = s.kept :=
  kept_of_still (still_State_setAddress ..)

theorem still_execEntdaa (addr : Nat) (s : State) (t : State) (h : execEntdaa addr s = .next t) : t.still = s.still := by
  unfold execEntdaa at h
  (repeat' split at h) <;> (cases h; simp)

theorem keep_execEntdaa (addr : Nat) (s : State) (t : State) (h : execEntdaa addr s = .next t) : t.kept = s.kept :=
  kept_of_still (still_execEntdaa (h := h) ..)

theorem still_execSetdasa (s : State) (t : State) (h : execSetdasa s = .next t) : t.still = s.still := by
  unfold execSetdasa at h
  (repeat' split at h) <;> (cases h; simp)

theorem keep_execSetdasa (s : State) (t : State) (h : execSetdasa s = .next t) : t.kept = s.kept :=
  kept_of_still (still_execSetdasa (h := h) ..)

theorem still_execRstdaa (s : State) (t : State) (h : execRstdaa s = .next t) : t.still = s.still := by
  unfold execRstdaa at h
  (repeat' split at h) <;> (cases h; simp)

theorem keep_execRstdaa (s : State) (t : State) (h : execRstdaa s = .next t) : t.kept = s.kept :=
  kept_of_still (still_execRstdaa (h := h) ..)

@[simp] theorem still_State_ibi (s : State) (src : Nat) : (State.ibi s src).still = s.still := by
  unfold State.ibi
  rfl

@[simp] theorem keep_State_ibi (s : State) (src : Nat) : (State.ibi s src).kept = s.kept :=
  kept_of_still (still_State_ibi ..)

theorem still_execEnec (s : State) (t : State) (h : execEnec s = .next t) : t.still = s.still := by
  unfold execEnec at h
  (repeat' split at h) <;> (cases h; simp)

theorem keep_execEnec (s : State) (t : State) (h : execEnec s = .next t) : t.kept = s.kept :=
  kept_of_still (still_execEnec (h := h) ..)

theorem still_execDisec (s : State) (t : State) (h : execDisec s = .next t) : t.still = s.still := by
  unfold execDisec at h
  (repeat' split at h) <;> (cases h; simp)

theorem keep_execDisec (s : State) (t : State) (h : execDisec s = .next t) : t.kept = s.kept :=
  kept_of_still (still_execDisec (h := h) ..)

theorem still_execGetpid (s : State) (t : State) (h : execGetpid s = .next t) : t.still = s.still := by
  unfold execGetpid at h
  (repeat' split at h) <;> (cases h; simp)

theorem keep_execGetpid (s : State) (t : State) (h : execGetpid s = .next t) : t.kept = s.kept :=
  kept_of_still (still_execGetpid (h := h) ..)

@[simp] theorem still_State_i3cConst (s : State) (code : Nat) : (State.i3cConst s code).still = s.still := by
  unfold State.i3cConst
  rfl

@[simp] theorem keep_State_i3cConst (s : State) (code : Nat) : (State.i3cConst s code).kept = s.kept :=
  kept_of_still (still_State_i3cConst ..)

theorem still_execGetbcr (s : State) (t : State) (h : execGetbcr s = .next t) : t.still = s.still := by
  unfold execGetbcr at h
  (repeat' split at h) <;> (cases h; simp)

theorem keep_execGetbcr (s : State) (t : State) (h : execGetbcr s = .next t) : t.kept = s.kept :=
  kept_of_still (still_execGetbcr (h := h) ..)

theorem still_execGetdcr (s : State) (t : State) (h : execGetdcr s = .next t) : t.still = s.still := by
  unfold execGetdcr at h
  (repeat' split at h) <;> (cases h; simp)

theorem keep_execGetdcr (s : State) (t : State) (h : execGetdcr s = .next t) : t.kept = s.kept :=
  kept_of_still (still_execGetdcr (h := h) ..)

theorem still_execGetstatus (s : State) (t : State) (h : execGetstatus s = .next t) : t.still = s.still := by
  unfold execGetstatus at h
  (repeat' split at h) <;> (cases h; simp)

theorem keep_execGetstatus (s : State) (t : State) (h : execGetstatus s = .next t) : t.kept = s.kept :=
  kept_of_still (still_execGetstatus (h := h) ..)

theorem still_execGetmxds (s : State) (t : State) (h : execGetmxds s = .next t) : t.still = s.still := by
  unfold execGetmxds at h
  (repeat' split at h) <;> (cases h; simp)

theorem keep_execGetmxds (s : State) (t : State) (h : execGetmxds s = .next t) : t.kept = s.kept :=
  kept_of_still (still_execGetmxds (h := h) ..)

@[simp] theorem still_State_forwardIbi (s : State) (src : Nat) : (State.forwardIbi s src).still = s.still := by
  unfold State.forwardIbi
  simp

@[simp] theorem keep_State_forwardIbi (s : State) (src : Nat) : (State.forwardIbi s src).kept = s.kept :=
  kept_of_still (still_State_forwardIbi ..)

theorem still_execMgmtCoreEventForward (core vec : Nat) (s : State) (t : State) (h : execMgmtCoreEventForward core vec s = .next t) : t.still = s.still := by
  unfold execMgmtCoreEventForward at h
  dsimp only at h
  (repeat' split at h) <;> (cases h; simp_all)

theorem keep_execMgmtCoreEventForward (core vec : Nat) (s : State) (t : State) (h : execMgmtCoreEventForward core vec s = .next t) : t.kept = s.kept :=
  kept_of_still (still_execMgmtCoreEventForward (h := h) ..)

@[simp] theorem keep_State_fillLine (s : State) (c l : Nat) (bs : List Byte) : (State.fillLine s c l bs).kept = s.kept := by
  unfold State.fillLine
  simp

@[simp] theorem keep_bulkFillWork (o : Op) (s : State) : (bulkFillWork o s).2.kept = s.kept := by
  unfold bulkFillWork
  refine keep_adminGate _ _ _ (fun o s => ?_)
  dsimp only
  (repeat' split) <;> first
    | (simp; done)
    | (rename_i heq; have hk := congrArg (fun r : ReadOut × Op × State => r.2.2.kept) heq; simp at hk; simp [hk])

@[simp] theorem keep_State_fillMore (s : State) (slot : Nat) (l : LongOp) (lines : Nat) : (State.fillMore s slot l lines).kept = s.kept := by
  unfold State.fillMore
  simp

theorem keep_execBulkFill (fn ring : Nat) (slot : Option Nat) (lines : Nat) (s : State) (t : State) (h : execBulkFill fn ring slot lines s = .next t) : t.kept = s.kept := by
  unfold execBulkFill at h
  (repeat' split at h) <;> (cases h; simp)

@[simp] theorem still_memtestWork (o : Op) (s : State) : (memtestWork o s).2.still = s.still := by
  unfold memtestWork
  refine still_adminGate _ _ _ (fun o s => ?_)
  dsimp only
  (repeat' split) <;> simp

@[simp] theorem keep_memtestWork (o : Op) (s : State) : (memtestWork o s).2.kept = s.kept :=
  kept_of_still (still_memtestWork ..)

@[simp] theorem keep_State_testLines (s : State) (c first n : Nat) : (State.testLines s c first n).kept = s.kept := by
  unfold State.testLines
  simp

@[simp] theorem keep_State_testMore (s : State) (slot : Nat) (l : LongOp) (lines corrected : Nat) (mismatched : List Nat) : (State.testMore s slot l lines corrected mismatched).kept = s.kept := by
  unfold State.testMore
  simp

theorem keep_execMemtest (fn ring : Nat) (slot : Option Nat) (lines corrected : Nat) (mismatched : List Nat) (s : State) (t : State) (h : execMemtest fn ring slot lines corrected mismatched s = .next t) : t.kept = s.kept := by
  unfold execMemtest at h
  (repeat' split at h) <;> (cases h; simp)

@[simp] theorem keep_State_rekeyLine (s : State) (old new l : Nat) : (State.rekeyLine s old new l).kept = s.kept := by
  unfold State.rekeyLine
  simp

@[simp] theorem still_State_setBoundary (s : State) (c tier old a : Nat) : (State.setBoundary s c tier old a).still = s.still := by
  unfold State.setBoundary
  rfl

@[simp] theorem keep_State_setBoundary (s : State) (c tier old a : Nat) : (State.setBoundary s c tier old a).kept = s.kept :=
  kept_of_still (still_State_setBoundary ..)

@[simp] theorem keep_State_rotateLines (c tier : Nat) (gs : List Nat) (n : Nat) (s : State) :
    (State.rotateLines c tier gs n s).2.kept = s.kept := by
  induction n generalizing s with
  | zero => rfl
  | succ n ih =>
    unfold State.rotateLines
    (repeat' split) <;> simp [ih]

@[simp] theorem still_State_newTierKey (s : State) (c tier : Nat) : (State.newTierKey s c tier).still = s.still := by
  unfold State.newTierKey
  rfl

@[simp] theorem keep_State_newTierKey (s : State) (c tier : Nat) : (State.newTierKey s c tier).kept = s.kept :=
  kept_of_still (still_State_newTierKey ..)

@[simp] theorem still_State_rotated (s : State) (slot : Nat) (l : LongOp) : (State.rotated s slot l).still = s.still := by
  unfold State.rotated
  simp

@[simp] theorem keep_State_rotated (s : State) (slot : Nat) (l : LongOp) : (State.rotated s slot l).kept = s.kept :=
  kept_of_still (still_State_rotated ..)

@[simp] theorem still_keyRotateWork (o : Op) (s : State) : (keyRotateWork o s).2.still = s.still := by
  unfold keyRotateWork
  refine still_adminGate _ _ _ (fun o s => ?_)
  dsimp only
  split
  · rfl
  · refine still_State_startLong _ _ _ _ _ _ _ _ (fun i o s => ?_)
    (repeat' split) <;> simp

@[simp] theorem keep_keyRotateWork (o : Op) (s : State) : (keyRotateWork o s).2.kept = s.kept :=
  kept_of_still (still_keyRotateWork ..)

@[simp] theorem keep_State_rotateMore (s : State) (slot : Nat) (l : LongOp) (lines : Nat) : (s.rotateMore slot l lines).kept = s.kept := by
  unfold State.rotateMore
  dsimp only
  split <;> simp

theorem keep_execKeyRotate (fn ring : Nat) (slot : Option Nat) (lines : Nat) (s : State) (t : State) (h : execKeyRotate fn ring slot lines s = .next t) : t.kept = s.kept := by
  unfold execKeyRotate at h
  (repeat' split at h) <;> (cases h; simp)

@[simp] theorem keep_fwWork (target : Nat) (data : List Nat) (o : Op) (s : State) : (fwWork target data o s).2.kept = s.kept := by
  unfold fwWork
  refine keep_adminGate _ _ _ (fun o s => ?_)
  dsimp only
  have hc : ∀ (o2 : Op) (s : State) (ws : List Nat), (s.startLong o2 0 0 (fwLen o.desc) ws [target] (fun i o3 s =>
      if fwLen o.desc = 0 || decide (fwMax (fwRecord o.desc) < fwLen o.desc) then (o3, s.finLong i 0x61 0) else (o3, s))).2.kept = s.kept := by
    intro o2 s ws
    refine keep_State_startLong _ _ _ _ _ _ _ _ (fun i o s => ?_)
    split <;> simp
  split
  · exact hc _ _ _
  · split
    · split <;> (rename_i heq; have hk := congrArg (fun r : ReadOut × Op × State => r.2.2.kept) heq; simp at hk)
      · exact (hc _ _ _).trans hk.symm
      · exact hk.symm
      · exact (keep_State_opFault _ _ _ _ _).trans hk.symm
    · split
      · simp
      · split
        · simp
        · exact (hc _ _ _).trans (by simp)

@[simp] theorem still_State_stageMore (s : State) (slot : Nat) (l : LongOp) (record : Bool) (n : Nat) (flashOk : Bool) (check : Nat) : (State.stageMore s slot l record n flashOk check).still = s.still := by
  unfold State.stageMore
  simp

@[simp] theorem keep_State_stageMore (s : State) (slot : Nat) (l : LongOp) (record : Bool) (n : Nat) (flashOk : Bool) (check : Nat) : (State.stageMore s slot l record n flashOk check).kept = s.kept :=
  kept_of_still (still_State_stageMore ..)

theorem keep_execFwStageImage (fn ring : Nat) (slot : Option Nat) (bytes : Nat) (flashOk : Bool) (data : List Nat) (s : State) (t : State) (h : execFwStageImage fn ring slot bytes flashOk data s = .next t) : t.kept = s.kept := by
  unfold execFwStageImage at h
  (repeat' split at h) <;> (cases h; simp)

theorem keep_execFwStageRecord (fn ring : Nat) (slot : Option Nat) (bytes : Nat) (flashOk : Bool) (data : List Nat) (seqA seqB : Option Nat) (s : State) (t : State) (h : execFwStageRecord fn ring slot bytes flashOk data seqA seqB s = .next t) : t.kept = s.kept := by
  unfold execFwStageRecord at h
  (repeat' split at h) <;> (cases h; simp)

@[simp] theorem keep_State_cancelEffects (s : State) (l : LongOp) : (State.cancelEffects s l).kept = s.kept := by
  unfold State.cancelEffects
  (repeat' split) <;> simp

@[simp] theorem keep_State_opOrder (s : State) (i : Nat) (l : LongOp) (code : Nat) : (State.opOrder s i l code).2.kept = s.kept := by
  unfold State.opOrder
  (repeat' split) <;> simp

@[simp] theorem keep_opOrderWork (code : Nat) (o : Op) (s : State) : (opOrderWork code o s).2.kept = s.kept := by
  unfold opOrderWork
  refine keep_adminGate _ _ _ (fun o s => ?_)
  dsimp only
  split <;> simp

@[simp] theorem still_opDiscardWork (o : Op) (s : State) : (opDiscardWork o s).2.still = s.still := by
  unfold opDiscardWork
  simp

@[simp] theorem keep_opDiscardWork (o : Op) (s : State) : (opDiscardWork o s).2.kept = s.kept :=
  kept_of_still (still_opDiscardWork ..)

@[simp] theorem keep_State_longOrder (s : State) (fn ring opcode : Nat) (rival : Option Nat) :
    (s.longOrder fn ring opcode rival).kept = s.kept := by
  unfold State.longOrder
  dsimp only
  (repeat' split) <;> simp

theorem keep_execOpSuspend (fn ring : Nat) (rival : Option Nat) (s : State) (t : State) (h : execOpSuspend fn ring rival s = .next t) : t.kept = s.kept := by
  unfold execOpSuspend at h
  cases h; simp

theorem keep_execOpResume (fn ring : Nat) (rival : Option Nat) (s : State) (t : State) (h : execOpResume fn ring rival s = .next t) : t.kept = s.kept := by
  unfold execOpResume at h
  cases h; simp

theorem keep_execOpCancel (fn ring : Nat) (rival : Option Nat) (s : State) (t : State) (h : execOpCancel fn ring rival s = .next t) : t.kept = s.kept := by
  unfold execOpCancel at h
  cases h; simp

@[simp] theorem still_State_answer (s : State) (whom code : Nat) (args : List Nat) : (State.answer s whom code args).still = s.still := by
  unfold State.answer
  rfl

@[simp] theorem keep_State_answer (s : State) (whom code : Nat) (args : List Nat) : (State.answer s whom code args).kept = s.kept :=
  kept_of_still (still_State_answer ..)

@[simp] theorem still_State_spdmError (s : State) (port why : Nat) : (State.spdmError s port why).still = s.still := by
  unfold State.spdmError
  rfl

@[simp] theorem keep_State_spdmError (s : State) (port why : Nat) : (State.spdmError s port why).kept = s.kept :=
  kept_of_still (still_State_spdmError ..)

@[simp] theorem still_State_setConn (s : State) (port n : Nat) : (State.setConn s port n).still = s.still := by
  unfold State.setConn
  rfl

@[simp] theorem keep_State_setConn (s : State) (port n : Nat) : (State.setConn s port n).kept = s.kept :=
  kept_of_still (still_State_setConn ..)

@[simp] theorem still_State_spdmReq (s : State) (port : Nat) (ok : Nat → Bool) (k : State → State) (h : ∀ s, (k s).still = s.still) :
    (s.spdmReq port ok k).still = s.still := by
  unfold State.spdmReq
  (repeat' split) <;> simp [h]

@[simp] theorem keep_State_spdmReq (s : State) (port : Nat) (ok : Nat → Bool) (k : State → State) (h : ∀ s, (k s).kept = s.kept) :
    (s.spdmReq port ok k).kept = s.kept := by
  unfold State.spdmReq
  (repeat' split) <;> simp [h]

theorem still_execGetVersion (port : Nat) (s : State) (t : State) (h : execGetVersion port s = .next t) : t.still = s.still := by
  unfold execGetVersion at h
  cases h; simp

theorem keep_execGetVersion (port : Nat) (s : State) (t : State) (h : execGetVersion port s = .next t) : t.kept = s.kept :=
  kept_of_still (still_execGetVersion (h := h) ..)

theorem still_execGetCapabilities (port : Nat) (s : State) (t : State) (h : execGetCapabilities port s = .next t) : t.still = s.still := by
  unfold execGetCapabilities at h
  cases h; simp

theorem keep_execGetCapabilities (port : Nat) (s : State) (t : State) (h : execGetCapabilities port s = .next t) : t.kept = s.kept :=
  kept_of_still (still_execGetCapabilities (h := h) ..)

theorem still_execNegotiateAlgorithms (port : Nat) (offered : Bool) (s : State) (t : State) (h : execNegotiateAlgorithms port offered s = .next t) : t.still = s.still := by
  unfold execNegotiateAlgorithms at h
  cases h; simp

theorem keep_execNegotiateAlgorithms (port : Nat) (offered : Bool) (s : State) (t : State) (h : execNegotiateAlgorithms port offered s = .next t) : t.kept = s.kept :=
  kept_of_still (still_execNegotiateAlgorithms (h := h) ..)

theorem still_execGetDigests (port : Nat) (s : State) (t : State) (h : execGetDigests port s = .next t) : t.still = s.still := by
  unfold execGetDigests at h
  cases h; simp

theorem keep_execGetDigests (port : Nat) (s : State) (t : State) (h : execGetDigests port s = .next t) : t.kept = s.kept :=
  kept_of_still (still_execGetDigests (h := h) ..)

theorem still_execGetCertificate (port slot offset len : Nat) (s : State) (t : State) (h : execGetCertificate port slot offset len s = .next t) : t.still = s.still := by
  unfold execGetCertificate at h
  cases h; simp

theorem keep_execGetCertificate (port slot offset len : Nat) (s : State) (t : State) (h : execGetCertificate port slot offset len s = .next t) : t.kept = s.kept :=
  kept_of_still (still_execGetCertificate (h := h) ..)

@[simp] theorem still_State_sign (s : State) (k : Nat → State → State) (h : ∀ v s, (k v s).still = s.still) : (s.sign k).still = s.still := by
  unfold State.sign
  simp [h]

@[simp] theorem keep_State_sign (s : State) (k : Nat → State → State) (h : ∀ v s, (k v s).kept = s.kept) : (s.sign k).kept = s.kept := by
  unfold State.sign
  simp [h]

theorem still_execChallenge (port slot : Nat) (s : State) (t : State) (h : execChallenge port slot s = .next t) : t.still = s.still := by
  unfold execChallenge at h
  cases h; simp

theorem keep_execChallenge (port slot : Nat) (s : State) (t : State) (h : execChallenge port slot s = .next t) : t.kept = s.kept :=
  kept_of_still (still_execChallenge (h := h) ..)

theorem still_execGetMeasurements (port index : Nat) (s : State) (t : State) (h : execGetMeasurements port index s = .next t) : t.still = s.still := by
  unfold execGetMeasurements at h
  cases h; simp

theorem keep_execGetMeasurements (port index : Nat) (s : State) (t : State) (h : execGetMeasurements port index s = .next t) : t.kept = s.kept :=
  kept_of_still (still_execGetMeasurements (h := h) ..)

theorem still_execKeyExchange (port slot : Nat) (mutualAuth : Bool) (digest : Nat) (s : State) (t : State) (h : execKeyExchange port slot mutualAuth digest s = .next t) : t.still = s.still := by
  unfold execKeyExchange at h
  cases h; simp

theorem keep_execKeyExchange (port slot : Nat) (mutualAuth : Bool) (digest : Nat) (s : State) (t : State) (h : execKeyExchange port slot mutualAuth digest s = .next t) : t.kept = s.kept :=
  kept_of_still (still_execKeyExchange (h := h) ..)

@[simp] theorem still_State_closeSession (s : State) (id : Nat) : (State.closeSession s id).still = s.still := by
  unfold State.closeSession
  rfl

@[simp] theorem keep_State_closeSession (s : State) (id : Nat) : (State.closeSession s id).kept = s.kept :=
  kept_of_still (still_State_closeSession ..)

@[simp] theorem still_State_inSession (s : State) (id : Nat) (k : Session → State → State) (h : ∀ x s, (k x s).still = s.still) :
    (s.inSession id k).still = s.still := by
  unfold State.inSession
  (repeat' split) <;> simp [h]

@[simp] theorem keep_State_inSession (s : State) (id : Nat) (k : Session → State → State) (h : ∀ x s, (k x s).kept = s.kept) :
    (s.inSession id k).kept = s.kept := by
  unfold State.inSession
  (repeat' split) <;> simp [h]

theorem still_execFinish (session : Nat) (verified : Bool) (s : State) (t : State) (h : execFinish session verified s = .next t) : t.still = s.still := by
  unfold execFinish at h
  (repeat' split at h) <;> (cases h; simp)

theorem keep_execFinish (session : Nat) (verified : Bool) (s : State) (t : State) (h : execFinish session verified s = .next t) : t.kept = s.kept :=
  kept_of_still (still_execFinish (h := h) ..)

theorem still_execKeyUpdate (session op : Nat) (s : State) (t : State) (h : execKeyUpdate session op s = .next t) : t.still = s.still := by
  unfold execKeyUpdate at h
  cases h; simp

theorem keep_execKeyUpdate (session op : Nat) (s : State) (t : State) (h : execKeyUpdate session op s = .next t) : t.kept = s.kept :=
  kept_of_still (still_execKeyUpdate (h := h) ..)

theorem still_execHeartbeat (session : Nat) (s : State) (t : State) (h : execHeartbeat session s = .next t) : t.still = s.still := by
  unfold execHeartbeat at h
  cases h; simp

theorem keep_execHeartbeat (session : Nat) (s : State) (t : State) (h : execHeartbeat session s = .next t) : t.kept = s.kept :=
  kept_of_still (still_execHeartbeat (h := h) ..)

theorem still_execEndSession (session : Nat) (s : State) (t : State) (h : execEndSession session s = .next t) : t.still = s.still := by
  unfold execEndSession at h
  cases h; simp

theorem keep_execEndSession (session : Nat) (s : State) (t : State) (h : execEndSession session s = .next t) : t.kept = s.kept :=
  kept_of_still (still_execEndSession (h := h) ..)

theorem still_execLinkKeySet (session cmp key tag beat : Nat) (s : State) (t : State) (h : execLinkKeySet session cmp key tag beat s = .next t) : t.still = s.still := by
  unfold execLinkKeySet at h
  cases h; simp

theorem keep_execLinkKeySet (session cmp key tag beat : Nat) (s : State) (t : State) (h : execLinkKeySet session cmp key tag beat s = .next t) : t.kept = s.kept :=
  kept_of_still (still_execLinkKeySet (h := h) ..)

@[simp] theorem still_State_activateKey (s : State) (c : Nat) (k : Nat × Nat × Nat) : (State.activateKey s c k).still = s.still := by
  unfold State.activateKey
  rfl

@[simp] theorem keep_State_activateKey (s : State) (c : Nat) (k : Nat × Nat × Nat) : (State.activateKey s c k).kept = s.kept :=
  kept_of_still (still_State_activateKey ..)

theorem still_execLinkKeyActivate (cmp : Nat) (s : State) (t : State) (h : execLinkKeyActivate cmp s = .next t) : t.still = s.still := by
  unfold execLinkKeyActivate at h
  (repeat' split at h) <;> (cases h; simp)

theorem keep_execLinkKeyActivate (cmp : Nat) (s : State) (t : State) (h : execLinkKeyActivate cmp s = .next t) : t.kept = s.kept :=
  kept_of_still (still_execLinkKeyActivate (h := h) ..)

theorem still_execLinkKeyPreviousExpiry (cmp : Nat) (s : State) (t : State) (h : execLinkKeyPreviousExpiry cmp s = .next t) : t.still = s.still := by
  unfold execLinkKeyPreviousExpiry at h
  (repeat' split at h) <;> (cases h; simp)

theorem keep_execLinkKeyPreviousExpiry (cmp : Nat) (s : State) (t : State) (h : execLinkKeyPreviousExpiry cmp s = .next t) : t.kept = s.kept :=
  kept_of_still (still_execLinkKeyPreviousExpiry (h := h) ..)

@[simp] theorem still_State_setIde (s : State) (port stream : Nat) (x : IdeStream) : (State.setIde s port stream x).still = s.still := by
  unfold State.setIde
  rfl

@[simp] theorem keep_State_setIde (s : State) (port stream : Nat) (x : IdeStream) : (State.setIde s port stream x).kept = s.kept :=
  kept_of_still (still_State_setIde ..)

theorem still_execIdeKm (port session stream op set : Nat) (s : State) (t : State) (h : execIdeKm port session stream op set s = .next t) : t.still = s.still := by
  unfold execIdeKm at h
  (repeat' split at h) <;> (cases h; simp)

theorem keep_execIdeKm (port session stream op set : Nat) (s : State) (t : State) (h : execIdeKm port session stream op set s = .next t) : t.kept = s.kept :=
  kept_of_still (still_execIdeKm (h := h) ..)

@[simp] theorem still_State_ideIncident (s : State) (unit : Nat) (cs : List Nat) : (State.ideIncident s unit cs).still = s.still := by
  unfold State.ideIncident
  simp

@[simp] theorem keep_State_ideIncident (s : State) (unit : Nat) (cs : List Nat) : (State.ideIncident s unit cs).kept = s.kept :=
  kept_of_still (still_State_ideIncident ..)

theorem still_execIdeFailure (exp : Bool) (port stream : Nat) (s : State) (t : State) (h : execIdeFailure exp port stream s = .next t) : t.still = s.still := by
  unfold execIdeFailure at h
  dsimp only at h
  (repeat' split at h) <;> (cases h; simp_all)

theorem keep_execIdeFailure (exp : Bool) (port stream : Nat) (s : State) (t : State) (h : execIdeFailure exp port stream s = .next t) : t.kept = s.kept :=
  kept_of_still (still_execIdeFailure (h := h) ..)

theorem still_execExpIdeRekey (fn port : Nat) (s : State) (t : State) (h : execExpIdeRekey fn port s = .next t) : t.still = s.still := by
  unfold execExpIdeRekey at h
  (repeat' split at h) <;> (cases h; simp)

theorem keep_execExpIdeRekey (fn port : Nat) (s : State) (t : State) (h : execExpIdeRekey fn port s = .next t) : t.kept = s.kept :=
  kept_of_still (still_execExpIdeRekey (h := h) ..)

@[simp] theorem still_State_setTdi (s : State) (i st stream : Nat) : (State.setTdi s i st stream).still = s.still := by
  unfold State.setTdi
  rfl

@[simp] theorem keep_State_setTdi (s : State) (i st stream : Nat) : (State.setTdi s i st stream).kept = s.kept :=
  kept_of_still (still_State_setTdi ..)

@[simp] theorem still_State_tdispReq (s : State) (i : Nat) (k : State → State) (h : ∀ s, (k s).still = s.still) :
    (s.tdispReq i k).still = s.still := by
  unfold State.tdispReq
  split <;> simp [h]

@[simp] theorem keep_State_tdispReq (s : State) (i : Nat) (k : State → State) (h : ∀ s, (k s).kept = s.kept) :
    (s.tdispReq i k).kept = s.kept := by
  unfold State.tdispReq
  split <;> simp [h]

@[simp] theorem still_State_tdispErr (s : State) (i : Nat) : (State.tdispErr s i).still = s.still := by
  unfold State.tdispErr
  rfl

@[simp] theorem keep_State_tdispErr (s : State) (i : Nat) : (State.tdispErr s i).kept = s.kept :=
  kept_of_still (still_State_tdispErr ..)

theorem still_execLockInterfaceRequest (idx stream : Nat) (s : State) (t : State) (h : execLockInterfaceRequest idx stream s = .next t) : t.still = s.still := by
  unfold execLockInterfaceRequest at h
  cases h; simp

theorem keep_execLockInterfaceRequest (idx stream : Nat) (s : State) (t : State) (h : execLockInterfaceRequest idx stream s = .next t) : t.kept = s.kept :=
  kept_of_still (still_execLockInterfaceRequest (h := h) ..)

theorem still_execGetDeviceInterfaceReport (idx : Nat) (s : State) (t : State) (h : execGetDeviceInterfaceReport idx s = .next t) : t.still = s.still := by
  unfold execGetDeviceInterfaceReport at h
  cases h; simp

theorem keep_execGetDeviceInterfaceReport (idx : Nat) (s : State) (t : State) (h : execGetDeviceInterfaceReport idx s = .next t) : t.kept = s.kept :=
  kept_of_still (still_execGetDeviceInterfaceReport (h := h) ..)

theorem still_execGetDeviceInterfaceState (idx : Nat) (s : State) (t : State) (h : execGetDeviceInterfaceState idx s = .next t) : t.still = s.still := by
  unfold execGetDeviceInterfaceState at h
  cases h; simp

theorem keep_execGetDeviceInterfaceState (idx : Nat) (s : State) (t : State) (h : execGetDeviceInterfaceState idx s = .next t) : t.kept = s.kept :=
  kept_of_still (still_execGetDeviceInterfaceState (h := h) ..)

theorem still_execStartInterfaceRequest (idx : Nat) (s : State) (t : State) (h : execStartInterfaceRequest idx s = .next t) : t.still = s.still := by
  unfold execStartInterfaceRequest at h
  cases h; simp

theorem keep_execStartInterfaceRequest (idx : Nat) (s : State) (t : State) (h : execStartInterfaceRequest idx s = .next t) : t.kept = s.kept :=
  kept_of_still (still_execStartInterfaceRequest (h := h) ..)

theorem still_execStopInterfaceRequest (idx : Nat) (s : State) (t : State) (h : execStopInterfaceRequest idx s = .next t) : t.still = s.still := by
  unfold execStopInterfaceRequest at h
  cases h; simp

theorem keep_execStopInterfaceRequest (idx : Nat) (s : State) (t : State) (h : execStopInterfaceRequest idx s = .next t) : t.kept = s.kept :=
  kept_of_still (still_execStopInterfaceRequest (h := h) ..)

theorem still_execSvnCommit (fn : Nat) (s : State) (t : State) (h : execSvnCommit fn s = .next t) : t.still = s.still := by
  unfold execSvnCommit at h
  (repeat' split at h) <;> (cases h; simp)

theorem keep_execSvnCommit (fn : Nat) (s : State) (t : State) (h : execSvnCommit fn s = .next t) : t.kept = s.kept :=
  kept_of_still (still_execSvnCommit (h := h) ..)

theorem still_execSeal (fn value : Nat) (s : State) (t : State) (h : execSeal fn value s = .next t) : t.still = s.still := by
  unfold execSeal at h
  (repeat' split at h) <;> (cases h; simp)

theorem keep_execSeal (fn value : Nat) (s : State) (t : State) (h : execSeal fn value s = .next t) : t.kept = s.kept :=
  kept_of_still (still_execSeal (h := h) ..)

@[simp] theorem still_State_issueChallenge (s : State) : (State.issueChallenge s).still = s.still := by
  unfold State.issueChallenge
  simp

@[simp] theorem keep_State_issueChallenge (s : State) : (State.issueChallenge s).kept = s.kept :=
  kept_of_still (still_State_issueChallenge ..)

theorem still_execDebugChallengeRequest (path fn : Nat) (rival : Bool) (s : State) (t : State) (h : execDebugChallengeRequest path fn rival s = .next t) : t.still = s.still := by
  unfold execDebugChallengeRequest at h
  (repeat' split at h) <;> (cases h; simp)

theorem keep_execDebugChallengeRequest (path fn : Nat) (rival : Bool) (s : State) (t : State) (h : execDebugChallengeRequest path fn rival s = .next t) : t.kept = s.kept :=
  kept_of_still (still_execDebugChallengeRequest (h := h) ..)

@[simp] theorem still_State_debugFailed (s : State) (status : Nat) : (State.debugFailed s status).still = s.still := by
  unfold State.debugFailed
  simp

@[simp] theorem keep_State_debugFailed (s : State) (status : Nat) : (State.debugFailed s status).kept = s.kept :=
  kept_of_still (still_State_debugFailed ..)

@[simp] theorem still_State_debugEndLongs (s : State) : s.debugEndLongs.still = s.still := by
  unfold State.debugEndLongs
  rw [still_foldl _ (fun s i => by (repeat' split) <;> simp)]
  simp

@[simp] theorem keep_State_debugEndLongs (s : State) : s.debugEndLongs.kept = s.kept :=
  kept_of_still (still_State_debugEndLongs ..)

@[simp] theorem keep_State_openDebug (s : State) : (State.openDebug s).kept = s.kept := by
  unfold State.openDebug
  simp

theorem keep_execDebugResponseSubmit (path fn mode : Nat) (words : List Nat) (s t : State)
    (h : execDebugResponseSubmit path fn mode words s = .next t) : t.kept = s.kept := by
  unfold execDebugResponseSubmit at h
  split at h
  · exact kept_next h rfl
  · split at h
    · exact kept_next h (by simp)
    · split at h
      · exact kept_next h rfl
      · dsimp only at h
        (repeat' split at h) <;> exact kept_next h (by simp)

theorem still_execDebugChallengeExpiry (s : State) (t : State) (h : execDebugChallengeExpiry s = .next t) : t.still = s.still := by
  unfold execDebugChallengeExpiry at h
  (repeat' split at h) <;> (cases h; simp)

theorem keep_execDebugChallengeExpiry (s : State) (t : State) (h : execDebugChallengeExpiry s = .next t) : t.kept = s.kept :=
  kept_of_still (still_execDebugChallengeExpiry (h := h) ..)

@[simp] theorem still_State_destroyAll (s : State) : (State.destroyAll s).still = s.still := by
  unfold State.destroyAll
  simp

@[simp] theorem keep_State_destroyAll (s : State) : (State.destroyAll s).kept = s.kept :=
  kept_of_still (still_State_destroyAll ..)

@[simp] theorem still_State_sealIfOrdered (s : State) (ordered : Bool) : (State.sealIfOrdered s ordered).still = s.still := by
  unfold State.sealIfOrdered
  simp

@[simp] theorem keep_State_sealIfOrdered (s : State) (ordered : Bool) : (State.sealIfOrdered s ordered).kept = s.kept :=
  kept_of_still (still_State_sealIfOrdered ..)

@[simp] theorem still_State_coldCompartment (s : State) (c : Nat) : (State.coldCompartment s c).still = s.still := by
  unfold State.coldCompartment
  (repeat' split) <;> simp

@[simp] theorem keep_State_coldCompartment (s : State) (c : Nat) : (State.coldCompartment s c).kept = s.kept :=
  kept_of_still (still_State_coldCompartment ..)

@[simp] theorem still_State_coldPorts (s : State) : (State.coldPorts s).still = s.still := by
  unfold State.coldPorts
  rfl

@[simp] theorem keep_State_coldPorts (s : State) : (State.coldPorts s).kept = s.kept :=
  kept_of_still (still_State_coldPorts ..)

@[simp] theorem still_State_interrupt (s : State) : (State.interrupt s).still = s.still := by
  unfold State.interrupt
  simp

@[simp] theorem keep_State_interrupt (s : State) : (State.interrupt s).kept = s.kept :=
  kept_of_still (still_State_interrupt ..)

@[simp] theorem still_State_bootFail (s : State) (reason : Nat) : (State.bootFail s reason).still = s.still := by
  unfold State.bootFail
  simp

@[simp] theorem keep_State_bootFail (s : State) (reason : Nat) : (State.bootFail s reason).kept = s.kept :=
  kept_of_still (still_State_bootFail ..)

theorem still_execBootPhaseTimeout (s : State) (t : State) (h : execBootPhaseTimeout s = .next t) : t.still = s.still := by
  unfold execBootPhaseTimeout at h
  (repeat' split at h) <;> (cases h; simp)

theorem keep_execBootPhaseTimeout (s : State) (t : State) (h : execBootPhaseTimeout s = .next t) : t.kept = s.kept :=
  kept_of_still (still_execBootPhaseTimeout (h := h) ..)

theorem still_execMgmtCoreFault (core : Nat) (entropy : Bool) (s : State) (t : State) (h : execMgmtCoreFault core entropy s = .next t) : t.still = s.still := by
  unfold execMgmtCoreFault at h
  dsimp only at h
  (repeat' split at h) <;> (cases h; simp_all)

theorem keep_execMgmtCoreFault (core : Nat) (entropy : Bool) (s : State) (t : State) (h : execMgmtCoreFault core entropy s = .next t) : t.kept = s.kept :=
  kept_of_still (still_execMgmtCoreFault (h := h) ..)

@[simp] theorem still_State_runImage (s : State) (slot : Nat) (facts : List Nat) : (State.runImage s slot facts).still = s.still := by
  unfold State.runImage
  rfl

@[simp] theorem keep_State_runImage (s : State) (slot : Nat) (facts : List Nat) : (State.runImage s slot facts).kept = s.kept :=
  kept_of_still (still_State_runImage ..)

@[simp] theorem still_State_rejectImage (s : State) (slot : Nat) : (State.rejectImage s slot).still = s.still := by
  unfold State.rejectImage
  rfl

@[simp] theorem keep_State_rejectImage (s : State) (slot : Nat) : (State.rejectImage s slot).kept = s.kept :=
  kept_of_still (still_State_rejectImage ..)

@[simp] theorem still_State_phaseImage (s : State) (imgA imgB : List Nat) : (s.phaseImage imgA imgB).still = s.still := by
  unfold State.phaseImage
  dsimp only
  generalize (if firstIsA imgA imgB = true then [(0, imgA), (1, imgB)] else [(1, imgB), (0, imgA)]) = l
  have h := still_foldl_snd (fun (r : Bool × State) (e : Nat × List Nat) =>
    if r.1 then r else if r.2.imageStatus e.2 = 0 then (true, r.2.runImage e.1 e.2) else (false, r.2.rejectImage e.1))
    (fun a e => by (repeat' split) <;> simp) l (false, s)
  dsimp only at h
  split <;> simp [h]

@[simp] theorem keep_State_phaseImage (s : State) (imgA imgB : List Nat) : (s.phaseImage imgA imgB).kept = s.kept :=
  kept_of_still (still_State_phaseImage ..)

@[simp] theorem still_State_recordUnknown (s : State) (off lo v : Nat) : (State.recordUnknown s off lo v).still = s.still := by
  unfold State.recordUnknown
  simp

@[simp] theorem keep_State_recordUnknown (s : State) (off lo v : Nat) : (State.recordUnknown s off lo v).kept = s.kept :=
  kept_of_still (still_State_recordUnknown ..)

@[simp] theorem still_State_recordSet (s : State) (off v : Nat) (h : Hit) : (State.recordSet s off v h).still = s.still := by
  unfold State.recordSet
  dsimp only
  (repeat' split) <;> simp_all

@[simp] theorem keep_State_recordSet (s : State) (off v : Nat) (h : Hit) : (State.recordSet s off v h).kept = s.kept :=
  kept_of_still (still_State_recordSet (h := h) ..)

@[simp] theorem still_State_recordEntry (bs : List Nat) (s : State) (k : Nat) : (State.recordEntry bs s k).still = s.still := by
  unfold State.recordEntry
  dsimp only
  (repeat' split) <;> simp_all

@[simp] theorem keep_State_recordEntry (bs : List Nat) (s : State) (k : Nat) : (State.recordEntry bs s k).kept = s.kept :=
  kept_of_still (still_State_recordEntry ..)

@[simp] theorem still_State_phaseRecord (s : State) (recA recB : List Nat) : (State.phaseRecord s recA recB).still = s.still := by
  unfold State.phaseRecord
  (repeat' split) <;> simp

@[simp] theorem keep_State_phaseRecord (s : State) (recA recB : List Nat) : (State.phaseRecord s recA recB).kept = s.kept :=
  kept_of_still (still_State_phaseRecord ..)

@[simp] theorem still_State_phaseInit (s : State) (reason : Nat) : (State.phaseInit s reason).still = s.still := by
  unfold State.phaseInit
  simp

@[simp] theorem keep_State_phaseInit (s : State) (reason : Nat) : (State.phaseInit s reason).kept = s.kept :=
  kept_of_still (still_State_phaseInit ..)

theorem still_execClampLogClear (fn : Nat) (s : State) (t : State) (h : execClampLogClear fn s = .next t) : t.still = s.still := by
  unfold execClampLogClear at h
  (repeat' split at h) <;> (cases h; simp)

theorem keep_execClampLogClear (fn : Nat) (s : State) (t : State) (h : execClampLogClear fn s = .next t) : t.kept = s.kept :=
  kept_of_still (still_execClampLogClear (h := h) ..)

theorem still_execAttemptClear (fn : Nat) (s : State) (t : State) (h : execAttemptClear fn s = .next t) : t.still = s.still := by
  unfold execAttemptClear at h
  (repeat' split at h) <;> (cases h; simp)

theorem keep_execAttemptClear (fn : Nat) (s : State) (t : State) (h : execAttemptClear fn s = .next t) : t.kept = s.kept :=
  kept_of_still (still_execAttemptClear (h := h) ..)

@[simp] theorem still_State_clearRead (s : State) (fn : Nat) (hs : List Hit) : (State.clearRead s fn hs).still = s.still := by
  unfold State.clearRead
  simp

@[simp] theorem keep_State_clearRead (s : State) (fn : Nat) (hs : List Hit) : (State.clearRead s fn hs).kept = s.kept :=
  kept_of_still (still_State_clearRead ..)

@[simp] theorem still_State_guardRead (s : State) (fn off : Nat) (k : State → State) (h : ∀ s, (k s).still = s.still) :
    (s.guardRead fn off k).still = s.still := by
  unfold State.guardRead
  (repeat' split) <;> simp [h]

@[simp] theorem keep_State_guardRead (s : State) (fn off : Nat) (k : State → State) (h : ∀ s, (k s).kept = s.kept) :
    (s.guardRead fn off k).kept = s.kept := by
  unfold State.guardRead
  (repeat' split) <;> simp [h]

theorem still_execReadToClear (fn off : Nat) (s t : State) (h : execReadToClear fn off s = .next t) : t.still = s.still := by
  unfold execReadToClear at h
  dsimp only at h
  split at h
  · exact still_next h rfl
  · refine still_next h (still_State_guardRead _ _ _ _ (fun s => ?_))
    split <;> simp

theorem keep_execReadToClear (fn off : Nat) (s t : State) (h : execReadToClear fn off s = .next t) : t.kept = s.kept :=
  kept_of_still (still_execReadToClear (h := h) ..)

theorem still_execRegisterPairLowRead (fn off : Nat) (s : State) (t : State) (h : execRegisterPairLowRead fn off s = .next t) : t.still = s.still := by
  unfold execRegisterPairLowRead at h
  dsimp only at h
  (repeat' split at h) <;> (cases h; simp_all)

theorem keep_execRegisterPairLowRead (fn off : Nat) (s : State) (t : State) (h : execRegisterPairLowRead fn off s = .next t) : t.kept = s.kept :=
  kept_of_still (still_execRegisterPairLowRead (h := h) ..)

theorem still_execRegisterPairHighRead (fn off : Nat) (s t : State) (h : execRegisterPairHighRead fn off s = .next t) :
    t.still = s.still := by
  unfold execRegisterPairHighRead at h
  dsimp only at h
  split at h
  · exact still_next h rfl
  · refine still_next h (still_State_guardRead _ _ _ _ (fun s => ?_))
    split <;> simp

theorem keep_execRegisterPairHighRead (fn off : Nat) (s t : State) (h : execRegisterPairHighRead fn off s = .next t) :
    t.kept = s.kept :=
  kept_of_still (still_execRegisterPairHighRead (h := h) ..)

theorem still_execUnsupportedRegisterAccess (fn off size : Nat) (s : State) (t : State) (h : execUnsupportedRegisterAccess fn off size s = .next t) : t.still = s.still := by
  unfold execUnsupportedRegisterAccess at h
  dsimp only at h
  (repeat' split at h) <;> (cases h; simp_all)

theorem keep_execUnsupportedRegisterAccess (fn off size : Nat) (s : State) (t : State) (h : execUnsupportedRegisterAccess fn off size s = .next t) : t.kept = s.kept :=
  kept_of_still (still_execUnsupportedRegisterAccess (h := h) ..)

@[simp] theorem still_State_holdGroups (s old : State) (source fn : Nat) : (State.holdGroups s old source fn).still = s.still := by
  unfold State.holdGroups
  simp

@[simp] theorem keep_State_holdGroups (s old : State) (source fn : Nat) : (State.holdGroups s old source fn).kept = s.kept :=
  kept_of_still (still_State_holdGroups ..)

@[simp] theorem still_State_holdStream (s old : State) (source fn c : Nat) : (State.holdStream s old source fn c).still = s.still := by
  unfold State.holdStream
  simp

@[simp] theorem keep_State_holdStream (s old : State) (source fn c : Nat) : (State.holdStream s old source fn c).kept = s.kept :=
  kept_of_still (still_State_holdStream ..)

@[simp] theorem still_State_windowWrite (s old : State) (source fn i : Nat) (rangeField : Bool) : (State.windowWrite s old source fn i rangeField).still = s.still := by
  unfold State.windowWrite
  simp

@[simp] theorem keep_State_windowWrite (s old : State) (source fn i : Nat) (rangeField : Bool) : (State.windowWrite s old source fn i rangeField).kept = s.kept :=
  kept_of_still (still_State_windowWrite ..)

@[simp] theorem keep_State_disableWrite (s old : State) (i : Nat) : (State.disableWrite s old i).kept = s.kept := by
  unfold State.disableWrite
  simp

@[simp] theorem keep_State_followField (s old : State) (source fn : Nat) (h : Hit) : (State.followField s old source fn h).kept = s.kept := by
  unfold State.followField
  (repeat' split) <;> simp

@[simp] theorem keep_State_follow (old : State) (source fn : Nat) (hs : List Hit) (s : State) :
    (State.follow old source fn hs s).kept = s.kept := by
  unfold State.follow
  rw [kept_foldl _ (fun s h => by simp)]

@[simp] theorem still_State_mailboxStore (s : State) (fn off val idx w : Nat) (sender : Bool) : (State.mailboxStore s fn off val idx w sender).still = s.still := by
  unfold State.mailboxStore
  simp

@[simp] theorem keep_State_mailboxStore (s : State) (fn off val idx w : Nat) (sender : Bool) : (State.mailboxStore s fn off val idx w sender).kept = s.kept :=
  kept_of_still (still_State_mailboxStore ..)

@[simp] theorem still_State_viewCons (s : State) (fn val : Nat) : (State.viewCons s fn val).still = s.still := by
  unfold State.viewCons
  (repeat' split) <;> simp

@[simp] theorem keep_State_viewCons (s : State) (fn val : Nat) : (State.viewCons s fn val).kept = s.kept :=
  kept_of_still (still_State_viewCons ..)

@[simp] theorem keep_State_registerWrite (s : State) (fn off val : Nat) : (s.registerWrite fn off val).kept = s.kept := by
  unfold State.registerWrite
  split
  · simp
  · split <;> simp
  · dsimp only
    split
    · simp
    · split
      · rfl
      · refine keep_State_guardWrite _ _ _ _ _ _ (fun s => ?_)
        split
        · rw [kept_foldl _ (fun s h => by simp)]
        · simp

theorem keep_execRegisterWrite (fn off val : Nat) (s : State) (t : State) (h : execRegisterWrite fn off val s = .next t) : t.kept = s.kept := by
  unfold execRegisterWrite at h
  (repeat' split at h) <;> (cases h; simp)

theorem still_execRegisterPairLowWrite (fn off val : Nat) (s t : State) (h : execRegisterPairLowWrite fn off val s = .next t) :
    t.still = s.still := by
  unfold execRegisterPairLowWrite at h
  dsimp only at h
  split at h <;> exact still_next h (by simp)

theorem keep_execRegisterPairLowWrite (fn off val : Nat) (s t : State) (h : execRegisterPairLowWrite fn off val s = .next t) :
    t.kept = s.kept :=
  kept_of_still (still_execRegisterPairLowWrite (h := h) ..)

theorem keep_execRegisterPairHighWrite (fn off val : Nat) (s t : State) (h : execRegisterPairHighWrite fn off val s = .next t) :
    t.kept = s.kept := by
  unfold execRegisterPairHighWrite at h
  dsimp only at h
  split at h
  · exact kept_next h rfl
  · refine kept_next h (keep_State_guardWrite _ _ _ _ _ _ (fun s => ?_))
    rw [keep_State_follow, kept_foldl _ (fun s h => by simp)]

@[simp] theorem still_State_advance (s : State) : (State.advance s).still = s.still := by
  unfold State.advance
  simp

@[simp] theorem keep_State_advance (s : State) : (State.advance s).kept = s.kept :=
  kept_of_still (still_State_advance ..)

end Sys2Proof.Machine
end

