-- ==== Sys2Proof/Laws/Pins.lean ====
section
/-! SUPPORT. The meanings that move pins keep the agreement of rails, resets and host links (`State.pinsOk`). -/
namespace Sys2Proof.Machine

open Sys2Proof

/-- The parts of `State.kept`. -/
theorem kept_parts {s : State} {q : List Instr} {p : PinSt} {h : Bool} {w : Nat} (e : s.kept = (q, p, h, w)) :
    s.pending = q ∧ s.pins = p ∧ s.boot.sysHeld = h ∧ s.boot.warmStep = w :=
  ⟨congrArg (·.1) e, congrArg (·.2.1) e, congrArg (·.2.2.1) e, congrArg (·.2.2.2) e⟩

/-- `State.pinsOk` from what `State.kept` holds. -/
theorem pinsOk_of_kept {s : State} {q : List Instr} {p : PinSt} {h : Bool} {w : Nat} (e : s.kept = (q, p, h, w))
    (h1 : p.pwrgood = true → p.vddAon = true) (h2 : ∀ i ∈ p.hostUp, (if i = 0 then p.perstA else decide (i = 1) && p.perstB) = true ∧ p.pwrgood = true)
    (h3 : h = true → p.pwrgood = true ∧ p.sysRstN = false) (h4 : 0 < w → p.pwrgood = true) : s.pinsOk := by
  have e1 : s.pins = p := congrArg (·.2.1) e
  have e2 : s.boot.sysHeld = h := congrArg (·.2.2.1) e
  have e3 : s.boot.warmStep = w := congrArg (·.2.2.2) e
  subst e1 e2 e3
  exact ⟨h1, h2, h3, h4⟩

/-- What keeps `State.kept` keeps the queue and the agreement of the pins. -/
theorem pinsOk_kept {s t : State} (e : t.kept = s.kept) (h : s.pinsOk) : t.pinsOk ∧ t.pending = s.pending :=
  ⟨pinsOk_of_kept e h.1 h.2.1 h.2.2.1 h.2.2.2, congrArg (·.1) e⟩

/-- Training the links of ports whose PERST_x_N is high changes only which links are up. -/
theorem kept_trained (ps : List Nat) (s : State) : ∃ up : List Nat,
    (ps.foldl (fun (s : State) p => if s.perst p then s.setHostUp p true else s) s).kept
      = (s.pending, { s.pins with hostUp := up }, s.boot.sysHeld, s.boot.warmStep) ∧
    ∀ p ∈ up, p ∈ s.pins.hostUp ∨ s.perst p = true := by
  induction ps generalizing s with
  | nil => exact ⟨s.pins.hostUp, rfl, fun p hp => .inl hp⟩
  | cons a ps ih =>
    rw [List.foldl_cons]
    by_cases ha : s.perst a = true
    · obtain ⟨up, e, hup⟩ := ih (if s.perst a then s.setHostUp a true else s)
      have k := keep_State_setHostUp s a true
      rw [if_pos rfl] at k
      obtain ⟨kq, kp, kh, kw⟩ := kept_parts k
      refine ⟨up, e.trans ?_, fun p hp => ?_⟩
      · rw [if_pos ha, kp, kq, kh, kw]
      · have := hup p hp
        rw [if_pos ha] at this
        unfold State.perst at this ⊢
        rw [kp] at this
        rcases this with h | h
        · have hm : p ∈ addOnce s.pins.hostUp a := h
          unfold addOnce at hm
          split at hm
          · exact .inl hm
          · rcases List.mem_append.mp hm with h | h
            · exact .inl h
            · rw [List.mem_singleton.mp h]; exact .inr ha
        · exact .inr h
    · obtain ⟨up, e, hup⟩ := ih s
      rw [if_neg ha]
      exact ⟨up, e, hup⟩

/-- Training links where PWRGOOD is high keeps the agreement of the pins. -/
theorem pinsOk_trained (ps : List Nat) (s : State) (h : s.pinsOk) (hp : s.pins.pwrgood = true) :
    (ps.foldl (fun (s : State) p => if s.perst p then s.setHostUp p true else s) s).pinsOk ∧
    (ps.foldl (fun (s : State) p => if s.perst p then s.setHostUp p true else s) s).pending = s.pending := by
  obtain ⟨up, e, hup⟩ := kept_trained ps s
  refine ⟨pinsOk_of_kept e h.1 (fun i hi => ⟨?_, hp⟩) h.2.2.1 h.2.2.2, congrArg (·.1) e⟩
  rcases hup i hi with h' | h'
  · exact (h.2.1 i h').1
  · exact h'

theorem pinsOk_hostsUp (s : State) (h : s.pinsOk) (hp : s.pins.pwrgood = true) : s.hostsUp.pinsOk ∧ s.hostsUp.pending = s.pending :=
  pinsOk_trained [0, 1] s h hp

theorem pinsOk_retrainHosts (s : State) (h : s.pinsOk) (hp : s.pins.pwrgood = true) :
    s.retrainHosts.pinsOk ∧ s.retrainHosts.pending = s.pending := by
  unfold State.retrainHosts
  exact pinsOk_trained s.boot.hostAfter { s with boot := { s.boot with hostAfter := [] } } ⟨h.1, h.2.1, h.2.2.1, h.2.2.2⟩ hp

/-- A start that ends, in fawn mode or at READY, leaves the pins alone. -/
theorem pinsOk_ended {s t : State} (e : t.kept = (s.pending, s.pins, s.boot.sysHeld, 0)) (h : s.pinsOk) :
    t.pinsOk ∧ t.pending = s.pending ∧ t.pins = s.pins :=
  ⟨pinsOk_of_kept e h.1 h.2.1 h.2.2.1 (fun h0 => absurd h0 (Nat.lt_irrefl 0)), (kept_parts e).1, (kept_parts e).2.1⟩

theorem pinsOk_warmEnd (s : State) (h : s.pinsOk) (hw : 0 < s.boot.warmStep) : s.warmEnd.pinsOk ∧ s.warmEnd.pending = s.pending := by
  have hp := h.2.2.2 hw
  unfold State.warmEnd
  dsimp only
  split
  · obtain ⟨o, q, p⟩ := pinsOk_ended (keep_State_enterFawn s s.boot.cause) h
    have r := pinsOk_retrainHosts _ o (by rw [p]; exact hp)
    exact ⟨r.1, r.2.trans q⟩
  · obtain ⟨o, q, p⟩ := pinsOk_ended (keep_State_reachReady s 3 s.boot.cause ((s.ns - s.boot.startNs) / 1000000)) h
    have r := pinsOk_retrainHosts _ o (by rw [p]; exact hp)
    exact ⟨r.1, r.2.trans q⟩

theorem pinsOk_tick (s : State) (h : s.pinsOk) : s.tick.pinsOk ∧ s.tick.pending = s.pending := by
  have k : State.kept { s.advance with ns := s.ns + 1 } = s.kept := by simp
  obtain ⟨o, q⟩ := pinsOk_kept k h
  unfold State.tick
  dsimp only
  split
  · rename_i hw
    obtain ⟨o', q'⟩ := pinsOk_warmEnd _ o hw
    exact ⟨o', q'.trans q⟩
  · exact ⟨o, q⟩

/-- A cold reset holds no start, runs no warm reset and has no host link up. -/
theorem keep_State_coldClear (s : State) : s.coldClear.kept = (s.pending, { s.pins with hostUp := [] }, false, 0) := by
  have k : s.resetLongs.coldCache.kept = s.kept := by simp
  obtain ⟨kq, kp, -, -⟩ := kept_parts k
  unfold State.coldClear
  dsimp only
  rw [keep_State_sealIfOrdered, keep_State_destroyAll, kept_mk, kq, kp]
  rfl

/-- A cold start where PWRGOOD and VDD_AON are good. -/
theorem pinsOk_coldStart (s : State) (cause : Nat) (hp : s.pins.pwrgood = true) (hv : s.pins.vddAon = true) :
    (s.coldStart cause).pinsOk ∧ (s.coldStart cause).pending = s.pending := by
  have ki : s.interrupt.kept = s.kept := by simp
  have k0 := keep_State_coldClear s.interrupt
  have k : ((tenants.foldl State.coldCompartment s.interrupt.coldClear).coldPorts).kept
      = (s.pending, { s.pins with hostUp := [] }, false, 0) := by
    rw [keep_State_coldPorts, kept_foldl _ (fun s c => by simp), k0]
    rw [(kept_parts ki).1, (kept_parts ki).2.1]
  unfold State.coldStart
  generalize ((tenants.foldl State.coldCompartment s.interrupt.coldClear).coldPorts) = u at k ⊢
  obtain ⟨uq, up, -, -⟩ := kept_parts k
  have uo : u.pinsOk := pinsOk_of_kept k (fun _ => hv) (fun i hi => absurd hi (by simp)) (fun h => absurd h (by simp))
    (fun h => absurd h (Nat.lt_irrefl 0))
  have hu : u.pins.pwrgood = true := by rw [up]; exact hp
  unfold State.beginStart
  dsimp only
  split
  · have uo' : State.pinsOk { u with boot := { u.boot with powerOn := false } } := ⟨uo.1, uo.2.1, uo.2.2.1, uo.2.2.2⟩
    obtain ⟨o, q, p⟩ := pinsOk_ended (keep_State_enterFawn { u with boot := { u.boot with powerOn := false } }
      (if u.boot.powerOn = true then 1 else cause)) uo'
    have r := pinsOk_hostsUp _ o (by rw [p]; exact hu)
    exact ⟨r.1, r.2.trans (q.trans uq)⟩
  · have k2 : ((State.attempt { u with boot := { u.boot with powerOn := false } }).wr .BOOT_PHASE 0 1).kept = u.kept := by simp
    obtain ⟨o, q⟩ := pinsOk_kept k2 uo
    exact ⟨o, q.trans uq⟩

/-- The port goes down as its PERST_x_N falls. -/
theorem pinsOk_portDown (s : State) (p : Nat) (h : s.pinsOk) (hp : p < 2) :
    ((s.setPerst p false).setHostUp p false).pinsOk ∧ ((s.setPerst p false).setHostUp p false).pending = s.pending ∧
    ((s.setPerst p false).setHostUp p false).pins.pwrgood = s.pins.pwrgood ∧
    ((s.setPerst p false).setHostUp p false).boot.sysHeld = s.boot.sysHeld ∧
    ((s.setPerst p false).setHostUp p false).boot.warmStep = s.boot.warmStep := by
  have k := keep_State_setHostUp (s.setPerst p false) p false
  obtain ⟨kq, kp, kh, kw⟩ := kept_parts k
  have hs : (s.setPerst p false).pins.hostUp = s.pins.hostUp ∧ (s.setPerst p false).pins.pwrgood = s.pins.pwrgood ∧
      (s.setPerst p false).pins.vddAon = s.pins.vddAon ∧ (s.setPerst p false).pins.sysRstN = s.pins.sysRstN := by
    unfold State.setPerst
    dsimp only
    split <;> exact ⟨rfl, rfl, rfl, rfl⟩
  refine ⟨pinsOk_of_kept k ?_ ?_ ?_ ?_, kq, ?_, kh, kw⟩
  · dsimp only; rw [hs.2.1, hs.2.2.1]; exact h.1
  · intro i hi
    dsimp only at hi ⊢
    rw [if_neg (by decide), hs.1, List.mem_filter] at hi
    have hne : i ≠ p := by simpa using hi.2
    obtain ⟨h1, h2⟩ := h.2.1 i hi.1
    refine ⟨?_, hs.2.1.trans h2⟩
    unfold State.perst at h1
    unfold State.setPerst
    dsimp only
    split at h1
    · have : p ≠ 0 := fun e => hne (by omega)
      rw [if_pos (by assumption), if_neg this]; exact h1
    · have h1' := (Bool.and_eq_true _ _).mp h1
      have : i = 1 := of_decide_eq_true h1'.1
      have : p = 0 := by omega
      rw [if_neg (by assumption), if_pos this]; exact h1
  · dsimp only; rw [hs.2.1, hs.2.2.2]; exact h.2.2.1
  · dsimp only; rw [hs.2.1]; exact h.2.2.2
  · rw [kp]; exact hs.2.1

theorem pinsOk_portsDown (ps : List Nat) (s : State) (h : s.pinsOk) (hp : ∀ p ∈ ps, p < 2) :
    (ps.foldl (fun s p => (s.setPerst p false).setHostUp p false) s).pinsOk ∧
    (ps.foldl (fun s p => (s.setPerst p false).setHostUp p false) s).pending = s.pending ∧
    (ps.foldl (fun s p => (s.setPerst p false).setHostUp p false) s).pins.pwrgood = s.pins.pwrgood := by
  induction ps generalizing s with
  | nil => exact ⟨h, rfl, rfl⟩
  | cons a ps ih =>
    rw [List.foldl_cons]
    obtain ⟨o, q, g, -, -⟩ := pinsOk_portDown s a h (hp a (List.mem_cons_self ..))
    obtain ⟨o', q', g'⟩ := ih _ o (fun p hp' => hp p (List.mem_cons_of_mem _ hp'))
    exact ⟨o', q'.trans q, g'.trans g⟩

/-- A warm reset that begins changes, of what `State.kept` holds, no more than the fall of the host ports does and its own step. -/
theorem warmBegin_parts (s : State) (cause : Nat) (hosts : List Nat) : ∃ (u : State) (b : BootSt), s.warmBegin cause hosts = { u with boot := b } ∧
    b.sysHeld = u.boot.sysHeld ∧ u.kept = (hosts.foldl (fun s p => (s.setPerst p false).setHostUp p false) s).kept := by
  have k := keep_State_warmRun (hosts.foldl (fun s p => (s.setPerst p false).setHostUp p false) s) s.fawnNext
  unfold State.warmBegin
  obtain ⟨u, hu⟩ : ∃ u, u = (hosts.foldl (fun s p => (s.setPerst p false).setHostUp p false) s).warmRun s.fawnNext := ⟨_, rfl⟩
  rw [← hu] at k ⊢
  exact ⟨u, u.boot.warm s.fawnNext cause s.ns hosts, rfl, rfl, k⟩

/-- A warm reset that begins while PWRGOOD is high. -/
theorem pinsOk_warmBegin (s : State) (cause : Nat) (hosts : List Nat) (h : s.pinsOk) (hp : s.pins.pwrgood = true) (hh : ∀ p ∈ hosts, p < 2) :
    (s.warmBegin cause hosts).pinsOk ∧ (s.warmBegin cause hosts).pending = s.pending := by
  obtain ⟨o, q, g⟩ := pinsOk_portsDown hosts s h hh
  obtain ⟨u, b, e, hb, k⟩ := warmBegin_parts s cause hosts
  rw [e]
  generalize hosts.foldl (fun s p => (s.setPerst p false).setHostUp p false) s = t at o q g k
  obtain ⟨kq, kp, kh, kw⟩ := kept_parts (k.trans (show t.kept = (t.pending, t.pins, t.boot.sysHeld, t.boot.warmStep) from rfl))
  have hu : u.pins.pwrgood = true := by rw [kp, g]; exact hp
  obtain ⟨o2, q2⟩ := pinsOk_kept k o
  exact ⟨⟨o2.1, o2.2.1, fun e => o2.2.2.1 (hb.symm.trans e), fun _ => hu⟩, q2.trans q⟩

/-- Memory requests to a function are accepted only while PWRGOOD is high. -/
theorem pwrgood_of_open (s : State) (fn : Nat) (h : s.barsBlocked fn = false) : s.pins.pwrgood = true := by
  unfold State.barsBlocked State.retryStatus at h
  cases hp : s.pins.pwrgood with
  | true => rfl
  | false => rw [hp] at h; simp at h

theorem pinsOk_resetOrder (s : State) (fn key : Nat) (k : State → State) (h : s.pinsOk)
    (hk : s.pins.pwrgood = true → (k s).pinsOk ∧ (k s).pending = s.pending) :
    (s.resetOrder fn key k).pinsOk ∧ (s.resetOrder fn key k).pending = s.pending := by
  unfold State.resetOrder
  split
  · exact ⟨h, rfl⟩
  · rename_i hb
    split
    · exact pinsOk_kept (by simp) h
    · split
      · exact pinsOk_kept (by simp) h
      · exact hk (pwrgood_of_open s fn (by simpa using hb))

theorem next_eq {t u : State} (h : Host.Outcome.next u = (.next t : Out)) : t = u := (Host.Outcome.next.inj h).symm

theorem pins_execWarmReset (cause fn key : Nat) (hosts : List Nat) (s t : State) (o : s.pinsOk)
    (h : execWarmReset cause fn key hosts s = .next t) : t.pinsOk ∧ t.pending = s.pending := by
  have hh : ∀ p ∈ hosts.filter (fun p => decide (p < 2)), p < 2 := fun p hp => of_decide_eq_true (List.mem_filter.mp hp).2
  unfold execWarmReset at h
  split at h
  · dsimp only at h
    have o' : State.pinsOk { s with pins := { s.pins with sysRstN := false } } := ⟨o.1, o.2.1, fun hs => ⟨(o.2.2.1 hs).1, rfl⟩, o.2.2.2⟩
    split at h
    · rw [next_eq h]; exact ⟨o', rfl⟩
    · rename_i hc
      rw [next_eq h]
      have hp : s.pins.pwrgood = true := by
        cases hp : s.pins.pwrgood with
        | true => rfl
        | false => rw [hp] at hc; simp at hc
      exact pinsOk_warmBegin _ 3 _ o' hp hh
  · split at h
    · rw [next_eq h]
      exact pinsOk_resetOrder s fn key _ o (fun hp => pinsOk_warmBegin s 4 _ o hp hh)
    · rw [next_eq h]; exact ⟨o, rfl⟩

theorem pins_execColdReset (cause fn key : Nat) (s t : State) (o : s.pinsOk)
    (h : execColdReset cause fn key s = .next t) : t.pinsOk ∧ t.pending = s.pending := by
  unfold execColdReset at h
  split at h
  · split at h
    · rw [next_eq h]; exact ⟨o, rfl⟩
    · rename_i hc
      have hv : s.pins.vddAon = true := by
        cases hv : s.pins.vddAon with
        | true => rfl
        | false => rw [hv] at hc; simp at hc
      dsimp only at h
      split at h
      · rw [next_eq h]
        exact pinsOk_coldStart { s with pins := { s.pins with pwrgood := true } } 2 rfl hv
      · rename_i hs
        rw [next_eq h]
        exact ⟨⟨fun _ => hv, fun p hp => ⟨(o.2.1 p hp).1, rfl⟩, fun _ => ⟨rfl, by simpa using hs⟩, fun _ => rfl⟩, rfl⟩
  · split at h
    · rw [next_eq h]
      exact pinsOk_resetOrder s fn key _ o (fun hp => pinsOk_coldStart s 5 hp (o.1 hp))
    · rw [next_eq h]; exact ⟨o, rfl⟩

theorem pins_execSysRstNRelease (s t : State) (o : s.pinsOk) (h : execSysRstNRelease s = .next t) :
    t.pinsOk ∧ t.pending = s.pending := by
  unfold execSysRstNRelease at h
  dsimp only at h
  split at h
  · rename_i hs
    rw [next_eq h]
    have hp := (o.2.2.1 hs).1
    exact pinsOk_coldStart { s with pins := { s.pins with sysRstN := true } } 2 hp (o.1 hp)
  · rename_i hs
    rw [next_eq h]
    exact ⟨⟨o.1, o.2.1, fun h => absurd h hs, o.2.2.2⟩, rfl⟩

theorem pins_execPwrgoodFall (s t : State) (o : s.pinsOk) (h : execPwrgoodFall s = .next t) : t.pinsOk ∧ t.pending = s.pending := by
  unfold execPwrgoodFall at h
  split at h
  · rw [next_eq h]; exact ⟨o, rfl⟩
  · rw [next_eq h]
    obtain ⟨kq, kp, kh, kw⟩ := kept_parts (keep_State_coldClear s.interrupt)
    have ki : s.interrupt.kept = s.kept := by simp
    dsimp only
    generalize s.interrupt.coldClear = u at kq kp kh kw ⊢
    refine ⟨⟨fun h => absurd h (by simp), fun p hp => ?_, fun h => ?_, fun h => ?_⟩, kq.trans (kept_parts ki).1⟩
    · dsimp only at hp; rw [kp] at hp; exact absurd hp (by simp)
    · dsimp only at h; rw [kh] at h; exact absurd h (by simp)
    · dsimp only at h; rw [kw] at h; exact absurd h (Nat.lt_irrefl 0)

theorem pins_execPowerLoss (s t : State) (o : s.pinsOk) (h : execPowerLoss s = .next t) : t.pinsOk ∧ t.pending = s.pending := by
  unfold execPowerLoss at h
  split at h
  · rw [next_eq h]; exact ⟨o, rfl⟩
  · rw [next_eq h]
    have k : s.coldCache.kept = s.kept := by simp
    obtain ⟨kq, kp, -, -⟩ := kept_parts k
    dsimp only
    have e : ∀ u : State, ((u.destroyAll).sealIfOrdered s.coldCache.sec.sealNext).kept = u.kept := by intro u; simp
    have f := (e { State.reset with
      pending := s.coldCache.pending, sent := s.coldCache.sent, ns := s.coldCache.ns, free := s.coldCache.free
      reg := s.coldCache.reg.only fuses
      mem := s.coldCache.mem.cold
      pins := { s.coldCache.pins with vddAon := false, pwrgood := false, hostUp := [] }
      sec := s.coldCache.sec.cold }).trans (kept_mk ..)
    refine ⟨pinsOk_of_kept f (fun h => absurd h (by simp)) (fun p hp => absurd hp (by simp)) (fun h => absurd h (by decide))
      (fun h => absurd h (by decide)), (kept_parts f).1.trans kq⟩

theorem pins_execPowerOn (sel : Nat) (s t : State) (o : s.pinsOk) (h : execPowerOn sel s = .next t) :
    t.pinsOk ∧ t.pending = s.pending := by
  unfold execPowerOn at h
  split at h
  · rw [next_eq h]; exact ⟨o, rfl⟩
  · rw [next_eq h]
    obtain ⟨o', q'⟩ := pinsOk_kept (keep_State_wr s .HST_PRIMARY_SEL 0 sel) o
    exact ⟨⟨fun _ => rfl, o'.2.1, o'.2.2.1, o'.2.2.2⟩, q'⟩

theorem pins_execPerstDeassert (port : Nat) (s t : State) (o : s.pinsOk) (h : execPerstDeassert port s = .next t) :
    t.pinsOk ∧ t.pending = s.pending := by
  unfold execPerstDeassert at h
  split at h
  · rw [next_eq h]; exact ⟨o, rfl⟩
  · rename_i hc
    have h2 : port < 2 ∧ s.perst port = false := by simpa using hc
    dsimp only at h
    have hs : (s.setPerst port true).pins.hostUp = s.pins.hostUp ∧ (s.setPerst port true).pins.pwrgood = s.pins.pwrgood ∧
        (s.setPerst port true).pins.vddAon = s.pins.vddAon ∧ (s.setPerst port true).pins.sysRstN = s.pins.sysRstN ∧
        (∀ p, s.perst p = true → (s.setPerst port true).perst p = true) ∧ (s.setPerst port true).perst port = true := by
      unfold State.setPerst State.perst
      dsimp only
      split
      · refine ⟨rfl, rfl, rfl, rfl, fun p hp => ?_, rfl⟩
        split at hp
        · rw [if_pos (by assumption)]
        · rw [if_neg (by assumption)]; exact hp
      · refine ⟨rfl, rfl, rfl, rfl, fun p hp => ?_, ?_⟩
        · split at hp
          · rw [if_pos (by assumption)]; exact hp
          · rw [if_neg (by assumption)]
            rw [Bool.and_eq_true] at hp ⊢
            exact ⟨hp.1, rfl⟩
        · have : port = 1 := by omega
          simp [this]
    have o' : (s.setPerst port true).pinsOk :=
      ⟨by rw [hs.2.1, hs.2.2.1]; exact o.1,
       by rw [hs.1]; exact fun p hp => ⟨hs.2.2.2.2.1 p (o.2.1 p hp).1, hs.2.1.trans (o.2.1 p hp).2⟩,
       by rw [hs.2.1, hs.2.2.2.1]; exact o.2.2.1,
       by rw [hs.2.1]; exact o.2.2.2⟩
    split at h
    · rename_i hg
      rw [next_eq h]
      have hp : (s.setPerst port true).pins.pwrgood = true := by
        rw [Bool.and_eq_true, Bool.and_eq_true] at hg; exact hg.1.1
      have := pinsOk_trained [port] (s.setPerst port true) o' hp
      rw [List.foldl_cons, List.foldl_nil, if_pos hs.2.2.2.2.2] at this
      exact ⟨this.1, this.2⟩
    · rw [next_eq h]; exact ⟨o', rfl⟩

theorem pins_execHostLinkReset (port : Nat) (perst : Bool) (drained : List (Nat × Nat)) (s t : State) (o : s.pinsOk)
    (h : execHostLinkReset port perst drained s = .next t) : t.pinsOk ∧ t.pending = s.pending := by
  unfold execHostLinkReset at h
  split at h
  · rw [next_eq h]; exact ⟨o, rfl⟩
  · rename_i hc
    have h2 : port < 2 := by
      rcases Nat.lt_or_ge port 2 with h2 | h2
      · exact h2
      · simp [h2] at hc
    have hd : ∀ u : State, u.pinsOk → u.pending = s.pending →
        (if perst then (u.setPerst port false).setHostUp port false else u).pinsOk ∧
        (if perst then (u.setPerst port false).setHostUp port false else u).pending = s.pending := by
      intro u ou qu
      split
      · obtain ⟨a, b, -, -, -⟩ := pinsOk_portDown u port ou h2
        exact ⟨a, b.trans qu⟩
      · exact ⟨ou, qu⟩
    dsimp only at h
    split at h
    · rw [next_eq h]
      obtain ⟨a, b⟩ := hd s o rfl
      exact ⟨⟨a.1, a.2.1, a.2.2.1, a.2.2.2⟩, b⟩
    · split at h
      · rw [next_eq h]; exact hd s o rfl
      · rw [next_eq h]
        obtain ⟨a, b⟩ := pinsOk_kept (keep_State_hostLink s port drained) o
        exact hd _ a b

theorem pins_execBootPhaseDone (phase ms : Nat) (rails : List Nat) (reason : Nat) (imgA imgB recA recB : List Nat) (s t : State)
    (o : s.pinsOk) (h : execBootPhaseDone phase ms rails reason imgA imgB recA recB s = .next t) : t.pinsOk ∧ t.pending = s.pending := by
  unfold execBootPhaseDone at h
  split at h
  · rw [next_eq h]; exact ⟨o, rfl⟩
  · rename_i hc
    have hp : s.pins.pwrgood = true := by
      cases hp : s.pins.pwrgood with
      | true => rfl
      | false => rw [hp] at hc; simp at hc
    split at h
    · rw [next_eq h]; exact pinsOk_kept (by simp) o
    · split at h
      · rw [next_eq h]
        unfold State.phaseClocks
        split
        · exact pinsOk_kept (by simp) o
        · split
          · exact pinsOk_kept (by simp) o
          · have k2 : (s.wr .PWR_PLL_LOCK 0 0x3FF).kept = s.kept := by simp
            obtain ⟨a, b⟩ := pinsOk_kept k2 o
            have g : (s.wr .PWR_PLL_LOCK 0 0x3FF).pins.pwrgood = true := by
              rw [(kept_parts (k2.trans (show s.kept = (s.pending, s.pins, s.boot.sysHeld, s.boot.warmStep) from rfl))).2.1]; exact hp
            obtain ⟨a2, b2⟩ := pinsOk_hostsUp _ a g
            obtain ⟨a3, b3⟩ := pinsOk_kept (keep_State_wr (s.wr .PWR_PLL_LOCK 0 0x3FF).hostsUp .BOOT_PHASE 0 2) a2
            exact ⟨a3, b3.trans (b2.trans b)⟩
      · rw [next_eq h]; exact pinsOk_kept (by simp) o
      · rw [next_eq h]; exact pinsOk_kept (by simp) o
      · rw [next_eq h]; exact pinsOk_kept (by simp) o
      · rw [next_eq h]
        unfold State.phaseTrain
        split
        · exact pinsOk_kept (by simp) o
        · dsimp only
          have k : (State.refreshAgents { (s.wrAll .STK_TRAINED (List.range 8) 1) with
              coh := { (s.wrAll .STK_TRAINED (List.range 8) 1).coh with dieUp := [0, 1, 2, 3] } }).kept = s.kept := by simp
          generalize State.refreshAgents { (s.wrAll .STK_TRAINED (List.range 8) 1) with
              coh := { (s.wrAll .STK_TRAINED (List.range 8) 1).coh with dieUp := [0, 1, 2, 3] } } = u at k ⊢
          obtain ⟨a, b⟩ := pinsOk_kept k o
          unfold State.bootReady
          dsimp only
          obtain ⟨a2, b2, -⟩ := pinsOk_ended (keep_State_reachReady u u.boot.typ u.boot.cause ms) a
          have k3 : ((List.range 12).foldl State.linkStart (u.reachReady u.boot.typ u.boot.cause ms).enumStart).kept =
              (u.reachReady u.boot.typ u.boot.cause ms).kept := by
            rw [kept_foldl _ (fun s l => by simp)]; simp
          obtain ⟨a3, b3⟩ := pinsOk_kept k3 a2
          exact ⟨a3, b3.trans (b2.trans b)⟩
      · rw [next_eq h]; exact ⟨o, rfl⟩

end Sys2Proof.Machine
end

