-- ==== Sys2Proof/Laws/State.lean ====
section
/-! SUPPORT. Reading what was written: sparse tables, register fields, memory bytes, and the parts of the state that each named operation
leaves alone. -/
namespace Sys2Proof.Machine

open Sys2Proof

/-! ### Sparse tables -/

theorem Tab.find_put_same {α : Type} (t : Tab α) (i : Nat) (a : α) : (t.put i a).find i = some a := by
  induction t with
  | nil => simp [Tab.put, Tab.find]
  | cons e t ih =>
    obtain ⟨k, b⟩ := e
    simp only [Tab.put]
    split
    · simp [Tab.find]
    · split
      · simp [Tab.find]
      · rename_i h
        simp [Tab.find, h, ih]

theorem Tab.find_put_ne {α : Type} (t : Tab α) (i j : Nat) (a : α) (h : i ≠ j) : (t.put i a).find j = t.find j := by
  induction t with
  | nil => simp [Tab.put, Tab.find, h]
  | cons e t ih =>
    obtain ⟨k, b⟩ := e
    simp only [Tab.put]
    split
    · simp [Tab.find, h]
    · split
      · rename_i hk
        subst hk
        simp [Tab.find, h]
      · simp [Tab.find, ih]

theorem Tab.find_del_same {α : Type} (t : Tab α) (i : Nat) : (t.del i).find i = none := by
  induction t with
  | nil => rfl
  | cons e t ih =>
    obtain ⟨k, b⟩ := e
    simp only [Tab.del]
    split
    · exact ih
    · rename_i h
      simp [Tab.find, h, ih]

theorem Tab.find_del_ne {α : Type} (t : Tab α) (i j : Nat) (h : i ≠ j) : (t.del i).find j = t.find j := by
  induction t with
  | nil => rfl
  | cons e t ih =>
    obtain ⟨k, b⟩ := e
    simp only [Tab.del]
    split
    · rename_i hk
      subst hk
      simp [Tab.find, h, ih]
    · simp [Tab.find, ih]

theorem Tab.get_set_same {α : Type} [DecidableEq α] (t : Tab α) (d : α) (i : Nat) (a : α) : (t.set d i a).get d i = a := by
  unfold Tab.set Tab.get
  split
  · rename_i h
    rw [Tab.find_del_same, h]; rfl
  · rw [Tab.find_put_same]; rfl

theorem Tab.get_set_ne {α : Type} [DecidableEq α] (t : Tab α) (d e : α) (i j : Nat) (a : α) (h : i ≠ j) :
    (t.set d i a).get e j = t.get e j := by
  unfold Tab.set Tab.get
  split
  · rw [Tab.find_del_ne _ _ _ h]
  · rw [Tab.find_put_ne _ _ _ _ h]

theorem Tab.rising_del {α : Type} (t : Tab α) (l : Option Nat) (i : Nat) (h : Tab.rising l t = true) : Tab.rising l (t.del i) = true := by
  have weaken : ∀ (t : Tab α) (a b : Nat), a ≤ b → Tab.rising (some b) t = true → Tab.rising (some a) t = true := by
    intro t a b hab ht
    cases t with
    | nil => rfl
    | cons e t =>
      simp only [Tab.rising, Bool.and_eq_true, decide_eq_true_eq] at ht ⊢
      exact ⟨by omega, ht.2⟩
  have drop : ∀ (t : Tab α) (k : Nat) (l : Option Nat), (∀ a, l = some a → a ≤ k) → Tab.rising (some k) t = true → Tab.rising l t = true := by
    intro t k l hl ht
    cases l with
    | some a => exact weaken t a k (hl a rfl) ht
    | none =>
      cases t with
      | nil => rfl
      | cons e t =>
        simp only [Tab.rising, Bool.and_eq_true, decide_eq_true_eq] at ht ⊢
        exact ht.2
  induction t generalizing l with
  | nil => rfl
  | cons e t ih =>
    obtain ⟨k, b⟩ := e
    have hk : Tab.rising (some k) t = true := by
      cases l <;> simp only [Tab.rising, Bool.and_eq_true] at h
      · exact h
      · exact h.2
    simp only [Tab.del]
    split
    · refine drop _ k l ?_ (ih (some k) hk)
      intro a ha
      subst ha
      simp only [Tab.rising, Bool.and_eq_true, decide_eq_true_eq] at h
      omega
    · cases l <;> simp only [Tab.rising, Bool.and_eq_true, decide_eq_true_eq] at h ⊢
      · exact ih (some k) hk
      · exact ⟨h.1, ih (some k) hk⟩

theorem Tab.rising_put {α : Type} (t : Tab α) (l : Option Nat) (i : Nat) (a : α) (hl : ∀ b, l = some b → b < i)
    (h : Tab.rising l t = true) : Tab.rising l (t.put i a) = true := by
  induction t generalizing l with
  | nil =>
    cases l with
    | none => rfl
    | some b => simp [Tab.put, Tab.rising, hl b rfl]
  | cons e t ih =>
    obtain ⟨k, b⟩ := e
    have hk : Tab.rising (some k) t = true := by
      cases l <;> simp only [Tab.rising, Bool.and_eq_true] at h
      · exact h
      · exact h.2
    simp only [Tab.put]
    split
    · rename_i hik
      cases l with
      | none => simp [Tab.rising, hik, hk]
      | some c => simp [Tab.rising, hik, hk, hl c rfl]
    · split
      · rename_i hki
        subst hki
        cases l with
        | none => simpa [Tab.rising] using hk
        | some c => simp [Tab.rising, hl c rfl, hk]
      · rename_i h1 h2
        have hn := ih (some k) (by intro c hc; cases hc; omega) hk
        cases l with
        | none => simpa [Tab.rising] using hn
        | some c =>
          simp only [Tab.rising, Bool.and_eq_true, decide_eq_true_eq] at h ⊢
          exact ⟨h.1, hn⟩

theorem Tab.mem_del {α : Type} (t : Tab α) (i : Nat) (e : Nat × α) (h : e ∈ t.del i) : e ∈ t := by
  induction t with
  | nil => exact h
  | cons x t ih =>
    obtain ⟨k, b⟩ := x
    simp only [Tab.del] at h
    split at h
    · exact List.mem_cons_of_mem _ (ih h)
    · rcases List.mem_cons.mp h with h | h
      · exact h ▸ List.mem_cons_self ..
      · exact List.mem_cons_of_mem _ (ih h)

theorem Tab.mem_put {α : Type} (t : Tab α) (i : Nat) (a : α) (e : Nat × α) (h : e ∈ t.put i a) : e = (i, a) ∨ e ∈ t := by
  induction t with
  | nil => simp [Tab.put] at h; exact .inl h
  | cons x t ih =>
    obtain ⟨k, b⟩ := x
    simp only [Tab.put] at h
    split at h
    · rcases List.mem_cons.mp h with h | h
      · exact .inl h
      · exact .inr h
    · split at h
      · rcases List.mem_cons.mp h with h | h
        · exact .inl h
        · exact .inr (List.mem_cons_of_mem _ h)
      · rcases List.mem_cons.mp h with h | h
        · exact .inr (h ▸ List.mem_cons_self ..)
        · rcases ih h with h | h
          · exact .inl h
          · exact .inr (List.mem_cons_of_mem _ h)

/-- Setting an entry keeps the canonical form. -/
theorem Tab.wf_set {α : Type} [DecidableEq α] (t : Tab α) (d : α) (i : Nat) (a : α) (h : Tab.wf t d = true) : Tab.wf (t.set d i a) d = true := by
  simp only [Tab.wf, Bool.and_eq_true, List.all_eq_true, decide_eq_true_eq] at h ⊢
  unfold Tab.set
  split
  · exact ⟨Tab.rising_del t none i h.1, fun e he => h.2 e (Tab.mem_del t i e he)⟩
  · rename_i ha
    refine ⟨Tab.rising_put t none i a (by simp) h.1, fun e he => ?_⟩
    rcases Tab.mem_put t i a e he with he | he
    · rw [he]; exact ha
    · exact h.2 e he

/-- Keeping some entries keeps the canonical form. -/
theorem Tab.wf_filter {α : Type} [DecidableEq α] (t : Tab α) (d : α) (p : Nat × α → Bool) (h : Tab.wf t d = true) :
    Tab.wf (t.filter p) d = true := by
  simp only [Tab.wf, Bool.and_eq_true, List.all_eq_true, decide_eq_true_eq] at h ⊢
  refine ⟨?_, fun e he => h.2 e (List.mem_filter.mp he).1⟩
  have gen : ∀ (t : Tab α) (l : Option Nat), Tab.rising l t = true → ∀ m : Option Nat, (∀ a, m = some a → ∃ b, l = some b ∧ a ≤ b) →
      Tab.rising m (t.filter p) = true := by
    intro t
    induction t with
    | nil => intro l _ m _; cases m <;> rfl
    | cons e t ih =>
      intro l hl m hm
      obtain ⟨k, b⟩ := e
      have hk : Tab.rising (some k) t = true := by
        cases l <;> simp only [Tab.rising, Bool.and_eq_true] at hl
        · exact hl
        · exact hl.2
      have hmk : ∀ a, m = some a → a < k := by
        intro a ha
        obtain ⟨b', hb, hab⟩ := hm a ha
        subst hb
        simp only [Tab.rising, Bool.and_eq_true, decide_eq_true_eq] at hl
        omega
      simp only [List.filter_cons]
      split
      · have := ih (some k) hk (some k) (by intro a ha; cases ha; exact ⟨k, rfl, Nat.le_refl k⟩)
        cases m with
        | none => simpa [Tab.rising] using this
        | some a => simp [Tab.rising, hmk a rfl, this]
      · exact ih (some k) hk m (by intro a ha; exact ⟨k, rfl, Nat.le_of_lt (hmk a ha)⟩)
  exact gen t none h.1 none (by simp)

/-! ### Register fields -/

theorem Fld.num_inj {f g : Fld} (h : f.num = g.num) : f = g := by
  have := congrArg Fld.ofNat h
  simpa [Fld.num, Fld.ofNat_ctorIdx] using this

theorem Fld.num_lt (f : Fld) : f.num < 1024 := by cases f <;> decide

theorem fkey_inj {f g : Fld} {i j : Nat} (h : fkey f i = fkey g j) : f = g ∧ i = j := by
  have h1 := f.num_lt
  have h2 := g.num_lt
  unfold fkey at h
  exact ⟨Fld.num_inj (by omega), by omega⟩

/-- A field reads as it was written, in its width. -/
@[simp] theorem State.rd_wr_same (s : State) (f : Fld) (i v : Nat) : (s.wr f i v).rd f i = v % 2 ^ f.spec.width := by
  unfold State.rd State.wr
  exact Tab.get_set_same _ _ _ _

/-- Another field, or another entry of the field, is not changed by a write. -/
theorem State.rd_wr_ne (s : State) (f g : Fld) (i j v : Nat) (h : ¬(f = g ∧ i = j)) : (s.wr f i v).rd g j = s.rd g j := by
  unfold State.rd State.wr
  exact Tab.get_set_ne _ _ _ _ _ _ (fun e => h (fkey_inj e))

/-- A write to a field, seen through a read of any field. -/
theorem State.rd_wr (s : State) (f g : Fld) (i j v : Nat) :
    (s.wr f i v).rd g j = if f = g ∧ i = j then v % 2 ^ f.spec.width else s.rd g j := by
  split
  · rename_i h
    obtain ⟨rfl, rfl⟩ := h
    exact s.rd_wr_same f i v
  · rename_i h
    exact s.rd_wr_ne f g i j v h

/-! ### Memory -/

theorem Mem.byte_set (m : List Host.Cell) (a b : Nat) (v : Byte) : Mem.byte (Mem.set m a v) b = if a = b then v else Mem.byte m b := by
  unfold Mem.byte Mem.set
  split
  · rename_i h
    subst h
    exact Tab.get_set_same _ _ _ _
  · rename_i h
    exact Tab.get_set_ne _ _ _ _ _ _ h

/-- Bytes outside those written read as before; those written read as written. -/
theorem Mem.byte_write (m : List Host.Cell) (a b : Nat) (bs : List Byte) :
    Mem.byte (Mem.write m a bs) b = if a ≤ b ∧ b < a + bs.length then bs.getD (b - a) emptyByte else Mem.byte m b := by
  induction bs generalizing m a with
  | nil =>
    simp only [Mem.write, List.length_nil, Nat.add_zero]
    rw [if_neg (by omega)]
  | cons v bs ih =>
    simp only [Mem.write, ih, Mem.byte_set, List.length_cons]
    by_cases h1 : a = b
    · subst h1
      rw [if_neg (by omega), if_pos rfl, if_pos (by omega), Nat.sub_self]
      rfl
    · by_cases h2 : a ≤ b ∧ b < a + (bs.length + 1)
      · rw [if_pos (by omega), if_pos h2]
        have : b - a = b - (a + 1) + 1 := by omega
        rw [this]
        rfl
      · rw [if_neg (by omega), if_neg h1, if_neg h2]

/-- Writing bytes keeps the canonical form. -/
theorem Mem.wf_write (m : List Host.Cell) (a : Nat) (bs : List Byte) (h : Memory.wf m = true) : Memory.wf (Mem.write m a bs) = true := by
  induction bs generalizing m a with
  | nil => exact h
  | cons v bs ih => exact ih _ _ (Tab.wf_set m emptyByte a v h)

/-- Dropping cells keeps the canonical form. -/
theorem Mem.wf_filter (m : List Host.Cell) (p : Host.Cell → Bool) (h : Memory.wf m = true) : Memory.wf (m.filter p) = true :=
  Tab.wf_filter m emptyByte p h

theorem reset_acc_wf : Memory.wf State.reset.mem.acc = true := rfl
theorem reset_host_wf : Memory.wf State.reset.mem.host = true := rfl

/-! ### What each named update leaves alone -/

@[simp] theorem State.wr_pending (s : State) (f : Fld) (i v : Nat) : (s.wr f i v).pending = s.pending := rfl
@[simp] theorem State.wr_mem (s : State) (f : Fld) (i v : Nat) : (s.wr f i v).mem = s.mem := rfl
@[simp] theorem State.wr_pins (s : State) (f : Fld) (i v : Nat) : (s.wr f i v).pins = s.pins := rfl
@[simp] theorem State.wr_ring (s : State) (f : Fld) (i v : Nat) : (s.wr f i v).ring = s.ring := rfl
@[simp] theorem State.wr_slots (s : State) (f : Fld) (i v : Nat) : (s.wr f i v).slots = s.slots := rfl
@[simp] theorem State.wr_cmp (s : State) (f : Fld) (i v : Nat) : (s.wr f i v).cmp = s.cmp := rfl
@[simp] theorem State.wr_fns (s : State) (f : Fld) (i v : Nat) : (s.wr f i v).fns = s.fns := rfl
@[simp] theorem State.wr_evt (s : State) (f : Fld) (i v : Nat) : (s.wr f i v).evt = s.evt := rfl
@[simp] theorem State.wr_inc (s : State) (f : Fld) (i v : Nat) : (s.wr f i v).inc = s.inc := rfl
@[simp] theorem State.wr_xl (s : State) (f : Fld) (i v : Nat) : (s.wr f i v).xl = s.xl := rfl
@[simp] theorem State.wr_syc (s : State) (f : Fld) (i v : Nat) : (s.wr f i v).syc = s.syc := rfl
@[simp] theorem State.wr_coh (s : State) (f : Fld) (i v : Nat) : (s.wr f i v).coh = s.coh := rfl
@[simp] theorem State.wr_stk (s : State) (f : Fld) (i v : Nat) : (s.wr f i v).stk = s.stk := rfl
@[simp] theorem State.wr_exp (s : State) (f : Fld) (i v : Nat) : (s.wr f i v).exp = s.exp := rfl
@[simp] theorem State.wr_long (s : State) (f : Fld) (i v : Nat) : (s.wr f i v).long = s.long := rfl
@[simp] theorem State.wr_plk (s : State) (f : Fld) (i v : Nat) : (s.wr f i v).plk = s.plk := rfl
@[simp] theorem State.wr_net (s : State) (f : Fld) (i v : Nat) : (s.wr f i v).net = s.net := rfl
@[simp] theorem State.wr_ats (s : State) (f : Fld) (i v : Nat) : (s.wr f i v).ats = s.ats := rfl
@[simp] theorem State.wr_sec (s : State) (f : Fld) (i v : Nat) : (s.wr f i v).sec = s.sec := rfl
@[simp] theorem State.wr_boot (s : State) (f : Fld) (i v : Nat) : (s.wr f i v).boot = s.boot := rfl
@[simp] theorem State.wr_pwr (s : State) (f : Fld) (i v : Nat) : (s.wr f i v).pwr = s.pwr := rfl
@[simp] theorem State.wr_sent (s : State) (f : Fld) (i v : Nat) : (s.wr f i v).sent = s.sent := rfl
@[simp] theorem State.wr_ns (s : State) (f : Fld) (i v : Nat) : (s.wr f i v).ns = s.ns := rfl
@[simp] theorem State.wr_free (s : State) (f : Fld) (i v : Nat) : (s.wr f i v).free = s.free := rfl

@[simp] theorem State.emit_pending (s : State) (k : EmitKind) (args : List Nat) : (s.emit k args).pending = s.pending := rfl
@[simp] theorem State.emit_reg (s : State) (k : EmitKind) (args : List Nat) : (s.emit k args).reg = s.reg := rfl
@[simp] theorem State.emit_mem (s : State) (k : EmitKind) (args : List Nat) : (s.emit k args).mem = s.mem := rfl
@[simp] theorem State.emit_pins (s : State) (k : EmitKind) (args : List Nat) : (s.emit k args).pins = s.pins := rfl
@[simp] theorem State.emit_ring (s : State) (k : EmitKind) (args : List Nat) : (s.emit k args).ring = s.ring := rfl
@[simp] theorem State.emit_slots (s : State) (k : EmitKind) (args : List Nat) : (s.emit k args).slots = s.slots := rfl
@[simp] theorem State.emit_cmp (s : State) (k : EmitKind) (args : List Nat) : (s.emit k args).cmp = s.cmp := rfl
@[simp] theorem State.emit_fns (s : State) (k : EmitKind) (args : List Nat) : (s.emit k args).fns = s.fns := rfl
@[simp] theorem State.emit_evt (s : State) (k : EmitKind) (args : List Nat) : (s.emit k args).evt = s.evt := rfl
@[simp] theorem State.emit_inc (s : State) (k : EmitKind) (args : List Nat) : (s.emit k args).inc = s.inc := rfl
@[simp] theorem State.emit_xl (s : State) (k : EmitKind) (args : List Nat) : (s.emit k args).xl = s.xl := rfl
@[simp] theorem State.emit_syc (s : State) (k : EmitKind) (args : List Nat) : (s.emit k args).syc = s.syc := rfl
@[simp] theorem State.emit_coh (s : State) (k : EmitKind) (args : List Nat) : (s.emit k args).coh = s.coh := rfl
@[simp] theorem State.emit_stk (s : State) (k : EmitKind) (args : List Nat) : (s.emit k args).stk = s.stk := rfl
@[simp] theorem State.emit_exp (s : State) (k : EmitKind) (args : List Nat) : (s.emit k args).exp = s.exp := rfl
@[simp] theorem State.emit_long (s : State) (k : EmitKind) (args : List Nat) : (s.emit k args).long = s.long := rfl
@[simp] theorem State.emit_plk (s : State) (k : EmitKind) (args : List Nat) : (s.emit k args).plk = s.plk := rfl
@[simp] theorem State.emit_net (s : State) (k : EmitKind) (args : List Nat) : (s.emit k args).net = s.net := rfl
@[simp] theorem State.emit_ats (s : State) (k : EmitKind) (args : List Nat) : (s.emit k args).ats = s.ats := rfl
@[simp] theorem State.emit_sec (s : State) (k : EmitKind) (args : List Nat) : (s.emit k args).sec = s.sec := rfl
@[simp] theorem State.emit_boot (s : State) (k : EmitKind) (args : List Nat) : (s.emit k args).boot = s.boot := rfl
@[simp] theorem State.emit_pwr (s : State) (k : EmitKind) (args : List Nat) : (s.emit k args).pwr = s.pwr := rfl
@[simp] theorem State.emit_ns (s : State) (k : EmitKind) (args : List Nat) : (s.emit k args).ns = s.ns := rfl
@[simp] theorem State.emit_free (s : State) (k : EmitKind) (args : List Nat) : (s.emit k args).free = s.free := rfl

@[simp] theorem State.accWrite_pending (s : State) (key a : Nat) (bs : List Byte) : (s.accWrite key a bs).pending = s.pending := rfl
@[simp] theorem State.accWrite_reg (s : State) (key a : Nat) (bs : List Byte) : (s.accWrite key a bs).reg = s.reg := rfl
@[simp] theorem State.accWrite_pins (s : State) (key a : Nat) (bs : List Byte) : (s.accWrite key a bs).pins = s.pins := rfl
@[simp] theorem State.accWrite_ring (s : State) (key a : Nat) (bs : List Byte) : (s.accWrite key a bs).ring = s.ring := rfl
@[simp] theorem State.accWrite_slots (s : State) (key a : Nat) (bs : List Byte) : (s.accWrite key a bs).slots = s.slots := rfl
@[simp] theorem State.accWrite_cmp (s : State) (key a : Nat) (bs : List Byte) : (s.accWrite key a bs).cmp = s.cmp := rfl
@[simp] theorem State.accWrite_fns (s : State) (key a : Nat) (bs : List Byte) : (s.accWrite key a bs).fns = s.fns := rfl
@[simp] theorem State.accWrite_evt (s : State) (key a : Nat) (bs : List Byte) : (s.accWrite key a bs).evt = s.evt := rfl
@[simp] theorem State.accWrite_inc (s : State) (key a : Nat) (bs : List Byte) : (s.accWrite key a bs).inc = s.inc := rfl
@[simp] theorem State.accWrite_xl (s : State) (key a : Nat) (bs : List Byte) : (s.accWrite key a bs).xl = s.xl := rfl
@[simp] theorem State.accWrite_syc (s : State) (key a : Nat) (bs : List Byte) : (s.accWrite key a bs).syc = s.syc := rfl
@[simp] theorem State.accWrite_coh (s : State) (key a : Nat) (bs : List Byte) : (s.accWrite key a bs).coh = s.coh := rfl
@[simp] theorem State.accWrite_stk (s : State) (key a : Nat) (bs : List Byte) : (s.accWrite key a bs).stk = s.stk := rfl
@[simp] theorem State.accWrite_exp (s : State) (key a : Nat) (bs : List Byte) : (s.accWrite key a bs).exp = s.exp := rfl
@[simp] theorem State.accWrite_long (s : State) (key a : Nat) (bs : List Byte) : (s.accWrite key a bs).long = s.long := rfl
@[simp] theorem State.accWrite_plk (s : State) (key a : Nat) (bs : List Byte) : (s.accWrite key a bs).plk = s.plk := rfl
@[simp] theorem State.accWrite_net (s : State) (key a : Nat) (bs : List Byte) : (s.accWrite key a bs).net = s.net := rfl
@[simp] theorem State.accWrite_ats (s : State) (key a : Nat) (bs : List Byte) : (s.accWrite key a bs).ats = s.ats := rfl
@[simp] theorem State.accWrite_sec (s : State) (key a : Nat) (bs : List Byte) : (s.accWrite key a bs).sec = s.sec := rfl
@[simp] theorem State.accWrite_boot (s : State) (key a : Nat) (bs : List Byte) : (s.accWrite key a bs).boot = s.boot := rfl
@[simp] theorem State.accWrite_pwr (s : State) (key a : Nat) (bs : List Byte) : (s.accWrite key a bs).pwr = s.pwr := rfl
@[simp] theorem State.accWrite_sent (s : State) (key a : Nat) (bs : List Byte) : (s.accWrite key a bs).sent = s.sent := rfl
@[simp] theorem State.accWrite_ns (s : State) (key a : Nat) (bs : List Byte) : (s.accWrite key a bs).ns = s.ns := rfl
@[simp] theorem State.accWrite_free (s : State) (key a : Nat) (bs : List Byte) : (s.accWrite key a bs).free = s.free := rfl

@[simp] theorem State.hostWrite_pending (s : State) (port a : Nat) (bs : List Byte) : (s.hostWrite port a bs).pending = s.pending := rfl
@[simp] theorem State.hostWrite_reg (s : State) (port a : Nat) (bs : List Byte) : (s.hostWrite port a bs).reg = s.reg := rfl
@[simp] theorem State.hostWrite_pins (s : State) (port a : Nat) (bs : List Byte) : (s.hostWrite port a bs).pins = s.pins := rfl
@[simp] theorem State.hostWrite_ring (s : State) (port a : Nat) (bs : List Byte) : (s.hostWrite port a bs).ring = s.ring := rfl
@[simp] theorem State.hostWrite_slots (s : State) (port a : Nat) (bs : List Byte) : (s.hostWrite port a bs).slots = s.slots := rfl
@[simp] theorem State.hostWrite_cmp (s : State) (port a : Nat) (bs : List Byte) : (s.hostWrite port a bs).cmp = s.cmp := rfl
@[simp] theorem State.hostWrite_fns (s : State) (port a : Nat) (bs : List Byte) : (s.hostWrite port a bs).fns = s.fns := rfl
@[simp] theorem State.hostWrite_evt (s : State) (port a : Nat) (bs : List Byte) : (s.hostWrite port a bs).evt = s.evt := rfl
@[simp] theorem State.hostWrite_inc (s : State) (port a : Nat) (bs : List Byte) : (s.hostWrite port a bs).inc = s.inc := rfl
@[simp] theorem State.hostWrite_xl (s : State) (port a : Nat) (bs : List Byte) : (s.hostWrite port a bs).xl = s.xl := rfl
@[simp] theorem State.hostWrite_syc (s : State) (port a : Nat) (bs : List Byte) : (s.hostWrite port a bs).syc = s.syc := rfl
@[simp] theorem State.hostWrite_coh (s : State) (port a : Nat) (bs : List Byte) : (s.hostWrite port a bs).coh = s.coh := rfl
@[simp] theorem State.hostWrite_stk (s : State) (port a : Nat) (bs : List Byte) : (s.hostWrite port a bs).stk = s.stk := rfl
@[simp] theorem State.hostWrite_exp (s : State) (port a : Nat) (bs : List Byte) : (s.hostWrite port a bs).exp = s.exp := rfl
@[simp] theorem State.hostWrite_long (s : State) (port a : Nat) (bs : List Byte) : (s.hostWrite port a bs).long = s.long := rfl
@[simp] theorem State.hostWrite_plk (s : State) (port a : Nat) (bs : List Byte) : (s.hostWrite port a bs).plk = s.plk := rfl
@[simp] theorem State.hostWrite_net (s : State) (port a : Nat) (bs : List Byte) : (s.hostWrite port a bs).net = s.net := rfl
@[simp] theorem State.hostWrite_ats (s : State) (port a : Nat) (bs : List Byte) : (s.hostWrite port a bs).ats = s.ats := rfl
@[simp] theorem State.hostWrite_sec (s : State) (port a : Nat) (bs : List Byte) : (s.hostWrite port a bs).sec = s.sec := rfl
@[simp] theorem State.hostWrite_boot (s : State) (port a : Nat) (bs : List Byte) : (s.hostWrite port a bs).boot = s.boot := rfl
@[simp] theorem State.hostWrite_pwr (s : State) (port a : Nat) (bs : List Byte) : (s.hostWrite port a bs).pwr = s.pwr := rfl
@[simp] theorem State.hostWrite_sent (s : State) (port a : Nat) (bs : List Byte) : (s.hostWrite port a bs).sent = s.sent := rfl
@[simp] theorem State.hostWrite_ns (s : State) (port a : Nat) (bs : List Byte) : (s.hostWrite port a bs).ns = s.ns := rfl
@[simp] theorem State.hostWrite_free (s : State) (port a : Nat) (bs : List Byte) : (s.hostWrite port a bs).free = s.free := rfl

@[simp] theorem State.setGrants_pending (s : State) (c : Nat) (g : Grants) : (s.setGrants c g).pending = s.pending := rfl
@[simp] theorem State.setGrants_reg (s : State) (c : Nat) (g : Grants) : (s.setGrants c g).reg = s.reg := rfl
@[simp] theorem State.setGrants_mem (s : State) (c : Nat) (g : Grants) : (s.setGrants c g).mem = s.mem := rfl
@[simp] theorem State.setGrants_pins (s : State) (c : Nat) (g : Grants) : (s.setGrants c g).pins = s.pins := rfl
@[simp] theorem State.setGrants_ring (s : State) (c : Nat) (g : Grants) : (s.setGrants c g).ring = s.ring := rfl
@[simp] theorem State.setGrants_slots (s : State) (c : Nat) (g : Grants) : (s.setGrants c g).slots = s.slots := rfl
@[simp] theorem State.setGrants_fns (s : State) (c : Nat) (g : Grants) : (s.setGrants c g).fns = s.fns := rfl
@[simp] theorem State.setGrants_evt (s : State) (c : Nat) (g : Grants) : (s.setGrants c g).evt = s.evt := rfl
@[simp] theorem State.setGrants_inc (s : State) (c : Nat) (g : Grants) : (s.setGrants c g).inc = s.inc := rfl
@[simp] theorem State.setGrants_xl (s : State) (c : Nat) (g : Grants) : (s.setGrants c g).xl = s.xl := rfl
@[simp] theorem State.setGrants_syc (s : State) (c : Nat) (g : Grants) : (s.setGrants c g).syc = s.syc := rfl
@[simp] theorem State.setGrants_coh (s : State) (c : Nat) (g : Grants) : (s.setGrants c g).coh = s.coh := rfl
@[simp] theorem State.setGrants_stk (s : State) (c : Nat) (g : Grants) : (s.setGrants c g).stk = s.stk := rfl
@[simp] theorem State.setGrants_exp (s : State) (c : Nat) (g : Grants) : (s.setGrants c g).exp = s.exp := rfl
@[simp] theorem State.setGrants_long (s : State) (c : Nat) (g : Grants) : (s.setGrants c g).long = s.long := rfl
@[simp] theorem State.setGrants_plk (s : State) (c : Nat) (g : Grants) : (s.setGrants c g).plk = s.plk := rfl
@[simp] theorem State.setGrants_net (s : State) (c : Nat) (g : Grants) : (s.setGrants c g).net = s.net := rfl
@[simp] theorem State.setGrants_ats (s : State) (c : Nat) (g : Grants) : (s.setGrants c g).ats = s.ats := rfl
@[simp] theorem State.setGrants_sec (s : State) (c : Nat) (g : Grants) : (s.setGrants c g).sec = s.sec := rfl
@[simp] theorem State.setGrants_boot (s : State) (c : Nat) (g : Grants) : (s.setGrants c g).boot = s.boot := rfl
@[simp] theorem State.setGrants_pwr (s : State) (c : Nat) (g : Grants) : (s.setGrants c g).pwr = s.pwr := rfl
@[simp] theorem State.setGrants_sent (s : State) (c : Nat) (g : Grants) : (s.setGrants c g).sent = s.sent := rfl
@[simp] theorem State.setGrants_ns (s : State) (c : Nat) (g : Grants) : (s.setGrants c g).ns = s.ns := rfl
@[simp] theorem State.setGrants_free (s : State) (c : Nat) (g : Grants) : (s.setGrants c g).free = s.free := rfl

@[simp] theorem State.setOp_pending (s : State) (o : Op) : (s.setOp o).pending = s.pending := rfl
@[simp] theorem State.setOp_reg (s : State) (o : Op) : (s.setOp o).reg = s.reg := rfl
@[simp] theorem State.setOp_mem (s : State) (o : Op) : (s.setOp o).mem = s.mem := rfl
@[simp] theorem State.setOp_pins (s : State) (o : Op) : (s.setOp o).pins = s.pins := rfl
@[simp] theorem State.setOp_slots (s : State) (o : Op) : (s.setOp o).slots = s.slots := rfl
@[simp] theorem State.setOp_cmp (s : State) (o : Op) : (s.setOp o).cmp = s.cmp := rfl
@[simp] theorem State.setOp_fns (s : State) (o : Op) : (s.setOp o).fns = s.fns := rfl
@[simp] theorem State.setOp_evt (s : State) (o : Op) : (s.setOp o).evt = s.evt := rfl
@[simp] theorem State.setOp_inc (s : State) (o : Op) : (s.setOp o).inc = s.inc := rfl
@[simp] theorem State.setOp_xl (s : State) (o : Op) : (s.setOp o).xl = s.xl := rfl
@[simp] theorem State.setOp_syc (s : State) (o : Op) : (s.setOp o).syc = s.syc := rfl
@[simp] theorem State.setOp_coh (s : State) (o : Op) : (s.setOp o).coh = s.coh := rfl
@[simp] theorem State.setOp_stk (s : State) (o : Op) : (s.setOp o).stk = s.stk := rfl
@[simp] theorem State.setOp_exp (s : State) (o : Op) : (s.setOp o).exp = s.exp := rfl
@[simp] theorem State.setOp_long (s : State) (o : Op) : (s.setOp o).long = s.long := rfl
@[simp] theorem State.setOp_plk (s : State) (o : Op) : (s.setOp o).plk = s.plk := rfl
@[simp] theorem State.setOp_net (s : State) (o : Op) : (s.setOp o).net = s.net := rfl
@[simp] theorem State.setOp_ats (s : State) (o : Op) : (s.setOp o).ats = s.ats := rfl
@[simp] theorem State.setOp_sec (s : State) (o : Op) : (s.setOp o).sec = s.sec := rfl
@[simp] theorem State.setOp_boot (s : State) (o : Op) : (s.setOp o).boot = s.boot := rfl
@[simp] theorem State.setOp_pwr (s : State) (o : Op) : (s.setOp o).pwr = s.pwr := rfl
@[simp] theorem State.setOp_sent (s : State) (o : Op) : (s.setOp o).sent = s.sent := rfl
@[simp] theorem State.setOp_ns (s : State) (o : Op) : (s.setOp o).ns = s.ns := rfl
@[simp] theorem State.setOp_free (s : State) (o : Op) : (s.setOp o).free = s.free := rfl

@[simp] theorem State.setLong_pending (s : State) (i : Nat) (l : LongOp) : (s.setLong i l).pending = s.pending := rfl
@[simp] theorem State.setLong_reg (s : State) (i : Nat) (l : LongOp) : (s.setLong i l).reg = s.reg := rfl
@[simp] theorem State.setLong_mem (s : State) (i : Nat) (l : LongOp) : (s.setLong i l).mem = s.mem := rfl
@[simp] theorem State.setLong_pins (s : State) (i : Nat) (l : LongOp) : (s.setLong i l).pins = s.pins := rfl
@[simp] theorem State.setLong_ring (s : State) (i : Nat) (l : LongOp) : (s.setLong i l).ring = s.ring := rfl
@[simp] theorem State.setLong_slots (s : State) (i : Nat) (l : LongOp) : (s.setLong i l).slots = s.slots := rfl
@[simp] theorem State.setLong_cmp (s : State) (i : Nat) (l : LongOp) : (s.setLong i l).cmp = s.cmp := rfl
@[simp] theorem State.setLong_fns (s : State) (i : Nat) (l : LongOp) : (s.setLong i l).fns = s.fns := rfl
@[simp] theorem State.setLong_evt (s : State) (i : Nat) (l : LongOp) : (s.setLong i l).evt = s.evt := rfl
@[simp] theorem State.setLong_inc (s : State) (i : Nat) (l : LongOp) : (s.setLong i l).inc = s.inc := rfl
@[simp] theorem State.setLong_xl (s : State) (i : Nat) (l : LongOp) : (s.setLong i l).xl = s.xl := rfl
@[simp] theorem State.setLong_syc (s : State) (i : Nat) (l : LongOp) : (s.setLong i l).syc = s.syc := rfl
@[simp] theorem State.setLong_coh (s : State) (i : Nat) (l : LongOp) : (s.setLong i l).coh = s.coh := rfl
@[simp] theorem State.setLong_stk (s : State) (i : Nat) (l : LongOp) : (s.setLong i l).stk = s.stk := rfl
@[simp] theorem State.setLong_exp (s : State) (i : Nat) (l : LongOp) : (s.setLong i l).exp = s.exp := rfl
@[simp] theorem State.setLong_plk (s : State) (i : Nat) (l : LongOp) : (s.setLong i l).plk = s.plk := rfl
@[simp] theorem State.setLong_net (s : State) (i : Nat) (l : LongOp) : (s.setLong i l).net = s.net := rfl
@[simp] theorem State.setLong_ats (s : State) (i : Nat) (l : LongOp) : (s.setLong i l).ats = s.ats := rfl
@[simp] theorem State.setLong_sec (s : State) (i : Nat) (l : LongOp) : (s.setLong i l).sec = s.sec := rfl
@[simp] theorem State.setLong_boot (s : State) (i : Nat) (l : LongOp) : (s.setLong i l).boot = s.boot := rfl
@[simp] theorem State.setLong_pwr (s : State) (i : Nat) (l : LongOp) : (s.setLong i l).pwr = s.pwr := rfl
@[simp] theorem State.setLong_sent (s : State) (i : Nat) (l : LongOp) : (s.setLong i l).sent = s.sent := rfl
@[simp] theorem State.setLong_ns (s : State) (i : Nat) (l : LongOp) : (s.setLong i l).ns = s.ns := rfl
@[simp] theorem State.setLong_free (s : State) (i : Nat) (l : LongOp) : (s.setLong i l).free = s.free := rfl

@[simp] theorem State.setQp_pending (s : State) (n : Nat) (q : Qp) : (s.setQp n q).pending = s.pending := rfl
@[simp] theorem State.setQp_reg (s : State) (n : Nat) (q : Qp) : (s.setQp n q).reg = s.reg := rfl
@[simp] theorem State.setQp_mem (s : State) (n : Nat) (q : Qp) : (s.setQp n q).mem = s.mem := rfl
@[simp] theorem State.setQp_pins (s : State) (n : Nat) (q : Qp) : (s.setQp n q).pins = s.pins := rfl
@[simp] theorem State.setQp_ring (s : State) (n : Nat) (q : Qp) : (s.setQp n q).ring = s.ring := rfl
@[simp] theorem State.setQp_slots (s : State) (n : Nat) (q : Qp) : (s.setQp n q).slots = s.slots := rfl
@[simp] theorem State.setQp_cmp (s : State) (n : Nat) (q : Qp) : (s.setQp n q).cmp = s.cmp := rfl
@[simp] theorem State.setQp_fns (s : State) (n : Nat) (q : Qp) : (s.setQp n q).fns = s.fns := rfl
@[simp] theorem State.setQp_evt (s : State) (n : Nat) (q : Qp) : (s.setQp n q).evt = s.evt := rfl
@[simp] theorem State.setQp_inc (s : State) (n : Nat) (q : Qp) : (s.setQp n q).inc = s.inc := rfl
@[simp] theorem State.setQp_xl (s : State) (n : Nat) (q : Qp) : (s.setQp n q).xl = s.xl := rfl
@[simp] theorem State.setQp_syc (s : State) (n : Nat) (q : Qp) : (s.setQp n q).syc = s.syc := rfl
@[simp] theorem State.setQp_coh (s : State) (n : Nat) (q : Qp) : (s.setQp n q).coh = s.coh := rfl
@[simp] theorem State.setQp_stk (s : State) (n : Nat) (q : Qp) : (s.setQp n q).stk = s.stk := rfl
@[simp] theorem State.setQp_exp (s : State) (n : Nat) (q : Qp) : (s.setQp n q).exp = s.exp := rfl
@[simp] theorem State.setQp_long (s : State) (n : Nat) (q : Qp) : (s.setQp n q).long = s.long := rfl
@[simp] theorem State.setQp_plk (s : State) (n : Nat) (q : Qp) : (s.setQp n q).plk = s.plk := rfl
@[simp] theorem State.setQp_ats (s : State) (n : Nat) (q : Qp) : (s.setQp n q).ats = s.ats := rfl
@[simp] theorem State.setQp_sec (s : State) (n : Nat) (q : Qp) : (s.setQp n q).sec = s.sec := rfl
@[simp] theorem State.setQp_boot (s : State) (n : Nat) (q : Qp) : (s.setQp n q).boot = s.boot := rfl
@[simp] theorem State.setQp_pwr (s : State) (n : Nat) (q : Qp) : (s.setQp n q).pwr = s.pwr := rfl
@[simp] theorem State.setQp_sent (s : State) (n : Nat) (q : Qp) : (s.setQp n q).sent = s.sent := rfl
@[simp] theorem State.setQp_ns (s : State) (n : Nat) (q : Qp) : (s.setQp n q).ns = s.ns := rfl
@[simp] theorem State.setQp_free (s : State) (n : Nat) (q : Qp) : (s.setQp n q).free = s.free := rfl

@[simp] theorem State.setLnk_pending (s : State) (l : Nat) (x : Lnk) : (s.setLnk l x).pending = s.pending := rfl
@[simp] theorem State.setLnk_reg (s : State) (l : Nat) (x : Lnk) : (s.setLnk l x).reg = s.reg := rfl
@[simp] theorem State.setLnk_mem (s : State) (l : Nat) (x : Lnk) : (s.setLnk l x).mem = s.mem := rfl
@[simp] theorem State.setLnk_pins (s : State) (l : Nat) (x : Lnk) : (s.setLnk l x).pins = s.pins := rfl
@[simp] theorem State.setLnk_ring (s : State) (l : Nat) (x : Lnk) : (s.setLnk l x).ring = s.ring := rfl
@[simp] theorem State.setLnk_slots (s : State) (l : Nat) (x : Lnk) : (s.setLnk l x).slots = s.slots := rfl
@[simp] theorem State.setLnk_cmp (s : State) (l : Nat) (x : Lnk) : (s.setLnk l x).cmp = s.cmp := rfl
@[simp] theorem State.setLnk_fns (s : State) (l : Nat) (x : Lnk) : (s.setLnk l x).fns = s.fns := rfl
@[simp] theorem State.setLnk_evt (s : State) (l : Nat) (x : Lnk) : (s.setLnk l x).evt = s.evt := rfl
@[simp] theorem State.setLnk_inc (s : State) (l : Nat) (x : Lnk) : (s.setLnk l x).inc = s.inc := rfl
@[simp] theorem State.setLnk_xl (s : State) (l : Nat) (x : Lnk) : (s.setLnk l x).xl = s.xl := rfl
@[simp] theorem State.setLnk_syc (s : State) (l : Nat) (x : Lnk) : (s.setLnk l x).syc = s.syc := rfl
@[simp] theorem State.setLnk_coh (s : State) (l : Nat) (x : Lnk) : (s.setLnk l x).coh = s.coh := rfl
@[simp] theorem State.setLnk_stk (s : State) (l : Nat) (x : Lnk) : (s.setLnk l x).stk = s.stk := rfl
@[simp] theorem State.setLnk_exp (s : State) (l : Nat) (x : Lnk) : (s.setLnk l x).exp = s.exp := rfl
@[simp] theorem State.setLnk_long (s : State) (l : Nat) (x : Lnk) : (s.setLnk l x).long = s.long := rfl
@[simp] theorem State.setLnk_net (s : State) (l : Nat) (x : Lnk) : (s.setLnk l x).net = s.net := rfl
@[simp] theorem State.setLnk_ats (s : State) (l : Nat) (x : Lnk) : (s.setLnk l x).ats = s.ats := rfl
@[simp] theorem State.setLnk_sec (s : State) (l : Nat) (x : Lnk) : (s.setLnk l x).sec = s.sec := rfl
@[simp] theorem State.setLnk_boot (s : State) (l : Nat) (x : Lnk) : (s.setLnk l x).boot = s.boot := rfl
@[simp] theorem State.setLnk_pwr (s : State) (l : Nat) (x : Lnk) : (s.setLnk l x).pwr = s.pwr := rfl
@[simp] theorem State.setLnk_sent (s : State) (l : Nat) (x : Lnk) : (s.setLnk l x).sent = s.sent := rfl
@[simp] theorem State.setLnk_ns (s : State) (l : Nat) (x : Lnk) : (s.setLnk l x).ns = s.ns := rfl
@[simp] theorem State.setLnk_free (s : State) (l : Nat) (x : Lnk) : (s.setLnk l x).free = s.free := rfl

@[simp] theorem State.emit_sent (s : State) (k : EmitKind) (args : List Nat) : (s.emit k args).sent = s.sent ++ [⟨k, args⟩] := rfl

@[simp] theorem State.rd_emit (s : State) (k : EmitKind) (args : List Nat) (f : Fld) (i : Nat) : (s.emit k args).rd f i = s.rd f i := rfl

@[simp] theorem State.setLong_at (s : State) (i : Nat) (l : LongOp) : (s.setLong i l).longAt i = some l := Tab.find_put_same _ _ _

@[simp] theorem State.rd_setLong (s : State) (i : Nat) (l : LongOp) (f : Fld) (j : Nat) : (s.setLong i l).rd f j = s.rd f j := rfl

@[simp] theorem State.rd_setOp (s : State) (o : Op) (f : Fld) (j : Nat) : (s.setOp o).rd f j = s.rd f j := rfl

@[simp] theorem State.rd_setQp (s : State) (n : Nat) (q : Qp) (f : Fld) (j : Nat) : (s.setQp n q).rd f j = s.rd f j := rfl

/-- The bytes of accelerator memory after a write: those written, and every other as before. -/
theorem State.accWrite_byte (s : State) (key a b : Nat) (bs : List Byte) : Mem.byte (s.accWrite key a bs).mem.acc b
    = if a ≤ b ∧ b < a + bs.length then bs.getD (b - a) emptyByte else Mem.byte s.mem.acc b := Mem.byte_write _ _ _ _

/-- The bytes of host memory after a write. -/
theorem State.hostWrite_byte (s : State) (port a b : Nat) (bs : List Byte) : Mem.byte (s.hostWrite port a bs).mem.host b
    = if hostKey port a ≤ b ∧ b < hostKey port a + bs.length then bs.getD (b - hostKey port a) emptyByte else Mem.byte s.mem.host b :=
  Mem.byte_write _ _ _ _

/-! ### Every operation that stores keeps the memories canonical -/

theorem State.accWrite_memOk (s : State) (key a : Nat) (bs : List Byte) (h : Memory.wf s.mem.acc = true) :
    Memory.wf (s.accWrite key a bs).mem.acc = true := Mem.wf_write _ _ _ h

theorem State.hostWrite_memOk (s : State) (port a : Nat) (bs : List Byte) (h : Memory.wf s.mem.host = true) :
    Memory.wf (s.hostWrite port a bs).mem.host = true := Mem.wf_write _ _ _ h

theorem State.discard_memOk (s : State) (line : Nat) (u : Under) (h : Memory.wf s.mem.acc = true) :
    Memory.wf (s.discard line u).mem.acc = true := Mem.wf_write _ _ _ h

theorem State.zeroLines_memOk (s : State) (p : Nat → Bool) (h : Memory.wf s.mem.acc = true) :
    Memory.wf (s.zeroLines p).mem.acc = true := Mem.wf_filter _ _ h

theorem State.rekeyLine_memOk (s : State) (old new l : Nat) (h : Memory.wf s.mem.acc = true) :
    Memory.wf (s.rekeyLine old new l).mem.acc = true := by
  unfold State.rekeyLine
  split
  · unfold State.bump
    split <;> exact h
  · exact Mem.wf_write _ _ _ h

theorem State.hostBytes_memOk (s : State) (addr : Nat) (bs : List Nat) (h : Memory.wf s.mem.host = true) :
    Memory.wf (s.hostBytes addr bs).mem.host = true := Mem.wf_write _ _ _ h

end Sys2Proof.Machine
end

