-- ==== Sys2Proof/Laws/Report.lean ====
section
/-! SUPPORT. What writing a field, raising an event source and posting an incident can do, said once: they change field values of a short
list, the event and incident parts of the state and what is sent, and nothing else. -/
namespace Sys2Proof.Machine

open Sys2Proof

/-- `t` comes from `s` by field writes of a list, events and incidents alone. -/
def State.reported (fs : List Fld) (s t : State) : Prop := t = s.reports t ∧ s.keepsBut t fs

theorem State.reported.refl (fs : List Fld) (s : State) : s.reported fs s := ⟨rfl, fun _ _ _ => rfl⟩

theorem State.reported.trans {fs : List Fld} {s t u : State} (h : s.reported fs t) (k : t.reported fs u) : s.reported fs u := by
  refine ⟨?_, fun f hf i => (k.2 f hf i).trans (h.2 f hf i)⟩
  have hk := k.1
  rw [h.1] at hk
  exact hk

/-- A longer list of fields. -/
theorem State.reported.mono {fs gs : List Fld} {s t : State} (h : s.reported fs t) (sub : ∀ f ∈ fs, f ∈ gs) : s.reported gs t :=
  ⟨h.1, fun f hf i => h.2 f (fun hm => hf (sub f hm)) i⟩

theorem State.reported.ite {fs : List Fld} {s t u : State} {p : Prop} [Decidable p] (h : s.reported fs t) (k : s.reported fs u) :
    s.reported fs (if p then t else u) := by
  split
  · exact h
  · exact k

theorem State.reported.foldl {fs : List Fld} {α : Type} (g : State → α → State) (hg : ∀ (s : State) (a : α), s.reported fs (g s a)) (xs : List α) (s : State) :
    s.reported fs (xs.foldl g s) := by
  induction xs generalizing s with
  | nil => exact .refl ..
  | cons a xs ih => exact (hg s a).trans (ih (g s a))

theorem State.wr_reported (s : State) {fs : List Fld} (f : Fld) (i v : Nat) (h : f ∈ fs) : s.reported fs (s.wr f i v) :=
  ⟨rfl, fun g hg j => s.rd_wr_ne f g i j v (fun e => hg (e.1 ▸ h))⟩

theorem State.emit_reported (s : State) (fs : List Fld) (k : EmitKind) (args : List Nat) : s.reported fs (s.emit k args) :=
  ⟨rfl, fun _ _ _ => rfl⟩

theorem State.evt_reported (s : State) (fs : List Fld) (e : EvtSt) : s.reported fs { s with evt := e } := ⟨rfl, fun _ _ _ => rfl⟩

theorem State.inc_reported (s : State) (fs : List Fld) (e : IncSt) : s.reported fs { s with inc := e } := ⟨rfl, fun _ _ _ => rfl⟩

theorem State.stat_reported (s : State) {fs : List Fld} (c k n : Nat) (h : .STAT_F_LIVE ∈ fs) : s.reported fs (s.stat c k n) :=
  s.wr_reported _ _ _ h

theorem State.bump_reported (s : State) {fs : List Fld} (f : Fld) (i n : Nat) (h : f ∈ fs) (hs : .STAT_F_LIVE ∈ fs) :
    s.reported fs (s.bump f i n) := by
  unfold State.bump
  dsimp only
  split
  · exact (s.wr_reported _ _ _ h).trans (State.stat_reported _ _ _ _ hs)
  · exact s.wr_reported _ _ _ h

theorem State.msiSend_reported (s : State) (fs : List Fld) (fn e : Nat) : s.reported fs (s.msiSend fn e) := by
  unfold State.msiSend
  dsimp only
  split
  · exact s.emit_reported ..
  · exact s.evt_reported ..

theorem State.deliverTargets_reported (s : State) (fs : List Fld) (fn v : Nat) : s.reported fs (s.deliverTargets fn v) := by
  have one : ∀ (u : State) (b : Bool) (e : Nat), u.reported fs (if b then u.msiSend fn e else u) :=
    fun u b e => .ite (u.msiSend_reported ..) (.refl ..)
  unfold State.deliverTargets
  extract_lets i t a b c d
  exact (((one s _ _).trans (one a _ _)).trans (one b _ _)).trans
    (.trans (one c _ _) (.foldl _ (fun s c => .ite (s.emit_reported ..) (.refl ..)) ..))

theorem State.deliver_reported (s : State) (fn v : Nat) : s.reported raiseFlds (s.deliver fn v) := by
  unfold State.deliver
  dsimp only
  refine .trans ?_ (State.deliverTargets_reported ..)
  refine .trans (.trans (.trans ?_ (State.wr_reported _ _ _ _ (by decide))) (State.wr_reported _ _ _ _ (by decide)))
    (State.bump_reported _ _ _ _ (by decide) (by decide))
  split
  · exact State.stat_reported _ _ _ _ (by decide)
  · exact .refl ..

theorem State.deliverOrHold_reported (s : State) (fn v : Nat) : s.reported raiseFlds (s.deliverOrHold fn v) :=
  .ite (State.wr_reported _ _ _ _ (by decide)) (State.deliver_reported ..)

theorem State.vecRaise_reported (s : State) (fn v : Nat) : s.reported raiseFlds (s.vecRaise fn v) := by
  unfold State.vecRaise
  dsimp only
  refine .trans ?_ (.ite (State.deliverOrHold_reported ..) (.refl ..))
  exact .trans (.ite (s.evt_reported ..) (.refl ..)) (State.bump_reported _ _ _ _ (by decide) (by decide))

theorem State.raiseSrc_reported (s : State) (n : Nat) : s.reported raiseFlds (s.raiseSrc n) := by
  unfold State.raiseSrc
  refine .ite ?_ (.refl ..)
  dsimp only
  refine .trans ?_ (.ite (State.vecRaise_reported ..) (.refl ..))
  exact .trans (.ite (State.wr_reported _ _ _ _ (by decide)) (State.wr_reported _ _ _ _ (by decide)))
    (State.wr_reported _ _ _ _ (by decide))

theorem State.occur_reported (s : State) (n : Nat) : s.reported raiseFlds (s.occur n) := .ite (.refl ..) (s.raiseSrc_reported n)

theorem raise_in_post : ∀ f ∈ raiseFlds, f ∈ postFlds := by decide

theorem State.aeqPost_reported (s : State) (fn code port obj seq : Nat) : s.reported postFlds (s.aeqPost fn code port obj seq) := by
  unfold State.aeqPost
  refine .ite ?_ (State.wr_reported _ _ _ _ (by decide))
  refine .trans (t := { s with net := { s.net with aeq := _ } }) ⟨rfl, fun _ _ _ => rfl⟩ ?_
  exact .ite ((State.occur_reported ..).mono raise_in_post) (.refl ..)

theorem lostDev_mem (n : Nat) : lostDev n ∈ postFlds := by unfold lostDev; split <;> decide

theorem lostCmp_mem (n : Nat) : lostCmp n ∈ postFlds := by unfold lostCmp; split <;> decide

theorem State.enqDev_reported (s : State) (r : Incident) : s.reported postFlds (s.enqDev r) :=
  .ite (s.inc_reported ..) (s.bump_reported _ _ _ (lostDev_mem _) (by decide))

theorem State.enqCmp_reported (s : State) (c : Nat) (r : Incident) : s.reported postFlds (s.enqCmp c r) :=
  .ite (s.inc_reported ..) (s.bump_reported _ _ _ (lostCmp_mem _) (by decide))

theorem State.postOne_reported (s : State) (p : Post) : s.reported postFlds (s.postOne p).2 := by
  unfold State.postOne
  extract_lets seq toC toD pay only a b c
  have ha : s.reported postFlds a := s.wr_reported .INC_SEQ_NEXT 0 _ (by decide)
  have hb : a.reported postFlds b := .ite (State.enqDev_reported ..) (.refl ..)
  have hc : b.reported postFlds c := .ite (.foldl _ (fun s c => s.enqCmp_reported ..) ..) (.refl ..)
  exact ((ha.trans hb).trans hc).trans (State.inc_reported ..)

theorem State.deviceEffects_reported (s : State) (seq : Nat) : s.reported postFlds (s.deviceEffects seq) := by
  unfold State.deviceEffects
  extract_lets a
  refine .trans (s.wr_reported .INC_DEVICE_PENDING 0 1 (by decide) : s.reported postFlds a) ?_
  split
  · exact .refl ..
  · exact .trans (State.postOne_reported ..) (.foldl _ (fun s fn => s.aeqPost_reported ..) ..)

theorem State.postQ_reported (s : State) (p : Post) : s.reported postFlds (s.postQ p).2 := by
  unfold State.postQ
  dsimp only
  split
  · exact .trans (s.postOne_reported p) (State.deviceEffects_reported ..)
  · exact s.postOne_reported p

/-- Posting an incident. -/
theorem State.post_reported (s : State) (p : Post) : s.reported postFlds (s.post p) := s.postQ_reported p

theorem State.countFrame_reported (s : State) (fs : List Fld) (k : Nat) : s.reported fs (s.countFrame k) := s.inc_reported ..

theorem State.postLimited_reported (s : State) (k l : Nat) (p : Post) : s.reported postFlds (s.postLimited k l p) :=
  .ite (.trans (s.countFrame_reported ..) (State.post_reported ..)) (s.countFrame_reported ..)

theorem State.wrAll_reported (s : State) {fs : List Fld} (f : Fld) (is : List Nat) (v : Nat) (h : f ∈ fs) : s.reported fs (s.wrAll f is v) :=
  .foldl _ (fun s i => s.wr_reported f i v h) is s

theorem State.rst_reported (s : State) (fs : List Fld) (is : List Nat) : s.reported fs (s.rst fs is) := by
  have gen : ∀ (gs : List Fld), (∀ f ∈ gs, f ∈ fs) → ∀ s : State, s.reported fs (s.rst gs is) := by
    intro gs
    induction gs with
    | nil => intro _ s; exact .refl ..
    | cons g gs ih =>
      intro h s
      exact .trans (.foldl _ (fun s i => s.wr_reported g i _ (h g (by simp))) is s) (ih (fun f hf => h f (by simp [hf])) _)
  exact gen fs (fun f hf => hf) s

/-! ### What the parts outside a report are -/

theorem State.reported.mem {fs : List Fld} {s t : State} (h : s.reported fs t) : t.mem = s.mem := by have e := congrArg State.mem h.1; exact e
theorem State.reported.pins {fs : List Fld} {s t : State} (h : s.reported fs t) : t.pins = s.pins := by have e := congrArg State.pins h.1; exact e
theorem State.reported.pending {fs : List Fld} {s t : State} (h : s.reported fs t) : t.pending = s.pending := by have e := congrArg State.pending h.1; exact e
theorem State.reported.ring {fs : List Fld} {s t : State} (h : s.reported fs t) : t.ring = s.ring := by have e := congrArg State.ring h.1; exact e
theorem State.reported.slots {fs : List Fld} {s t : State} (h : s.reported fs t) : t.slots = s.slots := by have e := congrArg State.slots h.1; exact e
theorem State.reported.cmp {fs : List Fld} {s t : State} (h : s.reported fs t) : t.cmp = s.cmp := by have e := congrArg State.cmp h.1; exact e
theorem State.reported.fns {fs : List Fld} {s t : State} (h : s.reported fs t) : t.fns = s.fns := by have e := congrArg State.fns h.1; exact e
theorem State.reported.xl {fs : List Fld} {s t : State} (h : s.reported fs t) : t.xl = s.xl := by have e := congrArg State.xl h.1; exact e
theorem State.reported.syc {fs : List Fld} {s t : State} (h : s.reported fs t) : t.syc = s.syc := by have e := congrArg State.syc h.1; exact e
theorem State.reported.coh {fs : List Fld} {s t : State} (h : s.reported fs t) : t.coh = s.coh := by have e := congrArg State.coh h.1; exact e
theorem State.reported.stk {fs : List Fld} {s t : State} (h : s.reported fs t) : t.stk = s.stk := by have e := congrArg State.stk h.1; exact e
theorem State.reported.exp {fs : List Fld} {s t : State} (h : s.reported fs t) : t.exp = s.exp := by have e := congrArg State.exp h.1; exact e
theorem State.reported.long {fs : List Fld} {s t : State} (h : s.reported fs t) : t.long = s.long := by have e := congrArg State.long h.1; exact e
theorem State.reported.plk {fs : List Fld} {s t : State} (h : s.reported fs t) : t.plk = s.plk := by have e := congrArg State.plk h.1; exact e
theorem State.reported.ats {fs : List Fld} {s t : State} (h : s.reported fs t) : t.ats = s.ats := by have e := congrArg State.ats h.1; exact e
theorem State.reported.sec {fs : List Fld} {s t : State} (h : s.reported fs t) : t.sec = s.sec := by have e := congrArg State.sec h.1; exact e
theorem State.reported.boot {fs : List Fld} {s t : State} (h : s.reported fs t) : t.boot = s.boot := by have e := congrArg State.boot h.1; exact e
theorem State.reported.pwr {fs : List Fld} {s t : State} (h : s.reported fs t) : t.pwr = s.pwr := by have e := congrArg State.pwr h.1; exact e
theorem State.reported.ns {fs : List Fld} {s t : State} (h : s.reported fs t) : t.ns = s.ns := by have e := congrArg State.ns h.1; exact e
theorem State.reported.free {fs : List Fld} {s t : State} (h : s.reported fs t) : t.free = s.free := by have e := congrArg State.free h.1; exact e
theorem State.reported.qps {fs : List Fld} {s t : State} (h : s.reported fs t) : t.net.qps = s.net.qps := by have e := congrArg (fun x => x.net.qps) h.1; exact e

/-- A field outside the list reads as before. -/
theorem State.reported.rd {fs : List Fld} {s t : State} (h : s.reported fs t) {f : Fld} (hf : f ∉ fs) (i : Nat) : t.rd f i = s.rd f i := h.2 f hf i

/-! ### Frames of field writes -/

theorem State.keepsBut_refl (s : State) (fs : List Fld) : s.keepsBut s fs := fun _ _ _ => rfl

theorem State.keepsBut_wr {s t : State} {fs : List Fld} (f : Fld) (i v : Nat) (hf : f ∈ fs) (h : s.keepsBut t fs) : s.keepsBut (t.wr f i v) fs :=
  fun g hg j => (t.rd_wr_ne f g i j v (fun e => hg (e.1 ▸ hf))).trans (h g hg j)

theorem State.reported.keeps {s t u : State} {fs gs : List Fld} (h : t.reported gs u) (sub : ∀ f ∈ gs, f ∈ fs) (k : s.keepsBut t fs) :
    s.keepsBut u fs := fun g hg j => (h.2 g (fun hm => hg (sub g hm)) j).trans (k g hg j)

/-! ### Starting a descriptor -/

/-- A breach of an operation changes nothing of it but its list of breaches. -/
theorem State.opBreach_op (s : State) (o : Op) (b : Breach) (a : BreachAt) :
    (s.opBreach o b a).1 = { o with breaches := (s.opBreach o b a).1.breaches } := by
  unfold State.opBreach; split <;> rfl

/-- The operation of a descriptor that starts, its breaches apart. -/
theorem State.begun_op (s : State) (fn ring c : Nat) (k : Cand) :
    (s.begun fn ring c k).1 = { ((s.takeCand fn ring k).newOp fn ring c k).1 with breaches := (s.begun fn ring c k).1.breaches } := by
  simp only [State.begun, State.lateStart]
  split
  · exact State.opBreach_op ..
  · rfl

@[simp] theorem State.begun_desc (s : State) (fn ring c : Nat) (k : Cand) : (s.begun fn ring c k).1.desc = k.desc := by rw [State.begun_op]; rfl
@[simp] theorem State.begun_cmp (s : State) (fn ring c : Nat) (k : Cand) : (s.begun fn ring c k).1.cmp = c := by rw [State.begun_op]; rfl
@[simp] theorem State.begun_fn (s : State) (fn ring c : Nat) (k : Cand) : (s.begun fn ring c k).1.fn = fn := by rw [State.begun_op]; rfl
@[simp] theorem State.begun_ring (s : State) (fn ring c : Nat) (k : Cand) : (s.begun fn ring c k).1.ring = ring := by rw [State.begun_op]; rfl
@[simp] theorem State.begun_source (s : State) (fn ring c : Nat) (k : Cand) : (s.begun fn ring c k).1.source = k.src := by rw [State.begun_op]; rfl
@[simp] theorem State.begun_wait (s : State) (fn ring c : Nat) (k : Cand) : (s.begun fn ring c k).1.wait = .done := by rw [State.begun_op]; rfl
@[simp] theorem State.begun_status (s : State) (fn ring c : Nat) (k : Cand) : (s.begun fn ring c k).1.status = 0 := by rw [State.begun_op]; rfl
@[simp] theorem State.begun_listNext (s : State) (fn ring c : Nat) (k : Cand) : (s.begun fn ring c k).1.listNext = 0 := by rw [State.begun_op]; rfl
@[simp] theorem State.begun_buf (s : State) (fn ring c : Nat) (k : Cand) : (s.begun fn ring c k).1.buf = [] := by rw [State.begun_op]; rfl

/-- Starting the next descriptor of a ring when its checks pass. -/
theorem State.startNext_of_starts {s : State} {fn ring opcode c : Nat} {k : Cand} (h : s.starts fn ring opcode c k) (pick : List Nat → Bool)
    (work : Op → State → Op × State) (hp : pick k.desc = true) :
    s.startNext fn ring pick work = (work (s.begun fn ring c k).1 (s.begun fn ring c k).2).2.addOp (work (s.begun fn ring c k).1 (s.begun fn ring c k).2).1 := by
  obtain ⟨h1, h2, h3, h4⟩ := h
  simp [State.startNext, h1, h2, hp, h4, State.begun, State.addOp]

/-- Starting a long operation that finds a slot and no conflict. -/
theorem State.startLong_of_slot {s : State} {o : Op} {tkind c total i : Nat} {words args : List Nat} (k : Nat → Op → State → Op × State)
    (hb : s.longBusy (dOpcode o.desc) c = false) (hs : s.claimSlot = some i) :
    s.startLong o tkind c total words args k = k i { o with wait := .long i } (s.opensLong o tkind c total i words args) := by
  simp [State.startLong, hb, hs, State.opensLong]

/-- The gate of ADMIN commands is open to the primary manager function outside fawn mode. -/
theorem adminGate_open {o : Op} {s : State} (k : Op → State → Op × State) (h : o.fn = s.primaryFn) (hf : s.rd .BOOT_FAWN 0 = 0) :
    adminGate o s k = k o s := by
  simp [adminGate, h, hf]

end Sys2Proof.Machine
end

