-- ==== Sys2Proof/WellFormed.lean ====
section
/-! DEFINITION. Well-formed commands: every operand lies in the range that the spec gives its kind (a function index R92, a
compartment, a ring, a link, a register word).  The meanings are total and do not rest on this: it says what a sender can send. -/
namespace Sys2Proof

/-- A number that is absent or lies below `n`. -/
def optBelow (n : Nat) : Option Nat → Bool
  | none => true
  | some v => decide (v < n)

/-- Transport header fields in their widths (table "Transport header"), payload in bytes. -/
def Msg.wf (m : Msg) : Bool :=
  decide (m.op < 256) && decide (m.code < 256) && decide (m.msn < 2 ^ 32) && decide (m.imm < 2 ^ 32) && decide (m.keyIx < 2 ^ 24) &&
    decide (m.keyGen < 256) && decide (m.len < 2 ^ 32) && decide (m.srcQp < 65536) && decide (m.dstQp < 65536) && decide (m.va < 2 ^ 64) && m.data.all (· < 256)

/-- Flit header fields in their widths (table "Flit header"), body in bytes. -/
def Flit.wf (f : Flit) : Bool :=
  decide (f.typ < 16) && decide (f.cls < 2) && decide (f.slot < 1024) && decide (f.seq < 4096) && decide (f.ack < 4096) && decide (f.stream < 4096) &&
    decide (f.dst < 256) && decide (f.src < 256) && decide (f.credStream < 4096) && decide (f.credMood < 2) && decide (f.credCls < 2) &&
    decide (f.credCount < 128) && decide (f.gen < 2) && decide (f.body.length ≤ 236) && f.body.all (· < 256)

/-- Times of a TIME flit in 64 bits (table "TIME body"). -/
def TimeBody.wf (b : TimeBody) : Bool :=
  decide (b.tx < 2 ^ 72) && decide (b.rxLast < 2 ^ 72) && decide (b.rxEcho < 2 ^ 72) && decide (b.rootId < 2 ^ 64)

/-- A link of a roll call answer names one of the 12 links. -/
def LinkSeen.wf (l : LinkSeen) : Bool := decide (l.link < 12) && decide (l.serial < 2 ^ 64) && decide (l.far < 16)

/-- Packet fields in their widths (chapter 17). -/
def Packet.wf (p : Packet) : Bool :=
  decide (p.prio < 8) && decide (p.opcode < 256) && decide (p.dstQp < 2 ^ 24) && decide (p.psn < 2 ^ 24) && p.data.all (· < 256)

/-- A well-formed command. -/
def Instr.wf : Instr → Bool
  | .registerWrite fn off val => decide (fn < 128) && decide (off < 2 ^ 27) && decide (val < 2 ^ 32)
  | .unsupportedRegisterAccess fn off size => decide (fn < 128) && decide (off < 2 ^ 27) && decide (size < 4097)
  | .registerPairLowRead fn off => decide (fn < 128) && decide (off < 2 ^ 27)
  | .registerPairHighRead fn off => decide (fn < 128) && decide (off < 2 ^ 27)
  | .registerPairLowWrite fn off val => decide (fn < 128) && decide (off < 2 ^ 27) && decide (val < 2 ^ 32)
  | .registerPairHighWrite fn off val => decide (fn < 128) && decide (off < 2 ^ 27) && decide (val < 2 ^ 32)
  | .readToClear fn off => decide (fn < 128) && decide (off < 2 ^ 27)
  | .assign fn ring rivals => decide (fn < 128) && decide (ring < 64) && rivals.all (· < 128)
  | .quiesce fn ring rival => decide (fn < 128) && decide (ring < 64) && optBelow (64) rival
  | .quiesceDrainComplete cmp => decide (cmp < 32)
  | .reopen fn ring => decide (fn < 128) && decide (ring < 64)
  | .scrub fn ring => decide (fn < 128) && decide (ring < 64)
  | .scrubStepComplete cmp _ => decide (cmp < 32)
  | .serviceSlotGrant lane _ => decide (lane < 24)
  | .tableLoadContract fn ring => decide (fn < 128) && decide (ring < 64)
  | .contractPreloadDone cmp _ => decide (cmp < 32)
  | .contractActivate cmp => decide (cmp < 32)
  | .contractEnd cmp => decide (cmp < 32)
  | .deadlineMissed _ => true
  | .frameBoundary => true
  | .mailboxSend fn rivals => decide (fn < 128) && rivals.all (· < 128)
  | .mailboxRequestProcess idx => decide (idx < 128)
  | .queryState idx => decide (idx < 128)
  | .queryGrants idx => decide (idx < 128)
  | .queryIdentity idx => decide (idx < 128)
  | .mailboxReply fn idx => decide (fn < 128) && decide (idx < 128)
  | .mailboxReplyProcess idx => decide (idx < 128)
  | .managementWindowEnd cmp => decide (cmp < 32)
  | .mailboxNoticeSet fn idx value => decide (fn < 128) && decide (idx < 128) && decide (value < 2 ^ 32)
  | .instanceReset idx => decide (idx < 128)
  | .instanceResetDrained idx writes => decide (idx < 128) && decide (writes < 2 ^ 32)
  | .managerReset port _ => decide (port < 2)
  | .ringStart issuer fn ring _ => decide (issuer < 128) && decide (fn < 128) && decide (ring < 64)
  | .ringSuspend issuer fn ring _ => decide (issuer < 128) && decide (fn < 128) && decide (ring < 64)
  | .ringResume issuer fn ring _ => decide (issuer < 128) && decide (fn < 128) && decide (ring < 64)
  | .ringStop issuer fn ring _ => decide (issuer < 128) && decide (fn < 128) && decide (ring < 64)
  | .ringCancel issuer fn ring _ => decide (issuer < 128) && decide (fn < 128) && decide (ring < 64)
  | .ringRevokeOrder issuer fn ring => decide (issuer < 128) && decide (fn < 128) && decide (ring < 64)
  | .cplRingStart issuer fn ring _ => decide (issuer < 128) && decide (fn < 128) && decide (ring < 64)
  | .cplRingStop issuer fn ring _ => decide (issuer < 128) && decide (fn < 128) && decide (ring < 64)
  | .ringCreate fn ring => decide (fn < 128) && decide (ring < 64)
  | .ringDestroy fn ring => decide (fn < 128) && decide (ring < 64)
  | .cplRingCreate fn ring => decide (fn < 128) && decide (ring < 64)
  | .cplRingDestroy fn ring => decide (fn < 128) && decide (ring < 64)
  | .commandDoorbell fn ring off size count => decide (fn < 128) && decide (ring < 64) && decide (off < 2 ^ 27) && decide (size < 4097) && decide (count < 2 ^ 32)
  | .completionDoorbell fn ring off size count => decide (fn < 128) && decide (ring < 64) && decide (off < 2 ^ 27) && decide (size < 4097) && decide (count < 2 ^ 32)
  | .descriptorFetch fn ring _ words _ => decide (fn < 128) && decide (ring < 64) && words.all (· < 2 ^ 64)
  | .nop fn ring => decide (fn < 128) && decide (ring < 64)
  | .callList fn ring => decide (fn < 128) && decide (ring < 64)
  | .moveCopy fn ring => decide (fn < 128) && decide (ring < 64)
  | .moveFill fn ring => decide (fn < 128) && decide (ring < 64)
  | .move2d fn ring => decide (fn < 128) && decide (ring < 64)
  | .moveAtomic fn ring => decide (fn < 128) && decide (ring < 64)
  | .gatherReduce fn ring => decide (fn < 128) && decide (ring < 64)
  | .xlatePrefetch fn ring => decide (fn < 128) && decide (ring < 64)
  | .xlateInvalidate fn ring => decide (fn < 128) && decide (ring < 64)
  | .xlateProbe fn ring => decide (fn < 128) && decide (ring < 64)
  | .remoteWrite fn ring => decide (fn < 128) && decide (ring < 64)
  | .remoteRead fn ring => decide (fn < 128) && decide (ring < 64)
  | .remoteSend fn ring => decide (fn < 128) && decide (ring < 64)
  | .remoteAtomic fn ring => decide (fn < 128) && decide (ring < 64)
  | .conSignal fn ring => decide (fn < 128) && decide (ring < 64)
  | .conRead fn ring => decide (fn < 128) && decide (ring < 64)
  | .conArm fn ring => decide (fn < 128) && decide (ring < 64)
  | .conDisarm fn ring => decide (fn < 128) && decide (ring < 64)
  | .operationComplete _ => true
  | .completionRecordWrite fn ring _ => decide (fn < 128) && decide (ring < 64)
  | .commandTimeout _ => true
  | .concordSignalApply obj _ => decide (obj < 4096)
  | .concordViewSignal fn obj sigop => decide (fn < 128) && decide (obj < 4096) && decide (sigop < 4)
  | .concordWindowSet fn obj high => decide (fn < 128) && decide (obj < 4096) && decide (high < 2 ^ 32)
  | .eventSourceBind fn src owner _ => decide (fn < 128) && decide (src < 4096) && decide (owner < 32)
  | .eventRouteApply fn vec sense => decide (fn < 128) && decide (vec < 256) && decide (sense < 4)
  | .eventDoorbell fn src rivals => decide (fn < 128) && decide (src < 4096) && rivals.all (· < 128)
  | .coalesceTimerExpiry fn vec => decide (fn < 128) && decide (vec < 256)
  | .vectorUnmask fn vec => decide (fn < 128) && decide (vec < 256)
  | .eventClaim fn vec ports => decide (fn < 128) && decide (vec < 256) && ports.all (· < 2)
  | .mgmtCoreEventForward core vec => decide (core < 4) && decide (vec < 256)
  | .atsTranslationCompletion fn pasid page size out flags => decide (fn < 128) && optBelow (2 ^ 20) pasid && decide (page < 2 ^ 64) && decide (size < 2 ^ 64) && decide (out < 2 ^ 64) && decide (flags < 2 ^ 32)
  | .prgResponse fn idx pasid code => decide (fn < 128) && decide (idx < 128) && optBelow (2 ^ 20) pasid && decide (code < 2 ^ 32)
  | .atsInvalidateRequest fn itag pasid _ base size => decide (fn < 128) && decide (itag < 32) && optBelow (2 ^ 20) pasid && decide (base < 2 ^ 64) && decide (size < 2 ^ 64)
  | .atsInvalidateCompletion fn => decide (fn < 128)
  | .hostReadCompletion tag data _ => decide (tag < 2 ^ 32) && data.all (· < 256)
  | .hostCompletionTimeout tag => decide (tag < 2 ^ 32)
  | .walkStart port cmp stream va _ access => decide (port < 13) && decide (cmp < 32) && decide (stream < 4096) && decide (va < 2 ^ 64) && decide (access < 4)
  | .walkEntryReturn _ _ => true
  | .managerInvalidation fn cmp => decide (fn < 128) && decide (cmp < 32)
  | .managerInvalidationDone => true
  | .tableLoadRangeTable fn ring => decide (fn < 128) && decide (ring < 64)
  | .sliceRequest port cmp addr len _ _ _ data => decide (port < 13) && decide (cmp < 32) && decide (addr < 2 ^ 64) && decide (len < 2 ^ 32) && data.all (· < 256)
  | .fillReturn slice _ => decide (slice < 128)
  | .fill fn cmp => decide (fn < 128) && decide (cmp < 32)
  | .clean fn cmp => decide (fn < 128) && decide (cmp < 32)
  | .invalidate fn cmp => decide (fn < 128) && decide (cmp < 32)
  | .flush fn cmp => decide (fn < 128) && decide (cmp < 32)
  | .maintenanceDone cmp => decide (cmp < 32)
  | .pinnedWayChange fn cmp win value => decide (fn < 128) && decide (cmp < 32) && decide (win < 16) && decide (value < 2 ^ 32)
  | .pinFlushDone cmp => decide (cmp < 32)
  | .getCopy agent txn addr _ age => decide (agent < 64) && decide (txn < 2 ^ 16) && decide (addr < 2 ^ 64) && decide (age < 4)
  | .getOwn agent txn addr _ age => decide (agent < 64) && decide (txn < 2 ^ 16) && decide (addr < 2 ^ 64) && decide (age < 4)
  | .claimOwn agent txn addr _ age => decide (agent < 64) && decide (txn < 2 ^ 16) && decide (addr < 2 ^ 64) && decide (age < 4)
  | .peek agent cmp txn addr _ age => decide (agent < 64) && decide (cmp < 32) && decide (txn < 2 ^ 16) && decide (addr < 2 ^ 64) && decide (age < 4)
  | .putLine agent cmp txn addr _ age data => decide (agent < 64) && decide (cmp < 32) && decide (txn < 2 ^ 16) && decide (addr < 2 ^ 64) && decide (age < 4) && data.all (· < 256)
  | .putBytes agent cmp txn addr _ age mask data => decide (agent < 64) && decide (cmp < 32) && decide (txn < 2 ^ 16) && decide (addr < 2 ^ 64) && decide (age < 4) && decide (mask < 2 ^ 128) && data.all (· < 256)
  | .atomicFar agent cmp txn addr _ age op fmt operand compare => decide (agent < 64) && decide (cmp < 32) && decide (txn < 2 ^ 16) && decide (addr < 2 ^ 64) && decide (age < 4) && decide (op < 256) && decide (fmt < 256) && decide (operand < 2 ^ 64) && decide (compare < 2 ^ 64)
  | .event agent word => decide (agent < 64) && decide (word < 2 ^ 32)
  | .installed agent addr => decide (agent < 64) && decide (addr < 2 ^ 64)
  | .rspServed agent addr code => decide (agent < 64) && decide (addr < 2 ^ 64) && decide (code < 2 ^ 32)
  | .rspCleared agent addr => decide (agent < 64) && decide (addr < 2 ^ 64)
  | .rspMiss agent addr => decide (agent < 64) && decide (addr < 2 ^ 64)
  | .rspEvicting agent addr => decide (agent < 64) && decide (addr < 2 ^ 64)
  | .lineWb agent addr _ data => decide (agent < 64) && decide (addr < 2 ^ 64) && data.all (· < 256)
  | .lineBack agent addr _ data => decide (agent < 64) && decide (addr < 2 ^ 64) && data.all (· < 256)
  | .linePeek agent requester addr _ data => decide (agent < 64) && decide (requester < 64) && decide (addr < 2 ^ 64) && data.all (· < 256)
  | .retryResend agent txn => decide (agent < 64) && decide (txn < 2 ^ 16)
  | .reservationExpiry line => decide (line < 2 ^ 57)
  | .coherentWindowChangeDone cmp => decide (cmp < 32)
  | .diePortLinkDown port => decide (port < 4)
  | .cxlM2sRequest port kind metaV txn dpa mask data => decide (port < 2) && decide (kind < 256) && decide (metaV < 4) && decide (txn < 2 ^ 16) && decide (dpa < 2 ^ 52) && decide (mask < 2 ^ 128) && data.all (· < 256)
  | .cxlBirsp port addr _ => decide (port < 2) && decide (addr < 2 ^ 64)
  | .hostAtomicopRequest port fn addr => decide (port < 2) && decide (fn < 128) && decide (addr < 2 ^ 64)
  | .stackReadReturn addr error => decide (addr < 2 ^ 64) && decide (error < 3)
  | .grResultReturn _ => true
  | .activityWindowBoundary stack count temp => decide (stack < 8) && decide (count < 2 ^ 32) && decide (temp < 2 ^ 16)
  | .enumerationStart fn => decide (fn < 128)
  | .enumerationPortVisit port _ _ gib serial _ _ => decide (port < 8) && decide (gib < 2 ^ 16) && decide (serial < 2 ^ 64)
  | .enumerationMapApply rings => rings.all (· < 64)
  | .expansionLinkUp port => decide (port < 8)
  | .expansionLinkDown port => decide (port < 8)
  | .expanderResponse addr _ _ latency => decide (addr < 2 ^ 64) && decide (latency < 2 ^ 32)
  | .expanderEvent port record => decide (port < 8) && record.all (· < 2 ^ 64)
  | .plkLinkEnable fn link value => decide (fn < 128) && decide (link < 12) && decide (value < 2 ^ 32)
  | .linkRetrain fn link => decide (fn < 128) && decide (link < 12)
  | .linkSignalDetected link => decide (link < 12)
  | .linkEqualizeDone link => decide (link < 12)
  | .linkEqualizeTimeout link => decide (link < 12)
  | .linkAlignLock link => decide (link < 12)
  | .linkAlignTimeout link => decide (link < 12)
  | .linkInitDone link serial far => decide (link < 12) && decide (serial < 2 ^ 64) && decide (far < 12)
  | .linkInitTimeout link => decide (link < 12)
  | .linkSignalLost link => decide (link < 12)
  | .slotTransmit link => decide (link < 12)
  | .flitReceive link pos corrected _ _ _ flit => decide (link < 12) && decide (pos < 2 ^ 64) && decide (corrected < 2 ^ 32) && flit.wf
  | .replayBufferFullTimeout link => decide (link < 12)
  | .replayRoundTimeout link => decide (link < 12)
  | .slotPlanSwitch link => decide (link < 12)
  | .tableLoadSlotPlan fn ring => decide (fn < 128) && decide (ring < 64)
  | .tableLoadRouting fn ring => decide (fn < 128) && decide (ring < 64)
  | .timeFlitReceive link _ body => decide (link < 12) && body.wf
  | .timeExchangeTimeout => true
  | .rollCall fn ring => decide (fn < 128) && decide (ring < 64)
  | .rollQueryReceive link since stop => decide (link < 12) && decide (since < 2 ^ 64) && optBelow (2 ^ 64) stop
  | .rollAnswerReceive junction jid links => decide (junction < 2 ^ 64) && decide (jid < 4096) && links.all LinkSeen.wf
  | .rollQueryTimeout junction => decide (junction < 2 ^ 64)
  | .qpCreate fn => decide (fn < 128)
  | .qpModify fn => decide (fn < 128)
  | .qpDestroy fn => decide (fn < 128)
  | .qpQuery fn => decide (fn < 128)
  | .cqCreate fn rivals => decide (fn < 128) && rivals.all (· < 128)
  | .cqDestroy fn => decide (fn < 128)
  | .srqCreate fn rivals => decide (fn < 128) && rivals.all (· < 128)
  | .srqDestroy fn => decide (fn < 128)
  | .pdAlloc fn rivals => decide (fn < 128) && rivals.all (· < 128)
  | .pdFree fn => decide (fn < 128)
  | .regRegion fn rivals => decide (fn < 128) && rivals.all (· < 128)
  | .openWindow fn rivals => decide (fn < 128) && rivals.all (· < 128)
  | .revoke fn => decide (fn < 128)
  | .revokeDrainDone fn => decide (fn < 128)
  | .managerRevoke fn _ _ => decide (fn < 128)
  | .qpStopOrder issuer fn qp _ => decide (issuer < 128) && decide (fn < 128) && decide (qp < 2 ^ 16)
  | .qpStartOrder issuer fn qp _ => decide (issuer < 128) && decide (fn < 128) && decide (qp < 2 ^ 16)
  | .remoteRequestReceive cmp _ => decide (cmp < 32)
  | .remoteMessageVisible qp _ => decide (qp < 2 ^ 16)
  | .remoteResponseReceive cmp _ => decide (cmp < 32)
  | .srqDoorbell fn slot off size count => decide (fn < 128) && decide (slot < 64) && decide (off < 2 ^ 27) && decide (size < 4097) && decide (count < 2 ^ 32)
  | .cqDoorbell fn slot off size count => decide (fn < 128) && decide (slot < 64) && decide (off < 2 ^ 27) && decide (size < 4097) && decide (count < 2 ^ 32)
  | .transportTimeout _ => true
  | .rnrWaitExpiry qp => decide (qp < 2 ^ 16)
  | .aeqRead fn => decide (fn < 128)
  | .rocePacketReceive port occupancy packet => decide (port < 2) && decide (occupancy < 2 ^ 32) && packet.wf
  | .cnpReceive port packet => decide (port < 2) && packet.wf
  | .pfcFrameReceive port prio quanta => decide (port < 2) && decide (prio < 8) && decide (quanta < 2 ^ 16)
  | .ackTimeout qp => decide (qp < 2 ^ 16)
  | .pfcRefreshTimer port prio => decide (port < 2) && decide (prio < 8)
  | .pfcStorm port prio => decide (port < 2) && decide (prio < 8)
  | .ccAlphaTimer qp => decide (qp < 2 ^ 16)
  | .ccRateTimer qp => decide (qp < 2 ^ 16)
  | .netLinkDown port => decide (port < 2)
  | .netLinkUp port => decide (port < 2)
  | .incidentRecordWrite ring _ => decide (ring < 33)
  | .devicePendingClear fn => decide (fn < 128)
  | .hostLinkReset port _ _ => decide (port < 2)
  | .warmReset cause fn _ hosts => decide (cause < 16) && decide (fn < 128) && hosts.all (· < 128)
  | .coldReset cause fn _ => decide (cause < 16) && decide (fn < 128)
  | .powerOn sel => decide (sel < 2)
  | .powerLoss => true
  | .pwrgoodFall => true
  | .bootPhaseDone phase ms rails reason _ _ recA recB => decide (phase < 6) && decide (ms < 2 ^ 32) && rails.all (· < 65536) && decide (reason < 256) && recA.all (· < 2 ^ 64) && recB.all (· < 2 ^ 64)
  | .bootPhaseTimeout => true
  | .mgmtCoreFault core _ => decide (core < 4)
  | .clampLogClear fn => decide (fn < 128)
  | .attemptClear fn => decide (fn < 128)
  | .bulkFill fn ring slot lines => decide (fn < 128) && decide (ring < 64) && optBelow (16) slot && decide (lines < 2 ^ 32)
  | .memtest fn ring slot lines corrected _ => decide (fn < 128) && decide (ring < 64) && optBelow (16) slot && decide (lines < 2 ^ 32) && decide (corrected < 2 ^ 32)
  | .keyRotate fn ring slot lines => decide (fn < 128) && decide (ring < 64) && optBelow (16) slot && decide (lines < 2 ^ 32)
  | .fwStageImage fn ring slot bytes _ data => decide (fn < 128) && decide (ring < 64) && optBelow (16) slot && decide (bytes < 2 ^ 32) && data.all (· < 256)
  | .fwStageRecord fn ring slot bytes _ data seqA seqB => decide (fn < 128) && decide (ring < 64) && optBelow (16) slot && decide (bytes < 2 ^ 32) && data.all (· < 256) && optBelow (2 ^ 64) seqA && optBelow (2 ^ 64) seqB
  | .opSuspend fn ring rival => decide (fn < 128) && decide (ring < 64) && optBelow (64) rival
  | .opResume fn ring rival => decide (fn < 128) && decide (ring < 64) && optBelow (64) rival
  | .opCancel fn ring rival => decide (fn < 128) && decide (ring < 64) && optBelow (64) rival
  | .longOperationEnd slot => decide (slot < 16)
  | .linkKeySet _ cmp _ tag beat => decide (cmp < 32) && decide (tag < 2 ^ 32) && decide (beat < 2 ^ 64)
  | .linkKeyActivate cmp => decide (cmp < 32)
  | .linkKeyPreviousExpiry cmp => decide (cmp < 32)
  | .getVersion port => decide (port < 2)
  | .getCapabilities port => decide (port < 2)
  | .negotiateAlgorithms port _ => decide (port < 2)
  | .getDigests port => decide (port < 2)
  | .getCertificate port slot offset len => decide (port < 2) && decide (slot < 256) && decide (offset < 2 ^ 16) && decide (len < 2 ^ 32)
  | .challenge port slot => decide (port < 2) && decide (slot < 256)
  | .getMeasurements port index => decide (port < 2) && decide (index < 256)
  | .keyExchange port slot _ _ => decide (port < 2) && decide (slot < 256)
  | .finish _ _ => true
  | .keyUpdate _ op => decide (op < 4)
  | .heartbeat _ => true
  | .endSession _ => true
  | .lockInterfaceRequest idx stream => decide (idx < 128) && decide (stream < 4096)
  | .getDeviceInterfaceReport idx => decide (idx < 128)
  | .getDeviceInterfaceState idx => decide (idx < 128)
  | .startInterfaceRequest idx => decide (idx < 128)
  | .stopInterfaceRequest idx => decide (idx < 128)
  | .ideFailure _ port stream => decide (port < 8) && decide (stream < 4096)
  | .expIdeRekey fn port => decide (fn < 128) && decide (port < 8)
  | .svnCommit fn => decide (fn < 128)
  | .seal fn value => decide (fn < 128) && decide (value < 2 ^ 32)
  | .debugChallengeRequest path fn _ => decide (path < 2) && decide (fn < 128)
  | .debugResponseSubmit path fn mode words => decide (path < 2) && decide (fn < 128) && decide (mode < 2 ^ 32) && words.all (· < 2 ^ 64)
  | .debugChallengeExpiry => true
  | .telemetrySample temps rails power energy avs => temps.all (· < 65536) && rails.all (· < 65536) && decide (power < 2 ^ 32) && decide (energy < 2 ^ 64) && decide (avs < 2 ^ 32)
  | .tsyncEdge err => decide (err < 2 ^ 32)
  | .tsyncEdgeMissing => true
  | .rootTimeSet fn high => decide (fn < 128) && decide (high < 2 ^ 32)
  | .blockGate fn off val => decide (fn < 128) && decide (off < 2 ^ 27) && decide (val < 2 ^ 32)
  | .ungateDone block => decide (block < 320)
  | .i3cTelemetryRead index => decide (index < 256)
  | .i3cFawnRequest index val => decide (index < 256) && decide (val < 2 ^ 32)
  | .entdaa addr => decide (addr < 2 ^ 64)
  | .setdasa => true
  | .rstdaa => true
  | .enec => true
  | .disec => true
  | .getpid => true
  | .getbcr => true
  | .getdcr => true
  | .getstatus => true
  | .getmxds => true
  | .pfcPauseExpiry port prio => decide (port < 2) && decide (prio < 8)
  | .intakeBelowXon port prio => decide (port < 2) && decide (prio < 8)
  | .perstDeassert port => decide (port < 2)
  | .sysRstNRelease => true
  | .diePortLinkUp port => decide (port < 4)
  | .h2dSnoop port tag => decide (port < 2) && decide (tag < 2 ^ 32)
  | .biconflict port tag => decide (port < 2) && decide (tag < 2 ^ 32)
  | .lineS port op addr _ data => decide (port < 2) && decide (op < 256) && decide (addr < 2 ^ 64) && data.all (· < 256)
  | .ideKm port _ stream op set => decide (port < 2) && decide (stream < 5) && decide (op < 3) && decide (set < 2)
  | .configurationWrite fn item value => decide (fn < 128) && decide (item < 8) && decide (value < 2 ^ 32)

end Sys2Proof
end

