-- ==== Sys2Proof/Tests/Slice0.lean ====
section
/-! SUPPORT. Tests: what well-formedness refuses, a few commands on small states with results taken from the spec, and for every statement
that has hypotheses a state and operands that meet them together. -/
namespace Sys2Proof.Tests

open Sys2Proof Sys2Proof.Machine

set_option Elab.async false
set_option linter.unusedVariables false

/-! ### Small states -/

/-- A small state to test on: the machine right after reset with its rails up, both host links up, started, and the listed fields written. -/
def up (ws : List (Fld × Nat × Nat)) : State :=
  ws.foldl (fun s w => s.wr w.1 w.2.1 w.2.2)
    { State.reset with pins := { State.reset.pins with pwrgood := true, perstA := true, perstB := true, hostUp := [0, 1] } }

/-- The same, READY. -/
def ready (ws : List (Fld × Nat × Nat)) : State := up ((.BOOT_READY, 0, 1) :: ws)

/-- The same with one descriptor fetched in ring 0 of the primary manager function, RUNNING. -/
def loaded (d : List Nat) (ws : List (Fld × Nat × Nat)) : State := (ready ((.RNG_STATE, 0, 2) :: ws)).setRun 0 0 { RingRun.idle with fetched := [d] }

/-- The candidate that starts it. -/
def cand (d : List Nat) : Cand := ⟨.ring, d, 0, none, false⟩

/-- The house's grants replaced. -/
def grant (g : Grants) (s : State) : State := { s with cmp := { s.cmp with grants := [(0, g)] } }

/-- The first 2 MiB of tier one mapped for the house at every engine's client port, its first 4 KiB written under the house's key. -/
def mapped (s : State) : State :=
  let t : Trans := ⟨0, 0, 2 ^ 21, 0, true, true, true, false, true, true, 0, 0, none, none⟩
  { s with xl := { s.xl with port := [(8, [t]), (9, [t]), (10, [t]), (11, [t]), (12, [t])] }
           mem := { s.mem with lineKey := (List.range 32).map (fun l => (l, 1)) } }

/-- A started operation of ring 0 of the primary manager function that waits. -/
def opOf (d : List Nat) (w : OpWait) : Op := { (State.newOp (ready []) 0 0 0 (cand d)).1 with wait := w, result := 0 }

/-- A state in which it has started. -/
def waiting (d : List Nat) (w : OpWait) (s : State) : State := s.addOp (opOf d w)

/-- A running long operation in slot 0. -/
def lop (kind c done total : Nat) (words args : List Nat) : LongOp :=
  ⟨16, kind, 0, c, 1, 0, done, total, 0, 0, 0, 0, 0, 0, none, none, words, args⟩

/-- A state with it. -/
def slot (l : LongOp) (s : State) : State := { s with long := { s.long with slots := [(0, l)] } }

/-- A contract record of the house: epoch 1000, span 100, no preload. -/
def ctrWords : List Nat := [1 + 2 ^ 40, 1000, 100] ++ List.replicate 13 0

/-- A state in which its load by descriptor `d` starts. -/
def ctrState (d : List Nat) : State :=
  let s := mapped (loaded d [(.PWR_BEAT_LOCKED, 0, 1)])
  { s with mem := { s.mem with acc := [(0, 1), (5, 1), (8, 0xE8), (9, 3), (16, 100)] } }

/-- The operation and the state of that load when its record has been read. -/
def ctrLoad (d : List Nat) : Option (List Nat) × State :=
  let b := (ctrState d).begun 0 0 0 (cand d)
  (b.2.opensLong b.1 1 0 0 0 [] []).readRecord { b.1 with wait := .long 0 } 128

/-- The mailbox of instance `i` of port A with a request of this code in its window. -/
def mailed (i code : Nat) : State :=
  let s := ready [(.INS_BOUND, i, 1), (.INS_MB_HOLDER, i, 1)]
  { s with fns := { s.fns with mbox := [(1024 * i, 1 + 65536 * code)], mbBell := [(i, false)] } }

/-- The same with the server's reply to request 65535. -/
def replied (i : Nat) : State :=
  let s := ready [(.INS_BOUND, i, 1), (.INS_MB_HOLDER, i, 1)]
  { s with fns := { s.fns with mbox := [(1024 * i, 65535), (1024 * i + 1, 4096)], mbBell := [(i, true)] } }

/-! ### Well-formedness: for each check a command that it alone refuses -/

/-- An empty message, flit, TIME body and packet. -/
def msg0 : Msg := ⟨0, false, false, 0, 0, 0, 0, 0, 0, 0, 0, 0, []⟩
def flit0 : Flit := ⟨0, false, false, 0, false, false, 0, 0, 0, false, 0, 0, 0, 0, 0, 0, 0, 0, []⟩
def time0 : TimeBody := ⟨0, 0, 0, 0, 0, false, 0, 0⟩
def packet0 : Packet := ⟨true, true, true, true, 0, 0, 0, false, 0, 0, 0, 0, false, 0, 0, 0, 0, 0, 0, 0, 0, true, []⟩

theorem test_wf_refuses_1 : (
  [.registerWrite 128 0 0, .registerWrite 0 (2 ^ 27) 0, .registerWrite 0 0 (2 ^ 32), .unsupportedRegisterAccess 0 0 4097,
   .assign 0 64 [], .assign 0 0 [128], .quiesce 0 0 (some 64), .quiesceDrainComplete 32, .serviceSlotGrant 24 [],
   .mailboxRequestProcess 128, .mailboxNoticeSet 0 0 (2 ^ 32), .instanceResetDrained 0 (2 ^ 32), .managerReset 2 [],
   .ringStart 128 0 0 none, .commandDoorbell 0 0 0 0 (2 ^ 32), .descriptorFetch 0 0 none [2 ^ 64] .ok, .concordSignalApply 4096 [],
   .concordViewSignal 0 0 4, .concordWindowSet 0 0 (2 ^ 32), .eventSourceBind 0 4096 0 false, .eventSourceBind 0 0 32 false,
   .eventRouteApply 0 256 0, .eventRouteApply 0 0 4, .eventClaim 0 0 [2]] : List Instr).all (fun c => !c.wf) = true := by decide +kernel

theorem test_wf_refuses_2 : (
  [.mgmtCoreEventForward 4 0, .atsTranslationCompletion 0 (some (2 ^ 20)) 0 0 0 0,
   .atsTranslationCompletion 0 none (2 ^ 64) 0 0 0, .atsTranslationCompletion 0 none 0 (2 ^ 64) 0 0,
   .atsTranslationCompletion 0 none 0 0 (2 ^ 64) 0, .atsTranslationCompletion 0 none 0 0 0 (2 ^ 32), .prgResponse 0 0 none (2 ^ 32), .atsInvalidateRequest 0 32 none false 0 0,
   .atsInvalidateRequest 0 0 none false (2 ^ 64) 0, .hostReadCompletion (2 ^ 32) [] .ok, .hostReadCompletion 0 [256] .ok,
   .walkStart 13 0 0 0 false 0, .walkStart 0 0 4096 0 false 0, .walkStart 0 0 0 (2 ^ 64) false 0, .walkStart 0 0 0 0 false 4,
   .sliceRequest 0 0 (2 ^ 64) 0 false false false [], .sliceRequest 0 0 0 (2 ^ 32) false false false [], .fillReturn 128 0,
   .pinnedWayChange 0 0 16 0, .getCopy 64 0 0 false 0, .getCopy 0 (2 ^ 16) 0 false 0, .getCopy 0 0 0 false 4,
   .putBytes 0 0 0 0 false 0 (2 ^ 128) []] : List Instr).all (fun c => !c.wf) = true := by decide +kernel

theorem test_wf_refuses_3 : (
  [.atomicFar 0 0 0 0 false 0 256 0 0 0, .atomicFar 0 0 0 0 false 0 0 256 0 0, .atomicFar 0 0 0 0 false 0 0 0 (2 ^ 64) 0,
   .atomicFar 0 0 0 0 false 0 0 0 0 (2 ^ 64), .event 0 (2 ^ 32), .linePeek 0 64 0 false [], .reservationExpiry (2 ^ 57),
   .diePortLinkDown 4, .cxlM2sRequest 0 256 0 0 0 0 [], .cxlM2sRequest 0 0 4 0 0 0 [], .cxlM2sRequest 0 0 0 0 (2 ^ 52) 0 [],
   .stackReadReturn 0 3, .activityWindowBoundary 8 0 0, .activityWindowBoundary 0 0 (2 ^ 16),
   .enumerationPortVisit 8 false false 0 0 false false, .enumerationPortVisit 0 false false (2 ^ 16) 0 false false,
   .enumerationPortVisit 0 false false 0 (2 ^ 64) false false, .enumerationMapApply [64], .expanderResponse 0 false false (2 ^ 32),
   .expanderEvent 0 [2 ^ 64], .plkLinkEnable 0 12 0, .linkInitDone 0 0 12, .flitReceive 0 (2 ^ 64) 0 false false false flit0,
   .flitReceive 0 0 (2 ^ 32) false false false flit0] : List Instr).all (fun c => !c.wf) = true := by decide +kernel

theorem test_wf_refuses_4 : (
  [.flitReceive 0 0 0 false false false { flit0 with typ := 16 }, .flitReceive 0 0 0 false false false { flit0 with cls := 2 },
   .flitReceive 0 0 0 false false false { flit0 with slot := 1024 }, .flitReceive 0 0 0 false false false { flit0 with seq := 4096 },
   .flitReceive 0 0 0 false false false { flit0 with ack := 4096 }, .flitReceive 0 0 0 false false false { flit0 with stream := 4096 },
   .flitReceive 0 0 0 false false false { flit0 with dst := 256 }, .flitReceive 0 0 0 false false false { flit0 with src := 256 },
   .flitReceive 0 0 0 false false false { flit0 with credStream := 4096 },
   .flitReceive 0 0 0 false false false { flit0 with credMood := 2 }, .flitReceive 0 0 0 false false false { flit0 with credCls := 2 },
   .flitReceive 0 0 0 false false false { flit0 with credCount := 128 }, .flitReceive 0 0 0 false false false { flit0 with gen := 2 },
   .flitReceive 0 0 0 false false false { flit0 with body := List.replicate 237 0 },
   .flitReceive 0 0 0 false false false { flit0 with body := [256] }, .timeFlitReceive 0 false { time0 with tx := 2 ^ 72 },
   .timeFlitReceive 0 false { time0 with rxLast := 2 ^ 72 }, .timeFlitReceive 0 false { time0 with rxEcho := 2 ^ 72 },
   .timeFlitReceive 0 false { time0 with rootId := 2 ^ 64 }, .rollQueryReceive 0 (2 ^ 64) none, .rollQueryReceive 0 0 (some (2 ^ 64)),
   .rollAnswerReceive (2 ^ 64) 0 [], .rollAnswerReceive 0 4096 [], .rollAnswerReceive 0 0 [⟨12, true, 0, 0, false, false⟩]] : List Instr).all (fun c => !c.wf) = true := by decide +kernel

theorem test_wf_refuses_5 : (
  [.rollAnswerReceive 0 0 [⟨0, true, 2 ^ 64, 0, false, false⟩], .rollAnswerReceive 0 0 [⟨0, true, 0, 16, false, false⟩],
   .qpStopOrder 0 0 (2 ^ 16) false, .srqDoorbell 0 64 0 0 0, .rocePacketReceive 0 (2 ^ 32) packet0,
   .rocePacketReceive 0 0 { packet0 with prio := 8 }, .rocePacketReceive 0 0 { packet0 with opcode := 256 },
   .rocePacketReceive 0 0 { packet0 with dstQp := 2 ^ 24 }, .rocePacketReceive 0 0 { packet0 with psn := 2 ^ 24 },
   .rocePacketReceive 0 0 { packet0 with data := [256] }, .pfcFrameReceive 0 8 0, .pfcFrameReceive 0 0 (2 ^ 16),
   .incidentRecordWrite 33 .ok, .warmReset 16 0 0 [], .warmReset 0 0 0 [128], .powerOn 2, .bootPhaseDone 6 0 [] 0 [] [] [] [],
   .bootPhaseDone 0 (2 ^ 32) [] 0 [] [] [] [], .bootPhaseDone 0 0 [65536] 0 [] [] [] [], .bootPhaseDone 0 0 [] 256 [] [] [] [],
   .bootPhaseDone 0 0 [] 0 [] [] [2 ^ 64] [], .bootPhaseDone 0 0 [] 0 [] [] [] [2 ^ 64], .bulkFill 0 0 (some 16) 0,
   .bulkFill 0 0 none (2 ^ 32)] : List Instr).all (fun c => !c.wf) = true := by decide +kernel

theorem test_wf_refuses_6 : (
  [.fwStageImage 0 0 none (2 ^ 32) false [], .fwStageRecord 0 0 none 0 false [] (some (2 ^ 64)) none,
   .fwStageRecord 0 0 none 0 false [] none (some (2 ^ 64)), .longOperationEnd 16, .linkKeySet 0 0 0 0 (2 ^ 64),
   .getCertificate 0 256 0 0, .getCertificate 0 0 (2 ^ 16) 0, .getMeasurements 0 256, .keyUpdate 0 4, .debugChallengeRequest 2 0 false,
   .debugResponseSubmit 0 0 (2 ^ 32) [], .telemetrySample [65536] [] 0 0 0, .telemetrySample [] [] (2 ^ 32) 0 0,
   .telemetrySample [] [] 0 (2 ^ 64) 0, .telemetrySample [] [] 0 0 (2 ^ 32), .tsyncEdge (2 ^ 32), .ungateDone 320, .ideKm 0 0 5 0 0,
   .ideKm 0 0 0 3 0, .ideKm 0 0 0 0 2, .configurationWrite 0 8 0] : List Instr).all (fun c => !c.wf) = true := by decide +kernel

/-! With every number 0 every command is well-formed, so each term above fails by the one operand it changes. -/

theorem test_wf_accepts_1 : (
  [.registerWrite 0 0 0, .unsupportedRegisterAccess 0 0 0, .registerPairLowRead 0 0, .registerPairHighRead 0 0,
   .registerPairLowWrite 0 0 0, .registerPairHighWrite 0 0 0, .readToClear 0 0, .assign 0 0 [], .quiesce 0 0 none,
   .quiesceDrainComplete 0, .reopen 0 0, .scrub 0 0, .scrubStepComplete 0 false, .serviceSlotGrant 0 [], .tableLoadContract 0 0,
   .contractPreloadDone 0 [], .contractActivate 0, .contractEnd 0, .deadlineMissed 0, .frameBoundary, .mailboxSend 0 [],
   .mailboxRequestProcess 0, .queryState 0, .queryGrants 0, .queryIdentity 0, .mailboxReply 0 0, .mailboxReplyProcess 0,
   .managementWindowEnd 0, .mailboxNoticeSet 0 0 0, .instanceReset 0, .instanceResetDrained 0 0, .managerReset 0 [],
   .ringStart 0 0 0 none, .ringSuspend 0 0 0 none, .ringResume 0 0 0 none, .ringStop 0 0 0 none, .ringCancel 0 0 0 none,
   .ringRevokeOrder 0 0 0, .cplRingStart 0 0 0 none, .cplRingStop 0 0 0 none, .ringCreate 0 0, .ringDestroy 0 0, .cplRingCreate 0 0,
   .cplRingDestroy 0 0, .commandDoorbell 0 0 0 0 0, .completionDoorbell 0 0 0 0 0, .descriptorFetch 0 0 none [] .ok, .nop 0 0,
   .callList 0 0, .moveCopy 0 0, .moveFill 0 0, .move2d 0 0, .moveAtomic 0 0, .gatherReduce 0 0, .xlatePrefetch 0 0,
   .xlateInvalidate 0 0, .xlateProbe 0 0, .remoteWrite 0 0, .remoteRead 0 0, .remoteSend 0 0, .remoteAtomic 0 0, .conSignal 0 0,
   .conRead 0 0, .conArm 0 0, .conDisarm 0 0, .operationComplete [], .completionRecordWrite 0 0 .ok] : List Instr).all Instr.wf = true := by decide +kernel

theorem test_wf_accepts_2 : (
  [.commandTimeout 0, .concordSignalApply 0 [], .concordViewSignal 0 0 0, .concordWindowSet 0 0 0, .eventSourceBind 0 0 0 false,
   .eventRouteApply 0 0 0, .eventDoorbell 0 0 [], .coalesceTimerExpiry 0 0, .vectorUnmask 0 0, .eventClaim 0 0 [],
   .mgmtCoreEventForward 0 0, .atsTranslationCompletion 0 none 0 0 0 0, .prgResponse 0 0 none 0,
   .atsInvalidateRequest 0 0 none false 0 0, .atsInvalidateCompletion 0, .hostReadCompletion 0 [] .ok, .hostCompletionTimeout 0,
   .walkStart 0 0 0 0 false 0, .walkEntryReturn 0 false, .managerInvalidation 0 0, .managerInvalidationDone, .tableLoadRangeTable 0 0,
   .sliceRequest 0 0 0 0 false false false [], .fillReturn 0 0, .fill 0 0, .clean 0 0, .invalidate 0 0, .flush 0 0, .maintenanceDone 0,
   .pinnedWayChange 0 0 0 0, .pinFlushDone 0, .getCopy 0 0 0 false 0, .getOwn 0 0 0 false 0, .claimOwn 0 0 0 false 0,
   .peek 0 0 0 0 false 0, .putLine 0 0 0 0 false 0 [], .putBytes 0 0 0 0 false 0 0 [], .atomicFar 0 0 0 0 false 0 0 0 0 0, .event 0 0,
   .installed 0 0, .rspServed 0 0 0, .rspCleared 0 0, .rspMiss 0 0, .rspEvicting 0 0, .lineWb 0 0 false [], .lineBack 0 0 false [],
   .linePeek 0 0 0 false [], .retryResend 0 0, .reservationExpiry 0, .coherentWindowChangeDone 0, .diePortLinkDown 0,
   .cxlM2sRequest 0 0 0 0 0 0 [], .cxlBirsp 0 0 false, .hostAtomicopRequest 0 0 0, .stackReadReturn 0 0, .grResultReturn 0,
   .activityWindowBoundary 0 0 0, .enumerationStart 0, .enumerationPortVisit 0 false false 0 0 false false, .enumerationMapApply [],
   .expansionLinkUp 0, .expansionLinkDown 0, .expanderResponse 0 false false 0, .expanderEvent 0 [], .plkLinkEnable 0 0 0,
   .linkRetrain 0 0, .linkSignalDetected 0] : List Instr).all Instr.wf = true := by decide +kernel

theorem test_wf_accepts_3 : (
  [.linkEqualizeDone 0, .linkEqualizeTimeout 0, .linkAlignLock 0, .linkAlignTimeout 0, .linkInitDone 0 0 0, .linkInitTimeout 0,
   .linkSignalLost 0, .slotTransmit 0, .flitReceive 0 0 0 false false false flit0, .replayBufferFullTimeout 0, .replayRoundTimeout 0,
   .slotPlanSwitch 0, .tableLoadSlotPlan 0 0, .tableLoadRouting 0 0, .timeFlitReceive 0 false time0, .timeExchangeTimeout, .rollCall 0 0,
   .rollQueryReceive 0 0 none, .rollAnswerReceive 0 0 [], .rollQueryTimeout 0, .qpCreate 0, .qpModify 0, .qpDestroy 0, .qpQuery 0,
   .cqCreate 0 [], .cqDestroy 0, .srqCreate 0 [], .srqDestroy 0, .pdAlloc 0 [], .pdFree 0, .regRegion 0 [], .openWindow 0 [], .revoke 0,
   .revokeDrainDone 0, .managerRevoke 0 0 false, .qpStopOrder 0 0 0 false, .qpStartOrder 0 0 0 false, .remoteRequestReceive 0 [],
   .remoteMessageVisible 0 .ok, .remoteResponseReceive 0 0, .srqDoorbell 0 0 0 0 0, .cqDoorbell 0 0 0 0 0, .transportTimeout 0,
   .rnrWaitExpiry 0, .aeqRead 0, .rocePacketReceive 0 0 packet0, .cnpReceive 0 packet0, .pfcFrameReceive 0 0 0, .ackTimeout 0,
   .pfcRefreshTimer 0 0, .pfcStorm 0 0, .ccAlphaTimer 0, .ccRateTimer 0, .netLinkDown 0, .netLinkUp 0, .incidentRecordWrite 0 .ok,
   .devicePendingClear 0, .hostLinkReset 0 false [], .warmReset 0 0 0 [], .coldReset 0 0 0, .powerOn 0, .powerLoss, .pwrgoodFall,
   .bootPhaseDone 0 0 [] 0 [] [] [] [], .bootPhaseTimeout, .mgmtCoreFault 0 false, .clampLogClear 0] : List Instr).all Instr.wf = true := by decide +kernel

theorem test_wf_accepts_4 : (
  [.attemptClear 0, .bulkFill 0 0 none 0, .memtest 0 0 none 0 0 [], .keyRotate 0 0 none 0, .fwStageImage 0 0 none 0 false [],
   .fwStageRecord 0 0 none 0 false [] none none, .opSuspend 0 0 none, .opResume 0 0 none, .opCancel 0 0 none, .longOperationEnd 0,
   .linkKeySet 0 0 0 0 0, .linkKeyActivate 0, .linkKeyPreviousExpiry 0, .getVersion 0, .getCapabilities 0, .negotiateAlgorithms 0 false,
   .getDigests 0, .getCertificate 0 0 0 0, .challenge 0 0, .getMeasurements 0 0, .keyExchange 0 0 false 0, .finish 0 false,
   .keyUpdate 0 0, .heartbeat 0, .endSession 0, .lockInterfaceRequest 0 0, .getDeviceInterfaceReport 0, .getDeviceInterfaceState 0,
   .startInterfaceRequest 0, .stopInterfaceRequest 0, .ideFailure false 0 0, .expIdeRekey 0 0, .svnCommit 0, .seal 0 0,
   .debugChallengeRequest 0 0 false, .debugResponseSubmit 0 0 0 [], .debugChallengeExpiry, .telemetrySample [] [] 0 0 0, .tsyncEdge 0,
   .tsyncEdgeMissing, .rootTimeSet 0 0, .blockGate 0 0 0, .ungateDone 0, .i3cTelemetryRead 0, .i3cFawnRequest 0 0, .entdaa 0, .setdasa,
   .rstdaa, .enec, .disec, .getpid, .getbcr, .getdcr, .getstatus, .getmxds, .pfcPauseExpiry 0 0, .intakeBelowXon 0 0, .perstDeassert 0,
   .sysRstNRelease, .diePortLinkUp 0, .h2dSnoop 0 0, .biconflict 0 0, .lineS 0 0 0 false [], .ideKm 0 0 0 0 0, .configurationWrite 0 0 0] : List Instr).all Instr.wf = true := by decide +kernel

/-! ### Commands on small states -/

/-- The status of the operation started last. -/
def lastStatus (r : Out) : Option Nat :=
  match r with
  | .next t => t.ring.ops.getLast?.map (·.status)
  | _ => none

/-- A field after a command. -/
def after (r : Out) (f : Fld) (i : Nat) : Option Nat :=
  match r with
  | .next t => some (t.rd f i)
  | _ => none

/-- R29: ASSIGN, QUIESCE, REOPEN and SCRUB that name compartment 0 complete with CMP_BAD_STATE (0x40). -/
theorem test_house_is_no_tenant :
    lastStatus (exec (.assign 0 0 []) (loaded [0x60, 0, 0, 0, 0, 0, 0, 0] [])) = some 0x40 ∧
    lastStatus (exec (.quiesce 0 0 none) (loaded [0x61, 0, 0, 0, 0, 0, 0, 0] [])) = some 0x40 ∧
    lastStatus (exec (.reopen 0 0) (loaded [0x62, 0, 0, 0, 0, 0, 0, 0] [])) = some 0x40 ∧
    lastStatus (exec (.scrub 0 0) (loaded [0x63, 0, 0, 0, 0, 0, 0, 0] [])) = some 0x40 := by decide +kernel

/-- R61: a descriptor of the other mood than its ring completes with MOOD_MISMATCH (3). -/
theorem test_mood_mismatch : lastStatus (exec (.moveFill 0 0) (loaded [0x111, 0, 0, 0, 0, 256, 8, 0] [])) = some 3 := by decide +kernel

/-- R140, check 1: an unlisted opcode completes with BAD_OPCODE (1). -/
theorem test_bad_opcode : lastStatus (exec (.nop 0 0) (loaded [0xFF, 0, 0, 0, 0, 0, 0, 0] [])) = some 1 := by decide +kernel

/-- R329: a reserved atomic format fails check 4 with BAD_DESCRIPTOR (2). -/
theorem test_reserved_format : lastStatus (exec (.moveAtomic 0 0) (loaded [0x13, 0, 0, 0, 256, 5, 0, 0x21] [])) = some 2 := by decide +kernel

/-- R494: after 0xFFFF_FFFF the next sequence number is 1. -/
theorem test_sequence_wraps : seqAfter 0xFFFFFFFF = 1 ∧ seqAfter 1 = 2 := by decide

/-- R397: frames begin every 32,768 / 25 beats; the first frame boundary at or after beat 1 is met at beat 1,311, after 1,311 at 2,622. -/
theorem test_frame_boundaries : frameFrom 0 = 0 ∧ frameFrom 1 = 1311 ∧ frameFrom 1311 = 2622 ∧ frameFrom 32768 = 32768 := by decide

/-- R17: COH_RETRY_GAP takes 8 to 1,024; a write of 5 applies 8, one of 1,025 applies 1,024. -/
theorem test_clamp :
    after (exec (.registerWrite 0 0x703000 5) (ready [])) .COH_RETRY_GAP 0 = some 8 ∧
    after (exec (.registerWrite 0 0x703000 1025) (ready [])) .COH_RETRY_GAP 0 = some 1024 := by decide +kernel

/-- R15: the same write on a sealed part leaves the field. -/
theorem test_sealed : after (exec (.registerWrite 0 0x703000 64) (ready [(.SEC_LIFECYCLE, 0, 1)])) .COH_RETRY_GAP 0 = some 32 := by decide +kernel

/-- R519: a start counts as one attempt, and BOOT_ATTEMPTS at the limit enters fawn mode by reason 1. -/
theorem test_attempts :
    after (exec (.coldReset 2 0 0) State.reset) .BOOT_ATTEMPTS 0 = some 1 ∧
    after (exec (.coldReset 2 0 0) (State.reset.wr .BOOT_ATTEMPTS 0 3)) .BOOT_FAWN_REASON 0 = some 1 := by decide +kernel

/-- R523: the CRC-32 of IEEE 802.3 has the check value 0xCBF43926 over the nine digits. -/
theorem test_crc32 : crc32 [49, 50, 51, 52, 53, 54, 55, 56, 57] = 0xCBF43926 := by decide +kernel


/-! ### Witnesses of the statements -/

theorem witness_AnEmptyQueueIsABeat_1 : ∃ (s : State),
    (s.pending = [] ∧ s.boot.warmStep = 0 ∧ s.plk.time.hold = 0) :=
  ⟨ready [], by decide +kernel⟩

theorem witness_AnEmptyQueueIsABeat_2 : ∃ (s : State),
    (s.pending = [] ∧ s.boot.warmStep = 0 ∧ 0 < s.plk.time.hold) :=
  ⟨(let s := ready []; { s with plk := { s.plk with time := { s.plk.time with hold := 1 } } }), by decide +kernel⟩

theorem witness_PinsAgreeInEveryStep : ∃ (s t : State),
    (s.pinsOk) ∧
    (step s = .next t) :=
  ⟨{ ready [] with pending := [.warmReset 3 0 0 []] }, ({ ready [] with pins := { (ready []).pins with sysRstN := false } }.warmBegin 3 []), ⟨by unfold State.pinsOk; decide +kernel, rfl⟩⟩

theorem witness_MemoryIsCanonical_1 : ∃ (m : List Host.Cell) (a : Nat) (bs : List Byte),
    (Memory.wf m = true) :=
  ⟨[(5, 7)], 4, [0, 0], by decide +kernel⟩

theorem witness_MemoryIsCanonical_2 : ∃ (m n : List Host.Cell),
    (Memory.wf m = true ∧ Memory.wf n = true ∧ (∀ a, Mem.byte m a = Mem.byte n a)) :=
  ⟨[(5, 7)], [(5, 7)], ⟨by decide, by decide, fun _ => rfl⟩⟩

theorem witness_CommandsStayInTheirReach : ∃ (c : Instr) (s t : State),
    (exec c s = .next t) :=
  ⟨.attemptClear 0, ready [], (ready []).wr .BOOT_ATTEMPTS 0 0, rfl⟩

theorem witness_RegistersAreReadAndWritten_1 : ∃ (s : State) (fn off val : Nat) (h : Hit),
    (fn < 128) ∧
    (off % 4 = 0) ∧
    (s.mailboxAt fn off = none ∧ msixAt fn off = none) ∧
    (s.hits fn off = [h]) ∧
    (h.fld.spec.access = .RW ∧ h.fld.spec.setup = false ∧ h.fld.spec.pair = false) ∧
    (h.fld ∉ [Fld.EVT_VEC_MASK, .INC_DRING_CONS, .INC_CRING_CONS] ∧ ownRow h.fld = false ∧ cohField h.fld = false) ∧
    (s.dropField fn h.fld h.idx = false) ∧
    (s.closed fn off = false ∧ s.mayWrite fn off = true) ∧
    (¬(isMgr fn = false ∧ off = 0x30604)) :=
  ⟨ready [], 0, 0xC32000, 5, ⟨.EVT_RT_SRC, 0, 0, false⟩, by decide +kernel⟩

theorem witness_RegistersAreReadAndWritten_2 : ∃ (s : State) (fn off val : Nat),
    (fn < 128) ∧
    (off % 4 = 0) ∧
    (s.mailboxAt fn off = none ∧ msixAt fn off = none) ∧
    (s.hits fn off ≠ []) ∧
    (∀ h ∈ s.hits fn off, h.fld.spec.access = .RO) ∧
    (s.closed fn off = false ∧ s.mayWrite fn off = true) ∧
    (¬(isMgr fn = false ∧ off = 0x30604)) :=
  ⟨ready [], 0, 0x402000, 5, by decide +kernel⟩

theorem witness_RegistersAreReadAndWritten_3 : ∃ (s : State) (fn off val : Nat),
    (fn < 128 ∧ isPair (s.hits fn off) = true ∧ (s.hits fn off).any (fun h => h.high) = false) ∧
    (s.closed fn off = false ∧ s.mayWrite fn off = true ∧ (s.hits fn off).all (fun h => !s.locked h.fld) = true ∧ s.tdispHit (s.hits fn off) = false) :=
  ⟨ready [], 0, 0x604000, 5, by decide +kernel⟩

theorem witness_RegistersAreReadAndWritten_4 : ∃ (s : State) (fn off val : Nat) (h : Hit),
    (fn < 128 ∧ s.hits fn off = [h] ∧ h.high = true ∧ h.fld.spec.pair = true) ∧
    (s.closed fn off = false ∧ s.mayWrite fn off = true) ∧
    (h.fld.spec.access = .RW ∧ h.fld.spec.setup = false ∧ ownRow h.fld = false ∧ h.fld ≠ .STK_GROUP_MODE) :=
  ⟨(ready []).stageLow 0 0x604000 0x1280, 0, 0x604004, 5, ⟨.SYC_MT_ADDR, 0, 0, true⟩, by decide +kernel⟩

theorem witness_RegistersAreReadAndWritten_5 : ∃ (s : State) (fn off : Nat) (h : Hit),
    (fn < 128 ∧ off % 4 = 0 ∧ s.readHits fn off = (fn, [h]) ∧ s.bufferRead fn off = none) ∧
    (s.closed fn off = false) ∧
    (h.fld.spec.pair = false ∧ h.fld.spec.computed = false ∧ h.fld.spec.access ≠ .WO ∧ h.fld.spec.access ≠ .W1S) ∧
    (h.fld ∉ [Fld.INS_MB_RELAY_NOTICE, .EVT_SRC_OWNER, .EVT_SRC_BOUND, .EVT_CLM_SRC, .NET_AEQ_LO]) :=
  ⟨ready [], 1, 0x2008, ⟨.INS_MB_NOTICE, 1, 0, false⟩, by decide +kernel⟩

theorem witness_RegistersAreReadAndWritten_6 : ∃ (s : State) (fn off : Nat) (h : Hit),
    (fn < 128 ∧ off % 4 = 0 ∧ s.readHits fn off = (fn, [h])) ∧
    (s.closed fn off = false) ∧
    (h.fld.spec.pair = true ∧ h.high = false ∧ h.fld.spec.computed = false ∧ h.fld.spec.access ≠ .WO ∧ h.fld.spec.access ≠ .W1S) :=
  ⟨ready [], 0, 0x604000, ⟨.SYC_MT_ADDR, 0, 0, false⟩, by decide +kernel⟩

theorem witness_RegistersAreReadAndWritten_7 : ∃ (s : State) (fn off v : Nat),
    (fn < 128 ∧ 4 ≤ off ∧ (s.readHits fn off).2.any (fun h => h.high) = true) ∧
    (s.closed fn off = false ∧ s.reg.shadow.find (pairKey fn (off - 4)) = some v) :=
  ⟨(let s := ready []; { s with reg := { s.reg with shadow := [(0x604000, 9)] } }), 0, 0x604004, 9, by decide +kernel⟩

theorem witness_UnalignedAccessIsUnsupported_1 : ∃ (s : State) (fn off size : Nat),
    (¬(size = 4 ∧ off % 4 = 0)) ∧
    (¬(size = 8 ∧ off % 8 = 0)) :=
  ⟨ready [], 0, 2, 4, by decide +kernel⟩

theorem witness_UnalignedAccessIsUnsupported_2 : ∃ (s : State) (fn off size : Nat),
    (¬(size = 4 ∧ off % 4 = 0)) ∧
    (msixAt fn off = none ∧ s.msixPending fn off = none) :=
  ⟨ready [], 0, 8, 8, by decide +kernel⟩

theorem witness_SealedRegistersAreKept : ∃ (s : State) (fn off val : Nat),
    (fn < 128 ∧ off % 4 = 0 ∧ s.mailboxAt fn off = none ∧ msixAt fn off = none ∧ ¬(isMgr fn = false ∧ off = 0x30604)) ∧
    (s.closed fn off = false ∧ s.mayWrite fn off = true ∧ s.rd .SEC_LIFECYCLE 0 = 1) ∧
    (s.hits fn off ≠ [] ∧ (∀ h ∈ s.hits fn off, h.fld.spec.access = .RWL)) :=
  ⟨ready [(.SEC_LIFECYCLE, 0, 1)], 0, 0x800800, 5, by decide +kernel⟩

theorem witness_WritesAreClampedOrTurnedAway_1 : ∃ (s : State) (fn off val lo hi : Nat) (h : Hit),
    (fn < 128 ∧ off % 4 = 0 ∧ s.mailboxAt fn off = none ∧ msixAt fn off = none ∧ ¬(isMgr fn = false ∧ off = 0x30604)) ∧
    (s.hits fn off = [h] ∧ h.fld.spec.setup = true ∧ h.fld.spec.pair = false) ∧
    (h.fld.spec.access = .RW ∨ (h.fld.spec.access = .RWL ∧ s.rd .SEC_LIFECYCLE 0 = 0)) ∧
    (h.fld.spec.legal = .between lo hi) ∧
    (ownRow h.fld = false ∧ h.fld ≠ .EVT_COAL_COUNT ∧ cohField h.fld = false ∧ s.dropField fn h.fld h.idx = false ∧ s.tdispHit [h] = false) ∧
    (s.closed fn off = false ∧ s.mayWrite fn off = true) :=
  ⟨ready [], 0, 0x703000, 5, 8, 1024, ⟨.COH_RETRY_GAP, 0, 0, false⟩, by decide +kernel⟩

theorem witness_WritesAreClampedOrTurnedAway_2 : ∃ (s : State) (fn val : Nat),
    (isMgr fn = true ∧ fn < 128 ∧ s.closed fn 0x900810 = false ∧ s.mayWrite fn 0x900810 = true ∧ s.rd .SEC_LIFECYCLE 0 = 1) ∧
    (200 ≤ bits (val % 2 ^ 32) 16 10 ∧ bits (val % 2 ^ 32) 16 10 ≤ 1000) :=
  ⟨ready [(.SEC_LIFECYCLE, 0, 1)], 0, 1000 * 65536, by decide +kernel⟩

theorem witness_WritesAreClampedOrTurnedAway_3 : ∃ (s : State) (fn off val : Nat),
    (fn < 128 ∧ off % 4 = 0 ∧ s.mailboxAt fn off = none ∧ msixAt fn off = none ∧ ¬(isMgr fn = false ∧ off = 0x30604)) ∧
    (s.hits fn off ≠ [] ∧ isPair (s.hits fn off) = false ∧ s.closed fn off = false ∧ s.mayWrite fn off = false) :=
  ⟨ready [], 64, 0x500800, 5, by decide +kernel⟩

theorem witness_MailboxesPassInTheirWindow_1 : ∃ (s : State) (i : Nat),
    (s.barsBlocked i = false ∧ s.hasMailbox i = true) ∧
    (s.rd .INS_MB_HOLDER i = 0) :=
  ⟨ready [], 127, by decide +kernel⟩

theorem witness_MailboxesPassInTheirWindow_2 : ∃ (s : State) (i : Nat),
    (s.barsBlocked i = false ∧ s.hasMailbox i = true) ∧
    (s.rd .INS_MB_HOLDER i ≠ 0) :=
  ⟨ready [(.INS_MB_HOLDER, 127, 2)], 127, by decide +kernel⟩

theorem witness_MailboxesPassInTheirWindow_3 : ∃ (s : State) (i : Nat),
    (s.mbTurn i = some false ∧ s.mbCheck i = (0, true) ∧ 0x100 ≤ bits (s.mbWord i 0) 16 16) :=
  ⟨mailed 1 0x100, 1, by decide +kernel⟩

theorem witness_MailboxesPassInTheirWindow_4 : ∃ (s : State) (i : Nat),
    (s.mbTurn i = some false ∧ s.mbCheck i = (0, true) ∧ bits (s.mbWord i 0) 16 16 = 1) :=
  ⟨mailed 1 1, 1, by decide +kernel⟩

theorem witness_MailboxesPassInTheirWindow_5 : ∃ (s : State) (i : Nat),
    (s.mbTurn i = some false ∧ s.mbCheck i = (0, true) ∧ bits (s.mbWord i 0) 16 16 = 2) :=
  ⟨mailed 1 2, 1, by decide +kernel⟩

theorem witness_MailboxesPassInTheirWindow_6 : ∃ (s : State) (i : Nat),
    (s.mbTurn i = some false ∧ s.mbCheck i = (0, true) ∧ bits (s.mbWord i 0) 16 16 = 3) ∧
    (s.rd .HST_SERIAL 0 < 2 ^ 64) :=
  ⟨mailed 1 3, 1, by decide +kernel⟩

theorem witness_MailboxesPassInTheirWindow_7 : ∃ (s : State) (fn i : Nat),
    (s.closed fn (0x300024 + 0x100 * i) = false ∧ isMgr fn = true ∧ s.hasMailbox i = true ∧ fn = s.server i) :=
  ⟨ready [(.INS_MB_HOLDER, 1, 2)], 0, 1, by decide +kernel⟩

theorem witness_MailboxesPassInTheirWindow_8 : ∃ (s : State) (i : Nat),
    (s.mbTurn i = some true ∧ s.mbReserved i = true) ∧
    (bits (s.mbWord i 1) 6 2 = 0 ∧ bits (s.mbWord i 1) 9 7 = 0 ∧ s.mbWord i 1 < 2 ^ 21 ∧ bit (s.mbWord i 0) 44 = true) ∧
    (bits (s.mbWord i 0) 0 16 = mbPrev (s.rd .INS_MB_NEXT_SEQ i) ∧ bits (s.mbWord i 0) 32 12 ≤ 4032) ∧
    (bits (s.mbWord i 0) 48 8 = 0 ∨ 0x40 ≤ bits (s.mbWord i 0) 48 8) :=
  ⟨replied 1, 1, by decide +kernel⟩

theorem witness_MailboxesPassInTheirWindow_9 : ∃ (s : State) (cmp i : Nat),
    (s.fns.mbDone = [(i, 1)] ∧ s.mailboxCmp i = cmp) :=
  ⟨{ ready [] with fns := { (ready []).fns with mbDone := [(1, 1)] } }, 0, 1, by decide +kernel⟩

theorem witness_MailboxesPassInTheirWindow_10 : ∃ (s : State) (fn i value : Nat),
    (s.closed fn (0x300028 + 0x100 * i) = false ∧ isMgr fn = true ∧ s.hasMailbox i = true ∧ fn = s.server i) :=
  ⟨ready [], 0, 1, 5, by decide +kernel⟩

theorem witness_ResetsOfFunctionsRun_1 : ∃ (s : State) (i : Nat),
    (isMgr i = false ∧ i < 128 ∧ s.rd .INS_RESET_BUSY i ≠ 1 ∧ s.boot.warmStep = 0) :=
  ⟨ready [], 127, by decide +kernel⟩

theorem witness_ResetsOfFunctionsRun_2 : ∃ (s : State) (i writes ring : Nat),
    (isMgr i = false ∧ s.rd .INS_RESET_BUSY i ≠ 0 ∧ ring < 64) :=
  ⟨ready [(.INS_RESET_BUSY, 127, 1)], 127, 3, 63, by decide +kernel⟩

theorem witness_ResetsOfFunctionsRun_3 : ∃ (s : State) (port ring : Nat) (drained : List (Nat × Nat)),
    (port < 2 ∧ s.boot.warmStep = 0 ∧ ring < 64) :=
  ⟨ready [], 1, 63, [], by decide +kernel⟩

theorem witness_CompartmentsAreAssignedAndDrained_1 : ∃ (s : State) (fn ring : Nat) (o : Op) (ws : List Nat),
    ((s.startAssigns fn [ring]).ring.ops.filter isClaim = [o]) ∧
    (o.buf = [ws] ∧ o.ring = ring ∧ ring < 65 ∧ ring ≠ 64) ∧
    (1 ≤ adCmp o.desc ∧ adCmp o.desc ≤ 31 ∧ (s.startAssigns fn [ring]).cmpState (adCmp o.desc) = .free) ∧
    (((s.startAssigns fn [ring]).planPatterns ws).isSome = true ∧ (s.startAssigns fn [ring]).planFree ws = true) :=
  ⟨(ready []).addOp { opOf [0x60, 0, 0, 0, 0, 1, 0, 0] .engine with buf := [[131072, 16, 0, 2, 0, 0, 0, 0, 65537]] }, 0, 0, { opOf [0x60, 0, 0, 0, 0, 1, 0, 0] .engine with buf := [[131072, 16, 0, 2, 0, 0, 0, 0, 65537]] }, [131072, 16, 0, 2, 0, 0, 0, 0, 65537], by decide +kernel⟩

theorem witness_CompartmentsAreAssignedAndDrained_2 : ∃ (s : State),
    (s.walkEnded = true ∧ s.ring.ops.filter isClaim = []) :=
  ⟨ready [(.EXP_ENUM_BUSY, 0, 1)], by decide +kernel⟩

theorem witness_CompartmentsAreAssignedAndDrained_3 : ∃ (s : State) (fn ring c : Nat) (k : Cand) (i : Nat),
    (s.starts fn ring 0x61 c k ∧ fn = s.primaryFn ∧ s.rd .BOOT_FAWN 0 = 0) ∧
    ((s.begun fn ring c k).2.isTenantIn (adCmp k.desc) .assigned = true) ∧
    ((s.begun fn ring c k).2.longBusy 0x61 (adCmp k.desc) = false ∧ (s.begun fn ring c k).2.claimSlot = some i) :=
  ⟨loaded [0x61, 0, 0, 0, 0, 3, 0, 0] [(.CMP_STATE, 3, 1)], 0, 0, 0, cand [0x61, 0, 0, 0, 0, 3, 0, 0], 0, by decide +kernel⟩

theorem witness_CompartmentsAreAssignedAndDrained_4 : ∃ (s : State) (c i : Nat) (l : LongOp),
    (1 ≤ c ∧ c ≤ 31 ∧ s.longOf 0x61 c = some (i, l) ∧ s.longAt i = some l) ∧
    (s.drained c = true) :=
  ⟨slot (lop 0x61 31 0 0 [] []) (ready [(.CMP_STATE, 31, 1)]), 31, 0, lop 0x61 31 0 0 [] [], by decide +kernel⟩

theorem witness_CompartmentsAreAssignedAndDrained_5 : ∃ (s : State) (fn ring c : Nat) (k : Cand),
    (s.starts fn ring 0x62 c k ∧ fn = s.primaryFn ∧ s.rd .BOOT_FAWN 0 = 0) ∧
    ((s.begun fn ring c k).2.isTenantIn (adCmp k.desc) .quiesced = true) :=
  ⟨loaded [0x62, 0, 0, 0, 0, 3, 0, 0] [(.CMP_STATE, 3, 2)], 0, 0, 0, cand [0x62, 0, 0, 0, 0, 3, 0, 0], by decide +kernel⟩

theorem witness_CompartmentsAreScrubbed_1 : ∃ (s : State) (fn ring c : Nat) (k : Cand) (i : Nat),
    (s.starts fn ring 0x63 c k ∧ fn = s.primaryFn ∧ s.rd .BOOT_FAWN 0 = 0) ∧
    ((s.begun fn ring c k).2.isTenantIn (adCmp k.desc) .quiesced = true ∨ (s.begun fn ring c k).2.isTenantIn (adCmp k.desc) .tainted = true) ∧
    ((s.begun fn ring c k).2.longBusy 0x63 (adCmp k.desc) = false ∧ (s.begun fn ring c k).2.claimSlot = some i) :=
  ⟨loaded [0x63, 0, 0, 0, 0, 3, 0, 0] [(.CMP_STATE, 3, 2)], 0, 0, 0, cand [0x63, 0, 0, 0, 0, 3, 0, 0], 0, by decide +kernel⟩

theorem witness_CompartmentsAreScrubbed_2 : ∃ (s : State) (c i : Nat) (l : LongOp) (verified : Bool),
    (s.longOf 0x63 c = some (i, l) ∧ l.state = 1 ∧ s.cmpState c = .scrubbing) ∧
    (s.rd .CMP_SCRUB_STEP c < 3) :=
  ⟨slot (lop 0x63 31 0 0 [] []) (ready [(.CMP_STATE, 31, 3), (.CMP_SCRUB_STEP, 31, 2)]), 31, 0, lop 0x63 31 0 0 [] [], true, by decide +kernel⟩

theorem witness_CompartmentsAreScrubbed_3 : ∃ (s : State) (c i : Nat) (l : LongOp),
    (1 ≤ c ∧ c ≤ 31 ∧ s.longOf 0x63 c = some (i, l) ∧ l.state = 1 ∧ s.cmpState c = .scrubbing) ∧
    (s.rd .CMP_SCRUB_STEP c = 7 ∧ l.done = l.total) :=
  ⟨slot (lop 0x63 31 0 0 [] []) (ready [(.CMP_STATE, 31, 3), (.CMP_SCRUB_STEP, 31, 7)]), 31, 0, lop 0x63 31 0 0 [] [], by decide +kernel⟩

theorem witness_ContractsBegin_1 : ∃ (s u v : State) (fn ring c i : Nat) (k : Cand) (ws es : List Nat) (l : LongOp),
    (s.starts fn ring 0x64 c k ∧ fn = s.primaryFn ∧ (s.begun fn ring c k).2.rd .BOOT_FAWN 0 = 0 ∧ adKind k.desc = 1) ∧
    ((s.begun fn ring c k).2.longBusy 0x64 (adCmp k.desc) = false ∧ (s.begun fn ring c k).2.claimSlot = some i) ∧
    (((s.begun fn ring c k).2.opensLong (s.begun fn ring c k).1 1 (adCmp k.desc) 0 i [] []).readRecord
      { (s.begun fn ring c k).1 with wait := .long i } 128 = (some ws, u)) ∧
    (ctrRecordOk ws = true ∧ ctrClear ws = false ∧ u.rd .PWR_BEAT_LOCKED 0 = 1) ∧
    (fld ws 0 32 5 = adCmp k.desc ∧ u.cmpState (adCmp k.desc) = .assigned ∧ u.ctrDemandOk (adCmp k.desc) ws = true) ∧
    (u.readPreload ws = (some es, v) ∧ es.all (fun e => v.preEntryOk (adCmp k.desc) e) = true ∧ v.preRoom (adCmp k.desc) (prePairs es) = true) ∧
    (v.stagedC (adCmp k.desc) = none ∧ v.longAt i = some l) :=
  ⟨(let d := [0x64, 0, 0, 0, 0, 256, 0, 0]; ctrState d), (ctrLoad [0x64, 0, 0, 0, 0, 256, 0, 0]).2, ((ctrLoad [0x64, 0, 0, 0, 0, 256, 0, 0]).2.readPreload ctrWords).2, 0, 0, 0, 0, cand [0x64, 0, 0, 0, 0, 256, 0, 0], ctrWords, [], ⟨16, 0x64, 1, 0, 1, 0, 0, 0, 0, 0, 0, 0, 0, 0, some 0, none, [], []⟩, by decide +kernel⟩

theorem witness_ContractsBegin_2 : ∃ (s : State) (c i : Nat) (l : LongOp),
    (s.longAt i = some l ∧ l.state = 1 ∧ l.kind = 0x64 ∧ l.tkind = 1 ∧ l.cmp = c ∧ l.fin = none ∧ l.words ≠ []) ∧
    (s.cmpState c = .assigned ∧ s.stagedC c = none ∧ s.beat < word l.words 1 ∧ s.longRing i < 64) :=
  ⟨slot { lop 0x64 0 0 0 ctrWords [] with tkind := 1 } (ready []), 0, 0, { lop 0x64 0 0 0 ctrWords [] with tkind := 1 }, by decide +kernel⟩

theorem witness_ContractsBegin_3 : ∃ (s : State) (c : Nat) (t : Contract),
    (s.stagedC c = some t ∧ t.epoch ≤ s.beat) :=
  ⟨(let s := ready []; { s with cmp := { s.cmp with staged := [(31, ⟨1, 0, 100, 0, [], []⟩)] } }), 31, ⟨1, 0, 100, 0, [], []⟩, by decide +kernel⟩

theorem witness_ContractsBegin_4 : ∃ (s : State) (c : Nat) (t : Contract),
    (s.active c = some t ∧ t.epoch + t.span ≤ s.beat) :=
  ⟨(let s := ready [(.PWR_BEAT, 0, 100)]; { s with cmp := { s.cmp with active := [(31, ⟨1, 0, 100, 0, [], []⟩)] } }), 31, ⟨1, 0, 100, 0, [], []⟩, by decide +kernel⟩

theorem witness_SlotsDeadlinesAndFrames_1 : ∃ (s : State) (lane c engine : Nat),
    (lane < 4 ∧ s.slotOwner lane (s.cmp.share.get 0 lane) = some c) :=
  ⟨grant { Grants.none with patterns := [[], [], [], [0]] } (ready []), 3, 0, 0, by decide +kernel⟩

theorem witness_SlotsDeadlinesAndFrames_2 : ∃ (s : State) (lane : Nat),
    (lane < 24) :=
  ⟨ready [], 23, by decide +kernel⟩

theorem witness_SlotsDeadlinesAndFrames_3 : ∃ (s : State) (o : Op),
    (s.findOp o.id = some o ∧ o.deadline ≠ 0 ∧ o.deadline < s.beat) :=
  ⟨(ready [(.PWR_BEAT, 0, 10)]).addOp { opOf [0x10] .engine with deadline := 9 }, { opOf [0x10] .engine with deadline := 9 }, by decide +kernel⟩

theorem witness_SlotsDeadlinesAndFrames_4 : ∃ (s : State) (i : Nat),
    (s.atBoundary = true ∧ i < 512 ∧ s.rd .STAT_F_LIVE i < 2 ^ 64) :=
  ⟨ready [(.PWR_BEAT, 0, 0x100000), (.STAT_FRAME_K_ACTIVE, 0, 20)], 511, by decide +kernel⟩

theorem witness_RingOrdersMoveTheRing_1 : ∃ (s : State) (fn ring : Nat),
    (s.closed fn (0x30002C + 0x100 * fn) = false ∧ ring < 64) ∧
    (s.ringState fn ring = .idle ∨ s.ringState fn ring = .stopped) :=
  ⟨ready [(.RNG_STATE, 3, 1)], 0, 3, by decide +kernel⟩

theorem witness_RingOrdersMoveTheRing_2 : ∃ (s : State) (fn ring : Nat),
    (s.closed fn (0x30002C + 0x100 * fn) = false ∧ ring < 64) ∧
    (s.ringState fn ring = .suspended) :=
  ⟨ready [(.RNG_STATE, 3, 3)], 0, 3, by decide +kernel⟩

theorem witness_RingOrdersMoveTheRing_3 : ∃ (s : State) (fn ring : Nat),
    (s.closed fn (0x30002C + 0x100 * fn) = false ∧ ring < 64) ∧
    (s.ringState fn ring = .running) :=
  ⟨ready [(.RNG_STATE, 3, 2)], 0, 3, by decide +kernel⟩

theorem witness_RingOrdersMoveTheRing_4 : ∃ (s : State) (fn ring : Nat),
    (s.closed fn (0x30002C + 0x100 * fn) = false ∧ ring < 64) ∧
    (s.ringState fn ring = .running ∨ s.ringState fn ring = .suspended) :=
  ⟨ready [(.RNG_STATE, 3, 2)], 0, 3, by decide +kernel⟩

theorem witness_RingOrdersMoveTheRing_5 : ∃ (s : State) (fn ring : Nat),
    (s.closed fn (0x30002C + 0x100 * fn) = false ∧ ring < 64) ∧
    (s.ringState fn ring ≠ .disabled ∧ s.ringState fn ring ≠ .idle) :=
  ⟨ready [(.RNG_STATE, 3, 6), (.RNG_PROD, 3, 9)], 0, 3, by decide +kernel⟩

theorem witness_RingOrdersMoveTheRing_6 : ∃ (s : State) (fn ring : Nat),
    (s.closed fn (0x30002C + 0x100 * fn) = false ∧ ring < 64) :=
  ⟨ready [], 0, 3, by decide +kernel⟩

theorem witness_RingOrdersMoveTheRing_7 : ∃ (s : State) (fn ring : Nat),
    (s.closed fn (0x30002C + 0x100 * fn) = false ∧ ring < 64) ∧
    (s.rd .RNG_CSTATE (ringIx fn ring) = 2) :=
  ⟨ready [(.RNG_CSTATE, 63, 2)], 0, 63, by decide +kernel⟩

theorem witness_RingOrdersMoveTheRing_8 : ∃ (s : State) (fn ring : Nat),
    (s.closed fn (0x30002C + 0x100 * fn) = false ∧ ring < 64) ∧
    (s.rd .RNG_CSTATE (ringIx fn ring) = 1) :=
  ⟨ready [(.RNG_CSTATE, 63, 1)], 0, 63, by decide +kernel⟩

theorem witness_RingsAreCreatedAndRung_1 : ∃ (s : State) (fn ring : Nat),
    (s.barsBlocked fn = false ∧ ring < 64) ∧
    (s.createStatus fn ring (if isMgr fn then s.rd .RNG_MOOD (ringIx fn ring) else b2n (bit (s.rd .INS_RING_MOOD fn) ring)) = 0) ∧
    (s.rd .RNG_TIMEOUT (ringIx fn ring) = 0) :=
  ⟨ready [(.RNG_CSTATE, 0, 1)], 0, 3, by decide +kernel⟩

theorem witness_RingsAreCreatedAndRung_2 : ∃ (s : State) (fn ring : Nat),
    (s.barsBlocked fn = false ∧ ring < 64) ∧
    (s.ringState fn ring = .idle ∨ s.ringState fn ring = .stopped) :=
  ⟨ready [(.RNG_STATE, 3, 1)], 0, 3, by decide +kernel⟩

theorem witness_RingsAreCreatedAndRung_3 : ∃ (s : State) (fn ring : Nat),
    (s.barsBlocked fn = false ∧ ring < 64 ∧ s.rd .BOOT_FAWN 0 = 0) ∧
    (s.rd .RNG_CSTATE (ringIx fn ring) = 0) ∧
    (isMgr fn = true ∨ ring < s.rd .INS_CPL_RINGS fn) ∧
    (s.rd .RNG_CPASID_EN (ringIx fn ring) = 1 → s.pasidOk fn (s.rd .RNG_CPASID (ringIx fn ring)) = true) :=
  ⟨ready [], 0, 3, by decide +kernel⟩

theorem witness_RingsAreCreatedAndRung_4 : ∃ (s : State) (fn ring : Nat),
    (s.barsBlocked fn = false ∧ ring < 64) ∧
    (s.rd .RNG_CSTATE (ringIx fn ring) = 2 ∨ s.rd .RNG_CSTATE (ringIx fn ring) = 3) ∧
    (s.cplBound fn ring = false) :=
  ⟨ready [(.RNG_CSTATE, 3, 2)], 0, 3, by decide +kernel⟩

theorem witness_RingsAreCreatedAndRung_5 : ∃ (s : State) (fn ring count : Nat),
    (ring < 64 ∧ s.bellBlocked fn = false ∧ count < 2 ^ 32) ∧
    (s.ringState fn ring ≠ .disabled ∧ (isMgr fn = true ∨ s.rd .INS_RESET_BUSY fn = 0)) ∧
    (diff32 count (s.rd .RNG_CONS (ringIx fn ring)) ≤ s.ringSlots fn ring ∧ diff32 count (s.rd .RNG_PROD (ringIx fn ring)) ≤ s.ringSlots fn ring) :=
  ⟨ready [(.RNG_STATE, 3, 2), (.RNG_LOG2_SIZE, 3, 6)], 0, 3, 64, by decide +kernel⟩

theorem witness_RingsAreCreatedAndRung_6 : ∃ (s : State) (fn ring count : Nat),
    (ring < 64 ∧ s.bellBlocked fn = false ∧ count < 2 ^ 32) ∧
    (s.rd .RNG_CSTATE (ringIx fn ring) ≠ 0 ∧ (isMgr fn = true ∨ s.rd .INS_RESET_BUSY fn = 0)) ∧
    (diff32 (s.rd .RNG_CPROD (ringIx fn ring)) count ≤ s.cplSlots fn ring) :=
  ⟨ready [(.RNG_CSTATE, 3, 1), (.RNG_CLOG2_SIZE, 3, 6), (.RNG_CPROD, 3, 5)], 0, 3, 5, by decide +kernel⟩

theorem witness_DescriptorsAreFetchedAndStart_1 : ∃ (s : State) (fn ring c a x : Nat) (words : List Nat),
    (s.fnCmp fn = some c ∧ s.frontOpen fn = true) ∧
    (s.ringState fn ring = .running ∧ s.rd .RNG_LOC (ringIx fn ring) = 1) ∧
    ((s.run fn ring).fetched.length < diff32 (s.rd .RNG_PROD (ringIx fn ring)) (s.rd .RNG_CONS (ringIx fn ring))) ∧
    (s.hostMap fn (s.ringPasid fn ring) (some ring) (s.rd .RNG_BASE (ringIx fn ring)
      + 64 * ((s.rd .RNG_CONS (ringIx fn ring) + (s.run fn ring).fetched.length) % s.ringSlots fn ring)) false = .at a x) ∧
    (words.length = 8 ∧ (∀ w ∈ words, w < 2 ^ 64)) :=
  ⟨ready [(.RNG_STATE, 0, 2), (.RNG_LOC, 0, 1), (.RNG_LOG2_SIZE, 0, 6), (.RNG_PROD, 0, 1)], 0, 0, 0, 0, 2 ^ 64, [0, 0, 0, 0, 0, 0, 0, 0], by decide +kernel⟩

theorem witness_DescriptorsAreFetchedAndStart_2 : ∃ (s : State) (fn ring c : Nat) (k : Cand),
    (s.starts fn ring 0x00 c k) :=
  ⟨loaded [0] [], 0, 0, 0, cand [0], by decide +kernel⟩

theorem witness_DescriptorsAreFetchedAndStart_3 : ∃ (s : State) (fn ring c : Nat) (k : Cand),
    (s.starts fn ring 0x01 c k) ∧
    (k.src = .ring) ∧
    (¬(dIndic k.desc = true ∧ clHost k.desc = true)) :=
  ⟨loaded [1, 0, 0, 0, 4096, 1, 0, 0] [], 0, 0, 0, cand [1, 0, 0, 0, 4096, 1, 0, 0], by decide +kernel⟩

theorem witness_OperationsEndWithARecord_1 : ∃ (s : State) (o : Op),
    (s.findOp o.id = some o ∧ o.wait = .done ∧ o.source = .ring ∧ o.status ≠ 0) ∧
    (s.ring.ended = [] ∧ s.ringState o.fn o.ring = .running) ∧
    (s.rd .RNG_CSTATE (s.cplKey o.fn o.ring) = 1 ∧ 0 < s.cplFree (s.cplKey o.fn o.ring)) :=
  ⟨(ready [(.RNG_STATE, 0, 2), (.RNG_CSTATE, 0, 1), (.RNG_CLOG2_SIZE, 0, 6)]).addOp { opOf [0] .done with status := 8 }, { opOf [0] .done with status := 8 }, by decide +kernel⟩

theorem witness_OperationsEndWithARecord_2 : ∃ (s : State) (fn ring a x : Nat) (w : CplWait) (rest : List CplWait),
    (s.cplWaits (ringIx fn ring) = w :: rest ∧ s.rd .RNG_CSTATE (ringIx fn ring) = 1 ∧ s.rd .RNG_CLOC (ringIx fn ring) = 1) ∧
    (diff32 (s.rd .RNG_CPROD (ringIx fn ring)) (s.rd .RNG_CCONS (ringIx fn ring)) < s.cplSlots fn ring) ∧
    (s.hostMap fn (s.cplPasid fn ring) (some (64 + ring)) (s.rd .RNG_CBASE (ringIx fn ring)
      + 32 * (s.rd .RNG_CPROD (ringIx fn ring) % s.cplSlots fn ring)) true = .at a x) :=
  ⟨(ready [(.RNG_CSTATE, 0, 1), (.RNG_CLOC, 0, 1), (.RNG_CLOG2_SIZE, 0, 6), (.RNG_CPROD, 0, 63)]).setCplWaits 0 [⟨[1, 2, 3, 4], opOf [0] .done, false⟩], 0, 0, 2016, 2 ^ 64, ⟨[1, 2, 3, 4], opOf [0] .done, false⟩, [], by decide +kernel⟩

theorem witness_OperationsEndWithARecord_3 : ∃ (s : State) (o : Op),
    (s.findOp o.id = some o ∧ o.source = .ring ∧ o.timed = true ∧ s.inRecovery o = false) ∧
    (0 < s.rd .RNG_TIMEOUT (ringIx o.fn o.ring) ∧ o.startNs + 1000 * s.rd .RNG_TIMEOUT (ringIx o.fn o.ring) ≤ s.ns) ∧
    (s.rd .RNG_CSTATE (s.cplKey o.fn o.ring) = 1 ∧ 0 < s.cplFree (s.cplKey o.fn o.ring)) :=
  ⟨(let s := ready [(.RNG_TIMEOUT, 0, 1), (.RNG_CSTATE, 0, 1), (.RNG_CLOG2_SIZE, 0, 6)]; { s.addOp (opOf [0x10] .engine) with ns := 1000 }), opOf [0x10] .engine, by decide +kernel⟩

theorem witness_ConcordDescriptorsAct_1 : ∃ (s : State) (fn ring c : Nat) (k : Cand),
    (s.starts fn ring 0x50 c k) :=
  ⟨grant { Grants.none with conBlk := [0] } (loaded [0x50, 0, 0, 0, 4099, 7, 0, 0] []), 0, 0, 0, cand [0x50, 0, 0, 0, 4099, 7, 0, 0], by decide +kernel⟩

theorem witness_ConcordDescriptorsAct_2 : ∃ (s : State) (fn ring c : Nat) (k : Cand),
    (s.starts fn ring 0x51 c k) :=
  ⟨grant { Grants.none with conBlk := [0] } (loaded [0x51, 0, 0, 0, 3, 0, 0, 0] []), 0, 0, 0, cand [0x51, 0, 0, 0, 3, 0, 0, 0], by decide +kernel⟩

theorem witness_ConcordDescriptorsAct_3 : ∃ (s : State) (fn ring c : Nat) (k : Cand) (bs : List Byte) (o : Op) (u : State),
    (s.starts fn ring 0x52 c k) ∧
    ((s.begun fn ring c k).2.armCheck (s.begun fn ring c k).1 = none) ∧
    ((s.begun fn ring c k).2.opRead (s.begun fn ring c k).1 0x08 .read true (cnFire k.desc) 64 = (.ok bs, o, u)) ∧
    (u.fireCheck o (wordsOf 8 bs) = none ∧ o.desc = k.desc ∧ o.fn = fn) ∧
    (u.slots.find (cnSlot k.desc) = none ∧ waitHolds (cnOp k.desc) (cnValue k.desc) (u.rd .CON_VALUE (cnObj k.desc)) = false) :=
  ⟨mapped (grant { Grants.none with conBlk := [0], conjBlk := [0] } (loaded [0x52, 0, 0, 0, 331779, 7, 64, 0] [])), 0, 0, 0, cand [0x52, 0, 0, 0, 331779, 7, 64, 0], List.replicate 64 0, (let b := (mapped (grant { Grants.none with conBlk := [0], conjBlk := [0] } (loaded [0x52, 0, 0, 0, 331779, 7, 64, 0] []))).begun 0 0 0 (cand [0x52, 0, 0, 0, 331779, 7, 64, 0]); (b.2.opRead b.1 0x08 .read true 64 64).2.1), (let b := (mapped (grant { Grants.none with conBlk := [0], conjBlk := [0] } (loaded [0x52, 0, 0, 0, 331779, 7, 64, 0] []))).begun 0 0 0 (cand [0x52, 0, 0, 0, 331779, 7, 64, 0]); (b.2.opRead b.1 0x08 .read true 64 64).2.2), ⟨by decide +kernel, by decide +kernel, Prod.ext (by decide +kernel) (Prod.ext rfl rfl), by decide +kernel, by decide +kernel⟩⟩

theorem witness_ConcordDescriptorsAct_4 : ∃ (s : State) (fn ring c : Nat) (k : Cand) (x : Slot),
    (s.starts fn ring 0x53 c k) ∧
    ((s.begun fn ring c k).2.slots.find (cnSlot k.desc) = some x) :=
  ⟨{ grant { Grants.none with conjBlk := [0] } (loaded [0x53, 0, 0, 0, 327680, 0, 0, 0] []) with slots := [(5, ⟨false, false, 1, 3, 7, 0, 0, false, 0, 0, []⟩)] }, 0, 0, 0, cand [0x53, 0, 0, 0, 327680, 0, 0, 0], ⟨false, false, 1, 3, 7, 0, 0, false, 0, 0, []⟩, by decide +kernel⟩

theorem witness_SignalsReachTheirObject_1 : ∃ (s : State) (obj port op v : Nat),
    (obj < 4096) :=
  ⟨ready [], 4095, 3, 1, 7, by decide +kernel⟩

theorem witness_SignalsReachTheirObject_2 : ∃ (s : State) (fn obj op c : Nat),
    (s.barsBlocked fn = false ∧ s.fnCmp fn = some c ∧ s.ownsObj c obj = true) ∧
    (0 < op ∧ op < 4 ∧ obj < 4096) :=
  ⟨{ ready [] with cmp := { (ready []).cmp with grants := [(0, { Grants.none with conBlk := [0, 63] })] } }, 0, 63, 2, 0, by decide +kernel⟩

theorem witness_SignalsReachTheirObject_3 : ∃ (s : State) (obj high v : Nat),
    (s.closed s.primaryFn (0x2000000 + 8 * obj + 4) = false ∧ obj < 4096) ∧
    (s.reg.staged.find (pairKey s.primaryFn (0x2000000 + 8 * obj)) = some v ∧ v < 2 ^ 32 ∧ high < 2 ^ 32) :=
  ⟨(ready []).stageLow 0 (0x2000000 + 8 * 4095) 9, 4095, 1, 9, by decide +kernel⟩

theorem witness_EventsAreBoundRoutedAndClaimed_1 : ∃ (s : State) (src owner : Nat),
    (s.closed s.primaryFn (0xC00000 + 0x10 * src) = false) ∧
    (0x100 ≤ src ∧ src ≤ 0x7FF ∧ owner < 128) :=
  ⟨ready [], 0x7FF, 3, by decide +kernel⟩

theorem witness_EventsAreBoundRoutedAndClaimed_2 : ∃ (s : State) (fn vec sense : Nat),
    (s.barsBlocked fn = false ∧ vec < vecCount fn) ∧
    (s.ownsSrc fn (s.rd .EVT_RT_SRC fn) = true ∧ isPool (s.rd .EVT_RT_SRC fn) = true) ∧
    (s.rd .EVT_PENDING (s.rd .EVT_RT_SRC fn) = 0) :=
  ⟨ready [(.EVT_SRC_BOUND, 0x100, 1), (.EVT_SRC_OWNER, 0x100, 0), (.EVT_RT_SRC, 0, 0x100)], 0, 255, 1, by decide +kernel⟩

theorem witness_EventsAreBoundRoutedAndClaimed_3 : ∃ (s : State) (fn src : Nat),
    (s.barsBlocked fn = false ∧ src < 2048) :=
  ⟨ready [], 0, 2047, by decide +kernel⟩

theorem witness_EventsAreBoundRoutedAndClaimed_4 : ∃ (s : State) (fn vec : Nat),
    (s.rd .EVT_COAL_TIME (vecIx fn vec) ≠ 0 ∧ s.rd .EVT_VEC_BATCH (vecIx fn vec) ≠ 0) ∧
    (s.evt.batchStart.get 0 (vecIx fn vec) + 256 * s.rd .EVT_COAL_TIME (vecIx fn vec) ≤ s.beat) :=
  ⟨ready [(.EVT_COAL_TIME, 3, 1), (.EVT_VEC_BATCH, 3, 1), (.PWR_BEAT, 0, 256)], 0, 3, by decide +kernel⟩

theorem witness_EventsAreBoundRoutedAndClaimed_5 : ∃ (s : State) (fn vec : Nat),
    (s.barsBlocked fn = false ∧ vec < vecCount fn) :=
  ⟨ready [], 0, 255, by decide +kernel⟩

theorem witness_EventsAreBoundRoutedAndClaimed_6 : ∃ (s : State) (fn vec n port : Nat),
    (s.barsBlocked fn = false ∧ vec < vecCount fn ∧ port < 6) ∧
    ((claimOrder (s.claimPtr fn vec)).find? (fun n => s.claimable fn vec n) = some n) :=
  ⟨ready [(.EVT_SRC_BOUND, 0x7FF, 1), (.EVT_SRC_OWNER, 0x7FF, 0), (.EVT_SRC_ROUTED, 0x7FF, 1), (.EVT_SRC_VEC, 0x7FF, 3), (.EVT_PENDING, 0x7FF, 1)], 0, 3, 0x7FF, 0, by decide +kernel⟩

theorem witness_MoveDescriptorsMoveBytes_1 : ∃ (s : State) (fn ring c : Nat) (k : Cand),
    (s.starts fn ring 0x11 c k) ∧
    (mvDstHost k.desc = false) ∧
    (0 < mvLen k.desc) ∧
    (((s.begun fn ring c k).2.mapSpan movePort c (dIndic k.desc) .write (spanFuel (mvLen k.desc)) (mvDst k.desc) (mvLen k.desc)).2.1 = none) ∧
    (((s.begun fn ring c k).2.mapSpan movePort c (dIndic k.desc) .write (spanFuel (mvLen k.desc)) (mvDst k.desc) (mvLen k.desc)).2.2.1 = false) :=
  ⟨mapped (loaded [0x11, 0, 0, 0, 0xA5, 256, 8, 0] []), 0, 0, 0, cand [0x11, 0, 0, 0, 0xA5, 256, 8, 0], by decide +kernel⟩

theorem witness_MoveDescriptorsMoveBytes_2 : ∃ (s : State) (fn ring c : Nat) (k : Cand) (t : Trans),
    (s.starts fn ring 0x10 c k) ∧
    (mvSrcHost k.desc = false ∧ mvDstHost k.desc = false ∧ 0 < mvLen k.desc) ∧
    (((s.begun fn ring c k).2.translate movePort c (mvSrc k.desc) (dIndic k.desc) .read).1 = .ok t ∧ t.target = 0) ∧
    (((s.begun fn ring c k).2.translate movePort c (mvSrc k.desc) (dIndic k.desc) .read).2.1 = false ∧ mvSrc k.desc + mvLen k.desc ≤ t.base + t.size) ∧
    (((s.begun fn ring c k).2.translate movePort c (mvSrc k.desc) (dIndic k.desc) .read).2.2.cleanPrefix (t.out + (mvSrc k.desc - t.base)) (mvLen k.desc) = mvLen k.desc) ∧
    (((((s.begun fn ring c k).2.translate movePort c (mvSrc k.desc) (dIndic k.desc) .read).2.2.touch c (dIndic k.desc) t.nc false
      (t.out + (mvSrc k.desc - t.base)) (mvLen k.desc)).mapSpan movePort c (dIndic k.desc) .write (spanFuel (mvLen k.desc)) (mvDst k.desc) (mvLen k.desc)).2.1 = none) ∧
    (((((s.begun fn ring c k).2.translate movePort c (mvSrc k.desc) (dIndic k.desc) .read).2.2.touch c (dIndic k.desc) t.nc false
      (t.out + (mvSrc k.desc - t.base)) (mvLen k.desc)).mapSpan movePort c (dIndic k.desc) .write (spanFuel (mvLen k.desc)) (mvDst k.desc) (mvLen k.desc)).2.2.1 = false) :=
  ⟨mapped (loaded [0x10, 0, 0, 0, 0, 256, 8, 0] []), 0, 0, 0, cand [0x10, 0, 0, 0, 0, 256, 8, 0], ⟨0, 0, 2 ^ 21, 0, true, true, true, false, true, true, 0, 0, none, none⟩, by decide +kernel⟩

theorem witness_MoveDescriptorsMoveBytes_3 : ∃ (s : State) (fn ring c : Nat) (k : Cand),
    (s.starts fn ring 0x12 c k) :=
  ⟨mapped (loaded [0x12, 0, 0, 0, 0, 256, 0x100000008, 0] []), 0, 0, 0, cand [0x12, 0, 0, 0, 0, 256, 0x100000008, 0], by decide +kernel⟩

theorem witness_MoveDescriptorsMoveBytes_4 : ∃ (s : State) (fn ring c : Nat) (k : Cand) (t : Trans) (old : Nat) (fl : Flg),
    (s.starts fn ring 0x13 c k ∧ atPlace k.desc = 0) ∧
    (((s.begun fn ring c k).2.translate movePort c (atAddr k.desc) (dIndic k.desc) .atomic).1 = .ok t) ∧
    (((s.begun fn ring c k).2.translate movePort c (atAddr k.desc) (dIndic k.desc) .atomic).2.1 = false) ∧
    (((((s.begun fn ring c k).2.translate movePort c (atAddr k.desc) (dIndic k.desc) .atomic).2.2.clearCopies c (t.out + (atAddr k.desc - t.base))
      (atomBytes (atFmt k.desc))).atomAt c (t.out + (atAddr k.desc - t.base)) (atOp k.desc)
      (atFmt k.desc) (dFtz k.desc) (dSat k.desc) (atOperand k.desc) (atCompare k.desc)).1 = some (old, fl)) :=
  ⟨mapped (loaded [0x13, 0, 0, 0, 256, 5, 0, 1] []), 0, 0, 0, cand [0x13, 0, 0, 0, 256, 5, 0, 1], ⟨0, 0, 2 ^ 21, 0, true, true, true, false, true, true, 0, 0, none, none⟩, 0, {}, by decide +kernel⟩

theorem witness_AddressDescriptorsAct_1 : ∃ (s : State) (fn ring c : Nat) (k : Cand),
    (s.starts fn ring 0x30 c k) ∧
    (xlHost k.desc = false) :=
  ⟨loaded [0x30, 0, 0, 0, 0, 4096, 8, 0] [], 0, 0, 0, cand [0x30, 0, 0, 0, 0, 4096, 8, 0], by decide +kernel⟩

theorem witness_AddressDescriptorsAct_2 : ∃ (s : State) (fn ring c : Nat) (k : Cand),
    (s.starts fn ring 0x31 c k) ∧
    (0 < xlLen k.desc) :=
  ⟨loaded [0x31, 0, 0, 0, 0, 4096, 0, 0] [], 0, 0, 0, cand [0x31, 0, 0, 0, 0, 4096, 0, 0], by decide +kernel⟩

theorem witness_AddressDescriptorsAct_3 : ∃ (s : State) (fn ring c : Nat) (k : Cand),
    (s.starts fn ring 0x32 c k) ∧
    (xlHost k.desc = false) :=
  ⟨loaded [0x32, 0, 0, 0, 0, 0, 0, 0] [], 0, 0, 0, cand [0x32, 0, 0, 0, 0, 0, 0, 0], by decide +kernel⟩

theorem witness_HostAnswersReachTheirRequests_1 : ∃ (s : State) (fn page size out flags w port : Nat) (pasid : Option Nat) (q : AtsReq),
    (s.ats.reqs.find? (fun q => q.sent && q.fn == fn && q.pasid == pasid && q.page == page) = some q) ∧
    (q.stale = false ∧ q.users = [(some w, port)] ∧ s.waitersOf fn pasid page = []) ∧
    (bit flags 0 = true ∧ bit flags 1 = true) :=
  ⟨{ ready [] with ats := { (ready []).ats with reqs := [⟨3, none, 4096, [(some 2, 8)], false, true⟩] } }, 3, 4096, 4096, 8192, 3, 2, 8, none, ⟨3, none, 4096, [(some 2, 8)], false, true⟩, by decide +kernel⟩

theorem witness_HostAnswersReachTheirRequests_2 : ∃ (s : State) (fn page size out flags : Nat) (pasid : Option Nat) (q : AtsReq),
    (s.ats.reqs.find? (fun q => q.sent && q.fn == fn && q.pasid == pasid && q.page == page) = some q) ∧
    (q.stale = true) :=
  ⟨{ ready [] with ats := { (ready []).ats with reqs := [⟨3, none, 4096, [(some 2, 8)], true, true⟩] } }, 3, 4096, 4096, 8192, 3, none, ⟨3, none, 4096, [(some 2, 8)], true, true⟩, by decide +kernel⟩

theorem witness_HostAnswersReachTheirRequests_3 : ∃ (s : State) (fn idx code : Nat) (pasid : Option Nat),
    (s.ats.groups.find? (fun g => g.fn == fn && g.idx == idx && g.pasid == pasid) = none) :=
  ⟨ready [], 3, 5, 0, none, by decide +kernel⟩

theorem witness_HostAnswersReachTheirRequests_4 : ∃ (s : State) (fn idx : Nat) (pasid : Option Nat) (g : PrgGroup),
    (s.ats.groups.find? (fun g => g.fn == fn && g.idx == idx && g.pasid == pasid) = some g) ∧
    (g.live = true ∧ s.groupWaiters g ≠ []) :=
  ⟨(let s := waiting [0x10, 0, 0, 0, 0, 0, 0x100000008, 7] (.ats 4096) (ready []); { s with ats := { s.ats with groups := [⟨0, 5, some 7, [4096], false, true⟩] } }), 0, 5, some 7, ⟨0, 5, some 7, [4096], false, true⟩, by decide +kernel⟩

theorem witness_HostAnswersReachTheirRequests_5 : ∃ (s : State) (fn itag base size : Nat) (pasid : Option Nat) (global : Bool),
    ((s.ats.invQ.get [] fn).length < 32) :=
  ⟨ready [], 3, 5, 0, 4096, none, true, by decide +kernel⟩

theorem witness_HostAnswersReachTheirRequests_6 : ∃ (s : State) (fn : Nat) (q : InvReq) (rest : List InvReq),
    (s.ats.invQ.get [] fn = q :: rest) ∧
    (∀ x ∈ q.tags, ∀ r ∈ s.ats.reads, r.tag ≠ x) ∧
    (∀ x ∈ rest, x.late = false) :=
  ⟨{ ready [] with ats := { (ready []).ats with invQ := [(3, [⟨5, none, true, 0, 4096, false, false, [9]⟩])] } }, 3, ⟨5, none, true, 0, 4096, false, false, [9]⟩, [], by decide +kernel⟩

theorem witness_HostAnswersReachTheirRequests_7 : ∃ (s : State) (tag : Nat) (data : List Nat) (r : HostRead) (o : Op) (id : Nat),
    (s.ats.reads.find? (fun r => r.tag == tag) = some r) ∧
    (r.op = some id ∧ s.ring.ended.contains id = false ∧ s.findOp id = some o) :=
  ⟨(let s := waiting [0x10, 0, 0, 0, 4096, 256, 0x100000008, 0] .engine (ready []); { s with ats := { s.ats with reads := [⟨9, 0, 4096, 8, some 0, false, none, 4096⟩] } }), 9, [1, 2], ⟨9, 0, 4096, 8, some 0, false, none, 4096⟩, opOf [0x10, 0, 0, 0, 4096, 256, 0x100000008, 0] .engine, 0, by decide +kernel⟩

theorem witness_HostAnswersReachTheirRequests_8 : ∃ (s : State) (tag : Nat) (r : HostRead) (o : Op) (id : Nat),
    (s.ats.reads.find? (fun r => r.tag == tag) = some r) ∧
    (r.op = some id ∧ s.ring.ended.contains id = false ∧ s.findOp id = some o) :=
  ⟨(let s := waiting [0x10, 0, 0, 0, 4096, 256, 0x100000008, 0] .engine (ready []); { s with ats := { s.ats with reads := [⟨9, 0, 4096, 8, some 0, false, none, 4096⟩] } }), 9, ⟨9, 0, 4096, 8, some 0, false, none, 4096⟩, opOf [0x10, 0, 0, 0, 4096, 256, 0x100000008, 0] .engine, 0, by decide +kernel⟩

theorem witness_HostAnswersReachTheirRequests_9a : ∃ (s : State) (fn value : Nat),
    (s.retryStatus = false) ∧
    (isMgr fn = true ∧ s.rd .BOOT_FAWN 0 = 1) :=
  ⟨ready [(.BOOT_FAWN, 0, 1)], 64, 1, by decide +kernel⟩

theorem witness_HostAnswersReachTheirRequests_9b : ∃ (s : State) (fn value : Nat),
    (s.retryStatus = false) ∧
    (isMgr fn = true ∧ s.rd .BOOT_FAWN 0 = 0) :=
  ⟨ready [], 64, 1, by decide +kernel⟩

theorem witness_HostAnswersReachTheirRequests_9 : ∃ (s : State) (fn value : Nat),
    (s.retryStatus = false) :=
  ⟨ready [], 0, 1, by decide +kernel⟩

theorem witness_HostAnswersReachTheirRequests_10 : ∃ (s : State) (fn itag base size : Nat) (pasid : Option Nat) (global : Bool),
    (32 ≤ (s.ats.invQ.get [] fn).length) :=
  ⟨{ ready [] with ats := { (ready []).ats with invQ := [(3, List.replicate 32 ⟨5, none, true, 0, 4096, false, false, []⟩)] } }, 3, 5, 0, 4096, none, true, by decide +kernel⟩

theorem witness_StacksServeTheirWork_1 : ∃ (s : State) (fn ring c : Nat) (k : Cand),
    (s.starts fn ring 0x20 c k) ∧
    (((s.begun fn ring c k).2.gatherRun (s.begun fn ring c k).1 (grCount k.desc) ⟨0, none, [], {}, 0, none⟩).1 = .all) :=
  ⟨loaded [0x20, 0, 0, 0, 0, 256, 0, 0x400200000] [], 0, 0, 0, cand [0x20, 0, 0, 0, 0, 256, 0, 0x400200000], ⟨by decide +kernel, rfl⟩⟩

theorem witness_StacksServeTheirWork_2 : ∃ (s : State) (o : Op) (st : Nat) (bs : List Nat) (row : List Nat) (rest : List (List Nat)),
    (s.findOp o.id = some o ∧ o.wait = .rows st ∧ o.buf = (0 :: bs) :: row :: rest) ∧
    ((s.mapSpan gatherPort o.cmp (dIndic o.desc) .write (spanFuel (grOutBytes o.desc)) (grOut o.desc + o.listNext * grOutBytes o.desc) (grOutBytes o.desc)).2.1 = none) ∧
    ((s.mapSpan gatherPort o.cmp (dIndic o.desc) .write (spanFuel (grOutBytes o.desc)) (grOut o.desc + o.listNext * grOutBytes o.desc) (grOutBytes o.desc)).2.2.1 = false) :=
  ⟨(let o := { opOf [0x20, 0, 0, 0, 0, 256, 512, 0x400000002] (.rows 0) with buf := [[0, 1, 2, 3, 4], [0, 5, 6, 7, 8]] }; (mapped (ready [])).addOp o), { opOf [0x20, 0, 0, 0, 0, 256, 512, 0x400000002] (.rows 0) with buf := [[0, 1, 2, 3, 4], [0, 5, 6, 7, 8]] }, 0, [1, 2, 3, 4], [0, 5, 6, 7, 8], [], by decide +kernel⟩

theorem witness_StacksServeTheirWork_3 : ∃ (s : State) (addr : Nat),
    (addr < t1Bytes) :=
  ⟨ready [], t1Bytes - 1, by decide +kernel⟩

theorem witness_StacksServeTheirWork_4 : ∃ (s : State) (stack count temp : Nat),
    (stack < 8) :=
  ⟨ready [], 7, 2 ^ 25, 300, by decide +kernel⟩

theorem witness_TranslationsAreWalkedAndLoaded_1 : ∃ (s : State) (port cmp stream va access : Nat) (t : Trans),
    (cmp < 32 ∧ clientPort port = true ∧ s.walkHit port cmp va false = none ∧ s.sharedHit cmp va = some t) ∧
    ((s.rightCheck t va (needOf access)).isOk = true ∧ (∀ x ∈ s.xl.waiting, ¬(x.cmp = cmp ∧ x.req.port = port))) :=
  ⟨{ ready [] with xl := { (ready []).xl with shared := [⟨3, 0, 4096, 0, true, true, true, false, false, false, 0, 0, none, none⟩] } }, 9, 3, 0, 8, 0, ⟨3, 0, 4096, 0, true, true, true, false, false, false, 0, 0, none, none⟩, by decide +kernel⟩

theorem witness_TranslationsAreWalkedAndLoaded_2 : ∃ (s : State) (port cmp stream va access : Nat),
    (cmp < 32 ∧ clientPort port = true ∧ s.walkHit port cmp va false = none ∧ s.sharedHit cmp va = none) ∧
    (s.walkToJoin cmp va false = none ∧ s.walksQueued cmp < 64 ∧ (∀ x ∈ s.xl.waiting, ¬(x.cmp = cmp ∧ x.req.port = port))) :=
  ⟨ready [], 9, 3, 0, 8, 0, by decide +kernel⟩

theorem witness_TranslationsAreWalkedAndLoaded_3 : ∃ (s : State) (w : Walk) (b : Nat),
    (s.xl.walks.find? (fun x => x.id == w.id && !x.queued) = some w ∧ w.restart = false ∧ 0 < w.level) ∧
    (s.poisoned w.entry 8 = false ∧ s.checkPte w.cmp w.va w.level (ofLE (s.accRead w.cmp w.entry 8)) = .table b) :=
  ⟨(let s := grant { Grants.none with t1 := [0], slices := [0] } (mapped (ready [])); { s with mem := { s.mem with acc := [(256, 1), (257, 16)] }, xl := { s.xl with walks := [⟨5, 0, 0, false, 0, [⟨9, 0, 0, 0⟩], false, false, 4, 256, false⟩] } }), ⟨5, 0, 0, false, 0, [⟨9, 0, 0, 0⟩], false, false, 4, 256, false⟩, 4096, by decide +kernel⟩

theorem witness_TranslationsAreWalkedAndLoaded_4 : ∃ (s : State) (w : Walk) (t : Trans),
    (s.xl.walks.find? (fun x => x.id == w.id && !x.queued) = some w ∧ w.restart = false) ∧
    (s.poisoned w.entry 8 = false ∧ s.checkPte w.cmp w.va w.level (ofLE (s.accRead w.cmp w.entry 8)) = .leaf t) ∧
    (∀ q ∈ w.reqs, t.allows (needOf q.access) = true) :=
  ⟨(let s := grant { Grants.none with t1 := [0], slices := [0] } (mapped (ready [])); { s with mem := { s.mem with acc := [(256, 7), (257, 16)] }, xl := { s.xl with walks := [⟨5, 0, 0, false, 0, [⟨9, 0, 0, 0⟩], false, false, 0, 256, false⟩] } }), ⟨5, 0, 0, false, 0, [⟨9, 0, 0, 0⟩], false, false, 0, 256, false⟩, ⟨0, 0, 4096, 4096, true, false, false, false, false, false, 0, 0, none, none⟩, by decide +kernel⟩

theorem witness_TranslationsAreWalkedAndLoaded_5 : ∃ (s : State) (cmp : Nat),
    (s.closed s.primaryFn 0x500800 = false ∧ cmp < 32) :=
  ⟨ready [], 31, by decide +kernel⟩

theorem witness_TranslationsAreWalkedAndLoaded_7 : ∃ (s : State) (fn ring c i : Nat) (k : Cand),
    (s.starts fn ring 0x64 c k ∧ adKind k.desc = 2 ∧ fn = s.primaryFn ∧ (s.begun fn ring c k).2.rd .BOOT_FAWN 0 = 0) ∧
    ((s.begun fn ring c k).2.longBusy 0x64 (adCmp k.desc) = false ∧ (s.begun fn ring c k).2.claimSlot = some i) ∧
    (0 < bits (adArg0 k.desc) 16 14 ∧ bits (adArg0 k.desc) 0 13 + bits (adArg0 k.desc) 16 14 ≤ 8192 ∧ adPtr k.desc % 64 = 0) ∧
    ((((s.begun fn ring c k).2.opensLong (s.begun fn ring c k).1 2 (adCmp k.desc) (bits (adArg0 k.desc) 16 14) i [] []).readRanges
      (adPtr k.desc) (bits (adArg0 k.desc) 16 14) 0).2.rangeFail (adCmp k.desc) (bits (adArg0 k.desc) 0 13) (bits (adArg0 k.desc) 16 14)
      (((s.begun fn ring c k).2.opensLong (s.begun fn ring c k).1 2 (adCmp k.desc) (bits (adArg0 k.desc) 16 14) i [] []).readRanges
      (adPtr k.desc) (bits (adArg0 k.desc) 16 14) 0).1 = none) :=
  ⟨grant { Grants.none with rangeBlk := [0] } (mapped (loaded [0x64, 0, 0, 0, 0, 0x200, 0x10000, 0] [])), 0, 0, 0, 0, cand [0x64, 0, 0, 0, 0, 0x200, 0x10000, 0], by decide +kernel⟩

theorem witness_SlicesServeAndAreMaintained_1 : ∃ (s : State) (port cmp addr len q k i : Nat) (indic nc : Bool) (data : List Nat) (x : CLine),
    (0 < len ∧ lineOf addr = lineOf (addr + len - 1) ∧ s.ownsExtent cmp addr len = true) ∧
    (s.home cmp (lineOf addr) = some (q, i) ∧ s.missCount q < 256 ∧ s.lookup cmp (lineOf addr) = some (k, x)) :=
  ⟨(let s := grant { Grants.none with t1 := [0], slices := [0] } (mapped (ready [])); { s with syc := { s.syc with sets := [(1, [⟨3, 1, 0, 0, 1, none⟩])] } }), 9, 0, 255, 1, 0, 1, 1, false, false, [5], ⟨3, 1, 0, 0, 1, none⟩, by decide +kernel⟩

theorem witness_SlicesServeAndAreMaintained_2 : ∃ (s : State) (port cmp addr len q i : Nat) (indic nc : Bool) (data : List Nat),
    (0 < len ∧ lineOf addr = lineOf (addr + len - 1) ∧ s.ownsExtent cmp addr len = true) ∧
    (s.home cmp (lineOf addr) = some (q, i) ∧ s.missCount q < 256 ∧ s.lookup cmp (lineOf addr) = none) :=
  ⟨(let s := grant { Grants.none with t1 := [0], slices := [0] } (mapped (ready [])); s), 9, 0, 255, 1, 0, 1, false, false, [5], by decide +kernel⟩

theorem witness_SlicesServeAndAreMaintained_3 : ∃ (s : State) (m : Miss),
    (s.syc.misses.find? (fun x => x.id == m.id && x.slice == m.slice) = some m ∧ m.bytes = none) ∧
    (s.lookup m.cmp m.line = none ∧ m.stale = false ∧ m.place = false) :=
  ⟨(let s := grant { Grants.none with t1 := [0], slices := [0] } (mapped (ready [])); { s with syc := { s.syc with misses := [⟨7, 0, 9, 0, 1, 255, 1, false, false, false, none⟩] } }), ⟨7, 0, 9, 0, 1, 255, 1, false, false, false, none⟩, by decide +kernel⟩

theorem witness_SlicesServeAndAreMaintained_4a : ∃ (s : State) (cmp : Nat),
    (s.closed s.primaryFn (0x604010 + 0x20 * cmp) = false ∧ cmp < 32 ∧ s.rd .SYC_MT_BUSY cmp = 0) ∧
    (s.rd .SYC_MT_LEN cmp = 0 ∨ s.ownsExtent cmp (s.rd .SYC_MT_ADDR cmp) (s.rd .SYC_MT_LEN cmp) = true) ∧
    (s.rd .SYC_MT_OP cmp = 2) :=
  ⟨ready [(.SYC_MT_OP, 31, 2)], 31, by decide +kernel⟩

theorem witness_SlicesServeAndAreMaintained_4b : ∃ (s : State) (cmp : Nat),
    (s.closed s.primaryFn (0x604010 + 0x20 * cmp) = false ∧ cmp < 32 ∧ s.rd .SYC_MT_BUSY cmp = 0) ∧
    (s.rd .SYC_MT_LEN cmp = 0 ∨ s.ownsExtent cmp (s.rd .SYC_MT_ADDR cmp) (s.rd .SYC_MT_LEN cmp) = true) ∧
    (s.rd .SYC_MT_OP cmp = 3) :=
  ⟨ready [(.SYC_MT_OP, 31, 3)], 31, by decide +kernel⟩

theorem witness_SlicesServeAndAreMaintained_4c : ∃ (s : State) (cmp : Nat),
    (s.closed s.primaryFn (0x604010 + 0x20 * cmp) = false ∧ cmp < 32 ∧ s.rd .SYC_MT_BUSY cmp = 0) ∧
    (s.rd .SYC_MT_LEN cmp = 0 ∨ s.ownsExtent cmp (s.rd .SYC_MT_ADDR cmp) (s.rd .SYC_MT_LEN cmp) = true) ∧
    (s.rd .SYC_MT_OP cmp = 4) :=
  ⟨ready [(.SYC_MT_OP, 31, 4)], 31, by decide +kernel⟩

theorem witness_SlicesServeAndAreMaintained_4d : ∃ (s : State) (cmp : Nat),
    (s.closed s.primaryFn (0x604010 + 0x20 * cmp) = false ∧ cmp < 32 ∧ s.rd .SYC_MT_BUSY cmp = 0) ∧
    (s.rd .SYC_MT_LEN cmp = 0 ∨ s.ownsExtent cmp (s.rd .SYC_MT_ADDR cmp) (s.rd .SYC_MT_LEN cmp) = true) ∧
    (s.rd .SYC_MT_OP cmp = 1) :=
  ⟨ready [(.SYC_MT_OP, 31, 1)], 31, by decide +kernel⟩

theorem witness_SlicesServeAndAreMaintained_4 : ∃ (s : State) (cmp : Nat),
    (s.closed s.primaryFn (0x604010 + 0x20 * cmp) = false ∧ cmp < 32 ∧ s.rd .SYC_MT_BUSY cmp = 0) ∧
    (s.rd .SYC_MT_LEN cmp = 0 ∨ s.ownsExtent cmp (s.rd .SYC_MT_ADDR cmp) (s.rd .SYC_MT_LEN cmp) = true) :=
  ⟨ready [], 31, by decide +kernel⟩

theorem witness_SlicesServeAndAreMaintained_5a : ∃ (s : State) (cmp : Nat) (m : Maint),
    (s.syc.maint.find cmp = some m) ∧
    (m.pin = true) :=
  ⟨{ ready [] with syc := { (ready []).syc with maint := [(31, ⟨true, 7, [15], [1]⟩)] } }, 31, ⟨true, 7, [15], [1]⟩, by decide +kernel⟩

theorem witness_SlicesServeAndAreMaintained_5 : ∃ (s : State) (cmp : Nat) (m : Maint),
    (s.syc.maint.find cmp = some m) :=
  ⟨{ ready [] with syc := { (ready []).syc with maint := [(3, ⟨false, 7, [], []⟩)] } }, 3, ⟨false, 7, [], []⟩, by decide +kernel⟩

theorem witness_SlicesServeAndAreMaintained_6 : ∃ (s : State) (cmp win value : Nat),
    (s.closed s.primaryFn (0x60000C + 0x200 * cmp + 0x20 * win) = false ∧ cmp < 32 ∧ win < 16 ∧ value < 16) ∧
    (s.rd .SYC_MT_BUSY cmp = 0 ∧ value ≠ s.rd .SYC_WIN_PIN (winIx cmp win)) ∧
    (((List.range 16).map (fun w => if w = win then 0 else s.rd .SYC_WIN_PIN (winIx cmp w))).sum + value ≤ 8) :=
  ⟨ready [], 31, 15, 3, by decide +kernel⟩

theorem witness_TheHomeTracksRequests_1 : ∃ (s : State) (agent txn va age c : Nat) (indic : Bool) (x : Trans),
    (s.dieReaches agent va indic .read c x) :=
  ⟨(let s := grant { Grants.none with t1 := [0], slices := [0] } (ready [(.COH_AG_BOUND, 31, 1), (.COH_AG_LIVE, 31, 1), (.CMP_STATE, 0, 1), (.COH_WIN_UNITS, 0, 1)]); { s with xl := { s.xl with port := [(3, [⟨0, 0, 4096, 0, true, true, true, false, false, false, 0, 0, none, none⟩])] } }), 31, 1, 255, 0, 0, false, ⟨0, 0, 4096, 0, true, true, true, false, false, false, 0, 0, none, none⟩, by decide +kernel⟩

theorem witness_TheHomeTracksRequests_2 : ∃ (s : State) (agent txn va age c : Nat) (indic : Bool) (x : Trans),
    (s.dieReaches agent va indic .write c x) :=
  ⟨(let s := grant { Grants.none with t1 := [0], slices := [0] } (ready [(.COH_AG_BOUND, 31, 1), (.COH_AG_LIVE, 31, 1), (.CMP_STATE, 0, 1), (.COH_WIN_UNITS, 0, 1)]); { s with xl := { s.xl with port := [(3, [⟨0, 0, 4096, 0, true, true, true, false, false, false, 0, 0, none, none⟩])] } }), 31, 1, 255, 0, 0, false, ⟨0, 0, 4096, 0, true, true, true, false, false, false, 0, 0, none, none⟩, by decide +kernel⟩

theorem witness_TheHomeTracksRequests_3a : ∃ (s : State) (agent cmp txn addr age mask op fmt operand compare : Nat) (indic : Bool) (data : List Nat),
    (40 ≤ agent ∧ agent ≤ 44 ∧ s.ownsExtent cmp (lineOf addr * 128) 128 = true) ∧
    (atomPair op fmt = true ∧ addr % atomBytes fmt = 0) :=
  ⟨grant { Grants.none with t1 := [0] } (ready []), 40, 0, 1, 248, 0, 1, 1, 1, 5, 0, false, [7], by decide +kernel⟩

theorem witness_TheHomeTracksRequests_3 : ∃ (s : State) (agent cmp txn addr age mask op fmt operand compare : Nat) (indic : Bool) (data : List Nat),
    (40 ≤ agent ∧ agent ≤ 44 ∧ s.ownsExtent cmp (lineOf addr * 128) 128 = true) :=
  ⟨grant { Grants.none with t1 := [0] } (ready []), 44, 0, 1, 255, 0, 1, 1, 0, 5, 0, false, [7], by decide +kernel⟩

theorem witness_TheHomeTracksRequests_4 : ∃ (s : State) (agent word c : Nat),
    (isDie agent = true ∧ s.streamCmp agent = some c ∧ s.agentLive agent = true ∧ s.intakeOpen c = true) :=
  ⟨ready [(.COH_AG_BOUND, 31, 1), (.COH_AG_LIVE, 31, 1), (.COH_AG_CMP, 31, 3), (.CMP_STATE, 3, 1)], 31, 2047, 3, by decide +kernel⟩

theorem witness_TheHomeTracksRequests_5 : ∃ (s : State) (q : CohReq),
    (s.coh.retried.find? (fun x => x.agent == q.agent && x.txn == q.txn) = some q) :=
  ⟨{ ready [] with coh := { (ready []).coh with retried := [⟨4, 40, 1, 0, 1, 15, 128, [], 0, 0, 0, 0, 0⟩] } }, ⟨4, 40, 1, 0, 1, 15, 128, [], 0, 0, 0, 0, 0⟩, by decide +kernel⟩

theorem witness_TheHomeTracksRequests_6a : ∃ (s : State) (agent addr code : Nat) (t : Track) (poison : Bool) (data : List Nat),
    (s.trackFor (lineOf addr) agent = some t) ∧
    (t.direct = false ∧ t.crossed agent = false ∧ t.pend.all (fun p => p.agent != agent || !p.wb) = true) :=
  ⟨{ ready [] with coh := { (ready []).coh with tracks := [⟨⟨1, 5, 1, 0, 1, 0, 128, [], 0, 0, 0, 0, 0⟩, 0, none, [⟨3, 0x10, false, false⟩], false, true, false, 1, false⟩] } }, 3, 255, 1, ⟨⟨1, 5, 1, 0, 1, 0, 128, [], 0, 0, 0, 0, 0⟩, 0, none, [⟨3, 0x10, false, false⟩], false, true, false, 1, false⟩, false, [7], by decide +kernel⟩

theorem witness_TheHomeTracksRequests_6 : ∃ (s : State) (agent addr code : Nat) (t : Track) (poison : Bool) (data : List Nat),
    (s.trackFor (lineOf addr) agent = some t) :=
  ⟨{ ready [] with coh := { (ready []).coh with tracks := [⟨⟨1, 5, 1, 0, 1, 0, 128, [], 0, 0, 0, 0, 0⟩, 0, none, [⟨3, 0x10, false, false⟩], false, true, false, 1, false⟩] } }, 3, 255, 1, ⟨⟨1, 5, 1, 0, 1, 0, 128, [], 0, 0, 0, 0, 0⟩, 0, none, [⟨3, 0x10, false, false⟩], false, true, false, 1, false⟩, false, [7], by decide +kernel⟩

theorem witness_TheHomeTracksRequests_7 : ∃ (s : State) (agent addr c : Nat) (poison : Bool) (data : List Nat),
    (isDie agent = true ∧ s.streamCmp agent = some c ∧ s.agentLive agent = true ∧ s.ownsExtent c (lineOf addr * 128) 128 = true) ∧
    (s.trackFor (lineOf addr) agent = none ∧ s.ownerOf (lineOf addr) = some agent) :=
  ⟨(let s := ready [(.COH_AG_BOUND, 3, 1), (.COH_AG_LIVE, 3, 1)]; let u := grant { Grants.none with t1 := [0] } s; { u with coh := { u.coh with filter := [(1, ⟨some 3, [], 0⟩)] } }), 3, 255, 0, false, [7], by decide +kernel⟩

theorem witness_TheHomeTracksRequests_8 : ∃ (s : State) (agent addr requester : Nat) (poison : Bool) (data : List Nat) (t : Track),
    (s.coh.tracks.find? (fun t => t.req.line == lineOf addr && t.req.agent == requester && t.req.op == 4 && t.direct && !t.got) = some t) ∧
    (s.ownerOf (lineOf addr) = some agent) :=
  ⟨(let u := ready []; { u with coh := { u.coh with filter := [(1, ⟨some 3, [], 0⟩)], tracks := [⟨⟨4, 40, 1, 0, 1, 0, 128, [], 0, 0, 0, 0, 0⟩, 0, none, [], true, false, false, 0, false⟩] } }), 3, 255, 40, false, [7], ⟨⟨4, 40, 1, 0, 1, 0, 128, [], 0, 0, 0, 0, 0⟩, 0, none, [], true, false, false, 0, false⟩, by decide +kernel⟩

theorem witness_TheHomeTracksRequests_9 : ∃ (s : State) (port op addr : Nat) (poison : Bool) (data : List Nat) (t : Track),
    (port < 2 ∧ 0x30 ≤ op ∧ op ≤ 0x33) ∧
    (s.coh.tracks.find? (fun t => t.req.line == lineOf addr && t.req.agent == 32 + port && t.direct && !t.got) = some t ∧ t.granted = false) :=
  ⟨(let u := ready []; { u with coh := { u.coh with tracks := [⟨⟨1, 33, 1, 0, 1, 0, 128, [], 0, 0, 0, 0, 0⟩, 0, none, [], true, false, false, 1, false⟩] } }), 1, 0x33, 255, false, [7], ⟨⟨1, 33, 1, 0, 1, 0, 128, [], 0, 0, 0, 0, 0⟩, 0, none, [], true, false, false, 1, false⟩, by decide +kernel⟩

theorem witness_TheHomeTracksRequests_10 : ∃ (s : State) (agent addr : Nat) (t : Track),
    (s.coh.tracks.find? (fun t => t.req.line == lineOf addr && t.req.agent == agent && t.granted) = some t) :=
  ⟨(let u := ready []; { u with coh := { u.coh with tracks := [⟨⟨1, 3, 1, 0, 1, 0, 128, [], 0, 0, 0, 0, 0⟩, 0, none, [], false, false, false, 2, true⟩] } }), 3, 255, ⟨⟨1, 3, 1, 0, 1, 0, 128, [], 0, 0, 0, 0, 0⟩, 0, none, [], false, false, false, 2, true⟩, by decide +kernel⟩

theorem witness_TheHomeTracksRequests_11 : ∃ (s : State) (line a x : Nat),
    (s.coh.reserved.find line = some (a, x)) :=
  ⟨{ ready [] with coh := { (ready []).coh with reserved := [(7, (40, 1))] } }, 7, 40, 1, by decide +kernel⟩

theorem witness_TheHomeTracksRequests_12 : ∃ (s : State) (port tag fn addr : Nat),
    (port < 2) :=
  ⟨ready [], 1, 0, 0, 0, by decide +kernel⟩

theorem witness_TheHomeTracksRequests_13 : ∃ (s : State) (port addr : Nat) (shared : Bool) (t : Track),
    (port < 2 ∧ s.trackFor (lineOf addr) (32 + port) = some t) :=
  ⟨{ ready [] with coh := { (ready []).coh with tracks := [⟨⟨1, 5, 1, 0, 1, 0, 128, [], 0, 0, 0, 0, 0⟩, 0, none, [⟨33, 0x10, false, false⟩], false, true, false, 1, false⟩] } }, 1, 255, true, ⟨⟨1, 5, 1, 0, 1, 0, 128, [], 0, 0, 0, 0, 0⟩, 0, none, [⟨33, 0x10, false, false⟩], false, true, false, 1, false⟩, by decide +kernel⟩

theorem witness_CoherentLinesAreServed_1 : ∃ (s : State) (agent txn va age c slice i w : Nat) (x : Trans),
    (s.dieReaches agent va false .read c x ∧ (s.translate (agent / 8) c va false .read).2.2 = s) ∧
    (s.home c (lineOf (x.out + (va - x.base))) = some (slice, i) ∧ s.blocked (lineOf (x.out + (va - x.base))) = false ∧ s.trackCount slice < 64) ∧
    (s.coh.reserved.find (lineOf (x.out + (va - x.base))) = none ∧ s.fentry (lineOf (x.out + (va - x.base))) = none) ∧
    (s.cohWindow c (lineOf (x.out + (va - x.base))) = some w ∧ s.rd .COH_WIN_NO_E w = 0 ∧ (s.setLines c (lineOf (x.out + (va - x.base)))).length < 16) :=
  ⟨(let s := grant { Grants.none with t1 := [0], slices := [0] } (ready [(.COH_AG_BOUND, 31, 1), (.COH_AG_LIVE, 31, 1), (.CMP_STATE, 0, 1), (.COH_WIN_UNITS, 0, 1)]); { s with xl := { s.xl with port := [(3, [⟨0, 0, 4096, 0, true, true, true, false, false, false, 0, 0, none, none⟩])] } }), 31, 1, 255, 0, 0, 0, 1, 0, ⟨0, 0, 4096, 0, true, true, true, false, false, false, 0, 0, none, none⟩, by decide +kernel⟩

theorem witness_CoherentLinesAreServed_2 : ∃ (s : State) (agent addr : Nat) (t : Track),
    (s.coh.tracks.find? (fun t => t.req.line == lineOf addr && t.req.agent == agent && t.granted) = some t ∧ t.ends = 2) ∧
    (s.coh.reserved.find (lineOf addr) = none ∧ s.coh.starved = [] ∧ (∀ y ∈ s.coh.tracks, y.wait = none)) :=
  ⟨(let u := ready []; { u with coh := { u.coh with tracks := [⟨⟨1, 3, 1, 0, 1, 0, 128, [], 0, 0, 0, 0, 0⟩, 0, none, [], false, false, false, 2, true⟩] } }), 3, 255, ⟨⟨1, 3, 1, 0, 1, 0, 128, [], 0, 0, 0, 0, 0⟩, 0, none, [], false, false, false, 2, true⟩, by decide +kernel⟩

theorem witness_CoherentLinesAreServed_3 : ∃ (s : State) (agent cmp txn addr age slice i : Nat) (data : List Nat),
    (40 ≤ agent ∧ agent ≤ 44 ∧ s.ownsExtent cmp (lineOf addr * 128) 128 = true ∧ s.lineLost (lineOf addr) = false) ∧
    (s.home cmp (lineOf addr) = some (slice, i) ∧ s.blocked (lineOf addr) = false ∧ s.trackCount slice < 64) ∧
    (s.coh.reserved.find (lineOf addr) = none ∧ s.fentry (lineOf addr) = none) ∧
    (s.coh.starved = [] ∧ s.coh.hostQ = [] ∧ (∀ y ∈ s.coh.tracks, y.wait = none)) :=
  ⟨grant { Grants.none with t1 := [0], slices := [0] } (ready []), 40, 0, 1, 255, 0, 0, 1, [7], by decide +kernel⟩

theorem witness_CoherentLinesAreServed_4 : ∃ (s : State) (port metaV txn dpa c a : Nat),
    (port < 2 ∧ port ∈ s.pins.hostUp ∧ metaV < 3) ∧
    (s.dpaWindow port dpa = some (c, a)) :=
  ⟨ready [(.COH_WIN_HOST_B, 255, 1), (.COH_WIN_UNITS, 255, 1)], 1, 2, 0, 2 ^ 21 - 1, 31, 2 ^ 21 - 1, by decide +kernel⟩

theorem witness_CoherentLinesAreServed_5 : ∃ (s : State) (port metaV txn dpa : Nat),
    (port < 2 ∧ port ∈ s.pins.hostUp ∧ metaV < 3 ∧ s.dpaWindow port dpa = none) :=
  ⟨ready [], 1, 2, 0, 5, by decide +kernel⟩

theorem witness_CoherentLinesAreServed_6 : ∃ (s : State) (cmp : Nat),
    (s.rd .COH_WIN_BUSY cmp = 1 ∧ s.coh.tracks.any (fun t => t.req.op == 0x15 && t.req.cmp == cmp) = false) :=
  ⟨ready [(.COH_WIN_BUSY, 31, 1)], 31, by decide +kernel⟩

theorem witness_CoherentLinesAreServed_7a : ∃ (s : State) (port : Nat),
    (port < 4) ∧
    (port ∈ s.coh.dieUp) :=
  ⟨{ ready [] with coh := { (ready []).coh with dieUp := [3] } }, 3, by decide +kernel⟩

theorem witness_CoherentLinesAreServed_7 : ∃ (s : State) (port : Nat),
    (port < 4) :=
  ⟨ready [], 3, by decide +kernel⟩

theorem witness_LinksTrain_1a : ∃ (s : State) (l : Nat),
    (s.closed s.primaryFn (0xA00000 + 0x100 * l) = false ∧ l < 12) ∧
    (s.linkIs l .disabled = true ∧ bit (s.rd .PWR_GATE_PLK 0) l = false ∧ l ∉ s.pwr.ungating) :=
  ⟨ready [], 11, by decide +kernel⟩

theorem witness_LinksTrain_1b : ∃ (s : State) (l : Nat),
    (s.closed s.primaryFn (0xA00000 + 0x100 * l) = false ∧ l < 12) ∧
    (s.linkIs l .up = false) :=
  ⟨ready [], 11, by decide +kernel⟩

theorem witness_LinksTrain_1c : ∃ (s : State) (l : Nat),
    (s.closed s.primaryFn (0xA00000 + 0x100 * l) = false ∧ l < 12) ∧
    (s.linkIs l .failed = true) :=
  ⟨(ready []).setLink 11 .failed, 11, by decide +kernel⟩

theorem witness_LinksTrain_1 : ∃ (s : State) (l : Nat),
    (s.closed s.primaryFn (0xA00000 + 0x100 * l) = false ∧ l < 12) :=
  ⟨ready [], 11, by decide +kernel⟩

theorem witness_LinksTrain_2a : ∃ (s : State) (l : Nat),
    (l < 12) ∧
    (s.linkIs l .detect = true) :=
  ⟨(ready []).setLink 11 .detect, 11, by decide +kernel⟩

theorem witness_LinksTrain_2b : ∃ (s : State) (l : Nat),
    (l < 12) ∧
    (s.linkIs l .equalize = true) :=
  ⟨(ready []).setLink 11 .equalize, 11, by decide +kernel⟩

theorem witness_LinksTrain_2c : ∃ (s : State) (l : Nat),
    (l < 12) ∧
    (s.linkIs l .align = true) :=
  ⟨(ready []).setLink 11 .align, 11, by decide +kernel⟩

theorem witness_LinksTrain_2d : ∃ (s : State) (l : Nat),
    (l < 12) ∧
    (s.linkIs l .init = true) :=
  ⟨(ready []).setLink 11 .init, 11, by decide +kernel⟩

theorem witness_LinksTrain_2e : ∃ (s : State) (l : Nat),
    (l < 12) ∧
    (s.linkIs l .up = false) :=
  ⟨ready [], 11, by decide +kernel⟩

theorem witness_LinksTrain_2 : ∃ (s : State) (l : Nat),
    (l < 12) :=
  ⟨ready [], 11, by decide +kernel⟩

theorem witness_LinksTrain_3 : ∃ (s : State) (l serial far : Nat),
    (s.linkIs l .init = true ∧ serial < 2 ^ 64 ∧ far < 2 ^ 4) :=
  ⟨ready [(.PLK_LINK_STATE, 11, 4)], 11, 5, 6, by decide +kernel⟩

theorem witness_LinksTrain_4 : ∃ (s : State) (l : Nat),
    (s.linkIs l .up = true) :=
  ⟨ready [(.PLK_LINK_STATE, 11, 5)], 11, by decide +kernel⟩

theorem witness_SlotsCarryFlits_1 : ∃ (s : State) (l : Nat) (r : Round) (f : Flit) (rest : List Flit),
    (s.linkIs l .up = true ∧ (s.lnk l).txSlot ≤ s.slotNow ∧ (s.lnk l).round = some r ∧ r.left = f :: rest) :=
  ⟨(let s := ready [(.PLK_LINK_STATE, 11, 5)]; s.setLnk 11 { Lnk.idle with round := some ⟨[idleFlit 0 []], 0, 0, 0⟩ }), 11, ⟨[idleFlit 0 []], 0, 0, 0⟩, idleFlit 0 [], [], by decide +kernel⟩

theorem witness_SlotsCarryFlits_2a : ∃ (s : State) (l : Nat),
    (s.linkIs l .up = true ∧ (s.lnk l).txSlot ≤ s.slotNow ∧ (s.lnk l).round = none ∧ (s.lnk l).buf.length < 512) ∧
    (s.slotNow % 1024 = 0) :=
  ⟨ready [(.PLK_LINK_STATE, 11, 5)], 11, by decide +kernel⟩

theorem witness_SlotsCarryFlits_2 : ∃ (s : State) (l : Nat),
    (s.linkIs l .up = true ∧ (s.lnk l).txSlot ≤ s.slotNow ∧ (s.lnk l).round = none ∧ (s.lnk l).buf.length < 512) :=
  ⟨ready [(.PLK_LINK_STATE, 11, 5)], 11, by decide +kernel⟩

theorem witness_SlotsCarryFlits_3 : ∃ (s : State) (l : Nat) (f : Flit) (rest : List Flit),
    (s.linkIs l .up = true ∧ 512 ≤ (s.lnk l).full ∧ (s.lnk l).round = none ∧ (s.lnk l).buf = f :: rest) :=
  ⟨(let s := ready [(.PLK_LINK_STATE, 11, 5)]; s.setLnk 11 { Lnk.idle with buf := [idleFlit 0 []], full := 512 }), 11, idleFlit 0 [], [], by decide +kernel⟩

theorem witness_SlotsCarryFlits_4a : ∃ (s : State) (l : Nat) (r : Round) (f : Flit) (rest : List Flit),
    (s.linkIs l .up = true ∧ (s.lnk l).round = some r ∧ r.startNs + 2000 ≤ s.ns ∧ (s.lnk l).buf = f :: rest) ∧
    (r.failed < 7) :=
  ⟨(let s := ready [(.PLK_LINK_STATE, 11, 5)]; { s.setLnk 11 { Lnk.idle with buf := [idleFlit 0 []], round := some ⟨[], 0, 0, 6⟩ } with ns := 2000 }), 11, ⟨[], 0, 0, 6⟩, idleFlit 0 [], [], by decide +kernel⟩

theorem witness_SlotsCarryFlits_4b : ∃ (s : State) (l : Nat) (r : Round) (f : Flit) (rest : List Flit),
    (s.linkIs l .up = true ∧ (s.lnk l).round = some r ∧ r.startNs + 2000 ≤ s.ns ∧ (s.lnk l).buf = f :: rest) ∧
    (7 ≤ r.failed) :=
  ⟨(let s := ready [(.PLK_LINK_STATE, 11, 5)]; { s.setLnk 11 { Lnk.idle with buf := [idleFlit 0 []], round := some ⟨[], 0, 0, 7⟩ } with ns := 2000 }), 11, ⟨[], 0, 0, 7⟩, idleFlit 0 [], [], by decide +kernel⟩

theorem witness_SlotsCarryFlits_4 : ∃ (s : State) (l : Nat) (r : Round) (f : Flit) (rest : List Flit),
    (s.linkIs l .up = true ∧ (s.lnk l).round = some r ∧ r.startNs + 2000 ≤ s.ns ∧ (s.lnk l).buf = f :: rest) :=
  ⟨(let s := ready [(.PLK_LINK_STATE, 11, 5)]; { s.setLnk 11 { Lnk.idle with buf := [idleFlit 0 []], round := some ⟨[], 0, 0, 7⟩ } with ns := 2000 }), 11, ⟨[], 0, 0, 7⟩, idleFlit 0 [], [], by decide +kernel⟩

theorem witness_SlotsCarryFlits_5 : ∃ (s : State) (l pos corrected : Nat) (crcOk tagOk : Bool) (f : Flit),
    (s.linkIs l .up = true ∧ (s.lnk l).gap = false) :=
  ⟨ready [(.PLK_LINK_STATE, 11, 5)], 11, 0, 0, true, true, idleFlit 0 [], by decide +kernel⟩

theorem witness_SlotsCarryFlits_6 : ∃ (s : State) (l pos : Nat) (tagOk : Bool) (f : Flit),
    (s.linkIs l .up = true ∧ flitLegal (s.mapOf l f) pos f = true ∧ f.seq = (s.lnk l).rxNext ∧ f.nak = false ∧ f.typ ≠ 1 ∧ f.credCount = 0) :=
  ⟨ready [(.PLK_LINK_STATE, 11, 5)], 11, 5, true, { idleFlit 0 [] with slot := 5 }, by decide +kernel⟩

theorem witness_SlotsCarryFlits_7 : ∃ (s : State) (l : Nat) (ws : List Nat),
    (s.plk.next.find l = some ws ∧ word ws 1 * 25 ≤ s.slotNow / 1024 * 1024 * 32) :=
  ⟨{ ready [] with plk := { (ready []).plk with next := [(11, [1])] } }, 11, [1], by decide +kernel⟩

theorem witness_PlansAndRoutesAreLoaded_1 : ∃ (s : State) (fn ring c i : Nat) (k : Cand) (bs : List Byte),
    (s.starts fn ring 0x64 c k ∧ adKind k.desc = 4 ∧ fn = s.primaryFn ∧ (s.begun fn ring c k).2.rd .BOOT_FAWN 0 = 0 ∧ adCmp k.desc = 0 ∧ adPtr k.desc % 64 = 0) ∧
    ((s.begun fn ring c k).2.longBusy 0x64 0 = false ∧ (s.begun fn ring c k).2.claimSlot = some i) ∧
    ((((s.begun fn ring c k).2.opensLong (s.begun fn ring c k).1 4 0 0 i [] []).adminRead true (adPtr k.desc) 3136).1 = .ok bs) ∧
    ((((s.begun fn ring c k).2.opensLong (s.begun fn ring c k).1 4 0 0 i [] []).adminRead true (adPtr k.desc) 3136).2.planCheck (wordsOf 392 bs) = (0, 0)) :=
  ⟨(let s := mapped (loaded [0x64, 0, 0, 0, 0, 0x400, 0, 0] []); { s with mem := { s.mem with acc := [(0, 1), (5, 1), (8, 1)] } }), 0, 0, 0, 0, cand [0x64, 0, 0, 0, 0, 0x400, 0, 0], (List.range 3136).map (Mem.byte [(0, 1), (5, 1), (8, 1)]), by decide +kernel⟩

theorem witness_PlansAndRoutesAreLoaded_2 : ∃ (s : State) (fn ring c i : Nat) (k : Cand) (bs : List Byte),
    (s.starts fn ring 0x64 c k ∧ adKind k.desc = 3 ∧ fn = s.primaryFn ∧ (s.begun fn ring c k).2.rd .BOOT_FAWN 0 = 0 ∧ adPtr k.desc % 64 = 0) ∧
    ((s.begun fn ring c k).2.longBusy 0x64 (adCmp k.desc) = false ∧ (s.begun fn ring c k).2.claimSlot = some i) ∧
    ((((s.begun fn ring c k).2.opensLong (s.begun fn ring c k).1 3 (adCmp k.desc) 0 i [] []).adminRead true (adPtr k.desc) 256).1 = .ok bs) ∧
    ((((s.begun fn ring c k).2.opensLong (s.begun fn ring c k).1 3 (adCmp k.desc) 0 i [] []).adminRead true (adPtr k.desc) 256).2.routesOk
      (adCmp k.desc) (bs.map BitVec.toNat) = true) :=
  ⟨(let s := mapped (loaded [0x64, 0, 0, 0, 0, 0x300, 0, 0] []); { s with mem := { s.mem with acc := [(0, 0xEE)] } }), 0, 0, 0, 0, cand [0x64, 0, 0, 0, 0, 0x300, 0, 0], (List.range 256).map (Mem.byte [(0, 0xEE)]), by decide +kernel⟩

theorem witness_RollCallsAreAnswered_1 : ∃ (s : State) (fn ring c i : Nat) (k : Cand),
    (s.starts fn ring 0x69 c k ∧ fn = s.primaryFn ∧ (s.begun fn ring c k).2.rd .BOOT_FAWN 0 = 0 ∧ s.plk.roll = none) ∧
    ((s.begun fn ring c k).2.longBusy 0x69 0 = false ∧ (s.begun fn ring c k).2.claimSlot = some i) ∧
    (0 < bits (adArg0 k.desc) 0 5 ∧ bits (adArg0 k.desc) 0 5 ≤ 16 ∧ adPtr k.desc % 64 = 0) :=
  ⟨loaded [0x69, 0, 0, 0, 0, 0, 16, 0] [], 0, 0, 0, 0, cand [0x69, 0, 0, 0, 0, 0, 16, 0], by decide +kernel⟩

theorem witness_RollCallsAreAnswered_2 : ∃ (s : State) (l since : Nat) (stop : Option Nat),
    (s.linkIs l .up = true) :=
  ⟨ready [(.PLK_LINK_STATE, 11, 5)], 11, 0, none, by decide +kernel⟩

theorem witness_RollCallsAreAnswered_3 : ∃ (s : State) (j jid : Nat) (xs : List LinkSeen) (r : Roll),
    (s.plk.roll = some r ∧ r.queue.head? = some j) :=
  ⟨(let s := ready []; { s with plk := { s.plk with roll := some { slot := 0, limit := 3, start := 0, stop := 0, ls := [], queue := [1, 2], closing := false, cut := false, js := [] } } }), 1, 7, [], { slot := 0, limit := 3, start := 0, stop := 0, ls := [], queue := [1, 2], closing := false, cut := false, js := [] }, by decide +kernel⟩

theorem witness_RemoteDescriptorsQueueTheirMessages_1 : ∃ (s : State) (fn ring c : Nat) (k : Cand) (q : Qp),
    (s.starts fn ring 0x40 c k) ∧
    ((s.begun fn ring c k).2.net.qps.find (rmQp k.desc) = some q ∧ q.owner = fn ∧ q.indic = dIndic k.desc) :=
  ⟨(let s := grant { Grants.none with qpBlk := [0] } (loaded [0x40, 0, 0, 0, 0, 0, 0, 5] []); s.setQp 5 { Qp.fresh false false 0 0 0 0 0 0 with state := 3, timeout := 5 }), 0, 0, 0, cand [0x40, 0, 0, 0, 0, 0, 0, 5], { Qp.fresh false false 0 0 0 0 0 0 with state := 3, timeout := 5 }, by decide +kernel⟩

theorem witness_RemoteDescriptorsQueueTheirMessages_2 : ∃ (s : State) (fn ring c : Nat) (k : Cand) (q : Qp),
    (s.starts fn ring 0x41 c k) ∧
    ((s.begun fn ring c k).2.net.qps.find (rmQp k.desc) = some q ∧ q.owner = fn ∧ q.indic = dIndic k.desc) :=
  ⟨(let s := grant { Grants.none with qpBlk := [0] } (loaded [0x41, 0, 0, 0, 0, 0, 8, 5] []); s.setQp 5 { Qp.fresh false false 0 0 0 0 0 0 with state := 3, timeout := 5 }), 0, 0, 0, cand [0x41, 0, 0, 0, 0, 0, 8, 5], { Qp.fresh false false 0 0 0 0 0 0 with state := 3, timeout := 5 }, by decide +kernel⟩

theorem witness_RemoteDescriptorsQueueTheirMessages_3 : ∃ (s : State) (fn ring c : Nat) (k : Cand) (q : Qp),
    (s.starts fn ring 0x42 c k) ∧
    ((s.begun fn ring c k).2.net.qps.find (rmQp k.desc) = some q ∧ q.owner = fn ∧ q.indic = dIndic k.desc) :=
  ⟨(let s := grant { Grants.none with qpBlk := [0] } (loaded [0x42, 0, 0, 0, 0, 0, 0, 5] []); s.setQp 5 { Qp.fresh false false 0 0 0 0 0 0 with state := 3, timeout := 5 }), 0, 0, 0, cand [0x42, 0, 0, 0, 0, 0, 0, 5], { Qp.fresh false false 0 0 0 0 0 0 with state := 3, timeout := 5 }, by decide +kernel⟩

theorem witness_RemoteDescriptorsQueueTheirMessages_4 : ∃ (s : State) (fn ring c : Nat) (k : Cand) (q : Qp),
    (s.starts fn ring 0x43 c k) ∧
    ((s.begun fn ring c k).2.net.qps.find (rmQp k.desc) = some q ∧ q.owner = fn ∧ q.indic = dIndic k.desc) :=
  ⟨(let s := grant { Grants.none with qpBlk := [0] } (loaded [0x43, 0, 0, 0, 0, 5, 0, 0x10005] []); s.setQp 5 { Qp.fresh false false 0 0 0 0 0 0 with state := 3, timeout := 5 }), 0, 0, 0, cand [0x43, 0, 0, 0, 0, 5, 0, 0x10005], { Qp.fresh false false 0 0 0 0 0 0 with state := 3, timeout := 5 }, by decide +kernel⟩

theorem witness_QueuePairsAreManaged_1 : ∃ (s : State) (fn c : Nat),
    (s.netFree fn = true ∧ s.fnCmp fn = some c ∧ isMgr fn = true) ∧
    (s.qpMine fn (bits (s.arg fn 0) 0 16) = true ∧ s.net.qps.find (bits (s.arg fn 0) 0 16) = none) ∧
    (¬(bit (s.arg fn 0) 16 = true ∧ bit (s.arg fn 0) 17 = true) ∧ s.ownsPd fn (bits (s.arg fn 1) 0 12) = true) ∧
    ((s.net.srqs.find (bits (s.arg fn 1) 16 12)).map (·.owner) = some fn ∧ (s.net.cqs.find (bits (s.arg fn 2) 0 14)).map (·.owner) = some fn) :=
  ⟨(let s := grant { Grants.none with qpBlk := [127] } (ready [(.NET_ARG, 0, 0xFFFF), (.NET_ARG, 1, 0x20003), (.NET_ARG, 2, 4)]); { s with net := { s.net with pds := [(3, 1)], srqs := [(2, ⟨0, 0, 4, 0, 0, 0, 0, true⟩)], cqs := [(4, ⟨0, 0, 4, false, none, 0, none, 1, 0, 0⟩)] } }), 0, 0, by decide +kernel⟩

theorem witness_QueuePairsAreManaged_2a : ∃ (s : State) (fn : Nat) (q : Qp),
    (s.netFree fn = true ∧ s.qpMine fn (bits (s.arg fn 0) 0 16) = true) ∧
    (s.net.qps.find (bits (s.arg fn 0) 0 16) = some q ∧ q.owner = fn) ∧
    (q.state = 0 ∧ bits (s.arg fn 0) 16 3 = 1 ∧ bits (s.arg fn 0) 0 16 ∉ s.sec.used) :=
  ⟨(let s := grant { Grants.none with qpBlk := [0] } (ready [(.NET_ARG, 0, 65541)]); s.setQp 5 { Qp.fresh false false 0 0 0 0 0 0 with state := 0, timeout := 5 }), 0, { Qp.fresh false false 0 0 0 0 0 0 with state := 0, timeout := 5 }, by decide +kernel⟩

theorem witness_QueuePairsAreManaged_2b : ∃ (s : State) (fn : Nat) (q : Qp),
    (s.netFree fn = true ∧ s.qpMine fn (bits (s.arg fn 0) 0 16) = true) ∧
    (s.net.qps.find (bits (s.arg fn 0) 0 16) = some q ∧ q.owner = fn) ∧
    (q.state = 4 ∧ bits (s.arg fn 0) 16 3 = 0) :=
  ⟨(let s := grant { Grants.none with qpBlk := [0] } (ready [(.NET_ARG, 0, 5)]); s.setQp 5 { Qp.fresh false false 0 0 0 0 0 0 with state := 4, timeout := 5 }), 0, { Qp.fresh false false 0 0 0 0 0 0 with state := 4, timeout := 5 }, by decide +kernel⟩

theorem witness_QueuePairsAreManaged_2c : ∃ (s : State) (fn : Nat) (q : Qp),
    (s.netFree fn = true ∧ s.qpMine fn (bits (s.arg fn 0) 0 16) = true) ∧
    (s.net.qps.find (bits (s.arg fn 0) 0 16) = some q ∧ q.owner = fn) ∧
    (q.state < 4 ∧ bits (s.arg fn 0) 16 3 = 4) :=
  ⟨(let s := grant { Grants.none with qpBlk := [0] } (ready [(.NET_ARG, 0, 262149)]); s.setQp 5 { Qp.fresh false false 0 0 0 0 0 0 with state := 3, timeout := 5 }), 0, { Qp.fresh false false 0 0 0 0 0 0 with state := 3, timeout := 5 }, by decide +kernel⟩

theorem witness_QueuePairsAreManaged_2 : ∃ (s : State) (fn : Nat) (q : Qp),
    (s.netFree fn = true ∧ s.qpMine fn (bits (s.arg fn 0) 0 16) = true) ∧
    (s.net.qps.find (bits (s.arg fn 0) 0 16) = some q ∧ q.owner = fn) :=
  ⟨(let s := grant { Grants.none with qpBlk := [0] } (ready [(.NET_ARG, 0, 5)]); s.setQp 5 { Qp.fresh false false 0 0 0 0 0 0 with state := 3, timeout := 5 }), 0, { Qp.fresh false false 0 0 0 0 0 0 with state := 3, timeout := 5 }, by decide +kernel⟩

theorem witness_QueuePairsAreManaged_3 : ∃ (s : State) (fn : Nat),
    (s.netFree fn = true ∧ s.qpMine fn (bits (s.arg fn 0) 0 16) = false) :=
  ⟨ready [], 0, by decide +kernel⟩

theorem witness_RemoteObjectsAreAllocated_1 : ∃ (s : State) (fn c n : Nat),
    (s.netFree fn = true ∧ s.fnCmp fn = some c) ∧
    (lowestFree (s.grants c).pdBlk 32 (fun i => (s.net.pds.find i).isSome) = some n) :=
  ⟨(let s := grant { Grants.none with pdBlk := [127] } (ready []); { s with net := { s.net with pds := [(4064, 9)] } }), 0, 0, 4065, by decide +kernel⟩

theorem witness_RemoteObjectsAreAllocated_2 : ∃ (s : State) (fn c : Nat),
    (s.netFree fn = true ∧ s.fnCmp fn = some c) ∧
    (lowestFree (s.grants c).pdBlk 32 (fun i => (s.net.pds.find i).isSome) = none) :=
  ⟨ready [], 0, 0, by decide +kernel⟩

theorem witness_RemoteObjectsAreAllocated_3 : ∃ (s : State) (fn : Nat),
    (s.netFree fn = true ∧ s.ownsPd fn (bits (s.arg fn 0) 0 12) = true) ∧
    (s.net.qps = [] ∧ s.net.keys = []) :=
  ⟨(let s := ready [(.NET_ARG, 0, 9)]; { s with net := { s.net with pds := [(9, 1)] } }), 0, by decide +kernel⟩

theorem witness_RemoteObjectsAreAllocated_4 : ∃ (s : State) (fn c n : Nat),
    (s.netFree fn = true ∧ s.fnCmp fn = some c) ∧
    (4 ≤ bits (s.arg fn 2) 0 5 ∧ bits (s.arg fn 2) 0 5 ≤ 16 ∧ s.arg2 fn 0 % 1024 = 0 ∧ s.arg2 fn 0 < 2 ^ 57 ∧ bit (s.arg fn 2) 6 = false ∧ bit (s.arg fn 3) 31 = false) ∧
    (s.rd .NET_CQ_SLOT_VALID (64 * fn + bits (s.arg fn 3) 0 6) = 0 ∧ lowestFree (s.grants c).cqBlk 128 (fun i => (s.net.cqs.find i).isSome) = some n) :=
  ⟨grant { Grants.none with cqBlk := [127] } (ready [(.NET_ARG, 0, 1024), (.NET_ARG, 2, 16), (.NET_ARG, 3, 63)]), 0, 0, 16256, by decide +kernel⟩

theorem witness_RemoteObjectsAreAllocated_5 : ∃ (s : State) (fn : Nat) (q : Cq),
    (s.netFree fn = true ∧ s.net.cqs.find (bits (s.arg fn 0) 0 14) = some q ∧ q.owner = fn) ∧
    (s.net.qps.any (fun e => e.2.cq == bits (s.arg fn 0) 0 14) = false) :=
  ⟨(let s := ready [(.NET_ARG, 0, 9)]; s.setCq 9 ⟨0, 0, 4, false, none, 0, none, 1, 0, 0⟩), 0, ⟨0, 0, 4, false, none, 0, none, 1, 0, 0⟩, by decide +kernel⟩

theorem witness_RemoteObjectsAreAllocated_6 : ∃ (s : State) (fn c n : Nat),
    (s.netFree fn = true ∧ s.fnCmp fn = some c) ∧
    (4 ≤ bits (s.arg fn 2) 0 5 ∧ bits (s.arg fn 2) 0 5 ≤ 16 ∧ s.arg2 fn 0 % 1024 = 0 ∧ s.arg2 fn 0 < 2 ^ 57) ∧
    (s.rd .NET_SRQ_SLOT_VALID (64 * fn + bits (s.arg fn 3) 0 6) = 0 ∧ lowestFree (s.grants c).srqBlk 32 (fun i => (s.net.srqs.find i).isSome) = some n) :=
  ⟨grant { Grants.none with srqBlk := [127] } (ready [(.NET_ARG, 0, 1024), (.NET_ARG, 2, 4), (.NET_ARG, 3, 0x5003F)]), 0, 0, 4064, by decide +kernel⟩

theorem witness_RemoteObjectsAreAllocated_7 : ∃ (s : State) (fn : Nat) (q : Srq),
    (s.netFree fn = true ∧ s.net.srqs.find (bits (s.arg fn 0) 0 12) = some q ∧ q.owner = fn) ∧
    (s.net.qps.any (fun e => e.2.srq == bits (s.arg fn 0) 0 12) = false) :=
  ⟨(let s := ready [(.NET_ARG, 0, 9)]; s.setSrq 9 ⟨0, 0, 4, 0, 0, 0, 0, true⟩), 0, ⟨0, 0, 4, 0, 0, 0, 0, true⟩, by decide +kernel⟩

theorem witness_RemoteObjectsAreAllocated_8 : ∃ (s : State) (fn c i : Nat),
    (s.netFree fn = true ∧ s.fnCmp fn = some c) ∧
    (1 ≤ s.arg2 fn 2 ∧ s.arg2 fn 2 ≤ 2 ^ 46 ∧ s.arg2 fn 0 + s.arg2 fn 2 ≤ 2 ^ 57 ∧ s.ownsPd fn (bits (s.arg fn 4) 0 12) = true ∧ bit (s.arg fn 4) 19 = false) ∧
    (lowestFree (s.grants c).keyBlk 2048 (fun i => (s.key i).state != 0) = some i) :=
  ⟨(let s := grant { Grants.none with keyBlk := [127] } (ready [(.NET_ARG, 2, 4096), (.NET_ARG, 4, 0x30009)]); { s with net := { s.net with pds := [(9, 1)] } }), 0, 0, 260096, by decide +kernel⟩

theorem witness_RemoteObjectsAreAllocated_9 : ∃ (s : State) (fn c i : Nat),
    (s.netFree fn = true ∧ s.fnCmp fn = some c) ∧
    ((s.key (bits (s.arg fn 0) 0 24)).state = 1 ∧ (s.key (bits (s.arg fn 0) 0 24)).window = false ∧ (s.key (bits (s.arg fn 0) 0 24)).gen = bits (s.arg fn 0) 24 8 ∧ (s.key (bits (s.arg fn 0) 0 24)).owner = fn) ∧
    (1 ≤ s.arg2 fn 3 ∧ s.arg2 fn 1 + s.arg2 fn 3 ≤ (s.key (bits (s.arg fn 0) 0 24)).len ∧ bit (s.arg fn 6) 16 = true) ∧
    ((bit (s.arg fn 5) 0 = true → (s.key (bits (s.arg fn 0) 0 24)).r = true) ∧ (bit (s.arg fn 5) 1 = true → (s.key (bits (s.arg fn 0) 0 24)).w = true) ∧ (bit (s.arg fn 5) 2 = true → (s.key (bits (s.arg fn 0) 0 24)).a = true)) ∧
    (lowestFree (s.grants c).keyBlk 2048 (fun i => (s.key i).state != 0) = some i) :=
  ⟨(let s := grant { Grants.none with keyBlk := [127] } (ready [(.NET_ARG, 0, 0x0103F800), (.NET_ARG, 3, 4096), (.NET_ARG, 5, 1), (.NET_ARG, 6, 0x10000)]); s.setKey 0x3F800 ⟨1, false, true, true, true, false, 1, 9, 0, 0, 4096, 0, none⟩), 0, 0, 0x3F801, by decide +kernel⟩

theorem witness_KeysAreRevoked_1 : ∃ (s : State) (fn : Nat),
    (s.netFree fn = true ∧ bits (s.arg fn 0) 0 24 < 262144) ∧
    ((s.key (bits (s.arg fn 0) 0 24)).owner = fn ∧ (s.key (bits (s.arg fn 0) 0 24)).state = 1 ∧ (s.key (bits (s.arg fn 0) 0 24)).gen = bits (s.arg fn 0) 24 8) ∧
    (bits (s.arg fn 0) 0 24 ∉ s.windowsOf (bits (s.arg fn 0) 0 24)) :=
  ⟨(let s := ready [(.NET_ARG, 0, 0x0103FFFF)]; s.setKey 0x3FFFF ⟨1, false, true, true, true, false, 1, 9, 0, 0, 4096, 0, none⟩), 0, by decide +kernel⟩

theorem witness_KeysAreRevoked_2 : ∃ (s : State) (key : Nat),
    (s.closed s.primaryFn 0xB91000 = false ∧ s.rd .NET_MGR_REV_BUSY 0 = 0 ∧ bits key 0 24 < 262144) ∧
    ((s.key (bits key 0 24)).state = 1 ∧ (s.key (bits key 0 24)).gen = bits key 24 8 ∧ isMgr (s.key (bits key 0 24)).owner = false ∧ portOf (s.key (bits key 0 24)).owner = portOf s.primaryFn) :=
  ⟨(ready []).setKey 0x3FFFF { (⟨1, false, true, true, true, false, 1, 9, 0, 0, 4096, 0, none⟩ : Key) with owner := 1 }, 0x0103FFFF, by decide +kernel⟩

theorem witness_KeysAreRevoked_3 : ∃ (s : State) (fn : Nat) (is : List Nat),
    (s.net.revoking.find fn = some is ∧ s.keysQuiet is = true) :=
  ⟨{ ready [] with net := { (ready []).net with revoking := [(3, [7])] } }, 3, [7], by decide +kernel⟩

theorem witness_KeysAreRevoked_4 : ∃ (s : State) (cmp id : Nat) (r : RxMsg) (m : Msg),
    (s.nextRequest cmp id = some (r, m) ∧ r.via < 16 ∧ m.op = 1 ∧ isBell m = false) ∧
    ((s.key m.keyIx).state ≠ 1 ∨ (s.key m.keyIx).gen ≠ m.keyGen) :=
  ⟨(ready []).setRx 3 [⟨7, 2, 3, false, 0, 9, 0, [], some { plainMsg 1 5 6 with len := 8, keyIx := 7, keyGen := 1 }, true, true⟩], 3, 7, ⟨7, 2, 3, false, 0, 9, 0, [], some { plainMsg 1 5 6 with len := 8, keyIx := 7, keyGen := 1 }, true, true⟩, { plainMsg 1 5 6 with len := 8, keyIx := 7, keyGen := 1 }, by decide +kernel⟩

theorem witness_RemoteOrdersAndDoorbells_1a : ∃ (s : State) (issuer fn n : Nat) (q : Qp),
    (s.closed issuer (0x30002C + 0x100 * fn) = false ∧ entitled issuer fn = true ∧ issuer ≠ fn) ∧
    (s.net.qps.find n = some q ∧ q.owner = fn) ∧
    (q.state = 4) :=
  ⟨(ready []).setQp 5 { Qp.fresh false false 1 0 0 0 0 0 with state := 4 }, 0, 1, 5, { Qp.fresh false false 1 0 0 0 0 0 with state := 4 }, by decide +kernel⟩

theorem witness_RemoteOrdersAndDoorbells_1b : ∃ (s : State) (issuer fn n : Nat) (q : Qp),
    (s.closed issuer (0x30002C + 0x100 * fn) = false ∧ entitled issuer fn = true ∧ issuer ≠ fn) ∧
    (s.net.qps.find n = some q ∧ q.owner = fn) ∧
    (q.state ≠ 4) :=
  ⟨(ready []).setQp 5 { Qp.fresh false false 1 0 0 0 0 0 with state := 3 }, 0, 1, 5, { Qp.fresh false false 1 0 0 0 0 0 with state := 3 }, by decide +kernel⟩

theorem witness_RemoteOrdersAndDoorbells_1 : ∃ (s : State) (issuer fn n : Nat) (q : Qp),
    (s.closed issuer (0x30002C + 0x100 * fn) = false ∧ entitled issuer fn = true ∧ issuer ≠ fn) ∧
    (s.net.qps.find n = some q ∧ q.owner = fn) :=
  ⟨(ready []).setQp 5 { Qp.fresh false false 1 0 0 0 0 0 with state := 4 }, 0, 1, 5, { Qp.fresh false false 1 0 0 0 0 0 with state := 4 }, by decide +kernel⟩

theorem witness_RemoteOrdersAndDoorbells_2 : ∃ (s : State) (fn slot count : Nat) (q : Srq),
    (slot < 64 ∧ s.bellBlocked fn = false ∧ count < 2 ^ 32 ∧ (isMgr fn = true ∨ s.rd .INS_RESET_BUSY fn = 0)) ∧
    (s.rd .NET_SRQ_SLOT_VALID (64 * fn + slot) = 1 ∧ s.net.srqs.find (s.rd .NET_SRQ_SLOT (64 * fn + slot)) = some q) ∧
    (diff32 count q.cons ≤ 2 ^ q.log2 ∧ diff32 count q.prod ≤ 2 ^ q.log2) :=
  ⟨(let s := ready [(.NET_SRQ_SLOT_VALID, 63, 1), (.NET_SRQ_SLOT, 63, 9)]; s.setSrq 9 ⟨0, 0, 4, 63, 0, 0, 0, true⟩), 0, 63, 16, ⟨0, 0, 4, 63, 0, 0, 0, true⟩, by decide +kernel⟩

theorem witness_RemoteOrdersAndDoorbells_3 : ∃ (s : State) (fn slot count : Nat) (q : Cq),
    (slot < 64 ∧ s.bellBlocked fn = false ∧ count < 2 ^ 32 ∧ (isMgr fn = true ∨ s.rd .INS_RESET_BUSY fn = 0)) ∧
    (s.rd .NET_CQ_SLOT_VALID (64 * fn + slot) = 1 ∧ s.net.cqs.find (s.rd .NET_CQ_SLOT (64 * fn + slot)) = some q) ∧
    (diff32 q.prod count ≤ 2 ^ q.log2) :=
  ⟨(let s := ready [(.NET_CQ_SLOT_VALID, 63, 1), (.NET_CQ_SLOT, 63, 9)]; s.setCq 9 ⟨0, 0, 4, false, none, 63, none, 1, 16, 0⟩), 0, 63, 16, ⟨0, 0, 4, false, none, 63, none, 1, 16, 0⟩, by decide +kernel⟩

theorem witness_RemoteOrdersAndDoorbells_4 : ∃ (s : State) (fn r : Nat) (rest : List Nat),
    (s.barsBlocked fn = false ∧ s.closed fn (if isMgr fn then 0xB80030 else 0x50030) = false ∧ s.aeq fn = r :: rest) :=
  ⟨{ ready [] with net := { (ready []).net with aeq := [(0, [2 ^ 40 + 5])] } }, 0, 2 ^ 40 + 5, [], by decide +kernel⟩

theorem witness_MessagesAreTakenAndAnswered_1 : ∃ (s : State) (cmp id : Nat) (r : RxMsg) (m : Msg),
    (s.nextRequest cmp id = some (r, m)) :=
  ⟨(ready []).setRx 3 [⟨7, 2, 3, false, 0, 9, 0, [], some { plainMsg 1 5 6 with len := 8, keyIx := 7, keyGen := 1 }, true, true⟩], 3, 7, ⟨7, 2, 3, false, 0, 9, 0, [], some { plainMsg 1 5 6 with len := 8, keyIx := 7, keyGen := 1 }, true, true⟩, { plainMsg 1 5 6 with len := 8, keyIx := 7, keyGen := 1 }, by decide +kernel⟩

theorem witness_MessagesAreTakenAndAnswered_2 : ∃ (s : State) (n : Nat) (q : Qp) (p : Passed) (rest : List Passed) (outcome : Outcome3),
    (s.net.qps.find n = some q ∧ q.passed = p :: rest ∧ p.cqe = none ∧ p.tag = none ∧ (q.state = 2 ∨ q.state = 3)) :=
  ⟨(ready []).setQp 5 { Qp.fresh false false 0 0 0 0 0 0 with state := 3, passed := [⟨0, 0, [plainMsg 0x12 5 6], 0, none, none, false, false⟩] }, 5, { Qp.fresh false false 0 0 0 0 0 0 with state := 3, passed := [⟨0, 0, [plainMsg 0x12 5 6], 0, none, none, false, false⟩] }, ⟨0, 0, [plainMsg 0x12 5 6], 0, none, none, false, false⟩, [], .ok, by decide +kernel⟩

theorem witness_MessagesAreTakenAndAnswered_3 : ∃ (s : State) (cmp id : Nat) (r : RxMsg) (m : Msg),
    ((s.rxOf cmp).find? (fun r => r.id == id) = some r ∧ r.msg = some m ∧ msgIsRsp m = true ∧ s.net.qps.find m.dstQp = none) :=
  ⟨(ready []).setRx 3 [⟨7, 2, 3, false, 0, 9, 0, [], some (plainMsg 0x12 5 6), true, true⟩], 3, 7, ⟨7, 2, 3, false, 0, 9, 0, [], some (plainMsg 0x12 5 6), true, true⟩, plainMsg 0x12 5 6, by decide +kernel⟩

theorem witness_MessagesAreTakenAndAnswered_4 : ∃ (s : State) (cmp id : Nat) (r : RxMsg) (m : Msg) (q : Qp),
    ((s.rxOf cmp).find? (fun r => r.id == id) = some r ∧ r.msg = some m ∧ msgIsRsp m = true ∧ s.net.qps.find m.dstQp = some q) ∧
    (q.cmp = cmp ∧ q.net = false ∧ r.via < 16 ∧ (q.state = 2 ∨ q.state = 3)) :=
  ⟨((ready []).setQp 6 { Qp.fresh false false 0 0 0 0 0 0 with state := 3, passed := [⟨0, 0, [plainMsg 0x12 5 6], 0, none, none, false, false⟩] }).setRx 0 [⟨7, 2, 0, false, 0, 9, 0, [], some (plainMsg 0x12 5 6), true, true⟩], 0, 7, ⟨7, 2, 0, false, 0, 9, 0, [], some (plainMsg 0x12 5 6), true, true⟩, plainMsg 0x12 5 6, { Qp.fresh false false 0 0 0 0 0 0 with state := 3, passed := [⟨0, 0, [plainMsg 0x12 5 6], 0, none, none, false, false⟩] }, by decide +kernel⟩

theorem witness_MessagesAreTakenAndAnswered_5 : ∃ (s : State) (o : Op) (n : Nat) (q : Qp),
    (s.findOp o.id = some o ∧ o.wait = .remote n ∧ s.net.qps.find n = some q ∧ q.state ≠ 4) ∧
    (s.inRecovery o = false ∧ o.startNs + 1000 * q.timeout ≤ s.ns) :=
  ⟨{ (waiting [0x40, 0, 0, 0, 0, 0, 0, 5] (.remote 5) (ready [])).setQp 5 { Qp.fresh false false 0 0 0 0 0 0 with state := 3, timeout := 5 } with ns := 5000 }, opOf [0x40, 0, 0, 0, 0, 0, 0, 5] (.remote 5), 5, { Qp.fresh false false 0 0 0 0 0 0 with state := 3, timeout := 5 }, by decide +kernel⟩

theorem witness_MessagesAreTakenAndAnswered_6 : ∃ (s : State) (n w : Nat) (q : Qp),
    (s.net.qps.find n = some q ∧ q.rnrWait = some w ∧ w ≤ s.ns) :=
  ⟨{ (ready []).setQp 5 { Qp.fresh false true 0 0 0 0 0 0 with state := 3, rnrWait := some 5 } with ns := 5 }, 5, 5, { Qp.fresh false true 0 0 0 0 0 0 with state := 3, rnrWait := some 5 }, by decide +kernel⟩

theorem witness_MessagesAreTakenAndAnswered_7 : ∃ (s : State) (n : Nat) (q : Qp),
    (s.net.qps.find n = some q ∧ q.net = true ∧ q.state = 3 ∧ q.spent = false ∧ q.rnrWait = none ∧ 0 < q.outstanding) ∧
    (q.lastRetry + 4096 * 2 ^ q.ackTime ≤ s.ns) :=
  ⟨{ (ready []).setQp 5 { Qp.fresh false true 0 0 0 0 0 0 with state := 3, retryCnt := 7, sends := [⟨1, true, 0, plainMsg 1 5 6, true, 0, 1, 0⟩] } with ns := 5000 }, 5, { Qp.fresh false true 0 0 0 0 0 0 with state := 3, retryCnt := 7, sends := [⟨1, true, 0, plainMsg 1 5 6, true, 0, 1, 0⟩] }, by decide +kernel⟩

theorem witness_EthernetPortsTakePackets_1 : ∃ (s : State) (port occ c : Nat) (k : Packet),
    (port < 2 ∧ s.rd .NET_PORT_LINK_UP port = 1 ∧ k.fcsOk = true ∧ k.roce = true ∧ occ < s.rd .NET_PFC_XOFF port ∧ occ < 256 ∧ k.icrcOk = true ∧ k.hdrOk = true) ∧
    (s.ipCmp port k.dstIp = some c ∧ k.dstQp < 65536 ∧ (s.grants c).qpBlk.contains (k.dstQp / 512) = true ∧ k.pkey % 2 ^ 15 = s.rd .NET_CMP_PKEY (2 * c + port) % 2 ^ 15) ∧
    (k.opcode ≤ 0x14 ∧ (s.net.qps.find k.dstQp).any (fun q => q.crypt) = false) :=
  ⟨grant { Grants.none with qpBlk := [0] } (ready [(.NET_PORT_LINK_UP, 1, 1), (.NET_CMP_IP, 4, 9), (.NET_CMP_PKEY, 1, 0), (.NET_PFC_XOFF, 1, 300)]), 1, 255, 0, ⟨true, true, true, true, 9, 0, 0, false, 4, 5, 0, 0, false, 0, 0, 0, 0, 0, 0, 0, 0, true, []⟩, by decide +kernel⟩

theorem witness_EthernetPortsTakePackets_2 : ∃ (s : State) (port occ : Nat) (k : Packet),
    (port < 2 ∧ s.rd .NET_PORT_LINK_UP port = 1 ∧ k.fcsOk = false ∧ occ < s.rd .NET_PFC_XOFF port) :=
  ⟨ready [(.NET_PORT_LINK_UP, 1, 1), (.NET_PFC_XOFF, 1, 300)], 1, 255, { (⟨true, true, true, true, 9, 0, 0, false, 4, 5, 0, 0, false, 0, 0, 0, 0, 0, 0, 0, 0, true, []⟩ : Packet) with fcsOk := false }, by decide +kernel⟩

theorem witness_EthernetPortsTakePackets_3 : ∃ (s : State) (port c : Nat) (k : Packet) (q : Qp),
    (port < 2 ∧ s.rd .NET_PORT_LINK_UP port = 1 ∧ k.fcsOk = true ∧ k.roce = true ∧ 0 < s.rd .NET_PFC_XOFF port ∧ 0 < 256 ∧ k.icrcOk = true ∧ k.hdrOk = true) ∧
    (s.ipCmp port k.dstIp = some c ∧ k.dstQp < 65536 ∧ (s.grants c).qpBlk.contains (k.dstQp / 512) = true ∧ k.pkey % 2 ^ 15 = s.rd .NET_CMP_PKEY (2 * c + port) % 2 ^ 15) ∧
    (k.opcode = 0x81 ∧ s.net.qps.find k.dstQp = some q ∧ q.net = true ∧ q.cmp = c) :=
  ⟨(grant { Grants.none with qpBlk := [0] } (ready [(.NET_PORT_LINK_UP, 1, 1), (.NET_CMP_IP, 4, 9), (.NET_CMP_PKEY, 1, 0), (.NET_PFC_XOFF, 1, 300)])).setQp 5 { Qp.fresh false true 0 0 0 0 0 0 with state := 3 }, 1, 0, { (⟨true, true, true, true, 9, 0, 0, false, 4, 5, 0, 0, false, 0, 0, 0, 0, 0, 0, 0, 0, true, []⟩ : Packet) with opcode := 0x81 }, { Qp.fresh false true 0 0 0 0 0 0 with state := 3 }, by decide +kernel⟩

theorem witness_EthernetPortsTakePackets_4a : ∃ (s : State) (n : Nat) (q : Qp),
    (s.net.qps.find n = some q ∧ q.net = true) ∧
    (q.cnpRx = none) :=
  ⟨(ready []).setQp 5 { Qp.fresh false true 0 0 0 0 0 0 with state := 3 }, 5, { Qp.fresh false true 0 0 0 0 0 0 with state := 3 }, by decide +kernel⟩

theorem witness_EthernetPortsTakePackets_4 : ∃ (s : State) (n : Nat) (q : Qp),
    (s.net.qps.find n = some q ∧ q.net = true) :=
  ⟨(ready []).setQp 5 { Qp.fresh false true 0 0 0 0 0 0 with state := 3 }, 5, { Qp.fresh false true 0 0 0 0 0 0 with state := 3 }, by decide +kernel⟩

theorem witness_EthernetPortsTakePackets_5 : ∃ (s : State) (port prio quanta : Nat),
    (port < 2 ∧ s.rd .NET_PORT_LINK_UP port = 1 ∧ s.prioOn port prio = true ∧ 0 < quanta ∧ quanta < 2 ^ 16) :=
  ⟨ready [(.NET_PORT_LINK_UP, 1, 1), (.NET_PFC_EN, 1, 1), (.NET_PFC_PRIO_A, 1, 7)], 1, 7, 65535, by decide +kernel⟩

theorem witness_EthernetPortsTakePackets_6 : ∃ (s : State) (port prio w : Nat),
    (s.net.pauseTo.find (prioKey port prio) = some w ∧ w ≤ s.ns) :=
  ⟨{ ready [] with net := { (ready []).net with pauseTo := [(prioKey 1 7, 0)] } }, 1, 7, 0, by decide +kernel⟩

theorem witness_EthernetPortsTakePackets_7 : ∃ (s : State) (port prio w : Nat),
    (s.net.pauseAt.find (prioKey port prio) = some w ∧ prioKey port prio ∉ s.net.stormed ∧ w + 1000 * s.rd .NET_PFC_STORM_US port ≤ s.ns) :=
  ⟨{ ready [] with net := { (ready []).net with pauseAt := [(prioKey 1 7, 0)] }, ns := 10 ^ 9 }, 1, 7, 0, by decide +kernel⟩

theorem witness_EthernetPortsTakePackets_8 : ∃ (s : State) (port prio : Nat),
    (prioKey port prio ∈ s.net.pfcOn) :=
  ⟨{ ready [] with net := { (ready []).net with pfcOn := [prioKey 1 7] } }, 1, 7, by decide +kernel⟩

theorem witness_EthernetPortsTakePackets_9a : ∃ (s : State) (port : Nat),
    (port < 2) ∧
    (s.rd .NET_PORT_LINK_UP port = 1) :=
  ⟨ready [(.NET_PORT_LINK_UP, 1, 1)], 1, by decide +kernel⟩

theorem witness_EthernetPortsTakePackets_9b : ∃ (s : State) (port : Nat),
    (port < 2) ∧
    (s.rd .NET_PORT_LINK_UP port = 0 ∧ s.rd .NET_PORT_EN port = 1 ∧ bit (s.rd .PWR_GATE_NET 0) port = false) :=
  ⟨ready [(.NET_PORT_EN, 1, 1)], 1, by decide +kernel⟩

theorem witness_EthernetPortsTakePackets_9 : ∃ (s : State) (port : Nat),
    (port < 2) :=
  ⟨ready [], 1, by decide +kernel⟩

theorem witness_SpdmAnswersAndCarriesLinkKeys_1 : ∃ (s : State) (port : Nat),
    (s.spdmUp port = true) :=
  ⟨ready [], 1, by decide +kernel⟩

theorem witness_SpdmAnswersAndCarriesLinkKeys_2 : ∃ (s : State) (port : Nat),
    (s.spdmUp port = true ∧ s.conn port = 1) :=
  ⟨(ready []).setConn 1 1, 1, by decide +kernel⟩

theorem witness_SpdmAnswersAndCarriesLinkKeys_3 : ∃ (s : State) (port : Nat),
    (s.spdmUp port = true ∧ s.conn port = 2) :=
  ⟨(ready []).setConn 0 2, 0, by decide +kernel⟩

theorem witness_SpdmAnswersAndCarriesLinkKeys_4 : ∃ (s : State) (port : Nat),
    (s.spdmUp port = true ∧ s.conn port = 3) :=
  ⟨(ready []).setConn 0 3, 0, by decide +kernel⟩

theorem witness_SpdmAnswersAndCarriesLinkKeys_5 : ∃ (s : State) (port offset len : Nat),
    (s.spdmUp port = true ∧ s.conn port = 3) :=
  ⟨(ready []).setConn 0 3, 0, 0, 64, by decide +kernel⟩

theorem witness_SpdmAnswersAndCarriesLinkKeys_6 : ∃ (s : State) (port : Nat),
    (s.spdmUp port = true ∧ s.conn port = 3) :=
  ⟨(ready []).setConn 0 3, 0, by decide +kernel⟩

theorem witness_SpdmAnswersAndCarriesLinkKeys_7 : ∃ (s : State) (port index : Nat),
    (s.spdmUp port = true ∧ s.conn port = 3) ∧
    (1 ≤ index ∧ index ≤ 5) :=
  ⟨(ready []).setConn 0 3, 0, 5, by decide +kernel⟩

theorem witness_SpdmAnswersAndCarriesLinkKeys_8 : ∃ (s : State) (port digest : Nat) (mutualAuth : Bool),
    (s.spdmUp port = true ∧ s.conn port = 3) ∧
    (s.sec.sessions.length < 8) :=
  ⟨(ready []).setConn 0 3, 0, 9, true, by decide +kernel⟩

theorem witness_SpdmAnswersAndCarriesLinkKeys_9 : ∃ (s : State) (session : Nat) (x : Session),
    (s.session session = some x ∧ s.spdmUp x.port = true) ∧
    (x.established = false) :=
  ⟨(let s := ready []; { s with sec := { s.sec with sessions := [⟨4, 0, false, true, 0⟩] } }), 4, ⟨4, 0, false, true, 0⟩, by decide +kernel⟩

theorem witness_SpdmAnswersAndCarriesLinkKeys_10 : ∃ (s : State) (session op : Nat) (x : Session),
    (s.session session = some x ∧ s.spdmUp x.port = true) ∧
    (x.established = true) :=
  ⟨(let s := ready []; { s with sec := { s.sec with sessions := [⟨4, 0, true, true, 0⟩] } }), 4, 1, ⟨4, 0, true, true, 0⟩, by decide +kernel⟩

theorem witness_SpdmAnswersAndCarriesLinkKeys_11 : ∃ (s : State) (session cmp key tag beat : Nat) (x : Session),
    (s.session session = some x ∧ s.spdmUp x.port = true ∧ x.established = true) ∧
    (x.mutualAuth = true ∧ cmp < 32 ∧ x.digest = s.cmpAuth cmp ∧ s.cmpState cmp = .assigned) :=
  ⟨(let s := ready [(.CMP_STATE, 3, 1)]; { s with sec := { s.sec with sessions := [⟨4, 0, true, true, 0⟩] } }), 4, 3, 7, 1, 100, ⟨4, 0, true, true, 0⟩, by decide +kernel⟩

theorem witness_SpdmAnswersAndCarriesLinkKeys_12 : ∃ (s : State) (session cmp key tag beat : Nat) (x : Session),
    (s.session session = some x ∧ s.spdmUp x.port = true ∧ x.established = true) ∧
    (¬(x.mutualAuth = true ∧ cmp < 32 ∧ x.digest = s.cmpAuth cmp ∧ s.cmpState cmp = .assigned)) :=
  ⟨(let s := ready [(.CMP_STATE, 3, 1)]; { s with sec := { s.sec with sessions := [⟨4, 0, true, false, 0⟩] } }), 4, 3, 7, 1, 100, ⟨4, 0, true, false, 0⟩, by decide +kernel⟩

theorem witness_SpdmAnswersAndCarriesLinkKeys_13 : ∃ (s : State) (cmp : Nat) (k : Nat × Nat × Nat),
    (s.sec.linkStg.find cmp = some k) ∧
    (frameFrom k.2.2 ≤ s.beat) :=
  ⟨(let s := ready [(.PWR_BEAT, 0, 2000)]; { s with sec := { s.sec with linkStg := [(3, (7, 1, 100))] } }), 3, (7, 1, 100), by decide +kernel⟩

theorem witness_SpdmAnswersAndCarriesLinkKeys_14 : ∃ (s : State) (cmp : Nat) (k : Nat × Nat × Nat),
    (s.sec.linkPrev.find cmp = some k) ∧
    (k.2.2 + 1048576 ≤ s.beat) :=
  ⟨(let s := ready [(.PWR_BEAT, 0, 1048676)]; { s with sec := { s.sec with linkPrev := [(3, (7, 1, 100))] } }), 3, (7, 1, 100), by decide +kernel⟩

theorem witness_IdeAndTdispFollowTheirTables_1 : ∃ (s : State) (port session stream set : Nat) (x : Session),
    (s.session session = some x ∧ s.spdmUp x.port = true ∧ x.established = true ∧ x.port = port) ∧
    (stream < 5 ∧ set < 2) :=
  ⟨(let s := ready []; { s with sec := { s.sec with sessions := [⟨4, 1, true, true, 0⟩] } }), 1, 4, 4, 1, ⟨4, 1, true, true, 0⟩, by decide +kernel⟩

theorem witness_IdeAndTdispFollowTheirTables_2 : ∃ (s : State) (port session stream set : Nat) (x : Session) (i : IdeStream),
    (s.session session = some x ∧ s.spdmUp x.port = true ∧ x.established = true ∧ x.port = port) ∧
    (stream < 5 ∧ set < 2 ∧ s.sec.ide.get IdeStream.none (8 * port + stream) = i ∧ bit i.keys set = true) :=
  ⟨(let s := ready []; { s with sec := { s.sec with sessions := [⟨4, 1, true, true, 0⟩], ide := [(12, ⟨2, 0, false⟩)] } }), 1, 4, 4, 1, ⟨4, 1, true, true, 0⟩, ⟨2, 0, false⟩, by decide +kernel⟩

theorem witness_IdeAndTdispFollowTheirTables_3 : ∃ (s : State) (port stream : Nat) (i : IdeStream),
    (port < 2 ∧ stream < 5 ∧ s.sec.ide.get IdeStream.none (8 * port + stream) = i ∧ i.active ≠ 0 ∧ i.insecure = false) :=
  ⟨(let s := ready []; { s with sec := { s.sec with ide := [(12, ⟨2, 2, false⟩)] } }), 1, 4, ⟨2, 2, false⟩, by decide +kernel⟩

theorem witness_IdeAndTdispFollowTheirTables_4 : ∃ (s : State) (port : Nat),
    (port < 8 ∧ s.rd .EXP_IDE_UP port ≠ 0) :=
  ⟨ready [(.EXP_IDE_UP, 7, 1), (.EXP_LINK_UP, 7, 1)], 7, by decide +kernel⟩

theorem witness_IdeAndTdispFollowTheirTables_5 : ∃ (s : State) (fn port : Nat),
    (s.barsBlocked fn = false ∧ isMgr fn = true ∧ fn = s.primaryFn) ∧
    (port < 8 ∧ s.rd .EXP_IDE_UP port ≠ 0 ∧ s.sec.entropyBad = false) :=
  ⟨ready [(.EXP_IDE_UP, 7, 1)], 0, 7, by decide +kernel⟩

theorem witness_IdeAndTdispFollowTheirTables_6 : ∃ (s : State) (i stream : Nat),
    (isMgr i = false ∧ s.spdmUp (portOf i) = true) ∧
    (stream < 5) :=
  ⟨ready [(.INS_BOUND, 65, 1), (.INS_ENABLE, 65, 1)], 65, 4, by decide +kernel⟩

theorem witness_IdeAndTdispFollowTheirTables_7 : ∃ (s : State) (i : Nat),
    (isMgr i = false ∧ s.spdmUp (portOf i) = true) :=
  ⟨ready [], 65, by decide +kernel⟩

theorem witness_IdeAndTdispFollowTheirTables_8 : ∃ (s : State) (i : Nat),
    (isMgr i = false ∧ s.spdmUp (portOf i) = true) :=
  ⟨ready [], 65, by decide +kernel⟩

theorem witness_TheDebugLockOpensByChallenge_1 : ∃ (s : State) (fn value : Nat),
    (s.barsBlocked fn = false ∧ isMgr fn = true ∧ fn = s.primaryFn) :=
  ⟨ready [(.SEC_IMAGE_SVN, 0, 3)], 0, 0x5EA1, by decide +kernel⟩

theorem witness_TheDebugLockOpensByChallenge_2 : ∃ (s : State) (fn : Nat) (rival : Bool),
    (s.barsBlocked fn = false ∧ isMgr fn = true ∧ fn = s.primaryFn ∧ s.pins.pwrgood = true) ∧
    (s.rd .SEC_DBG_LOCKOUT 0 = 0 ∧ s.sec.entropyBad = false) :=
  ⟨ready [], 0, true, by decide +kernel⟩

theorem witness_TheDebugLockOpensByChallenge_3 : ∃ (s : State) (path fn : Nat) (rival : Bool),
    (path < 2 ∧ s.pins.pwrgood = true ∧ (path = 0 → s.barsBlocked fn = false ∧ isMgr fn = true ∧ fn = s.primaryFn)) ∧
    (s.rd .SEC_DBG_LOCKOUT 0 = 1) :=
  ⟨ready [(.SEC_DBG_LOCKOUT, 0, 1)], 1, 0, false, by decide +kernel⟩

theorem witness_TheDebugLockOpensByChallenge_4 : ∃ (s : State) (fn mode n : Nat) (words : List Nat),
    (s.pins.pwrgood = true ∧ s.sec.challenge = some n) :=
  ⟨(let s := ready [(.SEC_LIFECYCLE, 0, 1)]; { s with sec := { s.sec with challenge := some 5 } }), 0, 1, 5, [], by decide +kernel⟩

theorem witness_TheDebugLockOpensByChallenge_5 : ∃ (s : State) (n : Nat),
    (s.sec.challenge = some n) :=
  ⟨(let s := ready []; { s with sec := { s.sec with challenge := some 5 } }), 5, by decide +kernel⟩

theorem witness_PowerPinsAct_1 : ∃ (s : State) (sel : Nat),
    (s.pins.vddAon = false) :=
  ⟨{ State.reset with pins := { State.reset.pins with vddAon := false } }, 1, by decide +kernel⟩

theorem witness_PowerPinsAct_2 : ∃ (s : State),
    (s.pins.vddAon = true) :=
  ⟨ready [], by decide +kernel⟩

theorem witness_PowerPinsAct_3 : ∃ (s : State),
    (s.pins.pwrgood = true ∧ s.boot.running = false ∧ s.boot.warmStep = 0 ∧ s.long.slots = [] ∧ s.plk.roll = none) :=
  ⟨ready [], by decide +kernel⟩

theorem witness_PowerPinsAct_4 : ∃ (s : State),
    (s.pins.vddAon = true ∧ s.pins.pwrgood = false ∧ s.pins.sysRstN = true ∧ s.fawnNext = false) :=
  ⟨State.reset, by decide +kernel⟩

theorem witness_PowerPinsAct_5 : ∃ (s : State),
    (s.pins.vddAon = true ∧ s.pins.pwrgood = false ∧ s.pins.sysRstN = false) :=
  ⟨{ State.reset with pins := { State.reset.pins with sysRstN := false } }, by decide +kernel⟩

theorem witness_PowerPinsAct_6 : ∃ (s : State),
    (s.boot.sysHeld = true ∧ s.fawnNext = true) :=
  ⟨(let s := ready [(.BOOT_FAWN_REQ, 0, 1)]; { s with boot := { s.boot with sysHeld := true } }), by decide +kernel⟩

theorem witness_PowerPinsAct_7 : ∃ (s : State),
    (s.boot.sysHeld = false) :=
  ⟨ready [], by decide +kernel⟩

theorem witness_PowerPinsAct_8 : ∃ (s : State) (port : Nat),
    (port < 2 ∧ s.perst port = false ∧ s.pins.pwrgood = true ∧ s.boot.warmStep = 0 ∧ s.rd .BOOT_READY 0 = 1) :=
  ⟨(let s := ready []; { s with pins := { s.pins with perstB := false, hostUp := [0] } }), 1, by decide +kernel⟩

theorem witness_WarmAndHostLinkResetsRun_1 : ∃ (s : State) (fn key : Nat) (hosts : List Nat),
    (s.pins.pwrgood = true ∧ s.boot.running = false ∧ s.boot.sysHeld = false ∧ s.boot.warmStep = 0) :=
  ⟨ready [], 0, 0, [1], by decide +kernel⟩

theorem witness_WarmAndHostLinkResetsRun_2 : ∃ (s : State),
    (s.pending = [] ∧ s.boot.warmStep = 5) :=
  ⟨(let s := up []; { s with boot := { s.boot with warmStep := 5, typ := 3, cause := 3 } }), by decide +kernel⟩

theorem witness_WarmAndHostLinkResetsRun_3 : ∃ (s : State) (fn key : Nat) (hosts : List Nat),
    (s.barsBlocked fn = false ∧ fn = s.primaryFn ∧ key ≠ 0xB007) :=
  ⟨ready [], 0, 0xB006, [], by decide +kernel⟩

theorem witness_WarmAndHostLinkResetsRun_4 : ∃ (s : State) (port : Nat) (drained : List (Nat × Nat)),
    (port < 2 ∧ s.pins.pwrgood = true ∧ s.perst port = true ∧ s.boot.warmStep = 0 ∧ s.rd .BOOT_READY 0 = 1) :=
  ⟨ready [], 1, [], by decide +kernel⟩

theorem witness_WarmAndHostLinkResetsRun_5 : ∃ (s : State) (port : Nat) (drained : List (Nat × Nat)),
    (port < 2 ∧ s.pins.pwrgood = true ∧ s.perst port = true ∧ 0 < s.boot.warmStep) :=
  ⟨(let s := ready []; { s with boot := { s.boot with warmStep := 5 } }), 1, [], by decide +kernel⟩

theorem witness_BootPhasesRun_1 : ∃ (s : State) (ms : Nat) (rails imgA imgB recA recB : List Nat),
    (s.pins.pwrgood = true ∧ s.boot.running = true ∧ s.rd .BOOT_PHASE 0 = 1 ∧ ms ≤ 5) ∧
    (within (word rails 0) (s.rd .PWR_AVS_TARGET_MV 0) 3 = true ∧
      (∀ r, 1 ≤ r → r < 6 → within (word rails r) (word railNominal r) 5 = true)) :=
  ⟨(let s := up [(.BOOT_PHASE, 0, 1), (.PWR_AVS_TARGET_MV, 0, 750)]; { s with boot := { s.boot with running := true } }), 5, [750, 800, 900, 1200, 1800, 750], [], [], [], [], by decide +kernel⟩

theorem witness_BootPhasesRun_2 : ∃ (s : State) (ms : Nat) (rails imgA imgB recA recB : List Nat),
    (s.pins.pwrgood = true ∧ s.boot.running = true ∧ s.rd .BOOT_PHASE 0 = 2 ∧ ms ≤ 300) ∧
    (firstIsA imgA imgB = true ∧ s.imageStatus imgA = 0) :=
  ⟨(let s := up [(.BOOT_PHASE, 0, 2)]; { s with boot := { s.boot with running := true } }), 300, [], [1, 1, 1, 0, 0, 5, 9], [1, 1, 1, 0, 0, 4, 9], [], [], by decide +kernel⟩

theorem witness_BootPhasesRun_3 : ∃ (s : State) (ms : Nat) (rails imgA imgB recA recB : List Nat),
    (s.pins.pwrgood = true ∧ s.boot.running = true ∧ s.rd .BOOT_PHASE 0 = 2 ∧ ms ≤ 300) ∧
    (s.imageStatus imgA ≠ 0 ∧ s.imageStatus imgB ≠ 0) :=
  ⟨(let s := up [(.BOOT_PHASE, 0, 2)]; { s with boot := { s.boot with running := true } }), 300, [], [], [], [], [], by decide +kernel⟩

theorem witness_BootPhasesRun_4 : ∃ (s : State) (ms : Nat) (rails imgA imgB recA recB : List Nat),
    (s.pins.pwrgood = true ∧ s.boot.running = true ∧ s.rd .BOOT_PHASE 0 = 3 ∧ ms ≤ 310) ∧
    (recordValid recA = false ∧ recordValid recB = false) :=
  ⟨(let s := up [(.BOOT_PHASE, 0, 3)]; { s with boot := { s.boot with running := true } }), 310, [], [], [], [], [], by decide +kernel⟩

theorem witness_BootPhasesRun_5 : ∃ (s : State) (ms : Nat) (rails imgA imgB recA recB : List Nat),
    (s.pins.pwrgood = true ∧ s.boot.running = true ∧ s.rd .BOOT_PHASE 0 = 4 ∧ ms ≤ 330) ∧
    (s.sec.entropyBad = false) :=
  ⟨(let s := up [(.BOOT_PHASE, 0, 4)]; { s with boot := { s.boot with running := true } }), 330, [], [], [], [], [], by decide +kernel⟩

theorem witness_BootPhasesRun_6 : ∃ (s : State) (ms : Nat) (rails imgA imgB recA recB : List Nat),
    (s.pins.pwrgood = true ∧ s.boot.running = true ∧ s.rd .BOOT_PHASE 0 = 5 ∧ ms ≤ 530) :=
  ⟨(let s := up [(.BOOT_PHASE, 0, 5)]; { s with boot := { s.boot with running := true } }), 530, [], [], [], [], [], by decide +kernel⟩

theorem witness_BootPhasesRun_7 : ∃ (s : State),
    (s.boot.running = true) :=
  ⟨(let s := up [(.BOOT_PHASE, 0, 5)]; { s with boot := { s.boot with running := true } }), by decide +kernel⟩

theorem witness_BootPhasesRun_8 : ∃ (s : State) (core : Nat),
    (s.boot.running = true) :=
  ⟨(let s := up [(.BOOT_PHASE, 0, 5)]; { s with boot := { s.boot with running := true } }), 3, by decide +kernel⟩

theorem witness_BootPhasesRun_9 : ∃ (s : State) (core : Nat),
    (s.boot.running = false ∧ s.rd .BOOT_READY 0 = 1) :=
  ⟨ready [], 3, by decide +kernel⟩

theorem witness_IncidentsReachTheirRings_1 : ∃ (s : State) (ring : Nat) (r : Incident) (rest : List Incident),
    (ring < 33 ∧ s.incRoom ring = true ∧ s.incQ ring = r :: rest ∧ s.incRd .INC_DRING_LOC .INC_CRING_LOC ring = 1) ∧
    (s.lostAt ring = [0, 0, 0, 0]) :=
  ⟨(let s := ready [(.INC_DRING_STATE, 0, 1), (.INC_DRING_LOC, 0, 1)]; { s with inc := { s.inc with devQ := [⟨0xE01, 0, false, none, 1, [1, 2]⟩] } }), 0, ⟨0xE01, 0, false, none, 1, [1, 2]⟩, [], by decide +kernel⟩

theorem witness_IncidentsReachTheirRings_2 : ∃ (s : State) (ring : Nat) (r : Incident) (rest : List Incident),
    (ring < 33 ∧ s.incRoom ring = true ∧ s.incQ ring = r :: rest) :=
  ⟨(let s := ready [(.INC_DRING_STATE, 0, 1), (.INC_DRING_LOC, 0, 1)]; { s with inc := { s.inc with devQ := [⟨0xE01, 0, false, none, 1, [1, 2]⟩] } }), 0, ⟨0xE01, 0, false, none, 1, [1, 2]⟩, [], by decide +kernel⟩

theorem witness_IncidentsReachTheirRings_3 : ∃ (s : State) (fn : Nat),
    (s.closed fn 0x100104 = false ∧ s.closed fn 0x100004 = false ∧ isMgr fn = true ∧ fn = s.primaryFn) :=
  ⟨ready [], 0, by decide +kernel⟩

theorem witness_BulkWorkRunsInSlots_1 : ∃ (s : State) (fn ring c i lines : Nat) (k : Cand),
    (s.starts fn ring 0x65 c k ∧ fn = s.primaryFn ∧ (s.begun fn ring c k).2.rd .BOOT_FAWN 0 = 0) ∧
    ((s.begun fn ring c k).2.cmpState (adCmp k.desc) = .assigned ∨ (s.begun fn ring c k).2.cmpState (adCmp k.desc) = .quiesced) ∧
    ((s.begun fn ring c k).2.rangeOk (adCmp k.desc) k.desc = true ∧ adPtr k.desc = 0) ∧
    ((s.begun fn ring c k).2.longBusy 0x65 (adCmp k.desc) = false ∧ (s.begun fn ring c k).2.claimSlot = some i) :=
  ⟨grant { Grants.none with t1 := [0] } (loaded [0x65, 0, 0, 0, 0, 0, 0, 256] []), 0, 0, 0, 0, 0, cand [0x65, 0, 0, 0, 0, 0, 0, 256], by decide +kernel⟩

theorem witness_BulkWorkRunsInSlots_2 : ∃ (s : State) (fn ring i lines : Nat) (l : LongOp),
    (s.runningAt i 0x65 = some l ∧ l.done + lines ≤ l.total) :=
  ⟨slot (lop 0x65 0 0 2 (List.replicate 16 0) [0]) (ready []), 0, 0, 0, 2, lop 0x65 0 0 2 (List.replicate 16 0) [0], by decide +kernel⟩

theorem witness_BulkWorkRunsInSlots_3 : ∃ (s : State) (fn ring c i lines corrected : Nat) (bad : List Nat) (k : Cand),
    (s.starts fn ring 0x66 c k ∧ fn = s.primaryFn ∧ (s.begun fn ring c k).2.rd .BOOT_FAWN 0 = 0) ∧
    ((s.begun fn ring c k).2.cmpState (adCmp k.desc) = .quiesced ∨ (s.begun fn ring c k).2.cmpState (adCmp k.desc) = .tainted) ∧
    ((s.begun fn ring c k).2.rangeOk (adCmp k.desc) k.desc = true ∧ testsFree k.desc = false) ∧
    ((s.begun fn ring c k).2.longBusy 0x66 (adCmp k.desc) = false ∧ (s.begun fn ring c k).2.claimSlot = some i) :=
  ⟨(let s := loaded [0x66, 0, 0, 0, 0, 3, 0, 256] [(.CMP_STATE, 3, 2)]; { s with cmp := { s.cmp with grants := [(3, { Grants.none with t1 := [0] })] } }), 0, 0, 0, 0, 0, 0, [], cand [0x66, 0, 0, 0, 0, 3, 0, 256], by decide +kernel⟩

theorem witness_BulkWorkRunsInSlots_4 : ∃ (s : State) (fn ring i lines corrected : Nat) (l : LongOp),
    (s.runningAt i 0x66 = some l ∧ l.done + lines ≤ l.total ∧ l.mismatch = 0) :=
  ⟨slot (lop 0x66 0 0 2 [] [0]) (ready []), 0, 0, 0, 2, 0, lop 0x66 0 0 2 [] [0], by decide +kernel⟩

theorem witness_KeysRotateAndFirmwareIsStaged_1 : ∃ (s : State) (fn ring c i lines : Nat) (k : Cand),
    (s.starts fn ring 0x67 c k ∧ fn = s.primaryFn ∧ (s.begun fn ring c k).2.rd .BOOT_FAWN 0 = 0) ∧
    ((s.begun fn ring c k).2.cmpState (adCmp k.desc) = .assigned ∨ (s.begun fn ring c k).2.cmpState (adCmp k.desc) = .quiesced) ∧
    ((s.begun fn ring c k).2.sec.rot.find (2 * adCmp k.desc + b2n (bit (adArg0 k.desc) 0)) = none ∧ (s.begun fn ring c k).2.sec.entropyBad = false) ∧
    ((s.begun fn ring c k).2.longBusy 0x67 (adCmp k.desc) = false ∧ (s.begun fn ring c k).2.claimSlot = some i) ∧
    ((s.begun fn ring c k).2.tierGranules (adCmp k.desc) (b2n (bit (adArg0 k.desc) 0)) ≠ []) :=
  ⟨grant { Grants.none with t1 := [0] } (loaded [0x67, 0, 0, 0, 0, 0, 0, 0] []), 0, 0, 0, 0, 0, cand [0x67, 0, 0, 0, 0, 0, 0, 0], by decide +kernel⟩

theorem witness_KeysRotateAndFirmwareIsStaged_2 : ∃ (s : State) (fn ring i lines : Nat) (l : LongOp),
    (s.runningAt i 0x67 = some l ∧ s.sec.rot.find (2 * l.cmp + word l.args 0) = none ∧ 0 < lines ∧ l.done < l.total) :=
  ⟨slot (lop 0x67 0 0 1024 [] [0]) (ready []), 0, 0, 0, 1, lop 0x67 0 0 1024 [] [0], by decide +kernel⟩

theorem witness_KeysRotateAndFirmwareIsStaged_3 : ∃ (s : State) (fn ring c i bytes : Nat) (flashOk : Bool) (data : List Nat) (k : Cand),
    (s.starts fn ring 0x68 c k ∧ fn = s.primaryFn) ∧
    (fwHost k.desc = true ∧ fwRecord k.desc = false ∧ 0 < fwLen k.desc ∧ fwLen k.desc ≤ 15 * 2 ^ 20) ∧
    ((s.begun fn ring c k).2.longBusy 0x68 0 = false ∧ (s.begun fn ring c k).2.claimSlot = some i) :=
  ⟨loaded [0x68, 0, 0, 0, 0, 0, 1, 64] [], 0, 0, 0, 0, 0, true, [], cand [0x68, 0, 0, 0, 0, 0, 1, 64], by decide +kernel⟩

theorem witness_KeysRotateAndFirmwareIsStaged_4a : ∃ (s : State) (fn ring i bytes : Nat) (data : List Nat) (l : LongOp),
    (s.runningAt i 0x68 = some l ∧ word l.args 0 < 2 ∧ l.done + bytes ≤ l.total) ∧
    (l.done + bytes < l.total) :=
  ⟨slot (lop 0x68 0 0 64 [] [0]) (ready []), 0, 0, 0, 63, [], lop 0x68 0 0 64 [] [0], by decide +kernel⟩

theorem witness_KeysRotateAndFirmwareIsStaged_4 : ∃ (s : State) (fn ring i bytes : Nat) (data : List Nat) (l : LongOp),
    (s.runningAt i 0x68 = some l ∧ word l.args 0 < 2 ∧ l.done + bytes ≤ l.total) :=
  ⟨slot (lop 0x68 0 0 64 [] [0]) (ready []), 0, 0, 0, 63, [], lop 0x68 0 0 64 [] [0], by decide +kernel⟩

theorem witness_KeysRotateAndFirmwareIsStaged_5 : ∃ (s : State) (fn ring c i bytes : Nat) (flashOk : Bool) (data : List Nat) (a b : Option Nat) (k : Cand),
    (s.starts fn ring 0x68 c k ∧ fn = s.primaryFn) ∧
    (fwHost k.desc = true ∧ fwRecord k.desc = true ∧ 0 < fwLen k.desc ∧ fwLen k.desc ≤ 8192) ∧
    ((s.begun fn ring c k).2.longBusy 0x68 0 = false ∧ (s.begun fn ring c k).2.claimSlot = some i) :=
  ⟨loaded [0x68, 0, 0, 0, 0, 0, 3, 8192] [], 0, 0, 0, 0, 0, true, [], none, none, cand [0x68, 0, 0, 0, 0, 0, 3, 8192], by decide +kernel⟩

theorem witness_KeysRotateAndFirmwareIsStaged_6 : ∃ (s : State) (fn ring i bytes : Nat) (data : List Nat) (a b : Option Nat) (l : LongOp),
    (s.runningAt i 0x68 = some l ∧ 2 ≤ word l.args 0 ∧ l.done + bytes = l.total) :=
  ⟨slot (lop 0x68 0 0 64 [] [2]) (ready []), 0, 0, 0, 64, [], none, none, lop 0x68 0 0 64 [] [2], by decide +kernel⟩

theorem witness_LongOperationsTakeOrdersAndEnd_1 : ∃ (s : State) (fn ring c i : Nat) (k : Cand) (l : LongOp),
    (s.starts fn ring 0x6A c k ∧ fn = s.primaryFn) ∧
    ((s.begun fn ring c k).2.opNamed k.desc = some (i, l) ∧ l.fin = none ∧ l.state = 1 ∧ notSuspendable l.kind = false) :=
  ⟨slot (lop 0x65 0 0 2 [] [0]) (loaded [0x6A, 0, 0, 0, 0, 16 * 2 ^ 32, 0, 0] []), 0, 0, 0, 0, cand [0x6A, 0, 0, 0, 0, 16 * 2 ^ 32, 0, 0], lop 0x65 0 0 2 [] [0], by decide +kernel⟩

theorem witness_LongOperationsTakeOrdersAndEnd_2 : ∃ (s : State) (fn ring c i : Nat) (k : Cand) (l : LongOp),
    (s.starts fn ring 0x6B c k ∧ fn = s.primaryFn) ∧
    ((s.begun fn ring c k).2.opNamed k.desc = some (i, l) ∧ l.fin = none ∧ l.state = 2) :=
  ⟨slot { lop 0x65 0 0 2 [] [0] with state := 2 } (loaded [0x6B, 0, 0, 0, 0, 16 * 2 ^ 32, 0, 0] []), 0, 0, 0, 0, cand [0x6B, 0, 0, 0, 0, 16 * 2 ^ 32, 0, 0], { lop 0x65 0 0 2 [] [0] with state := 2 }, by decide +kernel⟩

theorem witness_LongOperationsTakeOrdersAndEnd_3 : ∃ (s : State) (fn ring c i : Nat) (k : Cand) (l : LongOp),
    (s.starts fn ring 0x6C c k ∧ fn = s.primaryFn) ∧
    ((s.begun fn ring c k).2.opNamed k.desc = some (i, l) ∧ l.fin = none ∧ l.kind ∈ [0x65, 0x66, 0x67]) :=
  ⟨slot (lop 0x65 0 0 2 [] [0]) (loaded [0x6C, 0, 0, 0, 0, 16 * 2 ^ 32, 0, 0] []), 0, 0, 0, 0, cand [0x6C, 0, 0, 0, 0, 16 * 2 ^ 32, 0, 0], lop 0x65 0 0 2 [] [0], by decide +kernel⟩

theorem witness_LongOperationsTakeOrdersAndEnd_4 : ∃ (s : State) (i st r : Nat) (l : LongOp),
    (s.longAt i = some l ∧ l.fin = some (st, r) ∧ l.live = true) :=
  ⟨slot { lop 0x65 0 2 2 [] [0] with fin := some (0, 2) } (ready []), 0, 0, 2, { lop 0x65 0 2 2 [] [0] with fin := some (0, 2) }, by decide +kernel⟩

theorem witness_ExpansionPortsAreEnumerated_1 : ∃ (s : State),
    (s.closed s.primaryFn 0x900800 = false ∧ s.enumBusy = false) :=
  ⟨ready [], by decide +kernel⟩

theorem witness_ExpansionPortsAreEnumerated_2 : ∃ (s : State) (port gib serial : Nat),
    (s.enumNext = some port ∧ s.rd .EXP_LINK_UP port = 1 ∧ s.portBound port = false) ∧
    (0 < gib ∧ serial < 2 ^ 64) :=
  ⟨(let s := ready [(.EXP_ENUM_BUSY, 0, 1), (.EXP_LINK_UP, 7, 1)]; { s with exp := ⟨[7], [], [], []⟩ }), 7, 600, 9, by decide +kernel⟩

theorem witness_ExpansionPortsAreEnumerated_3 : ∃ (s : State) (port : Nat),
    (port < 8 ∧ s.rd .EXP_LINK_UP port ≠ 1 ∧ bit (s.rd .PWR_GATE_EXP 0) port = false) ∧
    (s.rd .EXP_STATE port ≠ 2 ∧ s.portBound port = false ∧ s.enumBusy = false) :=
  ⟨ready [], 7, by decide +kernel⟩

theorem witness_ExpansionPortsAreEnumerated_4 : ∃ (s : State) (port : Nat),
    (port < 8 ∧ s.rd .EXP_LINK_UP port ≠ 0) :=
  ⟨ready [(.EXP_LINK_UP, 7, 1), (.EXP_STATE, 7, 2)], 7, by decide +kernel⟩

theorem witness_ExpansionPortsAreEnumerated_5 : ∃ (s : State) (addr latency : Nat),
    (t2Base ≤ addr ∧ addr < t2Base + t2Bytes ∧ s.rd .EXP_STATE (portOfLine (lineOf addr)) = 2) ∧
    (latency ≤ s.rd .EXP_LAT_LIMIT 0) :=
  ⟨ready [(.EXP_STATE, 7, 2)], 0x7FFFFFFFF80, 0, by decide +kernel⟩

theorem witness_ExpansionPortsAreEnumerated_6 : ∃ (s : State) (port : Nat) (record : List Nat),
    (port < 8) :=
  ⟨ready [], 7, [1, 2, 3, 4], by decide +kernel⟩

theorem witness_RackTimeIsKept_1 : ∃ (s : State) (err : Nat),
    (s.followsTsync = true) ∧
    (s.pwr.rootWait = false) ∧
    ((toSigned 16 err).natAbs ≤ 25) :=
  ⟨ready [(.PLK_TIME_ROOT, 0, 1), (.PWR_TSYNC_EN, 0, 1)], 25, by decide +kernel⟩

theorem witness_RackTimeIsKept_2 : ∃ (s : State) (err : Nat),
    (s.followsTsync = true) ∧
    (s.pwr.rootWait = true) ∧
    (s.beat ≤ s.rd .PWR_ROOT_TIME 0 ∧ s.rd .PWR_ROOT_TIME 0 < 2 ^ 64) :=
  ⟨(let s := ready [(.PLK_TIME_ROOT, 0, 1), (.PWR_TSYNC_EN, 0, 1), (.PWR_ROOT_TIME, 0, 1000)]; { s with pwr := { s.pwr with rootWait := true } }), 40, by decide +kernel⟩

theorem witness_RackTimeIsKept_3 : ∃ (s : State),
    (s.followsTsync = true) ∧
    (s.pwr.tsMiss < 7) :=
  ⟨ready [(.PLK_TIME_ROOT, 0, 1), (.PWR_TSYNC_EN, 0, 1)], by decide +kernel⟩

theorem witness_RackTimeIsKept_4 : ∃ (s : State),
    (s.followsTsync = true) ∧
    (7 ≤ s.pwr.tsMiss) :=
  ⟨(let s := ready [(.PLK_TIME_ROOT, 0, 1), (.PWR_TSYNC_EN, 0, 1)]; { s with pwr := { s.pwr with tsMiss := 7 } }), by decide +kernel⟩

theorem witness_RackTimeIsKept_5 : ∃ (s : State) (fn high v : Nat),
    (s.closed fn 0xF0002C = false ∧ fn = s.primaryFn ∧ isMgr fn = true) ∧
    (s.rd .PWR_BEAT_LOCKED 0 = 0) ∧
    (s.isRoot = true ∧ s.rd .PWR_TSYNC_EN 0 = 0) ∧
    (s.reg.staged.find (pairKey fn 0xF00028) = some v) ∧
    (high < 2 ^ 32 ∧ v < 2 ^ 32 ∧ s.beat ≤ v + 2 ^ 32 * high) :=
  ⟨(ready [(.PLK_TIME_ROOT, 0, 1)]).stageLow 0 0xF00028 77, 0, 1, 77, by decide +kernel⟩

theorem witness_RackTimeIsKept_6 : ∃ (s : State) (l : Nat) (b : TimeBody),
    (s.linkIs l .up = true ∧ s.isParent l = false ∧ b.selfId < 2 ^ 8) :=
  ⟨ready [(.PLK_LINK_STATE, 11, 5), (.PLK_TIME_ROOT, 0, 1)], 11, ⟨0, 0, 0, 0, 0, false, 0, 0⟩, by decide +kernel⟩

theorem witness_RackTimeIsKept_7 : ∃ (s : State) (l : Nat) (b : TimeBody),
    (s.linkIs l .up = true ∧ s.isParent l = true ∧ s.rd .PWR_BEAT_LOCKED 0 = 0 ∧ s.parentGood b = true) ∧
    (s.plk.time.stepped = true ∧ 15 ≤ s.plk.time.good ∧ (theta b (toSigned 16 (s.rd .PLK_TIME_ASYM l))).natAbs ≤ 25) :=
  ⟨(let s := ready [(.PLK_LINK_STATE, 11, 5), (.PLK_TIME_PARENT, 0, 11)]; { s with plk := { s.plk with time := { s.plk.time with stepped := true, good := 15 } } }), 11, ⟨0, 0, 0, 0, 7, true, 0, 0⟩, by decide +kernel⟩

theorem witness_RackTimeIsKept_8 : ∃ (s : State) (l : Nat) (b : TimeBody),
    (s.linkIs l .up = true ∧ s.isParent l = true ∧ s.rd .PWR_BEAT_LOCKED 0 = 1 ∧ s.parentGood b = false) :=
  ⟨ready [(.PLK_LINK_STATE, 11, 5), (.PLK_TIME_PARENT, 0, 11), (.PWR_BEAT_LOCKED, 0, 1)], 11, ⟨0, 0, 0, 0, 7, false, 0, 0⟩, by decide +kernel⟩

theorem witness_RackTimeIsKept_9 : ∃ (s : State),
    (s.rd .PWR_BEAT_LOCKED 0 = 1 ∧ s.rd .PLK_TIME_ROOT 0 = 0 ∧ 8 * 1024 * 32 ≤ (s.beat - s.plk.time.last) * 25) :=
  ⟨ready [(.PWR_BEAT_LOCKED, 0, 1), (.PWR_BEAT, 0, 2 ^ 20)], by decide +kernel⟩

theorem witness_BlocksAreGatedAndMeasured_1 : ∃ (s : State) (fn off val : Nat),
    (s.closed fn off = false ∧ fn = s.primaryFn ∧ isMgr fn = true) ∧
    (off ∈ [0xF00104, 0xF00108, 0xF0010C, 0xF00110]) ∧
    (val < 2 ^ 32) ∧
    (∀ b < 32, bit val b = true → s.gateable .PWR_GATE_SLICE (32 * ((off - 0xF00104) / 4) + b) = true) :=
  ⟨ready [], 0, 0xF00108, 5, by decide +kernel⟩

theorem witness_BlocksAreGatedAndMeasured_2 : ∃ (s : State) (block : Nat),
    (block ∈ s.pwr.ungating) ∧
    (0x100 ≤ block) :=
  ⟨{ ready [] with pwr := { (ready []).pwr with ungating := [0x103] } }, 0x103, by decide +kernel⟩

theorem witness_BlocksAreGatedAndMeasured_3 : ∃ (s : State) (temps rails : List Nat) (power energy avs : Nat),
    (s.pins.pwrgood = true) ∧
    (∀ x ∈ temps, x < 2 ^ 8) ∧
    (∀ x ∈ rails, x < 2 ^ 16) :=
  ⟨ready [], [50, 51], [800], 1000, 5, 700, ⟨rfl, by decide, by decide⟩⟩

theorem witness_I3cTargetAnswers_1 : ∃ (s : State) (index : Nat),
    (s.pins.pwrgood = true) ∧
    (index ≠ 0 ∧ index ≠ 3) :=
  ⟨ready [], 2, by decide +kernel⟩

theorem witness_I3cTargetAnswers_2 : ∃ (s : State),
    (s.pins.pwrgood = true) :=
  ⟨ready [], by decide +kernel⟩

theorem witness_I3cTargetAnswers_3 : ∃ (s : State),
    (s.pins.pwrgood = true) :=
  ⟨ready [], by decide +kernel⟩

theorem witness_I3cTargetAnswers_4 : ∃ (s : State) (index val : Nat),
    (¬(index = 0x40 ∧ val = 0xFA3E)) :=
  ⟨ready [], 0x40, 1, by decide +kernel⟩

theorem witness_I3cTargetAnswers_5 : ∃ (s : State) (addr : Nat),
    (s.pins.pwrgood = true ∧ s.pwr.address = none) :=
  ⟨ready [], 8, by decide +kernel⟩

theorem witness_I3cTargetAnswers_6 : ∃ (s : State),
    (s.pins.pwrgood = true) :=
  ⟨ready [], by decide +kernel⟩

theorem witness_I3cTargetAnswers_7 : ∃ (s : State),
    (s.pins.pwrgood = true) :=
  ⟨ready [], by decide +kernel⟩

theorem witness_I3cTargetAnswers_8 : ∃ (s : State),
    (s.pins.pwrgood = true) :=
  ⟨{ ready [] with pwr := { (ready []).pwr with ibiQ := [3, 300] } }, by decide +kernel⟩

theorem witness_I3cTargetAnswers_9 : ∃ (s : State) (core vec : Nat),
    (core < 4 ∧ vec < 256 ∧ s.retryStatus = false) ∧
    (bit (s.rd .EVT_TARGETS (vecIx s.primaryFn vec)) (4 + core) = true) ∧
    ((s.claim s.primaryFn vec).1.1 ≠ 0 ∧ (s.claim s.primaryFn vec).2.pwr.ibiOn = true) :=
  ⟨(let s := ready [(.EVT_TARGETS, vecIx 0 3, 0x20), (.EVT_SRC_BOUND, 0x80, 1), (.EVT_SRC_ROUTED, 0x80, 1), (.EVT_SRC_VEC, 0x80, 3), (.EVT_PENDING, 0x80, 1), (.EVT_SRC_OWNER, 0x80, 0)]; { s with pwr := { s.pwr with ibiOn := true } }), 1, 3, by decide +kernel⟩

theorem witness_RootTimeIsDroppedWhileLocked : ∃ (s : State) (fn high v : Nat),
    (s.closed fn 0xF0002C = false ∧ fn = s.primaryFn ∧ isMgr fn = true) ∧
    (s.rd .PWR_BEAT_LOCKED 0 = 1 ∧ s.reg.staged.find (pairKey fn 0xF00028) = some v ∧ high < 2 ^ 32) :=
  ⟨(ready [(.PWR_BEAT_LOCKED, 0, 1)]).stageLow 0 0xF00028 77, 0, 1, 77, by decide +kernel⟩

end Sys2Proof.Tests
end

section
/-! SUPPORT. Proofs of the statements of chapter 0: register accesses, and the canonical form of a memory. -/
namespace Sys2Proof.Machine

open Sys2Proof

/-! ### A table in canonical form is determined by what it reads as -/

theorem Tab.forall_mem_lt_of_rising {α : Type} {t : Tab α} {k : Nat} (h : Tab.rising (some k) t = true) : ∀ e ∈ t, k < e.1 := by
  induction t generalizing k with
  | nil => simp
  | cons e t ih =>
    simp only [Tab.rising, Bool.and_eq_true, decide_eq_true_eq] at h
    obtain ⟨hk, ht⟩ := h
    exact List.forall_mem_cons.2 ⟨hk, fun x hx => hk.trans (ih ht x hx)⟩

/-- Rising keys, as the library's pairwise order. -/
theorem Tab.pairwise_of_rising {α : Type} {t : Tab α} {l : Option Nat} (h : Tab.rising l t = true) :
    t.Pairwise (fun a b => a.1 < b.1) := by
  induction t generalizing l with
  | nil => exact .nil
  | cons e t ih =>
    have ht : Tab.rising (some e.1) t = true := by
      cases l with
      | none => exact h
      | some k => exact (Bool.and_eq_true_iff.1 h).2
    exact .cons (Tab.forall_mem_lt_of_rising ht) (ih ht)

theorem Tab.mem_of_find {α : Type} {t : Tab α} {k : Nat} {a : α} (h : t.find k = some a) : (k, a) ∈ t := by
  induction t with
  | nil => cases h
  | cons e t ih =>
    obtain ⟨j, b⟩ := e
    simp only [Tab.find] at h
    split at h
    · rename_i hj
      cases h
      exact hj ▸ List.mem_cons_self
    · exact List.mem_cons_of_mem _ (ih h)

theorem Tab.find_of_mem {α : Type} {t : Tab α} (hp : t.Pairwise (fun a b => a.1 < b.1)) {k : Nat} {a : α} (h : (k, a) ∈ t) :
    t.find k = some a := by
  induction hp with
  | nil => cases h
  | @cons e t hlt _ ih =>
    obtain ⟨j, b⟩ := e
    rcases List.mem_cons.1 h with h | h
    · cases h
      simp [Tab.find]
    · have : j ≠ k := Nat.ne_of_lt (hlt _ h)
      simp [Tab.find, this, ih h]

/-- What a canonical table lists: the values read that are not the default. -/
theorem Tab.mem_iff_get {α : Type} [DecidableEq α] {t : Tab α} {d : α} (h : Tab.wf t d = true) (k : Nat) (a : α) :
    (k, a) ∈ t ↔ t.get d k = a ∧ a ≠ d := by
  simp only [Tab.wf, Bool.and_eq_true, List.all_eq_true, decide_eq_true_eq] at h
  obtain ⟨hr, hd⟩ := h
  constructor
  · intro hm
    exact ⟨by simp [Tab.get, Tab.find_of_mem (Tab.pairwise_of_rising hr) hm], hd _ hm⟩
  · rintro ⟨hg, hne⟩
    cases hf : t.find k with
    | none => exact absurd (by simpa [Tab.get, hf] using hg.symm) hne
    | some b =>
      have hb : b = a := by simpa [Tab.get, hf] using hg
      exact hb ▸ Tab.mem_of_find hf

/-- Two canonical tables that read the same at every key are the same. -/
theorem Tab.eq_of_get_eq {α : Type} [DecidableEq α] {t u : Tab α} {d : α} (ht : Tab.wf t d = true) (hu : Tab.wf u d = true)
    (h : ∀ i, t.get d i = u.get d i) : t = u := by
  have : Std.Irrefl (fun a b : Nat × α => a.1 < b.1) := ⟨fun a => Nat.lt_irrefl a.1⟩
  have : Std.Asymm (fun a b : Nat × α => a.1 < b.1) := ⟨fun _ _ => Nat.lt_asymm⟩
  refine List.Pairwise.eq_of_mem_iff (Tab.pairwise_of_rising (Bool.and_eq_true_iff.1 ht).1)
    (Tab.pairwise_of_rising (Bool.and_eq_true_iff.1 hu).1) (fun ⟨k, a⟩ => ?_)
  rw [Tab.mem_iff_get ht, Tab.mem_iff_get hu, h]

/-! ### The commands of register accesses -/

theorem exec_registerWrite (fn off val : Nat) (s : State) : exec (.registerWrite fn off val) s = execRegisterWrite fn off val s := rfl
theorem exec_registerPairLowWrite (fn off val : Nat) (s : State) :
    exec (.registerPairLowWrite fn off val) s = execRegisterPairLowWrite fn off val s := rfl
theorem exec_registerPairHighWrite (fn off val : Nat) (s : State) :
    exec (.registerPairHighWrite fn off val) s = execRegisterPairHighWrite fn off val s := rfl
theorem exec_readToClear (fn off : Nat) (s : State) : exec (.readToClear fn off) s = execReadToClear fn off s := rfl
theorem exec_registerPairLowRead (fn off : Nat) (s : State) : exec (.registerPairLowRead fn off) s = execRegisterPairLowRead fn off s := rfl
theorem exec_registerPairHighRead (fn off : Nat) (s : State) :
    exec (.registerPairHighRead fn off) s = execRegisterPairHighRead fn off s := rfl
theorem exec_unsupportedRegisterAccess (fn off size : Nat) (s : State) :
    exec (.unsupportedRegisterAccess fn off size) s = execUnsupportedRegisterAccess fn off size s := rfl

/-! ### What the register tables say of the fields that a write treats in its own way -/

/-- The fields that a rule of their chapter may drop are set-up fields. -/
theorem Fld.setup_of_guarded (f : Fld) :
    (cmdSetup f || cplSetup f || cohField f || tdispField f || f == .SEC_CMP_AUTH) = true → f.spec.setup = true := by
  cases f <;> decide

theorem Fld.access_of_tdispField (f : Fld) : tdispField f = true → f.spec.access = .RW := by
  cases f <;> decide

theorem Fld.pair_of_RWL (f : Fld) : f.spec.access = .RWL → f.spec.pair = false := by
  cases f <;> decide

/-- Posting an incident writes no field that the seal locks. -/
theorem Fld.not_mem_postFlds_of_RWL (f : Fld) : f.spec.access = .RWL → f ∉ postFlds := by
  cases f <;> decide

theorem tdispField_eq_false_of_access {f : Fld} (h : f.spec.access ≠ .RW) : tdispField f = false :=
  Bool.eq_false_iff.2 (fun ht => h (f.access_of_tdispField ht))

theorem tdispField_eq_false_of_setup {f : Fld} (h : f.spec.setup = false) : tdispField f = false :=
  Bool.eq_false_iff.2 (fun ht => by simp [f.setup_of_guarded (by simp [ht])] at h)

theorem State.dropField_eq_false (s : State) (fn i : Nat) {f : Fld} (h : f.spec.setup = false) : s.dropField fn f i = false := by
  have hg := mt f.setup_of_guarded (by simp [h])
  simp only [Bool.not_eq_true, Bool.or_eq_false_iff] at hg
  obtain ⟨⟨⟨⟨hcmd, hcpl⟩, hcoh⟩, htdisp⟩, hauth⟩ := hg
  have hmood : (f == .RNG_MOOD) = false := beq_eq_false_iff_ne.2 (by rintro rfl; cases hcmd)
  simp [State.dropField, hcmd, hcpl, hcoh, htdisp, hauth, hmood]

theorem isCons_eq_false {h : Hit} (hd : h.fld ≠ .INC_DRING_CONS) (hc : h.fld ≠ .INC_CRING_CONS) : isCons h = false := by
  simp [isCons, hd, hc]

theorem any_isCons_eq_false {hs : List Hit} (h : ∀ x ∈ hs, x.fld.spec.access ≠ .RW) : hs.any isCons = false :=
  List.any_eq_false.2 (fun x hx => Bool.not_eq_true _ ▸ isCons_eq_false
    (fun e => h x hx (e ▸ rfl)) (fun e => h x hx (e ▸ rfl)))

theorem State.locked_eq_false (s : State) {f : Fld} (h : f.spec.access ≠ .RWL) : s.locked f = false := by
  simp [State.locked, h]

theorem State.locked_of_sealed {s : State} {f : Fld} (h : f.spec.access = .RWL) (hs : s.rd .SEC_LIFECYCLE 0 = 1) : s.locked f = true := by
  simp [State.locked, State.sealedPart, h, hs]

theorem State.lockedHit_eq_false (s : State) {hs : List Hit} (h : ∀ x ∈ hs, x.fld.spec.access ≠ .RWL) : s.lockedHit hs = false :=
  List.any_eq_false.2 (fun x hx => by simp [s.locked_eq_false (h x hx)])

theorem State.tdispHit_eq_false (s : State) {hs : List Hit} (h : ∀ x ∈ hs, tdispField x.fld = false) : s.tdispHit hs = false :=
  List.any_eq_false.2 (fun x hx => by simp [h x hx])

/-- A plain field takes what is written: it is RW, no set-up field, and no rule of its own follows its write. -/
structure Fld.Plain (f : Fld) : Prop where
  access : f.spec.access = .RW
  setup : f.spec.setup = false
  row : ownRow f = false
  mask : f ≠ .EVT_VEC_MASK
  mode : f ≠ .STK_GROUP_MODE

theorem Fld.Plain.not_RWL {f : Fld} (h : f.Plain) : f.spec.access ≠ .RWL := by simp [h.access]

/-! ### The checks before a write or a read -/

/-- A write that passes every check is performed. -/
theorem State.guardWrite_of_taken {s : State} {fn off : Nat} {hs : List Hit} (val : Nat) (k : State → State) (hne : hs ≠ [])
    (hopen : s.closed fn off = false ∧ s.mayWrite fn off = true) (hlock : s.lockedHit hs = false) (htdisp : s.tdispHit hs = false) :
    s.guardWrite fn off val hs k = k s := by
  simp [State.guardWrite, hne, hopen, hlock, htdisp]

theorem State.guardWrite_of_plain {s : State} {fn off : Nat} {h : Hit} (val : Nat) (k : State → State) (hp : h.fld.Plain)
    (hopen : s.closed fn off = false ∧ s.mayWrite fn off = true) : s.guardWrite fn off val [h] k = k s :=
  State.guardWrite_of_taken val k (List.cons_ne_nil _ _) hopen (s.lockedHit_eq_false (by simp [hp.not_RWL]))
    (s.tdispHit_eq_false (by simp [tdispField_eq_false_of_setup hp.setup]))

/-- A write that meets a locked field is reported before the other fields are written (R15). -/
theorem State.guardWrite_of_locked {s : State} {fn off val : Nat} {hs : List Hit} (k : State → State)
    (hopen : s.closed fn off = false ∧ s.mayWrite fn off = true) (hlock : s.lockedHit hs = true)
    (htdisp : ∀ x ∈ hs, tdispField x.fld = false) :
    s.guardWrite fn off val hs k = k (s.post (devInc 0x0002 .notice (portOf fn) fn [off, val])) := by
  have hne : hs ≠ [] := by rintro rfl; cases hlock
  simp [State.guardWrite, hne, hopen, hlock, State.tdispHit_eq_false _ htdisp]

theorem State.guardRead_of_open {s : State} {fn off : Nat} (h : s.closed fn off = false) (k : State → State) : s.guardRead fn off k = k s := by
  have hb : s.barsBlocked fn = false := (Bool.or_eq_false_iff.1 h).1
  simp [State.guardRead, hb, h]

/-! ### Writing one field -/

/-- Only set-up fields, and the mask of a vector, have more to do when they are written. -/
theorem State.afterWrite_eq_self (s : State) (source fn off i : Nat) {f : Fld} (hset : f.spec.setup ≠ true) (hmask : f ≠ .EVT_VEC_MASK) :
    s.afterWrite source fn off f i = s := by
  unfold State.afterWrite
  split
  any_goals exact (hset rfl).elim
  · exact absurd rfl hmask
  · rfl

/-- Only RW set-up fields, and the mode of the tier-one groups, have a rule that follows the write of their register. -/
theorem State.followField_eq_self (s old : State) (source fn : Nat) {h : Hit} (hset : ¬(h.fld.spec.access = .RW ∧ h.fld.spec.setup = true))
    (hmode : h.fld ≠ .STK_GROUP_MODE) : s.followField old source fn h = s := by
  unfold State.followField
  generalize h.fld = f at hset hmode
  split
  any_goals exact (hset ⟨rfl, rfl⟩).elim
  · exact absurd rfl hmode
  · rfl

theorem State.follow_eq_self (s old : State) (source fn : Nat) {hs : List Hit}
    (h : ∀ x ∈ hs, ∀ t : State, t.followField old source fn x = t) : State.follow old source fn hs s = s := by
  unfold State.follow
  rw [List.foldl_ext _ (fun s _ => s) s (fun t x hx => h x hx t)]
  exact List.foldl_fixed hs

theorem State.follow_of_not_RW (s old : State) (source fn : Nat) {hs : List Hit} (h : ∀ x ∈ hs, x.fld.spec.access ≠ .RW) :
    State.follow old source fn hs s = s :=
  s.follow_eq_self old source fn (fun x hx t => t.followField_eq_self old source fn (fun e => h x hx e.1) (fun e => h x hx (e ▸ rfl)))

theorem State.follow_of_plain (s old : State) (source fn : Nat) {h : Hit} (hp : h.fld.Plain) : State.follow old source fn [h] s = s :=
  s.follow_eq_self old source fn (fun x hx t => by
    obtain rfl := List.mem_singleton.1 hx
    exact t.followField_eq_self old source fn (by simp [hp.setup]) hp.mode)

theorem State.writeField_of_locked {s : State} {h : Hit} (hl : s.locked h.fld = true) (source fn off : Nat) (hs : List Hit) (val : Nat)
    (done : List Fld) : s.writeField source fn off hs val done h = s := by
  have hauth : h.fld ≠ .SEC_CMP_AUTH := by intro e; rw [e] at hl; cases hl
  simp [State.writeField, hauth, hl]

theorem State.writeField_of_RO (s : State) {h : Hit} (hro : h.fld.spec.access = .RO) (source fn off : Nat) (hs : List Hit) (val : Nat)
    (done : List Fld) : s.writeField source fn off hs val done h = s := by
  have hauth : h.fld ≠ .SEC_CMP_AUTH := by intro e; rw [e] at hro; cases hro
  simp [State.writeField, hauth, hro]

/-- A plain field takes the bits written at its place (R14). -/
theorem State.writeField_of_plain (s : State) {h : Hit} (hp : h.fld.Plain) (source fn off : Nat) (hs : List Hit) (val : Nat)
    (done : List Fld) : s.writeField source fn off hs val done h = s.wr h.fld h.idx (bits val h.lo h.fld.spec.width) := by
  simp [State.writeField, hp.access, hp.setup, hp.row, s.dropField_eq_false fn h.idx hp.setup, s.locked_eq_false hp.not_RWL,
    State.afterWrite_eq_self _ _ _ _ _ (Bool.eq_false_iff.1 hp.setup) hp.mask]

/-! ### Writing a register -/

theorem mem_insertHit {x h : Hit} {hs : List Hit} (hx : x ∈ insertHit hs h) : x = h ∨ x ∈ hs := by
  induction hs with
  | nil => exact .inl (List.mem_singleton.1 hx)
  | cons y ys ih =>
    simp only [insertHit] at hx
    split at hx
    · exact List.mem_cons.1 hx
    · rcases List.mem_cons.1 hx with rfl | hx
      · exact .inr List.mem_cons_self
      · exact (ih hx).imp_right (List.mem_cons_of_mem _)

theorem mem_of_mem_sortHits {x : Hit} {hs : List Hit} (hx : x ∈ sortHits hs) : x ∈ hs := by
  have gen : ∀ (ys acc : List Hit), x ∈ ys.foldl insertHit acc → x ∈ acc ∨ x ∈ ys := by
    intro ys
    induction ys with
    | nil => exact fun _ h => .inl h
    | cons y ys ih =>
      intro acc h
      rcases ih _ h with h | h
      · rcases mem_insertHit h with rfl | h
        · exact .inr List.mem_cons_self
        · exact .inl h
      · exact .inr (List.mem_cons_of_mem _ h)
  exact (gen hs [] hx).resolve_left List.not_mem_nil

/-- A register each of whose fields keeps its value when written. -/
theorem State.writeFields_eq_self {s : State} {source fn off val : Nat} {hs : List Hit}
    (h : ∀ x ∈ hs, ∀ done, s.writeField source fn off hs val done x = s) : s.writeFields source fn off val hs = s := by
  have hsort : ∀ x ∈ sortHits hs, ∀ done, s.writeField source fn off hs val done x = s := fun x hx => h x (mem_of_mem_sortHits hx)
  unfold State.writeFields
  generalize sortHits hs = xs at hsort
  generalize ([] : List Fld) = done
  induction xs generalizing done with
  | nil => rfl
  | cons x xs ih =>
    rw [List.foldl_cons, hsort x List.mem_cons_self done]
    exact ih (fun y hy => hsort y (List.mem_cons_of_mem _ hy)) _

theorem State.writeFields_singleton (s : State) (source fn off val : Nat) (h : Hit) :
    s.writeFields source fn off val [h] = s.writeField source fn off [h] val [] h := rfl

/-- The access is an aligned write of a register that is no mailbox word, MSI-X entry or consumer count. -/
structure State.WritesRegister (s : State) (fn off : Nat) : Prop where
  fn_lt : fn < 128
  aligned : off % 4 = 0
  mailbox : s.mailboxAt fn off = none
  msix : msixAt fn off = none
  view : ¬(isMgr fn = false ∧ off = 0x30604)
  cons : (s.hits fn off).any isCons = false

section WritesRegister

variable {s : State} {fn off : Nat}

theorem isPair_eq_false {hs : List Hit} (h : ∀ x ∈ hs, x.fld.spec.pair = false) : isPair hs = false :=
  List.any_eq_false.2 (fun x hx => by simp [h x hx])

theorem State.WritesRegister.exec_eq_ite (h : s.WritesRegister fn off) (val : Nat) :
    exec (.registerWrite fn off val) s = .next (if isPair (s.hits fn off) then s else
      s.guardWrite fn off val (s.hits fn off) (fun t => State.follow t (writeSource fn) fn (s.hits fn off)
        (t.writeFields (writeSource fn) fn off (val % 2 ^ 32) (s.hits fn off)))) := by
  have hfn : ¬128 ≤ fn := Nat.not_le.2 h.fn_lt
  have hview : ¬((!isMgr fn && decide (off = 0x30604)) = true) := by simpa using h.view
  simp [exec_registerWrite, execRegisterWrite, State.registerWrite, hfn, h.aligned, h.mailbox, h.msix, hview, h.cons]

/-- REGISTER_WRITE leaves the halves of pairs to rows of their own. -/
theorem State.WritesRegister.exec_of_pair (h : s.WritesRegister fn off) (val : Nat) (hpair : isPair (s.hits fn off) = true) :
    exec (.registerWrite fn off val) s = .next s := by
  rw [h.exec_eq_ite, if_pos hpair]

/-- The fields of a register that is no half of a pair are written and followed up once the checks have passed. -/
theorem State.WritesRegister.exec_of_single (h : s.WritesRegister fn off) (val : Nat) (hpair : isPair (s.hits fn off) = false) :
    exec (.registerWrite fn off val) s = .next (s.guardWrite fn off val (s.hits fn off) (fun t =>
      State.follow t (writeSource fn) fn (s.hits fn off) (t.writeFields (writeSource fn) fn off (val % 2 ^ 32) (s.hits fn off)))) := by
  rw [h.exec_eq_ite, if_neg (Bool.eq_false_iff.1 hpair)]

/-- A register that holds one plain field (R14). -/
theorem State.WritesRegister.exec_of_plain (hw : s.WritesRegister fn off) (val : Nat) {h : Hit} (hh : s.hits fn off = [h])
    (hp : h.fld.Plain) (hpair : h.fld.spec.pair = false) (hopen : s.closed fn off = false ∧ s.mayWrite fn off = true) :
    exec (.registerWrite fn off val) s = .next (s.wr h.fld h.idx (bits (val % 2 ^ 32) h.lo h.fld.spec.width)) := by
  have hsingle : isPair (s.hits fn off) = false := by simp [hh, isPair, hpair]
  rw [hw.exec_of_single val hsingle, hh, State.guardWrite_of_plain val _ hp hopen, State.writeFields_singleton, s.writeField_of_plain hp,
    State.follow_of_plain _ _ _ _ hp]

/-- A register of RO fields (R14). -/
theorem State.WritesRegister.exec_of_RO (hw : s.WritesRegister fn off) (val : Nat) (hne : s.hits fn off ≠ [])
    (hro : ∀ x ∈ s.hits fn off, x.fld.spec.access = .RO) (hopen : s.closed fn off = false ∧ s.mayWrite fn off = true) :
    exec (.registerWrite fn off val) s = .next s := by
  cases hpair : isPair (s.hits fn off) with
  | true => exact hw.exec_of_pair val hpair
  | false =>
    have hlock : s.lockedHit (s.hits fn off) = false := s.lockedHit_eq_false (fun x hx => by simp [hro x hx])
    have htdisp : s.tdispHit (s.hits fn off) = false := s.tdispHit_eq_false (fun x hx => tdispField_eq_false_of_access (by simp [hro x hx]))
    rw [hw.exec_of_single val hpair, State.guardWrite_of_taken val _ hne hopen hlock htdisp,
      State.writeFields_eq_self (fun x hx => s.writeField_of_RO (hro x hx) _ _ _ _ _),
      State.follow_of_not_RW _ _ _ _ (fun x hx => by simp [hro x hx])]

/-- A register of RWL fields on a sealed part: the write is reported, and its fields are as locked after the report as before (R15). -/
theorem State.WritesRegister.exec_of_sealed (hw : s.WritesRegister fn off) (val : Nat) (hne : s.hits fn off ≠ [])
    (hrwl : ∀ x ∈ s.hits fn off, x.fld.spec.access = .RWL) (hopen : s.closed fn off = false ∧ s.mayWrite fn off = true)
    (hseal : s.rd .SEC_LIFECYCLE 0 = 1) :
    exec (.registerWrite fn off val) s = .next (s.post (devInc 0x0002 .notice (portOf fn) fn [off, val])) := by
  have hpair : isPair (s.hits fn off) = false := isPair_eq_false (fun x hx => x.fld.pair_of_RWL (hrwl x hx))
  have hlock : s.lockedHit (s.hits fn off) = true := by
    obtain ⟨x, hx⟩ := List.exists_mem_of_ne_nil _ hne
    exact List.any_eq_true.2 ⟨x, hx, State.locked_of_sealed (hrwl x hx) hseal⟩
  have htdisp : ∀ x ∈ s.hits fn off, tdispField x.fld = false := fun x hx => tdispField_eq_false_of_access (by simp [hrwl x hx])
  rw [hw.exec_of_single val hpair, State.guardWrite_of_locked _ hopen hlock htdisp]
  generalize devInc 0x0002 .notice (portOf fn) fn [off, val] = p
  have hseal' : (s.post p).rd .SEC_LIFECYCLE 0 = 1 := ((s.post_reported p).rd (by decide) 0).trans hseal
  rw [State.writeFields_eq_self (fun x hx => State.writeField_of_locked (State.locked_of_sealed (hrwl x hx) hseal') _ _ _ _ _),
    State.follow_of_not_RW _ _ _ _ (fun x hx => by simp [hrwl x hx])]

end WritesRegister

/-! ### Register pairs (R11 to R13) -/

/-- A low half that is taken is staged, and that is all. -/
theorem exec_registerPairLowWrite_of_taken {s : State} {fn off : Nat} (val : Nat) (hfn : fn < 128) (hpair : isPair (s.hits fn off) = true)
    (hlow : (s.hits fn off).any (fun h => h.high) = false) (hopen : s.closed fn off = false ∧ s.mayWrite fn off = true)
    (hlock : s.lockedHit (s.hits fn off) = false) (htdisp : s.tdispHit (s.hits fn off) = false) :
    exec (.registerPairLowWrite fn off val) s = .next (s.stageLow fn off (val % 2 ^ 32)) := by
  have hne : s.hits fn off ≠ [] := by intro e; rw [e] at hpair; cases hpair
  simp only [exec_registerPairLowWrite, execRegisterPairLowWrite, Nat.not_le.2 hfn, hpair, hlow,
    State.guardWrite_of_taken val _ hne hopen hlock htdisp]
  simp

/-- The value that a write of the high half gives a pair: the staged low half, or the present one, below the written high half, its reserved
low bits 0 (R12). -/
def State.pairValue (s : State) (fn off val : Nat) (h : Hit) : Nat :=
  let low := (s.reg.staged.find (pairKey fn (off - 4))).getD (s.rd h.fld h.idx % 2 ^ 32)
  (low + 2 ^ 32 * val) % 2 ^ h.fld.spec.width / 2 ^ h.fld.spec.lowRes * 2 ^ h.fld.spec.lowRes

/-- No low half of the pair is staged for the function any more. -/
def State.unstage (s : State) (fn off : Nat) : State :=
  { s with reg := { s.reg with staged := Tab.del s.reg.staged (pairKey fn (off - 4)) } }

theorem State.commitPair_of_plain (s : State) {h : Hit} (source fn off val : Nat) (hp : h.fld.Plain) :
    s.commitPair source fn off val h = (s.unstage fn off).wr h.fld h.idx (s.pairValue fn off val h) := by
  simp [State.commitPair, hp.access, hp.setup, hp.row, State.dropField_eq_false _ fn h.idx hp.setup, State.locked_eq_false _ hp.not_RWL,
    State.afterWrite_eq_self _ _ _ _ _ (Bool.eq_false_iff.1 hp.setup) hp.mask, State.unstage, State.pairValue]

/-- The write of the high half commits a plain pair (R12). -/
theorem exec_registerPairHighWrite_of_plain {s : State} {fn off : Nat} (val : Nat) {h : Hit} (hfn : fn < 128) (hh : s.hits fn off = [h])
    (hhigh : h.high = true) (hp : h.fld.Plain) (hopen : s.closed fn off = false ∧ s.mayWrite fn off = true) :
    exec (.registerPairHighWrite fn off val) s =
      .next ((s.unstage fn off).wr h.fld h.idx (s.pairValue fn off (val % 2 ^ 32) h)) := by
  simp only [exec_registerPairHighWrite, execRegisterPairHighWrite, hh, State.guardWrite_of_plain val _ hp hopen, List.foldl_cons,
    List.foldl_nil, s.commitPair_of_plain _ _ _ _ hp, State.follow_of_plain _ _ _ _ hp]
  simp [Nat.not_le.2 hfn, hhigh, hp.row]

/-! ### Reads -/

/-- A stored field reads as the value it holds: it is not computed and no order, and no function reads it in a way of its own. -/
structure Fld.Stored (f : Fld) : Prop where
  computed : f.spec.computed = false
  writeOnly : f.spec.access ≠ .WO
  order : f.spec.access ≠ .W1S
  plain : f ∉ [Fld.INS_MB_RELAY_NOTICE, .EVT_SRC_OWNER, .EVT_SRC_BOUND]

theorem State.fieldRead_of_stored (s : State) (fn : Nat) {h : Hit} (hst : h.fld.Stored) : s.fieldRead fn h = s.rd h.fld h.idx := by
  have hplain := hst.plain
  simp only [List.mem_cons, List.not_mem_nil, or_false, not_or] at hplain
  obtain ⟨hrelay, howner, hbound⟩ := hplain
  unfold State.fieldRead
  split
  · exact absurd ‹_› hrelay
  · exact absurd ‹_› howner
  · exact absurd ‹_› hbound
  · split
    · exact absurd ‹_› hst.writeOnly
    · exact absurd ‹_› hst.order
    · simp [hst.computed]

/-- A register that holds one stored field shows it at its place, and clears it where it is RC (R14). -/
theorem exec_readToClear_of_stored {s : State} {fn off : Nat} {h : Hit} (hfn : fn < 128) (hal : off % 4 = 0)
    (hh : s.readHits fn off = (fn, [h])) (hbuf : s.bufferRead fn off = none) (hopen : s.closed fn off = false)
    (hst : h.fld.Stored) (hpair : h.fld.spec.pair = false) (hrow : ownRead [h] = false) :
    exec (.readToClear fn off) s = .next (
      let t := s.emit .readValue [fn, off, put (s.rd h.fld h.idx % 2 ^ h.fld.spec.width) h.lo h.fld.spec.width]
      if h.fld.spec.access = .RC then t.wr h.fld h.idx 0 else t) := by
  have hrelay : h.fld ≠ .INS_MB_RELAY_NOTICE := fun e => hst.plain (e ▸ List.mem_cons_self)
  have hval : s.regRead fn [h] = put (s.rd h.fld h.idx % 2 ^ h.fld.spec.width) h.lo h.fld.spec.width := by
    simp [State.regRead, s.fieldRead_of_stored fn hst, hpair]
  simp only [exec_readToClear, execReadToClear, hh, State.guardRead_of_open hopen, hbuf, hval, hrow]
  simp [Nat.not_le.2 hfn, hal, isPair, hpair, State.clearRead, hrelay]

/-- The read of the low half of a stored pair latches the high half (R11). -/
theorem exec_registerPairLowRead_of_stored {s : State} {fn off : Nat} {h : Hit} (hfn : fn < 128) (hal : off % 4 = 0)
    (hh : s.readHits fn off = (fn, [h])) (hopen : s.closed fn off = false) (hst : h.fld.Stored) (hpair : h.fld.spec.pair = true)
    (hlow : h.high = false) :
    exec (.registerPairLowRead fn off) s = .next (
      let t := s.emit .readValue [fn, off, s.rd h.fld h.idx % 2 ^ h.fld.spec.width % 2 ^ 32]
      { t with reg := { t.reg with shadow := Tab.put t.reg.shadow (pairKey fn off) (s.rd h.fld h.idx / 2 ^ 32 % 2 ^ 32) } }) := by
  have hread := s.fieldRead_of_stored fn hst
  have hval : s.regRead fn [h] = s.rd h.fld h.idx % 2 ^ h.fld.spec.width % 2 ^ 32 := by
    simp [State.regRead, hread, hpair, hlow]
  simp only [exec_registerPairLowRead, execRegisterPairLowRead, hh, State.guardRead_of_open hopen, hval]
  simp [Nat.not_le.2 hfn, hal, isPair, hpair, hlow, hread]

/-- The read of the high half returns the shadow and discards it (R11). -/
theorem exec_registerPairHighRead_of_shadow {s : State} {fn off v : Nat} (hfn : fn < 128) (hoff : 4 ≤ off)
    (hhigh : (s.readHits fn off).2.any (fun h => h.high) = true) (hopen : s.closed fn off = false)
    (hshadow : s.reg.shadow.find (pairKey fn (off - 4)) = some v) :
    exec (.registerPairHighRead fn off) s = .next (
      let t := s.emit .readValue [fn, off, v]
      { t with reg := { t.reg with shadow := Tab.del t.reg.shadow (pairKey fn (off - 4)) } }) := by
  simp only [exec_registerPairHighRead, execRegisterPairHighRead, State.guardRead_of_open hopen, hshadow, hhigh]
  simp [Nat.not_le.2 hfn, Nat.not_lt.2 hoff]

/-! ### Accesses of another size -/

/-- Only an aligned 32-bit access, or an aligned 64-bit one of the MSI-X regions, is supported (R9, R616). -/
theorem exec_unsupportedRegisterAccess_of_odd (s : State) {fn off size : Nat} (h4 : ¬(size = 4 ∧ off % 4 = 0))
    (h8 : ((msixAt fn off).isSome || (s.msixPending fn off).isSome) = false ∨ ¬(size = 8 ∧ off % 8 = 0)) :
    exec (.unsupportedRegisterAccess fn off size) s = .next (s.emit .unsupported [fn, off]) := by
  rw [exec_unsupportedRegisterAccess, execUnsupportedRegisterAccess, if_neg]
  simp only [Bool.or_eq_true, Bool.and_eq_true, decide_eq_true_eq]
  rintro (haligned | ⟨⟨hmsix, hsize⟩, haligned⟩)
  · exact h4 haligned
  · rcases h8 with hno | hno
    · exact absurd (Bool.or_eq_true_iff.2 hmsix) (Bool.eq_false_iff.1 hno)
    · exact hno ⟨hsize, haligned⟩

/-! ### The statements -/

/-- Settles O6: a store keeps the order of the addresses and lists no empty byte, and a canonical table lists exactly the bytes that read as
something else than empty. -/
theorem memoryIsCanonical : Obligations.MemoryIsCanonical :=
  ⟨fun m a bs hm => ⟨Mem.wf_write m a bs hm, fun b => Mem.byte_write m a b bs⟩,
    fun _ _ ⟨hm, hn, heq⟩ => Tab.eq_of_get_eq hm hn heq⟩

/-- Settles O9: each form of access by the lemma of its command. -/
theorem registersAreReadAndWritten : Obligations.RegistersAreReadAndWritten := by
  refine ⟨?_, ?_, ?_, ?_, ?_, ?_, ?_⟩
  · rintro s fn off val h hfn hal ⟨hbox, hmsix⟩ hh ⟨hrw, hset, hpair⟩ ⟨hspecial, hown, -⟩ - hopen hview
    simp only [List.mem_cons, List.not_mem_nil, or_false, not_or] at hspecial
    obtain ⟨hmask, hdring, hcring⟩ := hspecial
    have hmode : h.fld ≠ .STK_GROUP_MODE := by intro e; rw [e] at hpair; cases hpair
    have hw : s.WritesRegister fn off := ⟨hfn, hal, hbox, hmsix, hview, by simp [hh, isCons_eq_false hdring hcring]⟩
    exact hw.exec_of_plain val hh ⟨hrw, hset, hown, hmask, hmode⟩ hpair hopen
  · rintro s fn off val hfn hal ⟨hbox, hmsix⟩ hne hro hopen hview
    have hw : s.WritesRegister fn off := ⟨hfn, hal, hbox, hmsix, hview, any_isCons_eq_false (fun x hx => by simp [hro x hx])⟩
    exact hw.exec_of_RO val hne hro hopen
  · rintro s fn off val ⟨hfn, hpair, hlow⟩ ⟨hc, hm, hlock, htdisp⟩
    refine exec_registerPairLowWrite_of_taken val hfn hpair hlow ⟨hc, hm⟩ ?_ htdisp
    simpa [State.lockedHit] using hlock
  · rintro s fn off val h ⟨hfn, hh, hhigh, hpair⟩ hopen ⟨hrw, hset, hown, hmode⟩
    have hmask : h.fld ≠ .EVT_VEC_MASK := by intro e; rw [e] at hpair; cases hpair
    exact exec_registerPairHighWrite_of_plain val hfn hh hhigh ⟨hrw, hset, hown, hmask, hmode⟩ hopen
  · rintro s fn off h ⟨hfn, hal, hh, hbuf⟩ hopen ⟨hpair, hcomp, hwo, hws⟩ hown
    have hst : h.fld.Stored := ⟨hcomp, hwo, hws, fun hm => hown (List.mem_append_left [Fld.EVT_CLM_SRC, .NET_AEQ_LO] hm)⟩
    have hrow : ownRead [h] = false := by
      simp only [List.mem_cons, List.not_mem_nil, or_false, not_or] at hown
      simp [ownRead, hown]
    exact exec_readToClear_of_stored hfn hal hh hbuf hopen hst hpair hrow
  · rintro s fn off h ⟨hfn, hal, hh⟩ hopen ⟨hpair, hlow, hcomp, hwo, hws⟩
    have hsingle : ∀ f ∈ [Fld.INS_MB_RELAY_NOTICE, .EVT_SRC_OWNER, .EVT_SRC_BOUND], f.spec.pair = false := by decide
    have hst : h.fld.Stored := ⟨hcomp, hwo, hws, fun hm => Bool.false_ne_true ((hsingle _ hm).symm.trans hpair)⟩
    exact exec_registerPairLowRead_of_stored hfn hal hh hopen hst hpair hlow
  · rintro s fn off v ⟨hfn, hoff, hhigh⟩ ⟨hopen, hshadow⟩
    exact exec_registerPairHighRead_of_shadow hfn hoff hhigh hopen hshadow

/-- Settles O10: neither exception of R9 applies. -/
theorem unalignedAccessIsUnsupported : Obligations.UnalignedAccessIsUnsupported := by
  constructor
  · intro s fn off size h4 h8
    exact exec_unsupportedRegisterAccess_of_odd s h4 (.inr h8)
  · rintro s fn off size h4 ⟨hmsix, hpend⟩
    exact exec_unsupportedRegisterAccess_of_odd s h4 (.inl (by simp [hmsix, hpend]))

/-- Settles O11: every field of the register is locked, and a report writes none of them. -/
theorem sealedRegistersAreKept : Obligations.SealedRegistersAreKept := by
  rintro s fn off val ⟨hfn, hal, hbox, hmsix, hview⟩ ⟨hc, hm, hseal⟩ ⟨hne, hrwl⟩
  have hw : s.WritesRegister fn off := ⟨hfn, hal, hbox, hmsix, hview, any_isCons_eq_false (fun x hx => by simp [hrwl x hx])⟩
  exact ⟨hw.exec_of_sealed val hne hrwl ⟨hc, hm⟩ hseal, (s.post_reported _).2, fun x hx => x.fld.not_mem_postFlds_of_RWL (hrwl x hx)⟩

end Sys2Proof.Machine
end

section
/-! SUPPORT. Proof of the statement on the messages of agents and hosts at the home (chapter 11). -/
namespace Sys2Proof.Machine

open Sys2Proof

/-! ### Requests that reach the home -/

section
variable {s : State} {agent va c : Nat} {indic : Bool} {x : Trans}

/-- A request that its die port translates to device memory goes on at the address the translation gives (R24, R303). -/
theorem State.dieRequest_of_reaches {need : Need} (h : s.dieReaches agent va indic need c x) (txn : Nat) (k : Nat → Nat → State → State) :
    s.dieRequest agent txn va indic need k = k c (x.out + (va - x.base)) (s.translate (agent / 8) c va indic need).2.2 := by
  obtain ⟨-, hstream, hlive, hopen, hok, hontime, htarget⟩ := h
  simp [dieRequest, hstream, hlive, hopen, hok, hontime, htarget]

theorem exec_getCopy_of_reaches (h : s.dieReaches agent va indic .read c x) (txn age : Nat) :
    exec (.getCopy agent txn va indic age) s =
      .next ((s.translate (agent / 8) c va indic .read).2.2.arrive (plainReq 1 agent txn c (x.out + (va - x.base)) age)) := by
  change execGetCopy agent txn va indic age s = _
  rw [execGetCopy, h.1, State.dieRequest_of_reaches h]
  rfl

theorem exec_getOwn_of_reaches (h : s.dieReaches agent va indic .write c x) (txn age : Nat) :
    exec (.getOwn agent txn va indic age) s =
      .next ((s.translate (agent / 8) c va indic .write).2.2.arrive (plainReq 2 agent txn c (x.out + (va - x.base)) age)) := by
  change execGetOwn agent txn va indic age s = _
  rw [execGetOwn, h.1, State.dieRequest_of_reaches h]
  rfl

theorem exec_claimOwn_of_reaches (h : s.dieReaches agent va indic .write c x) (txn age : Nat) :
    exec (.claimOwn agent txn va indic age) s =
      .next ((s.translate (agent / 8) c va indic .write).2.2.arrive (plainReq 3 agent txn c (x.out + (va - x.base)) age)) := by
  change execClaimOwn agent txn va indic age s = _
  rw [execClaimOwn, h.1, State.dieRequest_of_reaches h]
  rfl

end

/-- A junction agent names its line by APA, and goes on where its compartment owns the line. -/
theorem State.agentRequest_of_junction {s : State} {agent cmp addr : Nat} (hlo : 40 ≤ agent) (hhi : agent ≤ 44)
    (hown : s.ownsExtent cmp (lineOf addr * 128) 128 = true) (txn : Nat) (indic : Bool) (need : Need) (k : Nat → Nat → State → State) :
    s.agentRequest agent cmp txn addr indic need k = k cmp addr s := by
  have hdie : isDie agent = false := by simp only [isDie, decide_eq_false_iff_not]; omega
  simp [agentRequest, hdie, hlo, hhi, hown]

theorem exec_atomicFar_of_listed {op fmt addr : Nat} (hpair : atomPair op fmt = true) (halign : addr % atomBytes fmt = 0) (s : State)
    (agent cmp txn age operand compare : Nat) (indic : Bool) :
    exec (.atomicFar agent cmp txn addr indic age op fmt operand compare) s =
      .next (s.agentRequest agent cmp txn addr indic .atomic (fun c a s =>
        s.arrive { plainReq 0x0C agent txn c a age with aop := op, fmt := fmt, operand := operand, compare := compare })) := by
  change execAtomicFar agent cmp txn addr indic age op fmt operand compare s = _
  simp [execAtomicFar, hpair, halign]

/-- An EVENT under an open intake raises the source it names, or counts as dropped (R189). -/
theorem exec_event_of_live {s : State} {agent c : Nat} (hdie : isDie agent = true) (hstream : s.streamCmp agent = some c)
    (hlive : s.agentLive agent = true) (hopen : s.intakeOpen c = true) (word : Nat) :
    exec (.event agent word) s = .next (if s.bellOk (word % 2048) (some c) = true then s.bellRaises (word % 2048) [2 + agent / 8]
      else s.bump .EVT_DB_DROPPED_TOTAL 0 1) := by
  change execEvent agent word s = _
  rw [apply_ite Host.Outcome.next]
  simp [execEvent, hdie, hstream, hlive, hopen]

theorem exec_retryResend_of_found {s : State} {agent txn : Nat} {q : CohReq}
    (hq : s.coh.retried.find? (fun x => x.agent == agent && x.txn == txn) = some q) :
    exec (.retryResend agent txn) s =
      .next (State.arrive { s with coh := { s.coh with retried := s.coh.retried.erase q } } { q with age := min (q.age + 1) 15 }) := by
  change execRetryResend agent txn s = _
  simp only [execRetryResend, hq]

/-! ### Answers to an entry that waits for them -/

section
variable {s : State} {agent line : Nat} {t : Track}

theorem State.served_of_track (h : s.trackFor line agent = some t) (code : Nat) :
    s.served agent line code = (s.ownerEnds line agent code).answered t agent := by
  simp only [served, h]

theorem State.cleared_of_track (h : s.trackFor line agent = some t) : s.cleared agent line = (s.clearAgent line agent).answered t agent := by
  simp only [cleared, h]

/-- Where no owner was to supply the data directly, the home's part is already its own (R311). -/
theorem State.missed_of_track (h : s.trackFor line agent = some t) (hdirect : t.direct = false) :
    s.missed agent line = ((s.bump .COH_ST_RSP_MISS t.req.cmp 1).clearAgent line agent).answered t agent := by
  simp [missed, h, hdirect]

/-- The mark of RSP_EVICTING completes a crossing exactly where the writeback has come (R317). -/
theorem Track.crossed_mark_evicting (t : Track) (agent : Nat) :
    (t.mark agent (fun p => { p with evicting := true })).crossed agent = t.pend.any (fun p => p.agent == agent && p.wb) := by
  rw [crossed, mark, List.any_map]
  congr 1
  funext p
  by_cases hp : p.agent = agent
  · simp [hp]
  · simp [hp, beq_eq_false_iff_ne.2 hp]

theorem exec_rspEvicting_of_noWriteback {addr : Nat} (h : s.trackFor (lineOf addr) agent = some t)
    (hwb : t.pend.all (fun p => p.agent != agent || !p.wb) = true) :
    exec (.rspEvicting agent addr) s =
      .next ((s.bump .COH_ST_EVICT_CROSS t.req.cmp 1).setTrack (t.mark agent (fun p => { p with evicting := true }))) := by
  have hnone : t.pend.any (fun p => p.agent == agent && p.wb) = false := by
    simpa [imp_iff_not_or] using hwb
  change execRspEvicting agent addr s = _
  simp [execRspEvicting, h, State.crossing, Track.crossed_mark_evicting, hnone]

theorem exec_lineBack_of_track {addr : Nat} (h : s.trackFor (lineOf addr) agent = some t) (poison : Bool) (data : List Nat) :
    exec (.lineBack agent addr poison data) s =
      .next (((s.homeWrite t.req.cmp (128 * lineOf addr) (toBytes 128 data) poison).clearAgent (lineOf addr) agent).answered t agent) := by
  change execLineBack agent addr poison data s = _
  simp only [execLineBack, h]

/-- INSTALLED records the requester as the grant said and frees the entry (R308). -/
theorem exec_installed_of_granted {addr : Nat}
    (h : s.coh.tracks.find? (fun t => t.req.line == lineOf addr && t.req.agent == agent && t.granted) = some t) :
    exec (.installed agent addr) s =
      .next (((s.recordAgent (lineOf addr) agent (t.ends == 2)).unblock t).afterUnblock (lineOf addr)) := by
  change execInstalled agent addr s = _
  simp only [execInstalled, h]

/-- A back-invalidation response answers as a die agent's would: a miss of an agent that holds nothing, a clear, or a served owner (R322). -/
theorem exec_cxlBirsp_of_track {port addr : Nat} (hport : port < 2) (h : s.trackFor (lineOf addr) (32 + port) = some t) (shared : Bool) :
    exec (.cxlBirsp port addr shared) s = .next (
      if (s.holders (lineOf addr)).contains (32 + port) = false then s.missed (32 + port) (lineOf addr)
      else if t.pend.any (fun p => p.agent == 32 + port && (p.op == 0x13 || p.op == 0x14)) = true then s.cleared (32 + port) (lineOf addr)
      else s.served (32 + port) (lineOf addr) (b2n shared)) := by
  change execCxlBirsp port addr shared s = _
  simp only [execCxlBirsp, h, if_neg (Nat.not_le.2 hport), Bool.not_eq_true', apply_ite Host.Outcome.next]

end

/-! ### Data of an owner -/

/-- A writeback of the owner that crosses no forward ends its ownership and is acknowledged (R313). -/
theorem State.writeback_of_owner {s : State} {agent line : Nat} (hno : s.trackFor line agent = none) (hown : s.ownerOf line = some agent)
    (c : Nat) (poison : Bool) (data : List Nat) :
    s.writeback agent c line poison data =
      ((s.homeWrite c (128 * line) (toBytes 128 data) poison).clearAgent line agent).coh1 agent 0x26 line 0 false [] := by
  simp only [writeback, hno, hown, if_true]

theorem exec_lineWb_of_live {s : State} {agent addr c : Nat} (hdie : isDie agent = true) (hstream : s.streamCmp agent = some c)
    (hlive : s.agentLive agent = true) (hext : s.ownsExtent c (lineOf addr * 128) 128 = true) (poison : Bool) (data : List Nat) :
    exec (.lineWb agent addr poison data) s = .next (s.writeback agent c (lineOf addr) poison data) := by
  change execLineWb agent addr poison data s = _
  simp [execLineWb, hdie, hstream, hlive, hext]

/-- An owner's data for a PEEK passes to the requester, and the entry has got it (R298). -/
theorem exec_linePeek_of_owner {s : State} {agent addr requester : Nat} {t : Track}
    (h : s.coh.tracks.find? (fun t => t.req.line == lineOf addr && t.req.agent == requester && t.req.op == 4 && t.direct && !t.got) = some t)
    (hown : s.ownerOf (lineOf addr) = some agent) (poison : Bool) (data : List Nat) :
    exec (.linePeek agent requester addr poison data) s = .next ((s.setTrack { t with got := true }).emit .data
      ([requester, 128 * lineOf addr, b2n poison] ++ data.take 128)) := by
  change execLinePeek agent requester addr poison data s = _
  simp only [execLinePeek, h, hown, if_true]

/-- A die owner's data for a host reaches the host, and the entry waits for the rest of its grant (R309, R323). -/
theorem exec_lineS_of_waiting {s : State} {port op addr : Nat} {t : Track} (hport : port < 2) (hlo : 0x30 ≤ op) (hhi : op ≤ 0x33)
    (h : s.coh.tracks.find? (fun t => t.req.line == lineOf addr && t.req.agent == 32 + port && t.direct && !t.got) = some t)
    (hgranted : t.granted = false) (poison : Bool) (data : List Nat) :
    exec (.lineS port op addr poison data) s =
      .next ((s.coh1 (32 + port) op (lineOf addr) t.req.txn poison (toBytes 128 data)).setTrack { t with got := true }) := by
  change execLineS port op addr poison data s = _
  simp [execLineS, h, hgranted, Nat.not_le.2 hport, Nat.not_lt.2 hlo, Nat.not_lt.2 hhi]

/-! ### Reservations and host messages -/

/-- An expired reservation takes its holder off the starved list of the line (R320). -/
theorem exec_reservationExpiry_of_reserved {s : State} {line a x : Nat} (h : s.coh.reserved.find line = some (a, x)) :
    exec (.reservationExpiry line) s = .next (((State.bump { s with coh := { s.coh with
      starved := s.coh.starved.filter (fun y => !(y.line == line && y.agent == a && y.txn == x)) } }
        .COH_ST_RES_EXPIRED (s.lineCmp line) 1).reserveNext line).hostsGo) := by
  have hholder : (fun y : Starve => !(y.line == line && (y.agent, y.txn) == (a, x))) =
      fun y => !(y.line == line && y.agent == a && y.txn == x) := by
    funext y
    rw [Bool.and_assoc]
    rfl
  change execReservationExpiry line s = _
  simp only [execReservationExpiry, h, hholder]
  rfl

theorem exec_h2dSnoop_of_port {port : Nat} (hport : port < 2) (s : State) (tag : Nat) :
    exec (.h2dSnoop port tag) s = .next (s.emit .cxl [32 + port, 0x100, tag]) := if_neg (Nat.not_le.2 hport)

theorem exec_biconflict_of_port {port : Nat} (hport : port < 2) (s : State) (tag : Nat) :
    exec (.biconflict port tag) s = .next (s.emit .cxl [32 + port, 0x101, tag]) := if_neg (Nat.not_le.2 hport)

theorem exec_hostAtomicopRequest_of_port {port : Nat} (hport : port < 2) (s : State) (fn addr : Nat) :
    exec (.hostAtomicopRequest port fn addr) s = .next (s.emit .unsupported [fn, addr]) := if_neg (Nat.not_le.2 hport)

/-! ### The statement -/

/-- Settles O32: each message by the lemma of its command. -/
theorem theHomeTracksRequests : Obligations.TheHomeTracksRequests := by
  refine ⟨?_, ?_, ?_, ?_, ?_, ?_, ?_, ?_, ?_, ?_, ?_, ?_, ?_⟩
  · intro s agent txn va age c indic x h
    exact exec_getCopy_of_reaches h txn age
  · intro s agent txn va age c indic x h
    exact ⟨exec_getOwn_of_reaches h txn age, exec_claimOwn_of_reaches h txn age⟩
  · rintro s agent cmp txn addr age mask op fmt operand compare indic data ⟨hlo, hhi, hown⟩
    have hreach := State.agentRequest_of_junction hlo hhi hown txn indic
    refine ⟨congrArg Host.Outcome.next (hreach .read _), congrArg Host.Outcome.next (hreach .write _),
      congrArg Host.Outcome.next (hreach .write _), fun hpair halign => ?_⟩
    rw [exec_atomicFar_of_listed hpair halign, hreach]
    rfl
  · rintro s agent word c ⟨hdie, hstream, hlive, hopen⟩
    exact exec_event_of_live hdie hstream hlive hopen word
  · intro s q hq
    exact exec_retryResend_of_found hq
  · intro s agent addr code t poison data h
    refine ⟨congrArg Host.Outcome.next (State.served_of_track h code), congrArg Host.Outcome.next (State.cleared_of_track h),
      fun hdirect => congrArg Host.Outcome.next (State.missed_of_track h hdirect), fun _ hwb => ?_, ?_⟩
    · exact exec_rspEvicting_of_noWriteback h hwb
    · exact exec_lineBack_of_track h poison data
  · rintro s agent addr c poison data ⟨hdie, hstream, hlive, hext⟩ ⟨hno, hown⟩
    rw [exec_lineWb_of_live hdie hstream hlive hext, State.writeback_of_owner hno hown]
  · intro s agent addr requester poison data t h hown
    exact exec_linePeek_of_owner h hown poison data
  · rintro s port op addr poison data t ⟨hport, hlo, hhi⟩ ⟨h, hgranted⟩
    exact exec_lineS_of_waiting hport hlo hhi h hgranted poison data
  · intro s agent addr t h
    exact exec_installed_of_granted h
  · intro s line a x h
    exact exec_reservationExpiry_of_reserved h
  · intro s port tag fn addr hport
    exact ⟨exec_h2dSnoop_of_port hport s tag, exec_biconflict_of_port hport s tag, exec_hostAtomicopRequest_of_port hport s fn addr⟩
  · rintro s port addr shared t ⟨hport, h⟩
    exact exec_cxlBirsp_of_track hport h shared

end Sys2Proof.Machine
end

section
/-! SUPPORT. Frames of operations that change more than a report, the rotating order of claims, and what the start of a descriptor leaves. -/
namespace Sys2Proof.Machine

open Sys2Proof

/-! ### Frames of operations that change more than a report -/

theorem State.keepsBut.trans {s t u : State} {fs : List Fld} (h : s.keepsBut t fs) (k : t.keepsBut u fs) : s.keepsBut u fs :=
  fun f hf i => (k f hf i).trans (h f hf i)

theorem State.keepsBut.mono {s t : State} {fs gs : List Fld} (h : s.keepsBut t fs) (sub : ∀ f ∈ fs, f ∈ gs) : s.keepsBut t gs :=
  fun f hf i => h f (fun hm => hf (sub f hm)) i

/-- What leaves the registers alone leaves every field. -/
theorem State.keepsBut.of_reg {s t u : State} {fs : List Fld} (h : s.keepsBut t fs) (hreg : u.reg = t.reg) : s.keepsBut u fs :=
  fun f hf i => (by simp only [State.rd, hreg] : u.rd f i = t.rd f i).trans (h f hf i)

theorem State.mem_of_still {s t : State} (h : t.still = s.still) : t.mem = s.mem := congrArg (fun x => x.2.2.2.2) h

/-! ### What the start of a descriptor may change -/

/-- Fields that a breach may change: the breach counters, and what its incident changes. -/
def breachFlds : List Fld := [.CMP_CTR_BREACH_FRAME, .CMP_CTR_BREACH_TOTAL, .CMP_CTR_SUPPRESSING] ++ postFlds

theorem post_in_breach : ∀ f ∈ postFlds, f ∈ breachFlds := by decide

theorem State.breach_keepsBut (s : State) (c : Nat) (k : Breach) (b : BreachAt) : s.keepsBut (s.breach c k b) breachFlds := by
  unfold State.breach
  extract_lets counted sched place p suppressing
  have hcounted : s.reported breachFlds counted :=
    ((s.bump_reported _ c 1 (by decide) (by decide)).trans (State.bump_reported _ _ c 1 (by decide) (by decide))).trans
      (State.stat_reported _ c 1 1 (by decide))
  have hpost (u : State) : u.reported breachFlds (u.post p) := (u.post_reported p).mono post_in_breach
  split
  · exact (hcounted.trans (hpost _)).2
  · split
    · exact ((hcounted.trans (counted.countFrame_reported _ _)).trans (hpost _)).2
    · exact (hcounted.trans (counted.wr_reported .CMP_CTR_SUPPRESSING c 1 (by decide))).2

theorem State.opBreach_keepsBut (s : State) (o : Op) (k : Breach) (b : BreachAt) : s.keepsBut (s.opBreach o k b).2 breachFlds := by
  unfold State.opBreach
  split
  · exact s.keepsBut_refl _
  · exact s.breach_keepsBut _ _ _

/-- Taking a descriptor out of its queue changes no field but the ring's consumer count (R121). -/
theorem State.takeCand_keepsBut (s : State) (fn ring : Nat) (k : Cand) : s.keepsBut (s.takeCand fn ring k) [.RNG_CONS] := by
  unfold State.takeCand
  dsimp only
  split
  · exact s.keepsBut_wr .RNG_CONS _ _ (by decide) (s.keepsBut_refl _)
  · exact s.keepsBut_refl _
  · exact s.keepsBut_refl _

/-- Fields that the start of a descriptor may change: the ring's consumer count, and what a late start's breach changes. -/
def beginFlds : List Fld := .RNG_CONS :: breachFlds

theorem State.lateStart_keepsBut (s : State) (o : Op) : s.keepsBut (s.lateStart o).2 breachFlds := by
  unfold State.lateStart
  split
  · exact s.opBreach_keepsBut _ _ _
  · exact s.keepsBut_refl _

theorem State.begun_keepsBut (s : State) (fn ring c : Nat) (k : Cand) : s.keepsBut (s.begun fn ring c k).2 beginFlds :=
  have htaken : s.keepsBut ((s.takeCand fn ring k).newOp fn ring c k).2 [.RNG_CONS] := s.takeCand_keepsBut fn ring k
  (htaken.mono (by decide)).trans ((State.lateStart_keepsBut _ _).mono (List.subset_cons_self _ _))

@[simp] theorem State.begun_primaryFn (s : State) (fn ring c : Nat) (k : Cand) : (s.begun fn ring c k).2.primaryFn = s.primaryFn := by
  have hkept : (s.begun fn ring c k).2.kept = s.kept := by simp [State.begun]
  have hpins : (s.begun fn ring c k).2.pins = s.pins := congrArg (fun x => x.2.1) hkept
  simp [State.primaryFn, hpins]

theorem State.begun_fawn (s : State) (fn ring c : Nat) (k : Cand) : (s.begun fn ring c k).2.rd .BOOT_FAWN 0 = s.rd .BOOT_FAWN 0 :=
  s.begun_keepsBut fn ring c k .BOOT_FAWN (by decide) 0

/-! ### Rotating order (R622) -/

theorem rotate_eq_filter (n ptr : Nat) (claims : List Nat) :
    rotate n ptr claims = ((List.range n).rotate ptr).filter claims.contains := by
  have hshift : (List.range n).rotate ptr = (List.range n).map (fun k => (ptr + k) % n) := by
    refine List.ext_getElem (by simp) fun i _ _ => ?_
    simp [List.getElem_rotate, Nat.add_comm]
  rw [hshift, ← List.filterMap_eq_filter, List.filterMap_map]
  rfl

theorem mem_rotate {n ptr c : Nat} {claims : List Nat} : c ∈ rotate n ptr claims ↔ c < n ∧ c ∈ claims := by
  simp [rotate_eq_filter]

theorem nodup_rotate (n ptr : Nat) (claims : List Nat) : (rotate n ptr claims).Nodup := by
  rw [rotate_eq_filter]
  exact (List.nodup_rotate.2 List.nodup_range).filter _

theorem rotate_singleton {n c : Nat} (h : c < n) (ptr : Nat) : rotate n ptr [c] = [c] := by
  refine List.perm_singleton.1 ((List.perm_ext_iff_of_nodup (nodup_rotate ..) (List.nodup_singleton c)).2 fun a => ?_)
  rw [mem_rotate, and_iff_right_of_imp]
  exact fun ha => List.mem_singleton.1 ha ▸ h

/-- A claim that meets no other passes, and the pointer stays (R622). -/
theorem State.arbitrate_singleton (s : State) (p : Point) {n c : Nat} (h : c < n) : s.arbitrate p n [c] = ([c], s) := by
  simp [State.arbitrate, rotate_singleton h]

/-! ### What a start leaves, seen through the operations that follow it -/

@[simp] theorem State.rd_opensLong (s : State) (o : Op) (tkind c total i : Nat) (words args : List Nat) (f : Fld) (j : Nat) :
    (s.opensLong o tkind c total i words args).rd f j = s.rd f j := rfl

@[simp] theorem State.rd_addOp (s : State) (o : Op) (f : Fld) (j : Nat) : (s.addOp o).rd f j = s.rd f j := rfl

theorem State.addOp_getLast (s : State) (o : Op) : (s.addOp o).ring.ops.getLast? = some o := by simp [State.addOp]

/-- An operation's number names what is replaced. -/
theorem State.setOp_ops (s : State) (o : Op) : (s.setOp o).ring.ops = s.ring.ops.map (fun x => if x.id = o.id then o else x) := by
  simp [State.setOp]

@[simp] theorem State.setOp_cmpState (s : State) (o : Op) (c : Nat) : (s.setOp o).cmpState c = s.cmpState c := rfl

@[simp] theorem State.setOp_grants (s : State) (o : Op) (c : Nat) : (s.setOp o).grants c = s.grants c := rfl

/-- A long operation that starts is RUNNING in its slot (R531). -/
theorem State.opensLong_longAt (s : State) (o : Op) (tkind c total i : Nat) (words args : List Nat) :
    ∃ l, (s.opensLong o tkind c total i words args).longAt i = some l ∧ l.kind = dOpcode o.desc ∧ l.cmp = c ∧ l.state = 1 :=
  ⟨_, Tab.find_put_same .., rfl, rfl, rfl⟩

end Sys2Proof.Machine
end

section
/-! SUPPORT. Proofs of the statements on the values after reset and on compartments (chapter 2). -/
namespace Sys2Proof.Machine

open Sys2Proof

/-! ### After reset -/

@[simp] theorem State.rd_reset (f : Fld) (i : Nat) : State.reset.rd f i = f.resetAt i := rfl

/-- Settles O3: no field is listed after reset, so each reads its Reset column, and the queues are empty lists. -/
theorem resetLeavesTheStatedValues : Obligations.ResetLeavesTheStatedValues := by
  have hring (fn n : Nat) : State.reset.ringState fn n = .disabled := rfl
  have hfree (c : Nat) (hc : 1 ≤ c) : State.reset.cmpState c = .free := by
    rw [State.cmpState, if_neg (Nat.ne_of_gt hc)]
    rfl
  refine ⟨rfl, rfl, rfl, rfl, rfl, fun fn _ n _ => hring fn n, rfl, fun c hc _ => hfree c hc,
    fun obj _ => State.rd_reset _ obj, State.rd_reset _ 0, ?_⟩
  simp only [State.rd_reset]
  decide

/-! ### QUIESCE and REOPEN (R46 to R48) -/

theorem State.isTenantIn_iff {s : State} {c : Nat} {st : CmpState} : s.isTenantIn c st = true ↔ (1 ≤ c ∧ c ≤ 31) ∧ s.cmpState c = st := by
  simp [State.isTenantIn]

section
variable {o : Op} {s : State}

theorem quiesceWork_of_slot {i : Nat} (hfn : o.fn = s.primaryFn) (hfawn : s.rd .BOOT_FAWN 0 = 0)
    (hin : s.isTenantIn (adCmp o.desc) .assigned = true) (hbusy : s.longBusy (dOpcode o.desc) (adCmp o.desc) = false)
    (hslot : s.claimSlot = some i) :
    quiesceWork o s =
      ({ o with wait := .long i }, (s.opensLong o 0 (adCmp o.desc) 0 i [] []).wr .CMP_INTAKE_CLOSED (adCmp o.desc) 1) := by
  simp only [quiesceWork, adminGate_open _ hfn hfawn, hin, Bool.not_true, Bool.false_eq_true, if_false,
    State.startLong_of_slot _ hbusy hslot]

theorem reopenWork_of_quiesced (hfn : o.fn = s.primaryFn) (hfawn : s.rd .BOOT_FAWN 0 = 0)
    (hin : s.isTenantIn (adCmp o.desc) .quiesced = true) :
    reopenWork o s =
      ({ o with wait := .done }, (s.setCmpState (adCmp o.desc) .assigned).wr .CMP_INTAKE_CLOSED (adCmp o.desc) 0) := by
  simp only [reopenWork, adminGate_open _ hfn hfawn, hin, Bool.not_true, Bool.false_eq_true, if_false]

end

section
variable {s : State} {fn ring c : Nat} {k : Cand}

theorem exec_quiesce_of_slot {i : Nat} (h : s.starts fn ring 0x61 c k) (hfn : fn = s.primaryFn) (hfawn : s.rd .BOOT_FAWN 0 = 0)
    (hin : (s.begun fn ring c k).2.isTenantIn (adCmp k.desc) .assigned = true)
    (hbusy : (s.begun fn ring c k).2.longBusy 0x61 (adCmp k.desc) = false) (hslot : (s.begun fn ring c k).2.claimSlot = some i) :
    exec (.quiesce fn ring none) s = .next
      ((((s.begun fn ring c k).2.opensLong (s.begun fn ring c k).1 0 (adCmp k.desc) 0 i [] []).wr .CMP_INTAKE_CLOSED (adCmp k.desc) 1).addOp
        { (s.begun fn ring c k).1 with wait := .long i }) := by
  have ⟨_, _, hcode, _⟩ := h
  have hcmp : adCmp (s.begun fn ring c k).1.desc = adCmp k.desc := by rw [State.begun_desc]
  have hwork := quiesceWork_of_slot (o := (s.begun fn ring c k).1) (s := (s.begun fn ring c k).2) (by simpa using hfn)
    ((s.begun_fawn fn ring c k).trans hfawn) (by simpa using hin) (by simpa [hcode] using hbusy) hslot
  change Host.Outcome.next (s.startNext fn ring _ quiesceWork) = _
  rw [State.startNext_of_starts h _ _ (by simp [hcode]), hwork, hcmp]

theorem exec_reopen_of_quiesced (h : s.starts fn ring 0x62 c k) (hfn : fn = s.primaryFn) (hfawn : s.rd .BOOT_FAWN 0 = 0)
    (hin : (s.begun fn ring c k).2.isTenantIn (adCmp k.desc) .quiesced = true) :
    exec (.reopen fn ring) s = .next ((((s.begun fn ring c k).2.setCmpState (adCmp k.desc) .assigned).wr .CMP_INTAKE_CLOSED
      (adCmp k.desc) 0).addOp { (s.begun fn ring c k).1 with wait := .done }) := by
  have ⟨_, _, hcode, _⟩ := h
  have hcmp : adCmp (s.begun fn ring c k).1.desc = adCmp k.desc := by rw [State.begun_desc]
  have hwork := reopenWork_of_quiesced (o := (s.begun fn ring c k).1) (s := (s.begun fn ring c k).2) (by simpa using hfn)
    ((s.begun_fawn fn ring c k).trans hfawn) (by simpa using hin)
  change Host.Outcome.next (s.startNext fn ring _ reopenWork) = _
  rw [State.startNext_of_starts h _ _ (by simp [hcode]), hwork, hcmp]

end

/-! ### What a compartment leaves behind when it stops being ASSIGNED (R82, R557) -/

theorem State.setCmpState_cmpState (s : State) {c : Nat} (hc : c ≠ 0) (st : CmpState) : (s.setCmpState c st).cmpState c = st := by
  simp only [State.cmpState, State.setCmpState, if_neg hc, State.rd_wr_same]
  cases st <;> rfl

theorem State.setCmpState_eq_wr (s : State) {c : Nat} (hc : c ≠ 0) (st : CmpState) :
    s.setCmpState c st = s.wr .CMP_STATE c st.code := if_neg hc

theorem State.unpin_eq (s : State) (c : Nat) (pre keep : List (Nat × Nat)) :
    s.unpin c pre keep = { s with xl := (s.unpin c pre keep).xl } := by
  have hrest : { s.unpin c pre keep with xl := s.xl } = s :=
    kept_fold_of (fun t : State => { t with xl := s.xl }) _ (fun t e => by dsimp only; split <;> rfl) pre s
  exact congrArg (fun t : State => { t with xl := (s.unpin c pre keep).xl }) hrest

theorem State.endContracts_eq (s : State) (c : Nat) :
    s.endContracts c = { s with xl := (s.endContracts c).xl, cmp := (s.endContracts c).cmp } := by
  simp only [State.endContracts, State.endActive, State.dropStaged]
  rw [State.unpin_eq, State.unpin_eq s]

theorem State.tdispErrors_eq (s : State) (fns : List Nat) :
    fns.foldl State.tdispError s = { s with sec := (fns.foldl State.tdispError s).sec } := by
  have hrest : { fns.foldl State.tdispError s with sec := s.sec } = s :=
    kept_fold_of (fun t : State => { t with sec := s.sec }) _ (fun t fn => by unfold State.tdispError; split <;> rfl) fns s
  exact congrArg (fun t : State => { t with sec := (fns.foldl State.tdispError s).sec }) hrest

/-- Entering a state moves the compartment's state, its contracts with their pinned places, and the interfaces of its instances. -/
theorem State.enterState_eq (s : State) (c : Nat) (st : CmpState) :
    s.enterState c st =
      { s.setCmpState c st with xl := (s.enterState c st).xl, cmp := (s.enterState c st).cmp, sec := (s.enterState c st).sec } := by
  unfold State.enterState
  extract_lets t
  split
  · rfl
  · rw [State.tdispErrors_eq, State.endContracts_eq]

theorem State.enterState_cmpState (s : State) {c : Nat} (hc : c ≠ 0) (st : CmpState) : (s.enterState c st).cmpState c = st := by
  rw [State.enterState_eq]
  exact s.setCmpState_cmpState hc st

@[simp] theorem State.enterState_longAt (s : State) (c : Nat) (st : CmpState) (i : Nat) : (s.enterState c st).longAt i = s.longAt i := by
  rw [State.enterState_eq, State.setCmpState]
  split <;> rfl

theorem State.finLong_of_longAt {s : State} {i : Nat} {l : LongOp} (h : s.longAt i = some l) (status result : Nat) :
    s.finLong i status result = s.setLong i { l with fin := some (status, result) } := by
  simp [State.finLong, h]

/-- A QUIESCE whose compartment is drained: QUIESCED, intake closed, and the long operation's work at its end (R47). -/
theorem exec_quiesceDrainComplete_of_drained {s : State} {c i : Nat} {l : LongOp} (h : s.longOf 0x61 c = some (i, l))
    (hat : s.longAt i = some l) (hdrained : s.drained c = true) :
    exec (.quiesceDrainComplete c) s =
      .next (((s.enterState c .quiesced).wr .CMP_INTAKE_CLOSED c 1).setLong i { l with fin := some (0, 0) }) := by
  have hlong : ((s.enterState c .quiesced).wr .CMP_INTAKE_CLOSED c 1).longAt i = some l := (s.enterState_longAt c _ i).trans hat
  change execQuiesceDrainComplete c s = _
  simp only [execQuiesceDrainComplete, h, hdrained, if_true, State.finLong_of_longAt hlong]

/-! ### A plan is bound to its compartment (R59) -/

/-- The compartment state reads from its field alone. -/
theorem State.cmpState_congr {s t : State} {c : Nat} (h : t.rd .CMP_STATE c = s.rd .CMP_STATE c) : t.cmpState c = s.cmpState c := by
  simp only [State.cmpState, h]

/-- Functions bound to a compartment, as a plan binds them (R59). -/
def State.bindInstances (s : State) (c : Nat) (fns : List Nat) : State :=
  fns.foldl (fun t i => (t.wr .INS_BOUND i 1).wr .INS_CMP i c) s

theorem State.bindInstances_reported (s : State) (c : Nat) (fns : List Nat) : s.reported [.INS_BOUND, .INS_CMP] (s.bindInstances c fns) :=
  .foldl _ (fun t i => (t.wr_reported .INS_BOUND i 1 (by decide)).trans (State.wr_reported _ .INS_CMP i c (by decide))) fns s

/-- The functions listed are bound to the compartment; every other is as it was. -/
theorem State.rd_bindInstances (s : State) {c : Nat} (hc : c ≤ 31) (fns : List Nat) (i : Nat) :
    (s.bindInstances c fns).rd .INS_BOUND i = (if i ∈ fns then 1 else s.rd .INS_BOUND i) ∧
      (s.bindInstances c fns).rd .INS_CMP i = (if i ∈ fns then c else s.rd .INS_CMP i) := by
  have hwidth : c % 2 ^ Fld.INS_CMP.spec.width = c := Nat.mod_eq_of_lt (Nat.lt_succ_of_le hc)
  have hone : 1 % 2 ^ Fld.INS_BOUND.spec.width = 1 := rfl
  induction fns generalizing s with
  | nil => exact ⟨rfl, rfl⟩
  | cons j fns ih =>
    obtain ⟨hbound, hcmp⟩ := ih ((s.wr .INS_BOUND j 1).wr .INS_CMP j c)
    change (((s.wr .INS_BOUND j 1).wr .INS_CMP j c).bindInstances c fns).rd .INS_BOUND i = _ ∧
      (((s.wr .INS_BOUND j 1).wr .INS_CMP j c).bindInstances c fns).rd .INS_CMP i = _
    rw [hbound, hcmp]
    by_cases hj : j = i
    · simp [State.rd_wr, hj, hwidth, hone]
    · simp [State.rd_wr, hj, Ne.symm hj]

/-- The fields by which the agents follow the stream bindings (R297). -/
def agentFlds : List Fld := [.COH_AG_CMP, .COH_AG_BOUND, .COH_AG_LIVE]

theorem State.refreshAgents_reported (s : State) : s.reported agentFlds s.refreshAgents := by
  have one (u : State) (a c b l : Nat) : u.reported agentFlds (((u.wr .COH_AG_CMP a c).wr .COH_AG_BOUND a b).wr .COH_AG_LIVE a l) :=
    ((u.wr_reported _ _ _ (by decide)).trans (State.wr_reported _ _ _ _ (by decide))).trans (State.wr_reported _ _ _ _ (by decide))
  unfold State.refreshAgents
  refine .trans (.foldl _ (fun u a => ?_) ..)
    (.foldl _ (fun u p => (u.wr_reported _ _ _ (by decide)).trans (State.wr_reported _ _ _ _ (by decide))) ..)
  split
  · exact one ..
  · exact one ..

theorem State.floorsLowered_reported (s old : State) : s.reported postFlds (s.floorsLowered old) :=
  .foldl _ (fun u _ => .ite (u.post_reported _) (.refl ..)) ..

/-- The blocks that are cleared: concord objects and conjunction slots (R164). -/
theorem State.clearBlocks_eq (s : State) (c : Nat) :
    ∃ u, s.reported [.CON_VALUE] u ∧ s.clearBlocks c = { u with slots := (s.clearBlocks c).slots } :=
  ⟨_, .foldl _ (fun u b => .foldl _ (fun v o => v.wr_reported .CON_VALUE o 0 (by decide)) ..) .., rfl⟩

/-- What binding a plan writes before the compartment's blocks are cleared and its agents follow: the grants, the functions bound, and
the compartment's own fields. -/
def State.planWritten (s : State) (c : Nat) (ws : List Nat) (pats : List (List Nat)) : State :=
  ((((((s.setGrants c (s.planGrants ws pats)).bindInstances c (plInst ws)).setCmpState c .assigned).wr .CMP_SEALED c
    (b2n (plSealed ws))).wr .CMP_INTAKE_CLOSED c 0).wr .CMP_TAINT_CAUSE c 0)

/-- Fields that follow from a plan that is written: concord objects that are cleared, the agents, and what lowered floors report. -/
def planFlds : List Fld := .CON_VALUE :: agentFlds ++ postFlds

theorem State.clearBlocks_frame (s : State) (c : Nat) :
    (s.clearBlocks c).cmp = s.cmp ∧ (s.clearBlocks c).ring = s.ring ∧ s.keepsBut (s.clearBlocks c) [.CON_VALUE] := by
  obtain ⟨u, hu, hcleared⟩ := s.clearBlocks_eq c
  rw [hcleared]
  exact ⟨hu.cmp, hu.ring, hu.2⟩

theorem State.bindPlan_eq (s : State) (c : Nat) (ws : List Nat) (pats : List (List Nat)) :
    s.bindPlan c ws pats = ((s.planWritten c ws pats).clearBlocks c).refreshAgents.floorsLowered s := rfl

/-- What follows a plan that is written leaves the grants, the operations and every other field. -/
theorem State.bindPlan_frame (s : State) (c : Nat) (ws : List Nat) (pats : List (List Nat)) :
    (s.bindPlan c ws pats).cmp = (s.planWritten c ws pats).cmp ∧ (s.bindPlan c ws pats).ring = (s.planWritten c ws pats).ring ∧
      (s.planWritten c ws pats).keepsBut (s.bindPlan c ws pats) planFlds := by
  obtain ⟨hcmp, hring, hclear⟩ := (s.planWritten c ws pats).clearBlocks_frame c
  have hafter : ((s.planWritten c ws pats).clearBlocks c).reported planFlds (s.bindPlan c ws pats) := by
    rw [State.bindPlan_eq]
    exact ((State.refreshAgents_reported _).mono (by decide)).trans ((State.floorsLowered_reported _ s).mono (by decide))
  exact ⟨hafter.cmp.trans hcmp, hafter.ring.trans hring, (hclear.mono (by decide)).trans hafter.2⟩

section
variable (s : State) {c : Nat} (ws : List Nat) (pats : List (List Nat))

/-- The plan that is written: every field but those of the compartment and its functions is as it was. -/
theorem State.planWritten_reported (hc : c ≠ 0) :
    (s.setGrants c (s.planGrants ws pats)).reported [.INS_BOUND, .INS_CMP, .CMP_STATE, .CMP_SEALED, .CMP_INTAKE_CLOSED, .CMP_TAINT_CAUSE]
      (s.planWritten c ws pats) := by
  rw [State.planWritten, State.setCmpState_eq_wr _ hc]
  exact (((((State.bindInstances_reported _ c (plInst ws)).mono (by decide)).trans (State.wr_reported _ _ _ _ (by decide))).trans
    (State.wr_reported _ _ _ _ (by decide))).trans (State.wr_reported _ _ _ _ (by decide))).trans (State.wr_reported _ _ _ _ (by decide))

theorem State.bindPlan_grants (hc : c ≠ 0) : (s.bindPlan c ws pats).grants c = s.planGrants ws pats := by
  obtain ⟨hcmp, -, -⟩ := s.bindPlan_frame c ws pats
  rw [State.grants, hcmp, (s.planWritten_reported ws pats hc).cmp]
  exact Tab.get_set_same ..

theorem State.bindPlan_ring (hc : c ≠ 0) : (s.bindPlan c ws pats).ring = s.ring := by
  obtain ⟨-, hring, -⟩ := s.bindPlan_frame c ws pats
  rw [hring, (s.planWritten_reported ws pats hc).ring, State.setGrants_ring]

theorem State.bindPlan_cmpState (hc : c ≠ 0) : (s.bindPlan c ws pats).cmpState c = .assigned := by
  obtain ⟨-, -, hrest⟩ := s.bindPlan_frame c ws pats
  rw [State.cmpState_congr (hrest .CMP_STATE (by decide) c)]
  have hwritten : (s.planWritten c ws pats).rd .CMP_STATE c = CmpState.assigned.code % 2 ^ Fld.CMP_STATE.spec.width := by
    simp [State.planWritten, State.setCmpState_eq_wr _ hc, State.rd_wr]
  rw [State.cmpState, if_neg hc, hwritten]
  rfl

theorem State.bindPlan_instance (hc : c ≠ 0) (hle : c ≤ 31) {i : Nat} (hi : i ∈ plInst ws) :
    (s.bindPlan c ws pats).rd .INS_BOUND i = 1 ∧ (s.bindPlan c ws pats).rd .INS_CMP i = c := by
  obtain ⟨-, -, hrest⟩ := s.bindPlan_frame c ws pats
  obtain ⟨hbound, hcmp⟩ := (s.setGrants c (s.planGrants ws pats)).rd_bindInstances hle (plInst ws) i
  rw [if_pos hi] at hbound hcmp
  rw [hrest .INS_BOUND (by decide) i, hrest .INS_CMP (by decide) i]
  simp [State.planWritten, State.setCmpState_eq_wr _ hc, State.rd_wr, hbound, hcmp]

end

/-! ### The claim at the allocator (R58, R628) -/

section
variable {s : State} {c : Nat} {ws : List Nat} {pats : List (List Nat)} {o : Op}

theorem State.claimPlan_of_free (hin : s.isTenantIn c .free = true) (hpats : s.planPatterns ws = some pats) (hfree : s.planFree ws = true) :
    s.claimPlan c ws = (0, s.bindPlan c ws pats) := by
  simp [State.claimPlan, hin, hpats, hfree]

/-- An ASSIGN that no other claim meets in its cycle. -/
theorem State.claimRound_of_single (hops : s.ring.ops.filter isClaim = [o]) (hring : o.ring < 64) : s.claimRound false = s.claimAssign o := by
  have hring' : o.ring < 65 := by omega
  simp [State.claimRound, hops, State.arbitrate_singleton _ _ hring', Nat.ne_of_lt hring]

/-- An enumeration map that no ASSIGN meets in its cycle. -/
theorem State.claimRound_of_map (hops : s.ring.ops.filter isClaim = []) : s.claimRound true = s.applyMap := by
  simp [State.claimRound, hops, State.arbitrate_singleton]

theorem exec_enumerationMapApply_alone (hend : s.walkEnded = true) (hops : s.ring.ops.filter isClaim = []) :
    exec (.enumerationMapApply []) s = .next s.applyMap := by
  change execEnumerationMapApply [] s = _
  rw [execEnumerationMapApply, if_pos hend, ← State.claimRound_of_map hops]
  rfl

theorem exec_assign_alone {fn : Nat} (hops : (s.startAssigns fn [o.ring]).ring.ops.filter isClaim = [o]) (hring : o.ring < 64)
    (hbuf : o.buf = [ws]) {u : State} (hplan : (s.startAssigns fn [o.ring]).claimPlan (adCmp o.desc) ws = (0, u)) :
    exec (.assign fn o.ring []) s = .next (u.setOp { o with wait := .done, status := 0, buf := [] }) := by
  have hround := (State.claimRound_of_single hops hring).trans (by rw [State.claimAssign, hbuf, List.headD_cons, hplan])
  exact congrArg Host.Outcome.next hround

end

/-! ### The statement on compartments -/

/-- Settles O15: ASSIGN and the map by the claim that meets no other, QUIESCE and REOPEN by the lemmas of their commands. -/
theorem compartmentsAreAssignedAndDrained : Obligations.CompartmentsAreAssignedAndDrained := by
  refine ⟨?_, ?_, ?_, ?_, ?_⟩
  · rintro s fn ring o ws hops ⟨hbuf, rfl, hring, hring'⟩ ⟨hlo, hhi, hstate⟩ ⟨hpats, hplan⟩
    obtain ⟨pats, hpats⟩ := Option.isSome_iff_exists.1 hpats
    have hc : adCmp o.desc ≠ 0 := Nat.ne_of_gt hlo
    have hclaim := State.claimPlan_of_free (State.isTenantIn_iff.2 ⟨⟨hlo, hhi⟩, hstate⟩) hpats hplan
    refine ⟨_, exec_assign_alone hops (by omega) hbuf hclaim, ?_⟩
    rw [State.setOp_cmpState, State.setOp_grants, State.setOp_ops, State.bindPlan_cmpState _ ws pats hc,
      State.bindPlan_grants _ ws pats hc, State.bindPlan_ring _ ws pats hc]
    refine ⟨rfl, rfl, rfl, rfl, rfl, fun i hi => ?_, rfl⟩
    rw [State.rd_setOp, State.rd_setOp]
    exact State.bindPlan_instance _ ws pats hc hhi hi
  · rintro s ⟨hend, hops⟩
    exact exec_enumerationMapApply_alone hend hops
  · rintro s fn ring c k i ⟨hstarts, hfn, hfawn⟩ hin ⟨hbusy, hslot⟩
    have ⟨_, _, hcode, _⟩ := hstarts
    obtain ⟨-, hstate⟩ := State.isTenantIn_iff.1 hin
    obtain ⟨l, hat, hkind, hcmp, hrun⟩ :=
      (s.begun fn ring c k).2.opensLong_longAt (s.begun fn ring c k).1 0 (adCmp k.desc) 0 i [] []
    refine ⟨_, l, exec_quiesce_of_slot hstarts hfn hfawn hin hbusy hslot, ?_, ?_, hat, ?_, hcmp, hrun, State.addOp_getLast ..⟩
    · rw [State.rd_addOp, State.rd_wr_same]
      rfl
    · rw [State.cmpState_congr (s := (s.begun fn ring c k).2) (by simp [State.rd_wr]), hstate]
    · rw [hkind, State.begun_desc, hcode]
  · rintro s c i l ⟨hlo, -, hlong, hat⟩ hdrained
    have hc : c ≠ 0 := Nat.ne_of_gt hlo
    refine ⟨_, exec_quiesceDrainComplete_of_drained hlong hat hdrained, ?_, ?_, State.setLong_at ..⟩
    · rw [State.cmpState_congr (s := s.enterState c .quiesced) (by simp [State.rd_wr]), State.enterState_cmpState _ hc]
    · rw [State.rd_setLong, State.rd_wr_same]
      rfl
  · rintro s fn ring c k ⟨hstarts, hfn, hfawn⟩ hin
    exact exec_reopen_of_quiesced hstarts hfn hfawn hin

end Sys2Proof.Machine
end

section
/-! SUPPORT. Proof of the statement on service slots, deadlines and frame boundaries (chapter 3). -/
namespace Sys2Proof.Machine

open Sys2Proof

/-! ### Service slots (R35, R36, R64, R374) -/

/-- Only the lanes of stacks pass slots idle by throttling. -/
theorem State.slotThinned_of_lt (s : State) {lane : Nat} (h : lane < 4) (p : Nat) : s.slotThinned lane p = false := by
  simp [State.slotThinned, Nat.not_le.2 h]

@[simp] theorem State.pickReq_nil (s : State) (lane c : Nat) : s.pickReq lane c [] = none := rfl

/-- A compartment's only request is the one that its slot serves. -/
theorem State.pickReq_singleton (s : State) (lane : Nat) (r : SlotReq) : s.pickReq lane r.cmp [r] = some r := by
  simp only [State.pickReq, List.filter_singleton, beq_self_eq_true]
  cases hfirst : r.indic && s.inDemand lane r <;> simp [hfirst]

@[simp] theorem State.pickShared_nil (s : State) (lane : Nat) : s.pickShared lane [] = none := rfl

theorem exec_serviceSlotGrant_of_owner {s : State} {lane c : Nat} (hlane : lane < 4)
    (howner : s.slotOwner lane (s.cmp.share.get 0 lane) = some c) (engine : Nat) :
    exec (.serviceSlotGrant lane [(c, 0, engine)]) s = .next ((s.serveSlot lane false ⟨c, false, engine⟩).nextSlot lane) := by
  have hlanes : ¬lanes ≤ lane := Nat.not_le.2 (hlane.trans (by decide))
  have hpick := s.pickReq_singleton lane ⟨c, false, engine⟩
  change execServiceSlotGrant lane [(c, 0, engine)] s = _
  simp only [execServiceSlotGrant, if_neg hlanes, s.slotThinned_of_lt hlane, Bool.false_eq_true, if_false, howner, List.map_cons,
    List.map_nil, Nat.reduceBEq, hpick]

theorem exec_serviceSlotGrant_nil (s : State) {lane : Nat} (hlane : lane < 24) :
    exec (.serviceSlotGrant lane []) s =
      .next ({ s with cmp := { s.cmp with granted := Tab.set s.cmp.granted 0 lane 0 } }.nextSlot lane) := by
  have hlanes : ¬lanes ≤ lane := Nat.not_le.2 hlane
  change execServiceSlotGrant lane [] s = _
  simp only [execServiceSlotGrant, if_neg hlanes, List.map_nil, State.pickReq_nil, State.pickShared_nil, Option.bind_none]
  cases s.slotOwner lane (s.cmp.share.get 0 lane) <;> simp

/-! ### Deadlines (R87) -/

theorem exec_deadlineMissed_of_late {s : State} {o : Op} (hfind : s.findOp o.id = some o) (hlate : s.lateOp o = true) :
    exec (.deadlineMissed o.id) s = .next (((s.opBreach o .deadlineMissed { expected := o.deadline }).2.setOp
      (s.opBreach o .deadlineMissed { expected := o.deadline }).1).setCplOp (s.opBreach o .deadlineMissed { expected := o.deadline }).1) := by
  change execDeadlineMissed o.id s = _
  simp only [execDeadlineMissed, State.anyOp, hfind, hlate, if_true]

/-! ### Frame boundaries (R586) -/

/-- The first `n` frame counters copied to their shadows and restarted. -/
def State.latchCounters (s : State) (n : Nat) : State :=
  (List.range n).foldl (fun s i => (s.wr .STAT_F_SHADOW i (s.rd .STAT_F_LIVE i)).wr .STAT_F_LIVE i 0) s

theorem State.latchCounters_succ (s : State) (n : Nat) :
    s.latchCounters (n + 1) =
      ((s.latchCounters n).wr .STAT_F_SHADOW n ((s.latchCounters n).rd .STAT_F_LIVE n)).wr .STAT_F_LIVE n 0 := by
  simp [State.latchCounters, List.range_succ]

theorem State.latchCounters_keepsBut (s : State) (n : Nat) : s.keepsBut (s.latchCounters n) [.STAT_F_SHADOW, .STAT_F_LIVE] := by
  induction n with
  | zero => exact s.keepsBut_refl _
  | succ n ih =>
    rw [State.latchCounters_succ]
    exact State.keepsBut_wr _ _ _ (by decide) (State.keepsBut_wr _ _ _ (by decide) ih)

/-- A counter that is not reached yet holds its count. -/
theorem State.latchCounters_live (s : State) {n i : Nat} (h : n ≤ i) : (s.latchCounters n).rd .STAT_F_LIVE i = s.rd .STAT_F_LIVE i := by
  induction n with
  | zero => rfl
  | succ n ih => simp [State.latchCounters_succ, State.rd_wr, Nat.ne_of_lt h, ih (Nat.le_of_lt h)]

theorem State.latchCounters_shadow (s : State) {n i : Nat} (h : i < n) :
    (s.latchCounters n).rd .STAT_F_SHADOW i = s.rd .STAT_F_LIVE i % 2 ^ Fld.STAT_F_SHADOW.spec.width := by
  induction n with
  | zero => exact absurd h (Nat.not_lt_zero i)
  | succ n ih =>
    rw [State.latchCounters_succ, State.rd_wr_ne _ _ _ _ _ _ (by simp), State.rd_wr]
    by_cases hi : n = i
    · simp [hi, s.latchCounters_live (Nat.le_refl i)]
    · simp [hi, ih (Nat.lt_of_le_of_ne (Nat.le_of_lt_succ h) (Ne.symm hi))]

section
variable (s : State)

theorem State.latchFrame_eq : s.latchFrame =
    ((s.latchCounters 512).wr .STAT_SHADOW_FRAME 0 (frameNo (s.latchCounters 512).frameK (s.latchCounters 512).pwr.frameBeat)).wr
      .STAT_SHADOW_K 0 (s.latchCounters 512).frameK := by
  simp only [State.latchFrame, State.latchCounters]

theorem State.latchFrame_shadow {i : Nat} (h : i < 512) :
    s.latchFrame.rd .STAT_F_SHADOW i = s.rd .STAT_F_LIVE i % 2 ^ Fld.STAT_F_SHADOW.spec.width := by
  rw [State.latchFrame_eq, State.rd_wr_ne _ _ _ _ _ _ (by simp), State.rd_wr_ne _ _ _ _ _ _ (by simp), s.latchCounters_shadow h]

theorem State.latchFrame_shadowK : s.latchFrame.rd .STAT_SHADOW_K 0 = s.frameK % 2 ^ Fld.STAT_SHADOW_K.spec.width := by
  have hk : (s.latchCounters 512).frameK = s.frameK := s.latchCounters_keepsBut 512 .STAT_FRAME_K_ACTIVE (by decide) 0
  rw [State.latchFrame_eq, State.rd_wr_same, hk]

/-- The frame that begins after a latch, at a beat: the summaries of the frame that ends are posted, and limits begin again. -/
def State.beginFrame (frame k beat : Nat) : State :=
  let t := (compartments.foldl (fun t c => t.postSuppressed c frame) s).newLimits.wr .STAT_FRAME_K_ACTIVE 0 k
  { t with pwr := { t.pwr with frameBeat := beat } }

/-- Fields that the beginning of a frame may change. -/
def frameFlds : List Fld := [.CMP_CTR_BREACH_FRAME, .CMP_CTR_SUPPRESSING, .TRN_FAULT_FRAME, .STAT_FRAME_K_ACTIVE] ++ postFlds

theorem State.postSuppressed_reported (c frame : Nat) : s.reported postFlds (s.postSuppressed c frame) := by
  unfold State.postSuppressed
  extract_lets n m t
  have ht : s.reported postFlds t := by
    unfold t
    split
    · exact .refl ..
    · exact s.post_reported _
  exact ht.trans (.ite (.refl ..) (t.post_reported _))

theorem State.newLimits_keepsBut : s.keepsBut s.newLimits frameFlds := by
  unfold State.newLimits
  extract_lets t
  have ht : s.reported [.CMP_CTR_BREACH_FRAME, .CMP_CTR_SUPPRESSING, .TRN_FAULT_FRAME] t := s.rst_reported ..
  exact (ht.2.mono (by decide)).of_reg rfl

theorem State.beginFrame_keepsBut (frame k beat : Nat) : s.keepsBut (s.beginFrame frame k beat) frameFlds := by
  have hposted : s.reported postFlds (compartments.foldl (fun t c => t.postSuppressed c frame) s) :=
    .foldl _ (fun t c => t.postSuppressed_reported c frame) ..
  have hwritten := State.keepsBut_wr .STAT_FRAME_K_ACTIVE 0 k (by decide) ((hposted.2.mono (by decide)).trans (State.newLimits_keepsBut _))
  exact hwritten.of_reg rfl

theorem State.beginFrame_frameBeat (frame k beat : Nat) : (s.beginFrame frame k beat).pwr.frameBeat = beat := rfl

theorem exec_frameBoundary_of_atBoundary (h : s.atBoundary = true) :
    exec .frameBoundary s = .next (s.latchFrame.beginFrame (frameNo s.frameK s.pwr.frameBeat) s.nextK s.beat) := by
  change execFrameBoundary s = _
  simp only [execFrameBoundary, h, Bool.not_true, Bool.false_eq_true, if_false, State.beginFrame]

end

/-! ### The statement on slots, deadlines and frames -/

/-- Settles O18: a slot by what may be picked for it, a deadline by the operation found, a boundary by what its latch writes and the rest
of it leaves alone. -/
theorem slotsDeadlinesAndFrames : Obligations.SlotsDeadlinesAndFrames := by
  refine ⟨?_, ?_, ?_, ?_⟩
  · rintro s lane c engine ⟨hlane, howner⟩
    exact exec_serviceSlotGrant_of_owner hlane howner engine
  · intro s lane hlane
    exact exec_serviceSlotGrant_nil s hlane
  · rintro s o ⟨hfind, hset, hpassed⟩
    exact exec_deadlineMissed_of_late hfind (by simp [State.lateOp, hset, hpassed])
  · rintro s i ⟨hat, hi, hwidth⟩
    have hexec := exec_frameBoundary_of_atBoundary s hat
    have hkeeps := s.latchFrame.beginFrame_keepsBut (frameNo s.frameK s.pwr.frameBeat) s.nextK s.beat
    have hstill := still_execFrameBoundary s _ hexec
    refine ⟨_, hexec, ?_, ?_, State.beginFrame_frameBeat .., State.mem_of_still hstill⟩
    · exact (hkeeps .STAT_F_SHADOW (by decide) i).trans ((s.latchFrame_shadow hi).trans (Nat.mod_eq_of_lt hwidth))
    · exact (hkeeps .STAT_SHADOW_K (by decide) 0).trans s.latchFrame_shadowK

end Sys2Proof.Machine
end

section
/-! SUPPORT. The step of a state in which no command waits: one beat (O2). -/
namespace Sys2Proof.Machine

open Sys2Proof

/-! ### A beat on which no command waits -/

section
variable {s : State}

theorem State.advance_of_running (h : s.plk.time.hold = 0) : s.advance = s.wr .PWR_BEAT 0 (s.beat + 1) :=
  if_neg (by omega)

theorem State.advance_of_held (h : 0 < s.plk.time.hold) :
    s.advance = { s with plk := { s.plk with time := { s.plk.time with hold := s.plk.time.hold - 1 } } } :=
  if_pos h

theorem State.advance_warmStep (s : State) : s.advance.boot.warmStep = s.boot.warmStep :=
  congrArg (fun kept => kept.2.2.2) (keep_State_advance s)

/-- With no warm reset to end, a tick is the clock alone. -/
theorem State.tick_of_no_warm (h : s.boot.warmStep = 0) : s.tick = { s.advance with ns := s.ns + 1 } := by
  have hwarm : ¬ 0 < s.advance.boot.warmStep := by
    rw [s.advance_warmStep]
    omega
  exact if_neg hwarm

theorem step_of_empty (h : s.pending = []) : step s = .next s.tick := by
  simp only [step, h]

theorem step_of_empty_no_warm (hqueue : s.pending = []) (hwarm : s.boot.warmStep = 0) :
    step s = .next { s.advance with ns := s.ns + 1 } := by
  rw [step_of_empty hqueue, State.tick_of_no_warm hwarm]

/-- The 64-bit counter takes every value below its wrap as written. -/
theorem State.beat_wr (s : State) {v : Nat} (h : v < 2 ^ 64) : (s.wr .PWR_BEAT 0 v).beat = v :=
  (s.rd_wr_same .PWR_BEAT 0 v).trans (Nat.mod_eq_of_lt h)

end

/-! ### The statement on the empty queue -/

/-- Settles O2: a step on an empty queue outside a warm reset is the clock's advance, which counts a beat or one cycle of the hold. -/
theorem anEmptyQueueIsABeat : Obligations.AnEmptyQueueIsABeat := by
  refine ⟨?_, ?_⟩
  · rintro s ⟨hqueue, hwarm, hrunning⟩
    refine ⟨?_, s.beat_wr⟩
    rw [step_of_empty_no_warm hqueue hwarm, State.advance_of_running hrunning]
  · rintro s ⟨hqueue, hwarm, hheld⟩
    rw [step_of_empty_no_warm hqueue hwarm, State.advance_of_held hheld]

end Sys2Proof.Machine
end

section
/-! SUPPORT. Proof of the statement on the resets of instances and managers (chapter 4). -/
namespace Sys2Proof.Machine

open Sys2Proof

/-! ### What the accesses of an engine may change -/

theorem State.keepsBut_foldl {fs : List Fld} {α : Type} (g : State → α → State) (hg : ∀ (s : State) (a : α), s.keepsBut (g s a) fs)
    (xs : List α) (s : State) : s.keepsBut (xs.foldl g s) fs := by
  induction xs generalizing s with
  | nil => exact s.keepsBut_refl fs
  | cons a xs ih => exact State.keepsBut.trans (hg s a) (ih (g s a))

/-- Fields that the accesses of a GATHER_REDUCE may change: counters of translation, of the system cache and of the engine, and what a
breach changes. -/
def accessFlds : List Fld :=
  [.TRN_ST_PORT_MISS, .TRN_ST_WALKS, .TRN_ST_RANGE_HITS, .TRN_ST_FAULTS, .TRN_FAULT_FRAME, .SYC_ST_HITS, .SYC_ST_MISSES, .SYC_ST_NO_ALLOC,
   .SYC_ST_WRITEBACKS, .SYC_ST_EVICT_STREAM, .SYC_ST_EVICT_NORMAL, .SYC_ST_EVICT_PERSIST, .EXP_WR_DISCARD, .STK_GR_ENTRIES, .STK_GR_LINES,
   .STK_GR_CMDS, .STK_GR_POISONED] ++ breachFlds

/-- `t` comes from `s` with the rings as they were and no field changed but those of accesses. -/
def State.accessed (s t : State) : Prop := t.ring = s.ring ∧ s.keepsBut t accessFlds

theorem State.accessed.refl (s : State) : s.accessed s := ⟨rfl, s.keepsBut_refl _⟩

theorem State.accessed.trans {s t u : State} (h : s.accessed t) (k : t.accessed u) : s.accessed u :=
  ⟨k.1.trans h.1, State.keepsBut.trans h.2 k.2⟩

theorem State.accessed.ite {s t u : State} {p : Prop} [Decidable p] (h : s.accessed t) (k : s.accessed u) :
    s.accessed (if p then t else u) := by
  split
  · exact h
  · exact k

theorem State.accessed.foldl {α : Type} (g : State → α → State) (hg : ∀ (s : State) (a : α), s.accessed (g s a)) (xs : List α) (s : State) :
    s.accessed (xs.foldl g s) := by
  induction xs generalizing s with
  | nil => exact .refl s
  | cons a xs ih => exact (hg s a).trans (ih (g s a))

/-- What leaves the registers and the rings. -/
theorem State.accessed.of_eq {s t : State} (hreg : t.reg = s.reg) (hring : t.ring = s.ring) : s.accessed t :=
  ⟨hring, (s.keepsBut_refl _).of_reg hreg⟩

theorem State.reported.accessed {s t : State} {fs : List Fld} (h : s.reported fs t) (sub : ∀ f ∈ fs, f ∈ accessFlds) : s.accessed t :=
  ⟨h.ring, State.keepsBut.mono h.2 sub⟩

theorem State.bump_accessed (s : State) (f : Fld) (i n : Nat) (h : f ∈ accessFlds) : s.accessed (s.bump f i n) :=
  (s.bump_reported f i n h (by decide)).accessed fun _ hf => hf

theorem post_in_access : ∀ f ∈ postFlds, f ∈ accessFlds := by decide

theorem State.post_accessed (s : State) (p : Post) : s.accessed (s.post p) := (s.post_reported p).accessed post_in_access

/-! ### Translation (chapter 9) -/

theorem State.pushPort_accessed (s : State) (port : Nat) (t : Trans) : s.accessed (s.pushPort port t) := .of_eq rfl rfl

theorem State.fillPort_accessed (s : State) (port : Nat) (t : Trans) : s.accessed (s.fillPort port t) := .of_eq rfl rfl

theorem State.portUse_accessed (s : State) (port : Nat) (t : Trans) : s.accessed (s.portUse port t) :=
  .ite (s.pushPort_accessed port t) (.refl s)

theorem State.fillRange_accessed (s : State) (port : Nat) (t : Trans) : s.accessed (s.fillRange port t) :=
  .ite (.of_eq rfl rfl) (s.fillPort_accessed port t)

theorem State.fillShared_accessed (s : State) (t : Trans) : s.accessed (s.fillShared t) :=
  .ite (.refl s) (.of_eq rfl rfl)

theorem State.walkNow_accessed (s : State) (port c va : Nat) (indic : Bool) (need : Need) :
    s.accessed (s.walkNow port c va indic need).2 := by
  unfold State.walkNow
  extract_lets u
  have hwalk : s.accessed u := s.bump_accessed _ _ _ (by decide)
  split
  · have hhit := hwalk.trans (u.bump_accessed .TRN_ST_RANGE_HITS c 1 (by decide))
    split
    · exact hhit
    · exact hhit.trans (State.fillRange_accessed ..)
  · split
    · exact hwalk
    · split
      · exact hwalk
      · exact (hwalk.trans (State.fillShared_accessed ..)).trans (State.fillPort_accessed ..)

theorem State.translate_accessed (s : State) (port c va : Nat) (indic : Bool) (need : Need) :
    s.accessed (s.translate port c va indic need).2.2 := by
  have hmiss : s.accessed (s.bump .TRN_ST_PORT_MISS c 1) := s.bump_accessed _ _ _ (by decide)
  unfold State.translate
  split
  · split
    · exact hmiss.trans (State.walkNow_accessed ..)
    · exact s.portUse_accessed ..
  · dsimp only
    split
    · exact hmiss.trans (State.fillPort_accessed ..)
    · exact hmiss.trans (State.walkNow_accessed ..)

theorem State.mapSpan_accessed (s : State) (port c : Nat) (indic : Bool) (need : Need) (fuel va n : Nat) :
    s.accessed (s.mapSpan port c indic need fuel va n).2.2.2 := by
  induction fuel generalizing s va n with
  | zero => exact .refl s
  | succ fuel ih =>
    unfold State.mapSpan
    split
    · exact .refl s
    · dsimp only
      split
      · exact s.translate_accessed ..
      · exact (s.translate_accessed ..).trans (ih ..)

/-! ### The system cache (chapter 10) -/

theorem State.setCset_accessed (s : State) (k : Nat) (ls : List CLine) : s.accessed (s.setCset k ls) := .of_eq rfl rfl

theorem State.staleMiss_accessed (s : State) (c line : Nat) (but : Option Nat) : s.accessed (s.staleMiss c line but) := .of_eq rfl rfl

theorem State.discard_accessed (s : State) (line : Nat) (u : Under) : s.accessed (s.discard line u) := .of_eq rfl rfl

theorem State.writeBack_accessed (s : State) (x : CLine) : s.accessed (s.writeBack x) := by
  unfold State.writeBack
  split
  · exact .refl s
  · have hcounted := s.bump_accessed .SYC_ST_WRITEBACKS x.cmp 1 (by decide)
    exact .ite ((hcounted.trans (State.discard_accessed ..)).trans (State.bump_accessed _ _ _ _ (by decide))) hcounted

theorem State.evicted_accessed (s : State) (x : CLine) : s.accessed (s.evicted x) := by
  refine (s.bump_accessed _ x.cmp 1 ?_).trans (State.writeBack_accessed _ x)
  split <;> decide

theorem State.place_accessed (s : State) (c line : Nat) (dirty : Option Under) : s.accessed (s.place c line dirty).2 := by
  unfold State.place
  split
  · exact .refl s
  · dsimp only
    split
    · exact .refl s
    · refine .trans ?_ (.trans (State.setCset_accessed ..) (State.staleMiss_accessed ..))
      split
      · exact (s.evicted_accessed _).trans (State.setCset_accessed ..)
      · exact .refl s

theorem State.hitLine_accessed (s : State) (k : Nat) (x : CLine) (indic write : Bool) : s.accessed (s.hitLine k x indic write) := by
  unfold State.hitLine
  extract_lets y u
  have hmark : s.accessed u := .ite (s.staleMiss_accessed ..) (.refl s)
  exact .ite (hmark.trans (State.setCset_accessed ..)) (hmark.trans (State.setCset_accessed ..))

theorem State.touchLine_accessed (s : State) (c : Nat) (indic nc write : Bool) (line : Nat) :
    s.accessed (s.touchLine c indic nc write line) := by
  unfold State.touchLine
  split
  · exact .refl s
  · split
    · exact (s.bump_accessed .SYC_ST_HITS c 1 (by decide)).trans (State.hitLine_accessed ..)
    · extract_lets missed u r
      have hmiss : s.accessed u :=
        (s.bump_accessed .SYC_ST_MISSES c 1 (by decide)).trans (.ite (State.staleMiss_accessed ..) (.refl _))
      have hplace : s.accessed r.2 := hmiss.trans (State.place_accessed ..)
      exact .ite (.ite hplace (hplace.trans (State.bump_accessed _ _ _ _ (by decide))))
        (hmiss.trans (State.bump_accessed _ _ _ _ (by decide)))

theorem State.touchPieces_accessed (s : State) (c : Nat) (indic : Bool) (ps : List Piece) : s.accessed (s.touchPieces c indic ps) :=
  .foldl _ (fun u _ => .ite (.foldl _ (fun v _ => v.touchLine_accessed ..) _ u) (.refl u)) ps s

theorem State.vread_accessed (s : State) (port c : Nat) (indic : Bool) (need : Need) (accOnly : Bool) (va n : Nat) :
    s.accessed (s.vread port c indic need accOnly va n).2.2 := by
  have hmap := s.mapSpan_accessed port c indic need (spanFuel n) va n
  unfold State.vread
  dsimp only
  split
  · exact hmap
  · split
    · exact hmap
    · split
      · exact hmap
      · exact hmap.trans (State.touchPieces_accessed ..)

/-! ### GATHER_REDUCE (chapter 13) -/

/-- A step of an engine on an operation: the operation stays its function's, and the state is left but for what accesses change. -/
def State.engineStep (s : State) (o : Op) (r : Op × State) : Prop := r.1.fn = o.fn ∧ s.accessed r.2

theorem State.engineStep.trans {s t : State} {o : Op} {r : Op × State} (h : s.accessed t) (k : t.engineStep o r) : s.engineStep o r :=
  ⟨k.1, h.trans k.2⟩

theorem State.engineStep.then {s : State} {o : Op} {r q : Op × State} (h : s.engineStep o r) (k : r.2.engineStep r.1 q) : s.engineStep o q :=
  ⟨k.1.trans h.1, h.2.trans k.2⟩

theorem State.breach_ring (s : State) (c : Nat) (k : Breach) (b : BreachAt) : (s.breach c k b).ring = s.ring := by
  unfold State.breach
  extract_lets counted sched place p suppressing
  have hcounted : s.reported breachFlds counted :=
    ((s.bump_reported _ c 1 (by decide) (by decide)).trans (State.bump_reported _ _ c 1 (by decide) (by decide))).trans
      (State.stat_reported _ c 1 1 (by decide))
  clear_value counted
  split
  · exact (counted.post_reported p).ring.trans hcounted.ring
  · split
    · exact (State.post_reported _ p).ring.trans hcounted.ring
    · exact hcounted.ring

theorem breach_in_access : ∀ f ∈ breachFlds, f ∈ accessFlds := by decide

theorem State.breach_accessed (s : State) (c : Nat) (k : Breach) (b : BreachAt) : s.accessed (s.breach c k b) :=
  ⟨s.breach_ring c k b, (s.breach_keepsBut c k b).mono breach_in_access⟩

theorem State.opBreach_step (s : State) (o : Op) (k : Breach) (b : BreachAt) : s.engineStep o (s.opBreach o k b) := by
  refine ⟨by rw [State.opBreach_op], ?_⟩
  unfold State.opBreach
  split
  · exact .refl s
  · exact s.breach_accessed ..

theorem State.opLate_step (s : State) (o : Op) (late : Bool) (va : Nat) : s.engineStep o (s.opLate o late va) := by
  unfold State.opLate
  split
  · exact s.opBreach_step ..
  · exact ⟨rfl, .refl s⟩

theorem State.opRead_step (s : State) (o : Op) (port : Nat) (need : Need) (accOnly : Bool) (va n : Nat) :
    s.engineStep o (s.opRead o port need accOnly va n).2 :=
  .trans (s.vread_accessed ..) (State.opLate_step ..)

theorem State.postFault_accessed (s : State) (c : Nat) (indic : Bool) (f : Flt) (port func ring index : Nat) (list : Option Nat) :
    s.accessed (s.postFault c indic f port func ring index list) := by
  unfold State.postFault
  extract_lets u p v
  have hcount : s.accessed u := s.bump_accessed _ _ _ (by decide)
  have hframe : s.accessed v := hcount.trans (u.bump_accessed _ _ _ (by decide))
  have hcounted (k : Nat) : s.accessed (v.countFrame k) := hframe.trans (.of_eq rfl rfl)
  exact .ite (hcount.trans (u.post_accessed p)) (.ite ((hcounted _).trans (State.post_accessed _ p)) (hcounted _))

theorem State.opFault_step (s : State) (o : Op) (port result : Nat) (f : Flt) : s.engineStep o (s.opFault o port result f) :=
  ⟨rfl, s.postFault_accessed ..⟩

theorem State.gatherRun_step (s : State) (o : Op) (n : Nat) (g : GrRun) : s.engineStep o (s.gatherRun o n g).2.2 := by
  induction n generalizing s o g with
  | zero => exact ⟨rfl, .refl s⟩
  | succ n ih =>
    unfold State.gatherRun
    extract_lets d size ix
    have hread : s.engineStep o ix.2 := s.opRead_step ..
    split
    · exact hread
    · exact hread
    · extract_lets e va m l
      have hrow : s.engineStep o l := hread.then (.trans (State.mapSpan_accessed ..) (State.opLate_step ..))
      split
      · exact hrow
      · split
        · exact hrow
        · split
          · exact hrow
          · split
            · exact hrow
            · split
              · exact hrow.then (ih ..)
              · exact hrow.then (ih ..)

@[simp] theorem Op.await_fn (o : Op) (stack : Nat) (rows : List (List Nat)) : (o.await stack rows).fn = o.fn := by
  cases rows <;> rfl

theorem gatherWork_step (o : Op) (s : State) : s.engineStep o (gatherWork o s) := by
  unfold gatherWork
  extract_lets d r g o' t st u w rows
  obtain ⟨hfn, hrun⟩ : s.engineStep o r.2.2 := s.gatherRun_step ..
  split
  · exact ⟨hfn, hrun⟩
  · have hcount : s.accessed u :=
      (hrun.trans (t.bump_accessed .STK_GR_ENTRIES _ _ (by decide))).trans (State.bump_accessed _ _ _ _ (by decide))
    have hend (v : State) (hv : s.accessed v) (c : Nat) : s.accessed (v.bump .STK_GR_CMDS c 1) :=
      hv.trans (v.bump_accessed _ _ _ (by decide))
    split
    · extract_lets x
      obtain ⟨hx, hfault⟩ : u.engineStep w x := u.opFault_step ..
      refine ⟨?_, hend _ (hcount.trans hfault) _⟩
      split
      · exact ((x.1.await_fn st rows).trans hx).trans hfn
      · exact hx.trans hfn
    · exact ⟨(Op.await_fn ..).trans hfn, hend _ (hcount.trans (State.bump_accessed _ _ _ _ (by decide))) _⟩
    · split
      · exact ⟨(Op.await_fn ..).trans hfn, hend _ hcount _⟩
      · exact ⟨(Op.await_fn ..).trans hfn, hend _ hcount _⟩

/-! ### The reset cut (R108 step 2, R109) -/

/-- No operation of a function is left. -/
def State.noOpOf (s : State) (i : Nat) : Prop := ∀ o ∈ s.ring.ops, o.fn ≠ i

theorem State.noOpOf.of_ring {s t : State} {i : Nat} (h : s.noOpOf i) (hring : t.ring = s.ring) : t.noOpOf i := by
  rwa [State.noOpOf, hring]

/-- Replacing an operation by one of another function. -/
theorem State.noOpOf.setOp {s : State} {i : Nat} (h : s.noOpOf i) {o : Op} (ho : o.fn ≠ i) : (s.setOp o).noOpOf i := by
  intro x hx
  rw [State.setOp_ops, List.mem_map] at hx
  obtain ⟨y, hy, rfl⟩ := hx
  split
  · exact ho
  · exact h y hy

theorem State.wakeHeld_keepsBut (s : State) (c stack : Nat) : s.keepsBut (s.wakeHeld c stack) accessFlds := by
  unfold State.wakeHeld
  split
  · exact s.keepsBut_refl _
  · split
    · exact (gatherWork_step ..).2.2.of_reg rfl
    · exact s.keepsBut_refl _

/-- The operation that a free context wakes is one that waits already. -/
theorem State.noOpOf.wakeHeld {s : State} {i : Nat} (h : s.noOpOf i) (c stack : Nat) : (s.wakeHeld c stack).noOpOf i := by
  unfold State.wakeHeld
  split
  · exact h
  · split
    next o ho =>
      obtain ⟨hfn, hring, -⟩ := gatherWork_step o s
      exact (h.of_ring hring).setOp (hfn ▸ h o (List.mem_of_find?_eq_some ho))
    · exact h

theorem State.dropFired_reg (s : State) (fn n : Nat) : (s.dropFired fn n).reg = s.reg :=
  kept_fold_of State.reg (fun (u : State) (e : Nat × List Nat) => u.unarm e.1) (fun _ _ => rfl) (s.run fn n).fire s

/-- A squash removes the function's work, then wakes the operations that waited for the contexts it held: what the removal brings about
and the waking keeps holds after it. -/
theorem State.squash_induction {s : State} {fn : Nat} (P : State → Prop) (hremoved : ∀ t : State, t.reg = s.reg → t.noOpOf fn → P t)
    (hwake : ∀ (u : State) (c stack : Nat), P u → P (u.wakeHeld c stack)) : P (s.squash fn) := by
  unfold State.squash
  extract_lets gone ids held fired
  have hfired : fired.reg = s.reg := kept_fold_of State.reg (fun (u : State) n => u.dropFired fn n) (fun u n => u.dropFired_reg fn n) _ s
  clear_value fired
  refine List.foldlRecOn held _ ?_ fun u hu e _ => hwake u e.1 e.2 hu
  refine hremoved _ hfired ?_
  intro o ho
  simpa using (List.mem_filter.1 ho).2

theorem State.squash_keepsBut (s : State) (fn : Nat) : s.keepsBut (s.squash fn) accessFlds :=
  State.squash_induction (s.keepsBut · accessFlds) (fun _ hreg _ => (s.keepsBut_refl _).of_reg hreg)
    fun u c stack hu => State.keepsBut.trans hu (u.wakeHeld_keepsBut c stack)

theorem State.squash_noOpOf (s : State) (fn : Nat) : (s.squash fn).noOpOf fn :=
  State.squash_induction (State.noOpOf · fn) (fun _ _ hnone => hnone) fun _ c stack hu => hu.wakeHeld c stack

theorem State.revokeBreach_accessed (s : State) (k : Nat) : s.accessed (s.revokeBreach k) := by
  unfold State.revokeBreach
  dsimp only
  split
  · exact .ite (s.breach_accessed ..) (.refl s)
  · exact .refl s

theorem State.setKey_accessed (s : State) (n : Nat) (k : Key) : s.accessed (s.setKey n k) := .of_eq rfl rfl

theorem State.stampKeys_accessed (s : State) (ks : List Nat) : s.accessed (s.stampKeys ks) :=
  .foldl _ (fun u _ => u.setKey_accessed ..) ks s

theorem State.revokeAll_accessed (s : State) (fn : Nat) : s.accessed (s.revokeAll fn) :=
  .ite (.refl s) (((State.accessed.foldl _ State.revokeBreach_accessed _ s).trans (State.stampKeys_accessed ..)).trans (.of_eq rfl rfl))

theorem State.tdispError_accessed (s : State) (fn : Nat) : s.accessed (s.tdispError fn) :=
  .ite (.of_eq rfl rfl) (.refl s)

/-- A function under reset whose work is squashed. -/
def State.cutWork (s : State) (i : Nat) : State :=
  ((s.wr .INS_RESET_BUSY i 1).wr .INS_RESET_SQUASHED i (s.squashable i).length).squash i

/-- What follows the squash at the reset cut changes no ring. -/
theorem State.cutWork_accessed_resetCut (s : State) (i : Nat) : (s.cutWork i).accessed (s.resetCut i) := by
  unfold State.resetCut
  extract_lets ds ind revoked t
  have hrevoked : (s.cutWork i).accessed revoked := State.revokeAll_accessed ..
  exact (hrevoked.trans (revoked.tdispError_accessed i)).trans (.of_eq rfl rfl)

theorem State.resetCut_noOpOf (s : State) (i : Nat) : (s.resetCut i).noOpOf i :=
  (State.squash_noOpOf _ i).of_ring (s.cutWork_accessed_resetCut i).1

theorem State.resetCut_keepsBut (s : State) (i : Nat) :
    ((s.wr .INS_RESET_BUSY i 1).wr .INS_RESET_SQUASHED i (s.squashable i).length).keepsBut (s.resetCut i) accessFlds :=
  State.keepsBut.trans (State.squash_keepsBut _ i) (s.cutWork_accessed_resetCut i).2

theorem State.resetCut_busy (s : State) (i : Nat) : (s.resetCut i).rd .INS_RESET_BUSY i = 1 := by
  rw [s.resetCut_keepsBut i .INS_RESET_BUSY (by decide) i, State.rd_wr_ne _ _ _ _ _ _ (by simp), State.rd_wr_same]
  rfl

theorem State.resetCut_squashed (s : State) (i : Nat) : (s.resetCut i).rd .INS_RESET_SQUASHED i = (s.squashable i).length % 2 ^ 32 := by
  rw [s.resetCut_keepsBut i .INS_RESET_SQUASHED (by decide) i]
  exact State.rd_wr_same ..

theorem exec_instanceReset {s : State} {i : Nat} (hinst : isMgr i = false) (hi : i < 128) (hbusy : s.rd .INS_RESET_BUSY i ≠ 1)
    (hwarm : s.boot.warmStep = 0) : exec (.instanceReset i) s = .next (s.resetCut i) := by
  change execInstanceReset i s = _
  simp [execInstanceReset, hinst, hi, hbusy, hwarm]

/-! ### Fields returned to reset values -/

theorem Tab.find_keep_key {α : Type} (t : Tab α) (q : Nat → Bool) (i : Nat) :
    (t.keep (fun k _ => q k)).find i = if q i then t.find i else none := by
  induction t with
  | nil => simp [Tab.keep, Tab.find]
  | cons e t ih =>
    obtain ⟨k, a⟩ := e
    simp only [Tab.keep] at ih
    by_cases hk : k = i
    · subst hk
      by_cases hq : q k <;> simp [Tab.keep, Tab.find, hq, ih]
    · by_cases hq : q k <;> simp [Tab.keep, Tab.find, hq, hk, ih]

theorem State.rd_rstKeys (s : State) (fs : List Fld) (p : Nat → Bool) (f : Fld) (i : Nat) :
    (s.rstKeys fs p).rd f i = if f ∈ fs ∧ p i = true then f.resetAt i else s.rd f i := by
  have hfld : fkey f i % 1024 = f.num := by have := f.num_lt; unfold fkey; omega
  have hix : fkey f i / 1024 = i := by have := f.num_lt; unfold fkey; omega
  have hmem : (fs.map Fld.num).contains f.num = true ↔ f ∈ fs := by
    simpa using List.mem_map_of_injective (fun _ _ h => Fld.num_inj h)
  have hkey : (!((fs.map Fld.num).contains (fkey f i % 1024) && p (fkey f i / 1024))) = true ↔ ¬(f ∈ fs ∧ p i = true) := by
    rw [hfld, hix, Bool.not_eq_true', ← Bool.not_eq_true, Bool.and_eq_true, hmem]
  simp only [State.rd, State.rstKeys, Tab.get, Tab.find_keep_key, hkey]
  by_cases h : f ∈ fs ∧ p i = true
  · rw [if_neg (not_not.2 h), if_pos h]
    rfl
  · rw [if_pos h, if_neg h]

theorem State.rstKeys_keepsBut (s : State) {fs gs : List Fld} (p : Nat → Bool) (h : ∀ f ∈ fs, f ∈ gs) : s.keepsBut (s.rstKeys fs p) gs :=
  fun f hf i => (s.rd_rstKeys fs p f i).trans (if_neg fun hm => hf (h f hm.1))

/-- Fields of event sources that the reset of their owner returns to reset values (R204). -/
def sourceFlds : List Fld := [.EVT_SRC_SENSE, .EVT_SRC_ROUTED, .EVT_SRC_VEC, .EVT_PENDING, .EVT_COUNT, .EVT_SAT]

/-- Fields of vectors, sources and the event sources of completion rings, which `State.clearFunction` returns to reset values after the
rings. -/
def eventFlds : List Fld := [.EVT_CPL_SRC, .EVT_CPL_SRC_VALID] ++ vectorFields ++ sourceFlds

/-- The clearing of a function is that of its rings, then that of its events. -/
theorem State.clearFunction_keepsBut_rings (s : State) (fn : Nat) :
    (s.rstKeys ringSetUp (fun i => i / 64 == fn)).keepsBut (s.clearFunction fn) eventFlds := by
  unfold State.clearFunction
  extract_lets mine rings cpls vectors sources
  have hcpls : rings.keepsBut cpls eventFlds := State.rstKeys_keepsBut _ _ (by decide)
  have hvectors : cpls.keepsBut vectors eventFlds := State.rstKeys_keepsBut _ _ (by decide)
  have hsources : vectors.keepsBut sources eventFlds := State.rstKeys_keepsBut _ _ (by decide)
  exact State.keepsBut.trans hcpls (State.keepsBut.trans hvectors hsources)

/-- Clearing a function leaves its rings DISABLED (R108 step 6). -/
theorem State.clearFunction_ringState (s : State) (fn : Nat) {n : Nat} (hn : n < 64) : (s.clearFunction fn).ringState fn n = .disabled := by
  have hmine : ringIx fn n / 64 = fn := by unfold ringIx; omega
  rw [State.ringState, s.clearFunction_keepsBut_rings fn .RNG_STATE (by decide), State.rd_rstKeys, if_pos ⟨by decide, by simpa using hmine⟩]
  rfl

theorem State.clearFunction_keepsBut (s : State) (fn : Nat) : s.keepsBut (s.clearFunction fn) (ringSetUp ++ eventFlds) :=
  State.keepsBut.trans (State.rstKeys_keepsBut _ _ (by decide)) ((s.clearFunction_keepsBut_rings fn).mono (by decide))

/-- Fields of a mailbox that its return to SENDER writes. -/
def mailboxFlds : List Fld := [.INS_MB_HOLDER, .INS_MB_NEXT_SEQ, .INS_MB_NOTICE]

theorem State.clearMailbox_keepsBut (s : State) (i : Nat) : s.keepsBut (s.clearMailbox i) mailboxFlds :=
  s.keepsBut_refl _ |> s.keepsBut_wr .INS_MB_HOLDER i 0 (by decide) |> s.keepsBut_wr .INS_MB_NEXT_SEQ i 1 (by decide)
    |> s.keepsBut_wr .INS_MB_NOTICE i 0 (by decide)

theorem State.clearMailbox_holder (s : State) (i : Nat) : (s.clearMailbox i).rd .INS_MB_HOLDER i = 0 := by
  change (((s.wr .INS_MB_HOLDER i 0).wr .INS_MB_NEXT_SEQ i 1).wr .INS_MB_NOTICE i 0).rd .INS_MB_HOLDER i = 0
  simp [State.rd_wr]

/-! ### Queue pairs and translations of the function (R108 steps 4 and 5) -/

theorem State.qpError_keepsBut (s : State) (n : Nat) (but : Option Nat) (seq : Nat) : s.keepsBut (s.qpError n but seq) postFlds := by
  unfold State.qpError
  split
  · exact s.keepsBut_refl _
  · split
    · exact s.keepsBut_refl _
    · extract_lets ops stopped ended
      have hreg : ended.reg = s.reg := kept_fold_of State.reg _ (fun u o => u.setOp_reg _) ops stopped
      exact ((s.keepsBut_refl _).of_reg hreg).trans (ended.aeqPost_reported ..).2

theorem State.qpsError_keepsBut (s : State) (fn : Nat) : s.keepsBut (s.qpsError fn) postFlds :=
  State.keepsBut_foldl _ (fun u (e : Nat × Qp) => u.qpError_keepsBut e.1 none 0) _ s

theorem State.atsIssue_keepsBut (s : State) (q : AtsReq) : s.keepsBut (s.atsIssue q) [.TRN_ATS_REQS, .STAT_F_LIVE] := by
  unfold State.atsIssue
  extract_lets src sent
  have hcounted : sent.reported [.TRN_ATS_REQS, .STAT_F_LIVE] (sent.bump .TRN_ATS_REQS (portOf q.fn) 1) :=
    sent.bump_reported _ _ _ (by decide) (by decide)
  exact (hcounted.trans (State.emit_reported ..)).2

theorem State.atsPump_keepsBut (s : State) : s.keepsBut s.atsPump [.TRN_ATS_REQS, .STAT_F_LIVE] := by
  refine State.keepsBut_foldl _ (fun u q => ?_) _ s
  split
  · exact u.keepsBut_refl _
  · exact u.atsIssue_keepsBut q

theorem State.atsForget_keepsBut (s : State) (fn : Nat) : s.keepsBut (s.atsForget fn) [.TRN_ATS_REQS, .STAT_F_LIVE] :=
  State.keepsBut.trans ((s.keepsBut_refl _).of_reg rfl) (State.atsPump_keepsBut _)

/-! ### A function returned to reset values -/

/-- A function whose queue pairs are in ERROR, whose translations are forgotten, and whose rings, events and mailbox are as after reset. -/
def State.functionReset (s : State) (fn : Nat) : State := (((s.qpsError fn).atsForget fn).clearFunction fn).clearMailbox fn

theorem State.ringState_of_keepsBut {s t : State} {fs : List Fld} (h : s.keepsBut t fs) (hf : .RNG_STATE ∉ fs) (fn n : Nat) :
    t.ringState fn n = s.ringState fn n := by
  rw [State.ringState, h .RNG_STATE hf]
  rfl

section
variable (s : State) (fn : Nat)

theorem State.functionReset_ringState {n : Nat} (hn : n < 64) : (s.functionReset fn).ringState fn n = .disabled :=
  (State.ringState_of_keepsBut (State.clearMailbox_keepsBut _ fn) (by decide) fn n).trans (State.clearFunction_ringState _ fn hn)

theorem State.functionReset_holder : (s.functionReset fn).rd .INS_MB_HOLDER fn = 0 := State.clearMailbox_holder _ fn

theorem State.functionReset_count (i : Nat) : (s.functionReset fn).rd .INS_RESET_COUNT i = s.rd .INS_RESET_COUNT i :=
  calc (s.functionReset fn).rd .INS_RESET_COUNT i
    _ = (((s.qpsError fn).atsForget fn).clearFunction fn).rd .INS_RESET_COUNT i := State.clearMailbox_keepsBut _ fn _ (by decide) i
    _ = ((s.qpsError fn).atsForget fn).rd .INS_RESET_COUNT i := State.clearFunction_keepsBut _ fn _ (by decide) i
    _ = (s.qpsError fn).rd .INS_RESET_COUNT i := State.atsForget_keepsBut _ fn _ (by decide) i
    _ = s.rd .INS_RESET_COUNT i := s.qpsError_keepsBut fn _ (by decide) i

end

/-! ### The end of the reset (R108, R110) -/

/-- The state in which a function under reset posts its incident. -/
def State.resetDrained (s : State) (i writes : Nat) : State := (s.functionReset i).wr .INS_RESET_DRAINED i writes

theorem State.resetDrained_keepsBut (s : State) (i writes : Nat) :
    (s.functionReset i).keepsBut (s.resetDrained i writes) [.INS_RESET_DRAINED] :=
  State.keepsBut_wr _ _ _ (by decide) (State.keepsBut_refl _ _)

/-- The reset ends with its incident, the count of resets and the busy bit. -/
theorem State.resetEnd_eq (s : State) (i writes : Nat) : ∃ (p : Post) (fns : FnSt), s.resetEnd i writes =
    { (((s.resetDrained i writes).post p).bump .INS_RESET_COUNT i 1).wr .INS_RESET_BUSY i 0 with fns := fns } :=
  ⟨_, _, rfl⟩

section
variable (s : State) (i writes : Nat)

/-- What follows the drained count is the incident, the count of resets and the busy bit. -/
theorem State.resetEnd_keepsBut :
    (s.resetDrained i writes).keepsBut (s.resetEnd i writes) (.INS_RESET_BUSY :: .INS_RESET_COUNT :: postFlds) := by
  obtain ⟨p, fns, heq⟩ := s.resetEnd_eq i writes
  rw [heq]
  exact (State.keepsBut_wr _ _ _ (by decide) (State.keepsBut_wr _ _ _ (by decide)
    (State.keepsBut.mono (State.post_reported _ p).2 (by decide)))).of_reg rfl

theorem State.resetEnd_busy : (s.resetEnd i writes).rd .INS_RESET_BUSY i = 0 := by
  obtain ⟨p, fns, heq⟩ := s.resetEnd_eq i writes
  rw [heq]
  exact State.rd_wr_same ..

theorem State.resetEnd_drained : (s.resetEnd i writes).rd .INS_RESET_DRAINED i = writes % 2 ^ 32 :=
  (s.resetEnd_keepsBut i writes _ (by decide) i).trans (State.rd_wr_same ..)

theorem State.resetEnd_ringState {n : Nat} (hn : n < 64) : (s.resetEnd i writes).ringState i n = .disabled :=
  calc (s.resetEnd i writes).ringState i n
    _ = (s.resetDrained i writes).ringState i n := State.ringState_of_keepsBut (s.resetEnd_keepsBut i writes) (by decide) i n
    _ = (s.functionReset i).ringState i n := State.ringState_of_keepsBut (s.resetDrained_keepsBut i writes) (by decide) i n
    _ = .disabled := s.functionReset_ringState i hn

theorem State.resetEnd_holder : (s.resetEnd i writes).rd .INS_MB_HOLDER i = 0 :=
  calc (s.resetEnd i writes).rd .INS_MB_HOLDER i
    _ = (s.resetDrained i writes).rd .INS_MB_HOLDER i := s.resetEnd_keepsBut i writes _ (by decide) i
    _ = (s.functionReset i).rd .INS_MB_HOLDER i := s.resetDrained_keepsBut i writes _ (by decide) i
    _ = 0 := s.functionReset_holder i

theorem State.resetEnd_count : (s.resetEnd i writes).rd .INS_RESET_COUNT i = min (s.rd .INS_RESET_COUNT i + 1) (2 ^ 16 - 1) := by
  obtain ⟨p, fns, heq⟩ := s.resetEnd_eq i writes
  have hcount : ((s.resetDrained i writes).post p).rd .INS_RESET_COUNT i = s.rd .INS_RESET_COUNT i :=
    ((State.post_reported _ p).rd (by decide) i).trans ((s.resetDrained_keepsBut i writes _ (by decide) i).trans (s.functionReset_count i i))
  rw [heq]
  calc _ = (((s.resetDrained i writes).post p).bump .INS_RESET_COUNT i 1).rd .INS_RESET_COUNT i := State.rd_wr_ne _ _ _ _ _ _ (by simp)
    _ = satAdd 16 (s.rd .INS_RESET_COUNT i) 1 % 2 ^ 16 := hcount ▸ State.rd_wr_same ..
    _ = min (s.rd .INS_RESET_COUNT i + 1) (2 ^ 16 - 1) := Nat.mod_eq_of_lt (by unfold satAdd; omega)

end

theorem exec_instanceResetDrained {s : State} {i : Nat} (hinst : isMgr i = false) (hbusy : s.rd .INS_RESET_BUSY i ≠ 0) (writes : Nat) :
    exec (.instanceResetDrained i writes) s = .next (s.resetEnd i writes) := by
  change execInstanceResetDrained i writes s = _
  simp [execInstanceResetDrained, hinst, hbusy]

/-! ### Manager reset (R112) -/

/-- A manager reset ends with the reset of the manager function itself and its incident. -/
theorem exec_managerReset {s : State} {port : Nat} (hport : port < 2) (hwarm : s.boot.warmStep = 0) (drained : List (Nat × Nat)) :
    ∃ (u : State) (p : Post),
      exec (.managerReset port drained) s = .next (((u.functionReset (64 * port)).wr .INS_MB_RELAY_NOTICE (64 * port) 0).post p) := by
  have hgo : ¬ (decide (2 ≤ port) || decide (0 < s.boot.warmStep)) = true := by simp [hport, hwarm]
  exact ⟨_, _, if_neg hgo⟩

theorem State.functionReset_keepsBut_post (u : State) (fn : Nat) (p : Post) :
    (u.functionReset fn).keepsBut (((u.functionReset fn).wr .INS_MB_RELAY_NOTICE fn 0).post p) (.INS_MB_RELAY_NOTICE :: postFlds) :=
  (State.post_reported _ p).keeps (by decide) (State.keepsBut_wr _ _ _ (by decide) (State.keepsBut_refl _ _))

/-! ### The statement -/

/-- Settles O14: what follows the squash at the reset cut wakes only operations that wait already; the last writes of a reset are those of
the function's own rings, mailbox and INS registers. -/
theorem resetsOfFunctionsRun : Obligations.ResetsOfFunctionsRun := by
  refine ⟨?_, ?_, ?_⟩
  · rintro s i ⟨hinst, hi, hbusy, hwarm⟩
    exact ⟨exec_instanceReset hinst hi hbusy hwarm, s.resetCut_busy i, s.resetCut_squashed i, s.resetCut_noOpOf i⟩
  · rintro s i writes ring ⟨hinst, hbusy, hring⟩
    exact ⟨_, exec_instanceResetDrained hinst hbusy writes, s.resetEnd_busy i writes, s.resetEnd_drained i writes,
      s.resetEnd_ringState i writes hring, s.resetEnd_holder i writes, s.resetEnd_count i writes⟩
  · rintro s port ring drained ⟨hport, hwarm, hring⟩
    obtain ⟨u, p, hexec⟩ := exec_managerReset hport hwarm drained
    have hkeeps := u.functionReset_keepsBut_post (64 * port) p
    exact ⟨_, hexec, (State.ringState_of_keepsBut hkeeps (by decide) _ ring).trans (u.functionReset_ringState _ hring),
      (hkeeps _ (by decide) _).trans (u.functionReset_holder _)⟩

end Sys2Proof.Machine
end

section
/-! SUPPORT. The rules of rings and of saturating counters that the statements of chapters 5 and 6 rest on. -/
namespace Sys2Proof.Machine

open Sys2Proof

/-! ### The front end and the state of a command ring -/

section
variable (s : State) (fn n : Nat)

@[simp] theorem State.rd_setRun (r : RingRun) (f : Fld) (i : Nat) : (s.setRun fn n r).rd f i = s.rd f i := rfl

@[simp] theorem State.setRun_run (r : RingRun) : (s.setRun fn n r).run fn n = r := Tab.get_set_same ..

/-- Heads that wait are released or stay: what was fetched stays (R168). -/
@[simp] theorem State.settle_fetched : ((s.settle fn n).run fn n).fetched = (s.run fn n).fetched := by simp [State.settle]

@[simp] theorem RingState.ofCode_code (st : RingState) : RingState.ofCode st.code = st := by cases st <;> rfl

theorem RingState.code_lt (st : RingState) : st.code < 2 ^ 3 := by cases st <;> decide

@[simp] theorem State.setRing_ringState (st : RingState) : (s.setRing fn n st).ringState fn n = st := by
  have hcode : (s.setRing fn n st).rd .RNG_STATE (ringIx fn n) = st.code := (s.rd_wr_same ..).trans (Nat.mod_eq_of_lt st.code_lt)
  rw [State.ringState, hcode, RingState.ofCode_code]

@[simp] theorem State.wr_run (f : Fld) (i v : Nat) : (s.wr f i v).run fn n = s.run fn n := rfl

end

/-! ### Waiting records and saturating counters -/

@[simp] theorem State.rd_setCplWaits (s : State) (k : Nat) (q : List CplWait) (f : Fld) (i : Nat) : (s.setCplWaits k q).rd f i = s.rd f i := rfl

@[simp] theorem State.setCplWaits_cplWaits (s : State) (k : Nat) (q : List CplWait) : (s.setCplWaits k q).cplWaits k = q := Tab.get_set_same ..

theorem State.cplWaits_of_ring {s t : State} (h : t.ring = s.ring) (k : Nat) : t.cplWaits k = s.cplWaits k := by
  rw [State.cplWaits, h, State.cplWaits]

/-- A counter that no frame counter follows is one field. -/
theorem State.bump_eq_wr (s : State) {f : Fld} (h : frameStat f = none) (i n : Nat) :
    s.bump f i n = s.wr f i (satAdd f.spec.width (s.rd f i) n) := by
  simp [State.bump, h]

end Sys2Proof.Machine
end

section
/-! SUPPORT. Proof of the statement on the signals that reach an object without a descriptor (chapter 6). -/
namespace Sys2Proof.Machine

open Sys2Proof

/-! ### The value of an object (R136, R166) -/

/-- A slot that fires counts, and changes no other field (R175). -/
theorem State.fireSlot_keepsBut (s : State) (i : Nat) : s.keepsBut (s.fireSlot i) [.CON_FIRED] := by
  unfold State.fireSlot
  split
  · exact s.keepsBut_refl _
  · split
    · exact s.keepsBut_refl _
    · dsimp only
      rw [State.bump_eq_wr _ rfl]
      exact s.keepsBut_wr .CON_FIRED _ _ (by decide) (s.keepsBut_refl _)

/-- The waiters that a value releases do not change the value. -/
theorem State.concordSet_value (s : State) (obj v : Nat) : (s.concordSet obj v).rd .CON_VALUE obj = v % 2 ^ 64 :=
  have hfired : ((s.wr .CON_VALUE obj v).releaseHeads obj v).keepsBut (s.concordSet obj v) [.CON_FIRED] :=
    State.keepsBut_foldl _ State.fireSlot_keepsBut _ _
  (hfired .CON_VALUE (by decide) obj).trans (s.rd_wr_same ..)

theorem State.concordOp_value (s : State) {op : Nat} (h : op ≠ 0) (obj v : Nat) :
    (s.concordOp obj op v).rd .CON_VALUE obj = sigApply op v (s.rd .CON_VALUE obj) % 2 ^ 64 := by
  rw [State.concordOp, if_neg h, State.concordSet_value]

/-! ### The commands -/

theorem exec_concordSignalApply_alone {obj : Nat} (hobj : obj < 4096) (s : State) (port op v : Nat) :
    exec (.concordSignalApply obj [(port, op, v)]) s = .next (s.concordOp obj op (v % 2 ^ 64)) :=
  congrArg Host.Outcome.next (if_pos hobj)

theorem exec_concordViewSignal_of_owner {s : State} {fn obj op c : Nat} (hopen : s.barsBlocked fn = false) (hcmp : s.fnCmp fn = some c)
    (howns : s.ownsObj c obj = true) (hset : 0 < op) (hop : op < 4) (hobj : obj < 4096) :
    exec (.concordViewSignal fn obj op) s = .next ((s.concordOp obj op (s.rd .CON_VSIG_VALUE fn)).wr .CON_VSIG_STATUS fn 0) := by
  change execConcordViewSignal fn obj op s = _
  simp [execConcordViewSignal, hopen, hcmp, howns, Nat.mod_eq_of_lt hop, Nat.mod_eq_of_lt hobj, Nat.ne_of_gt hset, State.concordApply]

/-- The staged low half of the window register of an object is taken. -/
theorem exec_concordWindowSet_of_staged {s : State} {obj high v : Nat} (hopen : s.closed s.primaryFn (0x2000000 + 8 * obj + 4) = false)
    (hobj : obj < 4096) (hstaged : s.reg.staged.find (pairKey s.primaryFn (0x2000000 + 8 * obj)) = some v) (hhigh : high < 2 ^ 32) :
    exec (.concordWindowSet s.primaryFn obj high) s =
      .next ((s.unstage s.primaryFn (0x2000000 + 8 * obj + 4)).concordOp obj 2 (v + 2 ^ 32 * high)) := by
  have hmod : high % 4294967296 = high := Nat.mod_eq_of_lt hhigh
  change execConcordWindowSet s.primaryFn obj high s = _
  simp [execConcordWindowSet, hopen, Nat.not_le.2 hobj, hstaged, hmod, State.concordApply, State.unstage]

/-! ### The statement -/

/-- Settles O24: a signal that meets no other is one operation on its object, and what the value releases leaves the value. -/
theorem signalsReachTheirObject : Obligations.SignalsReachTheirObject := by
  refine ⟨?_, ?_, ?_⟩
  · intro s obj port op v hobj
    exact ⟨exec_concordSignalApply_alone hobj s port op v, fun hop => s.concordOp_value hop obj _⟩
  · rintro s fn obj op c ⟨hopen, hcmp, howns⟩ ⟨hset, hop, hobj⟩
    exact exec_concordViewSignal_of_owner hopen hcmp howns hset hop hobj
  · rintro s obj high v ⟨hopen, hobj⟩ ⟨hstaged, hlow, hhigh⟩
    have hexec := exec_concordWindowSet_of_staged hopen hobj hstaged hhigh
    have hvalue : v + 2 ^ 32 * high < 2 ^ 64 := by omega
    refine ⟨_, hexec, ?_, State.mem_of_still (still_execConcordWindowSet _ _ _ s _ hexec)⟩
    rw [State.concordOp_value _ (by decide)]
    simp only [sigApply, Nat.mod_eq_of_lt hvalue]

end Sys2Proof.Machine
end

section
/-! SUPPORT. Proof of the statement on the creation and destruction of rings and on doorbells (chapter 5). -/
namespace Sys2Proof.Machine

open Sys2Proof

/-! ### Creation and destruction (R117, R126, R128) -/

section
variable {s : State} {fn ring : Nat}

/-- The mood that a command ring is created with: set up by a manager function for its own rings, by the manager for those of others. -/
def State.moodSetUp (s : State) (fn ring : Nat) : Nat :=
  if isMgr fn then s.rd .RNG_MOOD (ringIx fn ring) else b2n (bit (s.rd .INS_RING_MOOD fn) ring)

/-- A command ring whose set-up has passed, apart from its timeout: IDLE, with nothing counted and an idle front end. -/
def State.ringMade (s : State) (fn ring : Nat) : State :=
  (((((s.wr .RNG_SETUP_STATUS (ringIx fn ring) 0).wr .RNG_MOOD (ringIx fn ring) (s.moodSetUp fn ring)).wr .RNG_CONS (ringIx fn ring) 0).wr
    .RNG_PROD (ringIx fn ring) 0).setRun fn ring RingRun.idle).setRing fn ring .idle

/-- A ring without a timeout has none to clamp (R158). -/
theorem State.clampTimeout_eq_self (h : s.rd .RNG_TIMEOUT (ringIx fn ring) = 0) (source : Nat) : s.clampTimeout source fn ring = s := by
  simp [State.clampTimeout, h]

theorem exec_ringCreate_of_passed (hopen : s.barsBlocked fn = false) (hring : ring < 64)
    (hpass : s.createStatus fn ring (s.moodSetUp fn ring) = 0) (htimer : s.rd .RNG_TIMEOUT (ringIx fn ring) = 0) :
    exec (.ringCreate fn ring) s = .next (s.ringMade fn ring) := by
  unfold State.moodSetUp at hpass
  change execRingCreate fn ring s = _
  simp [execRingCreate, hopen, Nat.not_le.2 hring, hpass, State.clampTimeout_eq_self, State.rd_wr, htimer, State.ringMade, State.moodSetUp]

theorem State.ringMade_cleared : (s.ringMade fn ring).rd .RNG_CONS (ringIx fn ring) = 0 ∧ (s.ringMade fn ring).rd .RNG_PROD (ringIx fn ring) = 0
    ∧ (s.ringMade fn ring).rd .RNG_SETUP_STATUS (ringIx fn ring) = 0 ∧ (s.ringMade fn ring).run fn ring = RingRun.idle := by
  simp [State.ringMade, State.setRing, State.rd_wr]

theorem State.ringMade_keepsBut :
    s.keepsBut (s.ringMade fn ring) [.RNG_STATE, .RNG_CONS, .RNG_PROD, .RNG_MOOD, .RNG_SETUP_STATUS] :=
  have hset : s.keepsBut _ [.RNG_STATE, .RNG_CONS, .RNG_PROD, .RNG_MOOD, .RNG_SETUP_STATUS] :=
    State.keepsBut_wr .RNG_MOOD _ _ (by decide) (State.keepsBut_wr .RNG_SETUP_STATUS _ _ (by decide) (s.keepsBut_refl _))
  have hcounts := State.keepsBut_wr .RNG_PROD _ _ (by decide) (State.keepsBut_wr .RNG_CONS _ _ (by decide) hset)
  State.keepsBut_wr .RNG_STATE _ _ (by decide) (hcounts.of_reg rfl)

/-- A destroyed command ring: DISABLED with an idle front end, and no slot targets it (R128, R181). -/
def State.ringGone (s : State) (fn ring : Nat) : State :=
  ((({ s with slots := s.slots.keep (fun _ t => !(t.fn == fn && t.ring == ring)) }.wr .RNG_SETUP_STATUS (ringIx fn ring) 0).setRun fn ring
    RingRun.idle).setRing fn ring .disabled)

theorem exec_ringDestroy_of_still (hopen : s.barsBlocked fn = false) (hring : ring < 64)
    (hstill : s.ringState fn ring = .idle ∨ s.ringState fn ring = .stopped) :
    exec (.ringDestroy fn ring) s = .next (s.ringGone fn ring) := by
  have hgo : (s.ringState fn ring != .idle && s.ringState fn ring != .stopped) = false := by
    rcases hstill with h | h <;> rw [h] <;> rfl
  change execRingDestroy fn ring s = _
  simp only [execRingDestroy, hopen, Nat.not_le.2 hring, hgo, decide_false, Bool.or_self, Bool.false_eq_true, if_false, State.ringGone]

theorem State.ringGone_keepsBut : s.keepsBut (s.ringGone fn ring) [.RNG_STATE, .RNG_SETUP_STATUS] :=
  have hslots : s.keepsBut { s with slots := s.slots.keep (fun _ t => !(t.fn == fn && t.ring == ring)) } [.RNG_STATE, .RNG_SETUP_STATUS] :=
    (s.keepsBut_refl _).of_reg rfl
  State.keepsBut_wr .RNG_STATE _ _ (by decide) ((State.keepsBut_wr .RNG_SETUP_STATUS _ _ (by decide) hslots).of_reg rfl)

theorem exec_cplRingCreate_of_passed (hopen : s.barsBlocked fn = false) (hring : ring < 64) (hfawn : s.rd .BOOT_FAWN 0 = 0)
    (hnew : s.rd .RNG_CSTATE (ringIx fn ring) = 0) (hhas : isMgr fn = true ∨ ring < s.rd .INS_CPL_RINGS fn)
    (hpasid : s.rd .RNG_CPASID_EN (ringIx fn ring) = 1 → s.pasidOk fn (s.rd .RNG_CPASID (ringIx fn ring)) = true) :
    exec (.cplRingCreate fn ring) s = .next (((((s.wr .RNG_CSETUP_STATUS (ringIx fn ring) 0).wr .RNG_CPROD (ringIx fn ring) 0).wr
      .RNG_CCONS (ringIx fn ring) 0).setCplWaits (ringIx fn ring) []).wr .RNG_CSTATE (ringIx fn ring) 1) := by
  have hcount : (!isMgr fn && decide (s.rd .INS_CPL_RINGS fn ≤ ring)) = false := by
    rcases hhas with h | h
    · simp [h]
    · simp [Nat.not_le.2 h]
  have hrange : ¬(s.rd .RNG_CPASID_EN (ringIx fn ring) = 1 && !s.pasidOk fn (s.rd .RNG_CPASID (ringIx fn ring))) = true := by
    simpa using hpasid
  change execCplRingCreate fn ring s = _
  simp [execCplRingCreate, hopen, Nat.not_le.2 hring, hfawn, hnew, hcount, hrange]

/-- A destroyed completion ring: DISABLED, and the records that waited for it are discarded and counted. -/
def State.cplRingGone (s : State) (k : Nat) : State :=
  (((s.wr .RNG_CSETUP_STATUS k 0).setCplWaits k []).bump .RNG_CPL_DISCARDED k (s.cplWaits k).length).wr .RNG_CSTATE k 0

theorem exec_cplRingDestroy_of_unbound (hopen : s.barsBlocked fn = false) (hring : ring < 64)
    (hstill : s.rd .RNG_CSTATE (ringIx fn ring) = 2 ∨ s.rd .RNG_CSTATE (ringIx fn ring) = 3) (hfree : s.cplBound fn ring = false) :
    exec (.cplRingDestroy fn ring) s = .next (s.cplRingGone (ringIx fn ring)) := by
  have hgo : (s.rd .RNG_CSTATE (ringIx fn ring) != 2 && s.rd .RNG_CSTATE (ringIx fn ring) != 3) = false := by
    rcases hstill with h | h <;> rw [h] <;> rfl
  change execCplRingDestroy fn ring s = _
  simp only [execCplRingDestroy, hopen, Nat.not_le.2 hring, hgo, hfree, decide_false, Bool.or_self, Bool.false_eq_true, if_false,
    State.cplRingGone]

theorem State.cplRingGone_keepsBut (k : Nat) :
    s.keepsBut (s.cplRingGone k) [.RNG_CSTATE, .RNG_CSETUP_STATUS, .RNG_CPL_DISCARDED, .STAT_F_LIVE] :=
  have hset := State.keepsBut_wr .RNG_CSETUP_STATUS k 0 (by decide) (s.keepsBut_refl [.RNG_CSTATE, .RNG_CSETUP_STATUS, .RNG_CPL_DISCARDED,
    .STAT_F_LIVE])
  have hcounted := (State.bump_reported _ .RNG_CPL_DISCARDED k (s.cplWaits k).length (by decide) (by decide)).keeps
    (fun _ h => h) (hset.of_reg (u := (s.wr .RNG_CSETUP_STATUS k 0).setCplWaits k []) rfl)
  State.keepsBut_wr .RNG_CSTATE k 0 (by decide) hcounted

/-! ### Doorbells (R130 to R133) -/

/-- The doorbells of a function are not dropped by a reset: it is a manager function, or none of its own runs (R108). -/
theorem State.notUnderReset (h : isMgr fn = true ∨ s.rd .INS_RESET_BUSY fn = 0) : (!isMgr fn && s.rd .INS_RESET_BUSY fn == 1) = false := by
  rcases h with h | h <;> simp [h]

theorem exec_commandDoorbell_of_room {count : Nat} (hring : ring < 64) (hopen : s.bellBlocked fn = false) (hcount : count < 2 ^ 32)
    (hmade : s.ringState fn ring ≠ .disabled) (hreset : isMgr fn = true ∨ s.rd .INS_RESET_BUSY fn = 0)
    (hcons : diff32 count (s.rd .RNG_CONS (ringIx fn ring)) ≤ s.ringSlots fn ring)
    (hprod : diff32 count (s.rd .RNG_PROD (ringIx fn ring)) ≤ s.ringSlots fn ring) :
    exec (.commandDoorbell fn ring 0 4 count) s = .next (s.wr .RNG_PROD (ringIx fn ring) count) := by
  change execCommandDoorbell fn ring 0 4 count s = _
  simp only [execCommandDoorbell, Nat.mod_eq_of_lt hcount]
  simp [hopen, Nat.not_le.2 hring, hmade, State.notUnderReset hreset, Nat.not_lt.2 hcons, Nat.not_lt.2 hprod]

theorem exec_completionDoorbell_of_room {count : Nat} (hring : ring < 64) (hopen : s.bellBlocked fn = false) (hcount : count < 2 ^ 32)
    (hmade : s.rd .RNG_CSTATE (ringIx fn ring) ≠ 0) (hreset : isMgr fn = true ∨ s.rd .INS_RESET_BUSY fn = 0)
    (hprod : diff32 (s.rd .RNG_CPROD (ringIx fn ring)) count ≤ s.cplSlots fn ring) :
    exec (.completionDoorbell fn ring 0 4 count) s = .next (s.wr .RNG_CCONS (ringIx fn ring) count) := by
  change execCompletionDoorbell fn ring 0 4 count s = _
  simp only [execCompletionDoorbell, Nat.mod_eq_of_lt hcount]
  simp [hopen, Nat.not_le.2 hring, hmade, State.notUnderReset hreset, Nat.not_lt.2 hprod]

end

/-! ### The statement -/

/-- Settles O20: each request that passes its checks ends in one state, written out, and what that state reads follows from its writes. -/
theorem ringsAreCreatedAndRung : Obligations.RingsAreCreatedAndRung := by
  refine ⟨?_, ?_, ?_, ?_, ?_, ?_⟩
  · rintro s fn ring ⟨hopen, hring⟩ hpass htimer
    obtain ⟨hcons, hprod, hstatus, hrun⟩ := s.ringMade_cleared (fn := fn) (ring := ring)
    exact ⟨_, exec_ringCreate_of_passed hopen hring hpass htimer, State.setRing_ringState .., hcons, hprod, hstatus, hrun,
      State.ringMade_keepsBut, rfl⟩
  · rintro s fn ring ⟨hopen, hring⟩ hstill
    refine ⟨_, exec_ringDestroy_of_still hopen hring hstill, State.setRing_ringState .., ?_, rfl, State.ringGone_keepsBut, rfl⟩
    simp [State.ringGone, State.setRing, State.rd_wr]
  · rintro s fn ring ⟨hopen, hring, hfawn⟩ hnew hhas hpasid
    exact exec_cplRingCreate_of_passed hopen hring hfawn hnew hhas hpasid
  · rintro s fn ring ⟨hopen, hring⟩ hstill hfree
    refine ⟨_, exec_cplRingDestroy_of_unbound hopen hring hstill hfree, State.rd_wr_same .., ?_, ?_, State.cplRingGone_keepsBut _, ?_⟩
    · exact State.setCplWaits_cplWaits (s.wr .RNG_CSETUP_STATUS (ringIx fn ring) 0) _ []
    · simp [State.cplRingGone, State.bump_eq_wr _ (rfl : frameStat .RNG_CPL_DISCARDED = none), State.rd_wr]
    · rfl
  · rintro s fn ring count ⟨hring, hopen, hcount⟩ ⟨hmade, hreset⟩ ⟨hcons, hprod⟩
    exact exec_commandDoorbell_of_room hring hopen hcount hmade hreset hcons hprod
  · rintro s fn ring count ⟨hring, hopen, hcount⟩ ⟨hmade, hreset⟩ hprod
    exact exec_completionDoorbell_of_room hring hopen hcount hmade hreset hprod

end Sys2Proof.Machine
end

section
/-! SUPPORT. Proof of the statement on the fetch of descriptors, NOP and CALL_LIST (chapter 5). -/
namespace Sys2Proof.Machine

open Sys2Proof

/-! ### The fetch of a ring in host memory (R118) -/

/-- Eight words of 64 bits come as the host returns them. -/
theorem map_word_range_eight {words : List Nat} (hlen : words.length = 8) (hlt : ∀ w ∈ words, w < 2 ^ 64) :
    (List.range 8).map (fun i => word words i % 2 ^ 64) = words := by
  refine List.ext_getElem (by simp [hlen]) fun i _ hi => ?_
  simp only [List.getElem_map, List.getElem_range, word, List.getD_eq_getElem _ _ hi]
  exact Nat.mod_eq_of_lt (hlt _ (List.getElem_mem hi))

theorem State.fetchDesc_of_host {s : State} {fn n addr a x : Nat} {pasid : Option Nat} {words : List Nat}
    (hmap : s.hostMap fn pasid (some n) addr false = .at a x) (hlen : words.length = 8) (hlt : ∀ w ∈ words, w < 2 ^ 64) (c : Nat)
    (indic : Bool) : s.fetchDesc fn n c true pasid addr indic words .ok = (.words words, s) := by
  simp only [State.fetchDesc, hmap, if_true, map_word_range_eight hlen hlt]

/-- The descriptor that a fetch brings joins those of its ring, whose heads wait or are released at once (R168). -/
def State.fetched (s : State) (fn ring : Nat) (words : List Nat) : State :=
  (s.setRun fn ring { s.run fn ring with fetched := (s.run fn ring).fetched ++ [words] }).settle fn ring

/-- Where in host memory or accelerator memory the next descriptor of a ring lies (R118). -/
def State.fetchAddr (s : State) (fn ring : Nat) : Nat :=
  s.rd .RNG_BASE (ringIx fn ring) + 64 * ((s.rd .RNG_CONS (ringIx fn ring) + (s.run fn ring).fetched.length) % s.ringSlots fn ring)

theorem exec_descriptorFetch_of_host {s : State} {fn ring c a x : Nat} {words : List Nat} (hcmp : s.fnCmp fn = some c)
    (hopen : s.frontOpen fn = true) (hrun : s.ringState fn ring = .running) (hloc : s.rd .RNG_LOC (ringIx fn ring) = 1)
    (hmore : (s.run fn ring).fetched.length < diff32 (s.rd .RNG_PROD (ringIx fn ring)) (s.rd .RNG_CONS (ringIx fn ring)))
    (hmap : s.hostMap fn (s.ringPasid fn ring) (some ring) (s.fetchAddr fn ring) false = .at a x) (hlen : words.length = 8)
    (hlt : ∀ w ∈ words, w < 2 ^ 64) :
    exec (.descriptorFetch fn ring none words .ok) s = .next (s.fetched fn ring words) := by
  unfold State.fetchAddr at hmap
  change execDescriptorFetch fn ring none words .ok s = _
  simp [execDescriptorFetch, hcmp, hopen, hrun, hloc, Nat.not_le.2 hmore, State.fetchDesc_of_host hmap hlen hlt, State.fetched]

/-! ### NOP and CALL_LIST -/

section
variable {s : State} {fn ring c : Nat} {k : Cand}

theorem exec_nop_of_starts (h : s.starts fn ring 0x00 c k) :
    exec (.nop fn ring) s = .next ((s.begun fn ring c k).2.addOp (s.begun fn ring c k).1) :=
  have ⟨_, _, hcode, _⟩ := h
  congrArg Host.Outcome.next (State.startNext_of_starts h _ (fun o s => (o, s)) (by simp [hcode]))

/-- A list that may run where it lies is waited for (R147). -/
theorem callListWork_of_ring {o : Op} (hsource : o.source = .ring) (hplace : ¬(dIndic o.desc = true ∧ clHost o.desc = true)) (s : State) :
    callListWork o s = ({ o with wait := .list }, s) := by
  simp only [callListWork, hsource, Bool.and_eq_true, if_neg hplace]

theorem exec_callList_of_starts (h : s.starts fn ring 0x01 c k) (hsource : k.src = .ring)
    (hplace : ¬(dIndic k.desc = true ∧ clHost k.desc = true)) :
    exec (.callList fn ring) s = .next ((s.begun fn ring c k).2.addOp { (s.begun fn ring c k).1 with wait := .list }) := by
  have ⟨_, _, hcode, _⟩ := h
  have hwork := callListWork_of_ring (o := (s.begun fn ring c k).1) (by simpa using hsource) (by simpa using hplace) (s.begun fn ring c k).2
  change execCallList fn ring s = _
  rw [execCallList, State.startNext_of_starts h _ _ (by simp [hcode]), hwork]

end

/-! ### The statement -/

/-- Settles O21: a fetch changes only the front end of its ring, and a descriptor that starts with its checks passed does its work alone. -/
theorem descriptorsAreFetchedAndStart : Obligations.DescriptorsAreFetchedAndStart := by
  refine ⟨?_, ?_, ?_⟩
  · rintro s fn ring c a x words ⟨hcmp, hopen⟩ ⟨hrun, hloc⟩ hmore hmap ⟨hlen, hlt⟩
    exact ⟨_, exec_descriptorFetch_of_host hcmp hopen hrun hloc hmore hmap hlen hlt, by simp [State.fetched], rfl⟩
  · intro s fn ring c k h
    exact ⟨exec_nop_of_starts h, State.begun_wait ..⟩
  · intro s fn ring c k h hsource hplace
    exact exec_callList_of_starts h hsource hplace

end Sys2Proof.Machine
end

section
/-! SUPPORT. Proof of the statement on REMOTE descriptors (chapter 16). -/
namespace Sys2Proof.Machine

open Sys2Proof

/-! ### The work of a REMOTE descriptor (R144, R433, R446) -/

section
variable {s : State} {o : Op} {n : Nat} {q : Qp}

theorem remoteWork_of_ready (hqp : rmQp o.desc = n) (hown : s.ownQp o.fn n = some q) (hmood : q.indic = dIndic o.desc)
    (hstate : q.state = 3) :
    remoteWork o s = ({ o with wait := .remote n, result := 0 }, s.setQp n { q with sends := q.sends ++ remoteMsgs o n q }) := by
  simp [remoteWork, hqp, hown, hmood, hstate]

theorem remoteWork_of_notReady (hqp : rmQp o.desc = n) (hown : s.ownQp o.fn n = some q) (hmood : q.indic = dIndic o.desc)
    (hstate : q.state ≠ 3) : remoteWork o s = ({ o with wait := .done, status := 0x12, result := 0 }, s) := by
  simp [remoteWork, hqp, hown, hmood, hstate, Op.ends, St.code]

end

/-- A REMOTE descriptor of the queue pair's mood: its messages join those of a queue pair in RTS, which sends what it can; the descriptor
of any other ends. -/
theorem State.startRemote_of_starts {s : State} {fn ring opcode c : Nat} {k : Cand} {q : Qp} (h : s.starts fn ring opcode c k)
    (hfind : (s.begun fn ring c k).2.net.qps.find (rmQp k.desc) = some q) (hown : q.owner = fn) (hmood : q.indic = dIndic k.desc) :
    let b := s.begun fn ring c k
    s.startRemote fn ring opcode = if q.state = 3 then
        ((b.2.setQp (rmQp k.desc) { q with sends := q.sends ++ remoteMsgs b.1 (rmQp k.desc) q }).addOp
          { b.1 with wait := .remote (rmQp k.desc), result := 0 }).pump (rmQp k.desc)
      else b.2.addOp { b.1 with wait := .done, status := 0x12, result := 0 } := by
  have ⟨_, _, hcode, _⟩ := h
  have hstart := State.startNext_of_starts h (fun d => dOpcode d == opcode) remoteWork (by simp [hcode])
  have hqp : rmQp (s.begun fn ring c k).1.desc = rmQp k.desc := by simp
  have howner : (s.begun fn ring c k).2.ownQp (s.begun fn ring c k).1.fn (rmQp k.desc) = some q := by simp [State.ownQp, hfind, hown]
  have hsame : q.indic = dIndic (s.begun fn ring c k).1.desc := by simpa using hmood
  intro b
  by_cases hstate : q.state = 3
  · rw [remoteWork_of_ready hqp howner hsame hstate] at hstart
    simp only [State.startRemote, hstart, State.addOp_getLast, if_pos hstate, b]
  · rw [remoteWork_of_notReady hqp howner hsame hstate] at hstart
    simp only [State.startRemote, hstart, State.addOp_getLast, if_neg hstate, b]

/-! ### The statement -/

/-- Settles O38: the four descriptors differ in their messages alone, so one start serves them. -/
theorem remoteDescriptorsQueueTheirMessages : Obligations.RemoteDescriptorsQueueTheirMessages := by
  refine ⟨?_, ?_, ?_, ?_⟩
  all_goals
    rintro s fn ring c k q h ⟨hfind, hown, hmood⟩
    exact congrArg Host.Outcome.next (State.startRemote_of_starts h hfind hown hmood)

end Sys2Proof.Machine
end

section
/-! SUPPORT. Proof of the statement on the end of operations and their records (chapter 5). -/
namespace Sys2Proof.Machine

open Sys2Proof

/-! ### The number of an incident (R494) -/

/-- Fields that a record which finds its posting queue full may change (R501). -/
def lossFlds : List Fld :=
  [.INC_LOST_NOTICE, .INC_LOST_DEGRADED, .INC_LOST_JOB, .INC_LOST_DEVICE, .INC_CRING_LOST_NOTICE, .INC_CRING_LOST_DEGRADED,
   .INC_CRING_LOST_JOB, .INC_CRING_LOST_DEVICE, .STAT_F_LIVE]

theorem lostDev_mem_loss (n : Nat) : lostDev n ∈ lossFlds := by unfold lostDev; split <;> decide

theorem lostCmp_mem_loss (n : Nat) : lostCmp n ∈ lossFlds := by unfold lostCmp; split <;> decide

/-- One record counts the sequence number up once, whatever becomes of its copies. -/
theorem State.postOne_seq (s : State) (p : Post) : (s.postOne p).2.rd .INC_SEQ_NEXT 0 = seqAfter (s.rd .INC_SEQ_NEXT 0) % 2 ^ 32 := by
  unfold State.postOne
  extract_lets seq toC toD pay only a b c
  have hseq : a.rd .INC_SEQ_NEXT 0 = seqAfter seq % 2 ^ 32 := s.rd_wr_same ..
  have hdev : a.reported lossFlds b := .ite (.ite (a.inc_reported ..) (a.bump_reported _ _ _ (lostDev_mem_loss _) (by decide))) (.refl ..)
  have hcmp : b.reported lossFlds c :=
    .ite (.foldl _ (fun s _ => .ite (s.inc_reported ..) (s.bump_reported _ _ _ (lostCmp_mem_loss _) (by decide))) ..) (.refl ..)
  exact ((hdev.trans hcmp).rd (by decide) 0).trans hseq

/-- An incident that is no DEVICE incident is one record. -/
theorem State.post_seq (s : State) {p : Post} (h : p.sev ≠ .device) :
    (s.post p).rd .INC_SEQ_NEXT 0 = seqAfter (s.rd .INC_SEQ_NEXT 0) % 2 ^ 32 := by
  simp only [State.post, State.postQ, if_neg h, State.postOne_seq]

/-! ### A record finds room in its completion ring (R122, R161) -/

/-- The completion ring runs and has a slot that no claim has taken. -/
def State.cplRoom (s : State) (k : Nat) : Prop := s.rd .RNG_CSTATE k = 1 ∧ 0 < s.cplFree k

/-- Fields that say which completion ring a command ring has, and whether that has room. -/
def roomFlds : List Fld := [.RNG_CPL_RING, .RNG_CSTATE, .RNG_CLOG2_SIZE, .RNG_CPROD, .RNG_CCONS]

section
variable {s t : State} {fs : List Fld}

theorem State.cplKey_of_keepsBut (h : s.keepsBut t fs) (hfs : ∀ f ∈ roomFlds, f ∉ fs) (fn n : Nat) : t.cplKey fn n = s.cplKey fn n := by
  rw [State.cplKey, h .RNG_CPL_RING (hfs _ (by decide)), State.cplKey]

theorem State.cplRoom.of_keepsBut {k : Nat} (hroom : s.cplRoom k) (h : s.keepsBut t fs) (hfs : ∀ f ∈ roomFlds, f ∉ fs)
    (hq : t.ring.cplQ = s.ring.cplQ) : t.cplRoom k := by
  obtain ⟨hrun, hfree⟩ := hroom
  refine ⟨(h .RNG_CSTATE (hfs _ (by decide)) k).trans hrun, ?_⟩
  rw [State.cplFree, State.cplWaits, h .RNG_CSTATE (hfs _ (by decide)), h .RNG_CLOG2_SIZE (hfs _ (by decide)),
    h .RNG_CPROD (hfs _ (by decide)), h .RNG_CCONS (hfs _ (by decide)), hq]
  exact hfree

theorem State.claimAll_of_room {k : Nat} (hroom : s.cplRoom k) (w : CplWait) : s.claimAll k [w] = s.setCplWaits k (s.cplWaits k ++ [w]) := by
  obtain ⟨hrun, hfree⟩ := hroom
  have hone : ¬s.cplFree k < 1 := Nat.not_lt.2 hfree
  simp [State.claimAll, State.claimOne, hrun, hfree, hone]

end

/-! ### An operation of a ring ends (R138, R155) -/

section
variable {s : State} {o : Op}

theorem State.stopCheck_ring (s : State) (fn n : Nat) : (s.stopCheck fn n).ring = s.ring := by
  unfold State.stopCheck
  split <;> rfl

theorem State.stopCheck_keepsBut (s : State) (fn n : Nat) : s.keepsBut (s.stopCheck fn n) [.RNG_STATE] := by
  unfold State.stopCheck
  split
  · exact s.keepsBut_wr .RNG_STATE _ _ (by decide) (s.keepsBut_refl _)
  · exact s.keepsBut_refl _

/-- A descriptor of no list leaves no list behind it. -/
theorem State.leave_of_ring (h : o.source = .ring) : s.leave o = (s.dropOp o.id).stopCheck o.fn o.ring := by
  simp only [State.leave, State.listEnded, h]

/-- The operation has left its ring, and its record is the last of those that wait for its completion ring. -/
def State.completed (s : State) (o : Op) : State :=
  (s.leave o).setCplWaits (s.cplKey o.fn o.ring) (s.cplWaits (s.cplKey o.fn o.ring) ++ [⟨s.recordOf o, o, false⟩])

theorem State.leave_ring (h : o.source = .ring) : (s.leave o).ring = (s.dropOp o.id).ring := by
  rw [State.leave_of_ring h, State.stopCheck_ring]

theorem State.leave_keepsBut (h : o.source = .ring) : s.keepsBut (s.leave o) [.RNG_STATE] := by
  rw [State.leave_of_ring h]
  exact (s.dropOp o.id).stopCheck_keepsBut o.fn o.ring

theorem State.completeOps_of_room {k : Nat} (hsource : o.source = .ring) (hkey : s.cplKey o.fn o.ring = k) (hroom : s.cplRoom k) :
    s.completeOps [o] = s.completed o := by
  subst hkey
  have hq : (s.leave o).ring.cplQ = s.ring.cplQ := by
    rw [State.leave_ring hsource]
    rfl
  have hclaim := State.claimAll_of_room (hroom.of_keepsBut (State.leave_keepsBut hsource) (by decide) hq) ⟨s.recordOf o, o, false⟩
  rw [State.cplWaits, hq, ← State.cplWaits] at hclaim
  simpa [State.completeOps, Op.writesRecord, hsource, State.completed, List.eraseDups_cons] using hclaim

theorem State.completed_ops (h : o.source = .ring) : (s.completed o).ring.ops = s.ring.ops.filter (fun x => x.id != o.id) := by
  change (s.leave o).ring.ops = _
  rw [State.leave_ring h]
  rfl

theorem State.completed_ended (h : o.source = .ring) : (s.completed o).ring.ended = s.ring.ended := by
  change (s.leave o).ring.ended = _
  rw [State.leave_ring h]
  rfl

theorem State.completed_keepsBut (h : o.source = .ring) : s.keepsBut (s.completed o) [.RNG_STATE] :=
  (State.leave_keepsBut h).of_reg rfl

theorem State.completed_cplWaits {k : Nat} (hkey : s.cplKey o.fn o.ring = k) :
    (s.completed o).cplWaits k = s.cplWaits k ++ [⟨s.recordOf o, o, false⟩] := by
  subst hkey
  exact State.setCplWaits_cplWaits ..

/-- A record names its beat, and nothing else of the state. -/
theorem State.recordOf_of_beat {t : State} (h : t.beat = s.beat) (o : Op) : t.recordOf o = s.recordOf o := by
  simp only [State.recordOf, h]

/-- No completion of the cycle is late, and no operation of it has a signal to apply. -/
theorem exec_operationComplete_of_failed (hfind : s.findOp o.id = some o) (hdone : o.wait = .done) (hstatus : o.status ≠ 0)
    (hended : s.ring.ended = []) : exec (.operationComplete [o.id]) s = .next ((s.bump .RNG_LATE_COMPLETIONS 0 0).completeOps [o]) := by
  have hring : { s.ring with ended := [] } = s.ring := by rw [← hended]
  have hbump : { s.bump .RNG_LATE_COMPLETIONS 0 0 with ring := s.ring } = s.bump .RNG_LATE_COMPLETIONS 0 0 := rfl
  have hfind' : (s.bump .RNG_LATE_COMPLETIONS 0 0).findOp o.id = some o := hfind
  change execOperationComplete [o.id] s = _
  simp only [execOperationComplete, hended, List.contains_nil, List.filter_false, List.length_nil, List.filter_nil, hring, hbump]
  simp [hfind', hdone, State.signalAll, hstatus]

end

/-! ### Command timeout (R157 to R159) -/

/-- The place in its list of an operation, as an incident names it: 0 for one of no list. -/
def Op.listWord (o : Op) : Nat :=
  match o.listIdx with
  | some i => put i 0 16 + 2 ^ 16
  | none => 0

/-- COMMAND_TIMEOUT of an operation. -/
def State.timeoutPost (s : State) (o : Op) : Post :=
  { cmpInc 0x0303 (if dIndic o.desc then .job else .notice) o.cmp o.ring o.fn [o.index, o.listWord, s.rd .RNG_TIMEOUT (ringIx o.fn o.ring)]
    with cause := s.timeoutCause o }

theorem State.timeoutPost_sev (s : State) (o : Op) : (s.timeoutPost o).sev ≠ .device := by
  change (if dIndic o.desc then Sev.job else .notice) ≠ .device
  split <;> decide

/-- The incident of an operation that has run too long is posted, and the operation's own completion will be late. -/
def State.timedOut (s : State) (o : Op) : State :=
  { s.post (s.timeoutPost o) with
    ring := { (s.post (s.timeoutPost o)).ring with ended := (s.post (s.timeoutPost o)).ring.ended ++ [o.id] } }

/-- An operation that its timer has ended, with the number of the incident as detail. -/
def Op.timedOut (o : Op) (seq : Nat) : Op := { o with wait := .done, status := 0x0E, detail := seq }

theorem exec_commandTimeout_of_passed {s : State} {o : Op} (hfind : s.findOp o.id = some o) (htimed : o.timed = true)
    (hfree : s.inRecovery o = false) (hset : 0 < s.rd .RNG_TIMEOUT (ringIx o.fn o.ring))
    (hpassed : o.startNs + 1000 * s.rd .RNG_TIMEOUT (ringIx o.fn o.ring) ≤ s.ns) :
    exec (.commandTimeout o.id) s = .next ((s.timedOut o).completeOps [o.timedOut (s.rd .INC_SEQ_NEXT 0)]) := by
  change execCommandTimeout o.id s = _
  simp only [execCommandTimeout, hfind, Nat.ne_of_gt hset, htimed, hfree, Nat.not_lt.2 hpassed, decide_false, Bool.not_true, Bool.or_self,
    Bool.false_eq_true, if_false]
  rfl

theorem State.timedOut_ring (s : State) (o : Op) : (s.timedOut o).ring = { s.ring with ended := s.ring.ended ++ [o.id] } := by
  simp only [State.timedOut, (s.post_reported (s.timeoutPost o)).ring]

theorem State.timedOut_keepsBut (s : State) (o : Op) : s.keepsBut (s.timedOut o) postFlds :=
  (s.post_reported (s.timeoutPost o)).2.of_reg rfl

/-! ### A record is written (R122, R123, R156) -/

/-- A record leaves those that wait, and is counted as written. -/
def State.cplAdvanced (s : State) (k : Nat) (w : CplWait) : State :=
  let t := s.stat w.op.cmp 0 1
  (t.setCplWaits k ((t.cplWaits k).drop 1)).wr .RNG_CPROD k ((t.rd .RNG_CPROD k + 1) % 2 ^ 32)

/-- Beside that, a written record only raises the event source of its ring. -/
theorem State.cplWritten_reported (s : State) (k : Nat) (w : CplWait) : (s.cplAdvanced k w).reported raiseFlds (s.cplWritten k w) :=
  .ite (.ite (.refl ..) (State.occur_reported ..)) (.refl ..)

section
variable {s : State} {k : Nat} {w : CplWait}

theorem State.cplAdvanced_count : (s.cplAdvanced k w).rd .RNG_CPROD k = (s.rd .RNG_CPROD k + 1) % 2 ^ 32 := by
  have hcount : (s.stat w.op.cmp 0 1).rd .RNG_CPROD k = s.rd .RNG_CPROD k := State.rd_wr_ne _ _ _ _ _ _ (by simp)
  rw [State.cplAdvanced, State.rd_wr_same, hcount]
  exact Nat.mod_mod ..

theorem State.cplAdvanced_keepsBut : s.keepsBut (s.cplAdvanced k w) (.RNG_CPROD :: raiseFlds) :=
  have hstat := s.keepsBut_wr .STAT_F_LIVE (16 * w.op.cmp + 0) (s.rd .STAT_F_LIVE (16 * w.op.cmp + 0) + 1) (by decide)
    (s.keepsBut_refl (.RNG_CPROD :: raiseFlds))
  State.keepsBut_wr .RNG_CPROD _ _ (by decide) (hstat.of_reg rfl)

end

theorem exec_completionRecordWrite_of_room {s : State} {fn ring a x : Nat} {w : CplWait} {rest : List CplWait}
    (hwaits : s.cplWaits (ringIx fn ring) = w :: rest) (hrun : s.rd .RNG_CSTATE (ringIx fn ring) = 1)
    (hloc : s.rd .RNG_CLOC (ringIx fn ring) = 1)
    (hroom : diff32 (s.rd .RNG_CPROD (ringIx fn ring)) (s.rd .RNG_CCONS (ringIx fn ring)) < s.cplSlots fn ring)
    (hmap : s.hostMap fn (s.cplPasid fn ring) (some (64 + ring)) (s.rd .RNG_CBASE (ringIx fn ring)
      + 32 * (s.rd .RNG_CPROD (ringIx fn ring) % s.cplSlots fn ring)) true = .at a x) :
    exec (.completionRecordWrite fn ring .ok) s =
      .next ((s.hostWrite (portOf fn) a (bytesOf (s.stamped (ringIx fn ring) w))).cplWritten (ringIx fn ring) w) := by
  change execCompletionRecordWrite fn ring .ok s = _
  simp only [execCompletionRecordWrite, hwaits, hrun, hloc, hmap, hroom, bne_self_eq_false, decide_true, Bool.not_true, Bool.or_self,
    Bool.false_eq_true, if_false, if_true]

/-! ### The statement -/

/-- Settles O22: a completion, and a timeout after its incident, leave the ring and join the waiting records; a written record changes the
bytes of its slot, the count, and what its event raises. -/
theorem operationsEndWithARecord : Obligations.OperationsEndWithARecord := by
  refine ⟨?_, ?_, ?_⟩
  · rintro s o ⟨hfind, hdone, hsource, hstatus⟩ ⟨hended, -⟩ ⟨hrun, hfree⟩
    have hkeeps : s.keepsBut (s.bump .RNG_LATE_COMPLETIONS 0 0) [.RNG_LATE_COMPLETIONS] := by
      rw [State.bump_eq_wr _ rfl]
      exact s.keepsBut_wr _ _ _ (by decide) (s.keepsBut_refl _)
    have hkey := State.cplKey_of_keepsBut hkeeps (by decide) o.fn o.ring
    have hroom := State.cplRoom.of_keepsBut ⟨hrun, hfree⟩ hkeeps (by decide) rfl
    have hexec := exec_operationComplete_of_failed hfind hdone hstatus hended
    have hmem := State.mem_of_still (still_execOperationComplete _ s _ hexec)
    rw [State.completeOps_of_room hsource hkey hroom] at hexec hmem
    have hwaits := State.completed_cplWaits hkey
    rw [State.recordOf_of_beat (hkeeps .PWR_BEAT (by decide) 0), State.cplWaits_of_ring rfl] at hwaits
    exact ⟨_, hexec, State.completed_ops hsource, hwaits, hmem⟩
  · rintro s fn ring a x w rest ⟨hwaits, hrun, hloc⟩ hroom hmap
    have hreport := (s.hostWrite (portOf fn) a (bytesOf (s.stamped (ringIx fn ring) w))).cplWritten_reported (ringIx fn ring) w
    refine ⟨_, exec_completionRecordWrite_of_room hwaits hrun hloc hroom hmap, ?_, ?_, ?_, ?_, ?_⟩
    · exact (hreport.rd (by decide) _).trans State.cplAdvanced_count
    · rw [State.cplWaits_of_ring hreport.ring]
      exact (State.setCplWaits_cplWaits ..).trans (congrArg (List.drop 1) hwaits)
    · intro b
      rw [hreport.mem]
      exact s.hostWrite_byte ..
    · rw [hreport.mem]
      rfl
    · exact hreport.keeps (List.subset_cons_self _ _) State.cplAdvanced_keepsBut
  · rintro s o ⟨hfind, hsource, htimed, hrecover⟩ ⟨hset, hpassed⟩ ⟨hrun, hfree⟩
    have hkeeps := s.timedOut_keepsBut o
    have hkey := State.cplKey_of_keepsBut hkeeps (by decide) o.fn o.ring
    have hroom := State.cplRoom.of_keepsBut ⟨hrun, hfree⟩ hkeeps (by decide) (by rw [State.timedOut_ring])
    have hexec := exec_commandTimeout_of_passed hfind htimed hrecover hset hpassed
    have hmem := State.mem_of_still (still_execCommandTimeout _ s _ hexec)
    have hleft : (o.timedOut (s.rd .INC_SEQ_NEXT 0)).source = .ring := hsource
    rw [State.completeOps_of_room hleft hkey hroom] at hexec hmem
    have hwaits := State.completed_cplWaits (o := o.timedOut (s.rd .INC_SEQ_NEXT 0)) hkey
    refine ⟨_, hexec, ?_, ?_, ?_, ⟨_, hwaits ▸ List.mem_concat_self, rfl, rfl, rfl⟩, hmem⟩
    · rw [State.completed_ops hleft, State.timedOut_ring]
      rfl
    · rw [State.completed_ended hleft, State.timedOut_ring]
    · rw [State.completed_keepsBut hleft _ (by decide)]
      exact s.post_seq (s.timeoutPost_sev o)

end Sys2Proof.Machine
end

section
/-! SUPPORT. Proof of the statement on event sources: binding, routing, doorbells, unmasking and claims (chapter 7). -/
namespace Sys2Proof.Machine

open Sys2Proof

/-! ### Binding and routing (R185, R187) -/

/-- Who owns a source hangs on its binding record alone. -/
theorem State.ownsSrc_wr (s : State) {f : Fld} (hbound : f ≠ .EVT_SRC_BOUND) (howner : f ≠ .EVT_SRC_OWNER) (i v fn n : Nat) :
    (s.wr f i v).ownsSrc fn n = s.ownsSrc fn n := by
  have hb := s.rd_wr_ne f .EVT_SRC_BOUND i n v (fun h => hbound h.1)
  have ho := s.rd_wr_ne f .EVT_SRC_OWNER i n v (fun h => howner h.1)
  rw [State.ownsSrc, State.srcBound, State.srcOwner, hb, ho]
  rfl

/-- Any owner is one that a pool source may be bound to. -/
theorem exec_eventSourceBind_of_pool {s : State} {src : Nat} (hopen : s.closed s.primaryFn (0xC00000 + 0x10 * src) = false)
    (hpool : isPool src = true) (owner : Nat) :
    exec (.eventSourceBind s.primaryFn src owner true) s = .next ((s.wr .EVT_SRC_OWNER src owner).wr .EVT_SRC_BOUND src 1) := by
  change execEventSourceBind s.primaryFn src owner true s = _
  simp [execEventSourceBind, hopen, isBindable, State.ownerOk, hpool]

/-- A source that is not pending raises nothing on its new vector (R193). -/
theorem exec_eventRouteApply_of_owner {s : State} {fn vec : Nat} (hopen : s.barsBlocked fn = false) (hvec : vec < vecCount fn)
    (howns : s.ownsSrc fn (s.rd .EVT_RT_SRC fn) = true) (hpool : isPool (s.rd .EVT_RT_SRC fn) = true)
    (hidle : s.rd .EVT_PENDING (s.rd .EVT_RT_SRC fn) = 0) (sense : Nat) :
    exec (.eventRouteApply fn vec sense) s = .next ((((((s.wr .EVT_RT_VEC fn vec).wr .EVT_RT_SENSE fn sense).wr .EVT_RT_STATUS fn 0).wr
      .EVT_SRC_ROUTED (s.rd .EVT_RT_SRC fn) 1).wr .EVT_SRC_VEC (s.rd .EVT_RT_SRC fn) vec).wr .EVT_SRC_SENSE (s.rd .EVT_RT_SRC fn) sense) := by
  have howns' (u v : Nat) : ((s.wr .EVT_RT_VEC fn u).wr .EVT_RT_SENSE fn v).ownsSrc fn (s.rd .EVT_RT_SRC fn) = true := by
    rw [State.ownsSrc_wr _ (by decide) (by decide), State.ownsSrc_wr _ (by decide) (by decide), howns]
  change execEventRouteApply fn vec sense s = _
  simp [execEventRouteApply, hopen, howns', Nat.not_le.2 hvec, hpool, State.rd_wr, hidle]

/-! ### Doorbells, coalescing and masks (R189, R191, R194, R196) -/

/-- A claim that no other meets moves no pointer, whoever makes it. -/
theorem State.arbitrate_alone (s : State) (p : Point) (n c : Nat) : (s.arbitrate p n [c]).2 = s := by
  by_cases hc : c < n
  · rw [s.arbitrate_singleton p hc]
  · have hnone : rotate n (s.ptr p) [c] = [] := List.eq_nil_iff_forall_not_mem.2 fun d hd => by
      obtain ⟨hlt, hmem⟩ := mem_rotate.1 hd
      exact hc (List.mem_singleton.1 hmem ▸ hlt)
    simp only [State.arbitrate, hnone]

theorem State.bellRaises_alone (s : State) (n port : Nat) : s.bellRaises n [port] = s.raiseSrc n := by
  simp only [State.bellRaises, State.arbitrate_alone, List.foldl_cons, List.foldl_nil]

theorem exec_eventDoorbell_alone {s : State} {fn src : Nat} (hopen : s.barsBlocked fn = false) (hsrc : src < 2048) :
    exec (.eventDoorbell fn src []) s = .next (if s.bellOk src (s.fnCmp fn) = true then s.raiseSrc src
      else (s.bump .EVT_DB_DROPPED fn 1).bump .EVT_DB_DROPPED_TOTAL 0 1) := by
  change execEventDoorbell fn src [] s = _
  simp only [execEventDoorbell, hopen, Nat.mod_eq_of_lt hsrc, State.bellRaises_alone, Bool.false_eq_true, if_false]
  split <;> rfl

theorem exec_coalesceTimerExpiry_of_passed {s : State} {fn vec : Nat} (hset : s.rd .EVT_COAL_TIME (vecIx fn vec) ≠ 0)
    (hbatch : s.rd .EVT_VEC_BATCH (vecIx fn vec) ≠ 0)
    (hpassed : s.evt.batchStart.get 0 (vecIx fn vec) + 256 * s.rd .EVT_COAL_TIME (vecIx fn vec) ≤ s.beat) :
    exec (.coalesceTimerExpiry fn vec) s = .next (s.deliverOrHold fn vec) := by
  change execCoalesceTimerExpiry fn vec s = _
  simp [execCoalesceTimerExpiry, hset, hbatch, hpassed]

theorem exec_vectorUnmask_of_open {s : State} {fn vec : Nat} (hopen : s.barsBlocked fn = false) (hvec : vec < vecCount fn) :
    exec (.vectorUnmask fn vec) s = .next (if s.rd .EVT_VEC_HELD (vecIx fn vec) = 1 then (s.wr .EVT_VEC_MASK (vecIx fn vec) 0).deliver fn vec
      else s.wr .EVT_VEC_MASK (vecIx fn vec) 0) := by
  change execVectorUnmask fn vec s = _
  simp [execVectorUnmask, hopen, Nat.not_le.2 hvec]

/-! ### Claims (R200) -/

/-- A claim of a vector takes source `n`: its latches are cleared and the claim pointer stands behind it. -/
def State.claimTaken (s : State) (fn vec n : Nat) : State :=
  let s := ((s.wr .EVT_PENDING n 0).wr .EVT_COUNT n 0).wr .EVT_SAT n 0
  { s with evt := { s.evt with claimPtr := Tab.set s.evt.claimPtr 1 (vecIx fn vec) (if n = 0x7FF then 1 else n + 1) } }

theorem State.claim_of_find {s : State} {fn vec n : Nat}
    (hfind : (claimOrder (s.claimPtr fn vec)).find? (fun n => s.claimable fn vec n) = some n) :
    s.claim fn vec = ((n, s.rd .EVT_COUNT n, s.rd .EVT_SAT n), s.claimTaken fn vec n) := by
  simp only [State.claim, hfind, State.claimTaken]

theorem State.claimTaken_claimPtr (s : State) (fn vec n : Nat) :
    (s.claimTaken fn vec n).claimPtr fn vec = if n = 0x7FF then 1 else n + 1 := Tab.get_set_same ..

/-- A claim clears the three latches of the source it takes and no other field. -/
theorem State.rd_claimTaken (s : State) (fn vec n : Nat) (f : Fld) (i : Nat) :
    (s.claimTaken fn vec n).rd f i = if i = n ∧ (f = .EVT_PENDING ∨ f = .EVT_COUNT ∨ f = .EVT_SAT) then 0 else s.rd f i := by
  change (((s.wr .EVT_PENDING n 0).wr .EVT_COUNT n 0).wr .EVT_SAT n 0).rd f i = _
  simp only [State.rd_wr, Nat.zero_mod]
  grind

theorem exec_eventClaim_alone {s : State} {fn vec n port : Nat} (hopen : s.barsBlocked fn = false) (hvec : vec < vecCount fn)
    (hport : port < 6) (hfind : (claimOrder (s.claimPtr fn vec)).find? (fun n => s.claimable fn vec n) = some n) :
    exec (.eventClaim fn vec [port]) s = .next ((s.claimTaken fn vec n).emit .readValue
      [fn, vec, port, n + put (s.rd .EVT_COUNT n) 16 12 + put (s.rd .EVT_SAT n) 28 1]) := by
  have hport' : port < claimPorts := hport
  change execEventClaim fn vec [port] s = _
  simp [execEventClaim, hopen, Nat.not_le.2 hvec, s.arbitrate_singleton _ hport', State.claim_of_find hfind]

/-! ### The statement -/

/-- Settles O25: each order of the concentrator with its next state; a claim is one taken source and the word that tells of it. -/
theorem eventsAreBoundRoutedAndClaimed : Obligations.EventsAreBoundRoutedAndClaimed := by
  refine ⟨?_, ?_, ?_, ?_, ?_, ?_⟩
  · rintro s src owner hopen ⟨hlo, hhi, -⟩
    exact exec_eventSourceBind_of_pool hopen (by simp [isPool, hlo, hhi]) owner
  · rintro s fn vec sense ⟨hopen, hvec⟩ ⟨howns, hpool⟩ hidle
    exact exec_eventRouteApply_of_owner hopen hvec howns hpool hidle sense
  · rintro s fn src ⟨hopen, hsrc⟩
    exact exec_eventDoorbell_alone hopen hsrc
  · rintro s fn vec ⟨hset, hbatch⟩ hpassed
    exact exec_coalesceTimerExpiry_of_passed hset hbatch hpassed
  · rintro s fn vec ⟨hopen, hvec⟩
    exact exec_vectorUnmask_of_open hopen hvec
  · rintro s fn vec n port ⟨hopen, hvec, hport⟩ hfind
    have hcleared {f : Fld} (hf : f = .EVT_PENDING ∨ f = .EVT_COUNT ∨ f = .EVT_SAT) : (s.claimTaken fn vec n).rd f n = 0 := by
      rw [State.rd_claimTaken, if_pos ⟨rfl, hf⟩]
    refine ⟨_, exec_eventClaim_alone hopen hvec hport hfind, rfl, hcleared (.inl rfl), hcleared (.inr (.inl rfl)),
      hcleared (.inr (.inr rfl)), s.claimTaken_claimPtr fn vec n, fun f i hother => ?_, rfl⟩
    rw [State.rd_emit, State.rd_claimTaken, if_neg hother]

end Sys2Proof.Machine
end

section
/-! SUPPORT. Proof of the statement on the host's answers: translation completions, page request responses, invalidate requests, host
reads and configuration writes (chapter 8). -/
namespace Sys2Proof.Machine

open Sys2Proof

/-! ### Translation completions (R212, R213, R215) -/

/-- The translation with both rights that a completion grants the ring window `w` of a function: its size is a power of two, and its base
and target are aligned to it. -/
def Held.granted (fn page size out flags w port : Nat) (pasid : Option Nat) : Held :=
  let z := 2 ^ max 12 (Nat.log2 size)
  { fn := fn, pasid := pasid, base := page / z * z, size := z, out := out / z * z, r := true, w := true, u := bit flags 2,
    global := bit flags 3, win := some w, port := port }

theorem State.hold_ring (s : State) (h : Held) : (s.hold h).ring = s.ring := by
  unfold State.hold
  split
  · unfold State.fillShared
    split <;> rfl
  · rfl

theorem State.hold_fnCmp (s : State) (h : Held) (fn : Nat) : (s.hold h).fnCmp fn = s.fnCmp fn := by
  unfold State.hold
  split
  · unfold State.fillShared
    split <;> rfl
  · rfl

theorem State.waitersOf_of_ring {s t : State} (h : t.ring = s.ring) (fn page : Nat) (pasid : Option Nat) :
    t.waitersOf fn pasid page = s.waitersOf fn pasid page := by
  rw [State.waitersOf, h, State.waitersOf]

/-- A completion with both rights is held for whoever asked, and no ring access fails for want of a right. -/
theorem State.atsAnswer_of_rights (s : State) {h : Held} (hr : h.r = true) (hw : h.w = true) (u : Option Nat × Nat) :
    s.atsAnswer h u = s.hold { h with win := u.1, port := u.2 } := by
  obtain ⟨_ | w, port⟩ := u <;> simp [State.atsAnswer, Held.allows, hr, hw]

theorem exec_atsTranslationCompletion_of_window {s : State} {fn page flags w port : Nat} {pasid : Option Nat} {q : AtsReq}
    (hfind : s.ats.reqs.find? (fun q => q.sent && q.fn == fn && q.pasid == pasid && q.page == page) = some q)
    (hfresh : q.stale = false) (husers : q.users = [(some w, port)]) (hnone : s.waitersOf fn pasid page = [])
    (hr : bit flags 0 = true) (hw : bit flags 1 = true) (size out : Nat) :
    exec (.atsTranslationCompletion fn pasid page size out flags) s =
      .next ((State.hold { s with ats := { s.ats with reqs := s.ats.reqs.erase q } }
        (.granted fn page size out flags w port pasid)).trimPort port ((s.fnCmp fn).getD 0)).atsPump := by
  have hwaiters (t : State) (h : Held) (hring : t.ring = s.ring) : (t.hold h).waitersOf fn pasid page = [] :=
    (State.waitersOf_of_ring ((t.hold_ring h).trans hring) fn page pasid).trans hnone
  change execAtsTranslationCompletion fn pasid page size out flags s = _
  simp only [execAtsTranslationCompletion, hfind, hfresh, Bool.false_eq_true, if_false, husers, List.foldl_cons, List.foldl_nil, hr, hw,
    State.atsAnswer_of_rights, hwaiters, State.hold_fnCmp]
  rfl

theorem exec_atsTranslationCompletion_of_stale {s : State} {fn page : Nat} {pasid : Option Nat} {q : AtsReq}
    (hfind : s.ats.reqs.find? (fun q => q.sent && q.fn == fn && q.pasid == pasid && q.page == page) = some q)
    (hstale : q.stale = true) (size out flags : Nat) :
    exec (.atsTranslationCompletion fn pasid page size out flags) s = .next ((s.bump .TRN_ATS_STALE (portOf fn) 1).atsIssue q) := by
  change execAtsTranslationCompletion fn pasid page size out flags s = _
  simp only [execAtsTranslationCompletion, hfind, hstale, if_true]

/-! ### Page request responses (R219, R220) -/

theorem exec_prgResponse_of_unknown {s : State} {fn idx : Nat} {pasid : Option Nat}
    (hfind : s.ats.groups.find? (fun g => g.fn == fn && g.idx == idx && g.pasid == pasid) = none) (code : Nat) :
    exec (.prgResponse fn idx pasid code) s = .next (s.bump .TRN_PRG_UNEXPECTED (portOf fn) 1) := by
  change execPrgResponse fn idx pasid code s = _
  simp only [execPrgResponse, hfind]

theorem exec_prgResponse_success_of_waiters {s : State} {fn idx : Nat} {pasid : Option Nat} {g : PrgGroup}
    (hfind : s.ats.groups.find? (fun g => g.fn == fn && g.idx == idx && g.pasid == pasid) = some g) (hlive : g.live = true)
    (hwaiters : s.groupWaiters g ≠ []) :
    exec (.prgResponse fn idx pasid 0) s = .next ((g.pages.foldl (fun (t : State) p => t.atsRequest fn pasid none movePort p)
      { s with ats := { s.ats with groups := s.ats.groups.erase g } }).prgGo fn) := by
  have hwaiters' : (s.groupWaiters g).isEmpty = false := List.isEmpty_eq_false_iff.2 hwaiters
  change execPrgResponse fn idx pasid 0 s = _
  simp only [execPrgResponse, hfind, hlive, if_true, hwaiters', Bool.false_eq_true, if_false, PrgCode.of]

/-! ### Invalidate requests (R223 to R226) -/

/-- Mapping every listed entry maps what is read, where the default is kept. -/
theorem Tab.get_mapVals {α : Type} (t : Tab α) (d : α) (f : Nat → α → α) (i : Nat) (hd : f i d = d) :
    (t.mapVals f).get d i = f i (t.get d i) := by
  induction t with
  | nil => exact hd.symm
  | cons e t ih =>
    obtain ⟨k, a⟩ := e
    by_cases hk : k = i
    · subst hk
      simp [Tab.mapVals, Tab.get, Tab.find]
    · simpa [Tab.mapVals, Tab.get, Tab.find, hk] using ih

/-- No cached translation that `p` selects stays in the shared cache. -/
theorem State.dropHeld_shared {s : State} {p : Held → Bool} {x : Trans} (hx : x ∈ (s.dropHeld p).xl.shared) {h : Held}
    (hheld : x.held = some h) : p h = false := by
  have hkept := List.of_mem_filter hx
  simpa [hheld] using hkept

/-- No cached translation that `p` selects stays at a client port. -/
theorem State.dropHeld_port {s : State} {p : Held → Bool} {port : Nat} {x : Trans} (hx : x ∈ (s.dropHeld p).xl.port.get [] port)
    {h : Held} (hheld : x.held = some h) : p h = false := by
  rw [State.dropHeld, Tab.get_mapVals] at hx
  · have hkept := List.of_mem_filter hx
    simpa [hheld] using hkept
  · rfl

/-- A request that finds room among the 32 is processed as it arrives. -/
theorem exec_atsInvalidateRequest_of_room {s : State} {fn : Nat} (hroom : (s.ats.invQ.get [] fn).length < 32) (itag base size : Nat)
    (pasid : Option Nat) (global : Bool) :
    let q : InvReq := ⟨itag, pasid, global, base, size, false, false, []⟩
    let t := (s.bump .TRN_INV_RECEIVED (portOf fn) 1).atsInvalidate fn q
    exec (.atsInvalidateRequest fn itag pasid global base size) s = .next { t with ats := { t.ats with
      invQ := Tab.set s.ats.invQ [] fn (s.ats.invQ.get [] fn ++ [{ q with tags := s.readsUsing fn q }]) } } := by
  have hwide : decide (32 ≤ (s.ats.invQ.get [] fn).length) = false := decide_eq_false (Nat.not_le.2 hroom)
  change execAtsInvalidateRequest fn itag pasid global base size s = _
  simp only [execAtsInvalidateRequest, hwide, Bool.false_eq_true, if_false]
  rfl

/-- A request that arrives with 32 held is counted as an overflow and reported. -/
def State.invOverflow (s : State) (fn : Nat) : State :=
  ((s.bump .TRN_INV_RECEIVED (portOf fn) 1).bump .TRN_INV_OVERFLOW (portOf fn) 1).post (devInc 0x0604 .degraded (portOf fn) fn [])

theorem State.invOverflow_reported (s : State) (fn : Nat) :
    s.reported (.TRN_INV_RECEIVED :: .TRN_INV_OVERFLOW :: .STAT_F_LIVE :: postFlds) (s.invOverflow fn) :=
  ((s.bump_reported _ _ _ (by decide) (by decide)).trans (State.bump_reported _ _ _ _ (by decide) (by decide))).trans
    ((State.post_reported _ _).mono (by decide))

/-- Behind 32 held, a request waits for their space: it will remove every translation of the function, but removes none yet (R224). -/
theorem exec_atsInvalidateRequest_of_full {s : State} {fn : Nat} (hfull : 32 ≤ (s.ats.invQ.get [] fn).length) (itag base size : Nat)
    (pasid : Option Nat) (global : Bool) :
    exec (.atsInvalidateRequest fn itag pasid global base size) s = .next { s.invOverflow fn with ats := { (s.invOverflow fn).ats with
      invQ := Tab.set (s.invOverflow fn).ats.invQ [] fn (s.ats.invQ.get [] fn ++ [⟨itag, pasid, global, base, size, true, true, []⟩]) } } := by
  have hwide : decide (32 ≤ (s.ats.invQ.get [] fn).length) = true := decide_eq_true hfull
  change execAtsInvalidateRequest fn itag pasid global base size s = _
  simp only [execAtsInvalidateRequest, hwide, if_true]
  rfl

/-- The oldest request is answered once its reads are settled; none waits for its space. -/
theorem exec_atsInvalidateCompletion_of_settled {s : State} {fn : Nat} {q : InvReq} {rest : List InvReq}
    (hhead : s.ats.invQ.get [] fn = q :: rest) (hreads : ∀ x ∈ q.tags, ∀ r ∈ s.ats.reads, r.tag ≠ x)
    (hlate : ∀ x ∈ rest, x.late = false) :
    exec (.atsInvalidateCompletion fn) s =
      .next (State.emit { s with ats := { s.ats with invQ := Tab.set s.ats.invQ [] fn rest } } .host [portOf fn, 3, fn, q.itag]) := by
  have hsettled : q.tags.any (fun t => s.ats.reads.any (fun r => r.tag == t)) = false := by
    simpa using hreads
  have hfind : rest.find? (fun r => r.late) = none := by simpa using hlate
  change execAtsInvalidateCompletion fn s = _
  simp only [execAtsInvalidateCompletion, hhead, hsettled, hfind, Bool.false_eq_true, if_false]

/-! ### Host reads (R504) -/

/-- A read belongs to its operation as long as that has not ended. -/
theorem State.readOwner_of_found {s : State} {r : HostRead} {id : Nat} {o : Op} (hop : r.op = some id)
    (hlive : s.ring.ended.contains id = false) (hfind : s.findOp id = some o) : s.readOwner r = (some o, s) := by
  simp only [State.readOwner, hop, hlive, Bool.false_eq_true, if_false, hfind]

section
variable {s : State} {tag id : Nat} {r : HostRead} {o : Op}

theorem exec_hostReadCompletion_ok_of_found (hread : s.ats.reads.find? (fun r => r.tag == tag) = some r) (hop : r.op = some id)
    (hlive : s.ring.ended.contains id = false) (hfind : s.findOp id = some o) (data : List Nat) :
    let bs := (List.range r.len).map (fun i => word data i % 256)
    exec (.hostReadCompletion tag data .ok) s = .next (((State.hostBytes { s with ats := { s.ats with reads := s.ats.reads.erase r } }
      r.addr bs).setOp (o.keep (o.got ++ bs.map (fun b => BitVec.ofNat 8 b)))).resumeOp o.id) := by
  have howner : ({ s with ats := { s.ats with reads := s.ats.reads.erase r } } : State).readOwner r = (some o, _) :=
    State.readOwner_of_found hop hlive hfind
  change execHostReadCompletion tag data .ok s = _
  simp only [execHostReadCompletion, hread, howner]

theorem exec_hostCompletionTimeout_of_found (hread : s.ats.reads.find? (fun r => r.tag == tag) = some r) (hop : r.op = some id)
    (hlive : s.ring.ended.contains id = false) (hfind : s.findOp id = some o) :
    exec (.hostCompletionTimeout tag) s =
      .next ((State.hostPoisonInc { s with ats := { s.ats with reads := s.ats.reads.erase r } } r 1).poisonOp o) := by
  have howner : ({ s with ats := { s.ats with reads := s.ats.reads.erase r } } : State).readOwner r = (some o, _) :=
    State.readOwner_of_found hop hlive hfind
  change execHostCompletionTimeout tag s = _
  simp only [execHostCompletionTimeout, hread, howner]

end

/-! ### Configuration writes (R210, R219, R528) -/

/-- The items that are stored and ask nothing else of the block, once a start has ended; VF Enable stays 0 in fawn mode. -/
theorem exec_configurationWrite_of_ready {s : State} (hready : s.retryStatus = false) (fn value : Nat) :
    exec (.configurationWrite fn 2 value) s = .next (s.setCfg fn .pasid (value % 2)) ∧
      exec (.configurationWrite fn 3 value) s = .next ((s.setCfg fn .pageAlloc (value % 2 ^ 32)).prgGo fn) ∧
      exec (.configurationWrite fn 5 value) s =
        .next (if isMgr fn && s.rd .BOOT_FAWN 0 == 0 then s.setCfg fn .vfEnable (value % 2) else s) ∧
      exec (.configurationWrite fn 6 value) s = .next (if isMgr fn then s.setCfg fn .numVfs (min value 63) else s) := by
  have hstart (item : Nat) : exec (.configurationWrite fn item value) s = execConfigurationWrite fn item value s := rfl
  simp only [hstart, execConfigurationWrite, hready, Bool.false_eq_true, if_false, and_self]

/-! ### The statement -/

/-- Settles O28: each answer of the host with its next state; what an invalidate request removes is what `State.dropHeld` drops. -/
theorem hostAnswersReachTheirRequests : Obligations.HostAnswersReachTheirRequests := by
  refine ⟨?_, ?_, ?_, ?_, ?_, ?_, ?_, ?_, ?_, ?_⟩
  · rintro s fn page size out flags w port pasid q hfind ⟨hfresh, husers, hnone⟩ ⟨hr, hw⟩
    exact exec_atsTranslationCompletion_of_window hfind hfresh husers hnone hr hw size out
  · intro s fn page size out flags pasid q hfind hstale
    exact exec_atsTranslationCompletion_of_stale hfind hstale size out flags
  · intro s fn idx code pasid hfind
    exact exec_prgResponse_of_unknown hfind code
  · rintro s fn idx pasid g hfind ⟨hlive, hwaiters⟩
    exact exec_prgResponse_success_of_waiters hfind hlive hwaiters
  · intro s fn itag base size pasid global hroom q
    have hcounted : s.reported [.TRN_INV_RECEIVED, .STAT_F_LIVE] (s.bump .TRN_INV_RECEIVED (portOf fn) 1) :=
      s.bump_reported _ _ _ (by decide) (by decide)
    refine ⟨_, exec_atsInvalidateRequest_of_room hroom itag base size pasid global, rfl, rfl, fun x hx h hheld => ?_,
      fun p x hx h hheld => ?_, rfl, hcounted.2.of_reg rfl, rfl⟩
    · exact State.dropHeld_shared hx hheld
    · exact State.dropHeld_port hx hheld
  · intro s fn q rest hhead hreads hlate
    exact exec_atsInvalidateCompletion_of_settled hhead hreads hlate
  · rintro s tag data r o id hread ⟨hop, hlive, hfind⟩
    exact exec_hostReadCompletion_ok_of_found hread hop hlive hfind data
  · rintro s tag r o id hread ⟨hop, hlive, hfind⟩
    exact exec_hostCompletionTimeout_of_found hread hop hlive hfind
  · intro s fn value hready
    obtain ⟨hpasid, halloc, hvf, hnum⟩ := exec_configurationWrite_of_ready hready fn value
    refine ⟨hpasid, halloc, fun hmgr => ?_, fun hmgr hfawn => ?_, fun hmgr hfawn => ?_⟩
    · simp [hnum, hmgr]
    · simp [hvf, hfawn]
    · simp [hvf, hmgr, hfawn]
  · intro s fn itag base size pasid global hfull
    have hreported := s.invOverflow_reported fn
    refine ⟨_, exec_atsInvalidateRequest_of_full hfull itag base size pasid global, ?_, hreported.xl⟩
    rw [hreported.ats]

end Sys2Proof.Machine
end

section
/-! SUPPORT. Proof of the statement on walks, the translation caches, manager invalidation and range table loads (chapter 9). -/
namespace Sys2Proof.Machine

open Sys2Proof

/-! ### Counters leave the caches (R260) -/

/-- A counter moves field values alone. -/
theorem State.bump_eq (s : State) (f : Fld) (i n : Nat) :
    s.bump f i n = { s with reg := { s.reg with vals := (s.bump f i n).reg.vals } } := by
  unfold State.bump
  dsimp only
  split <;> rfl

@[simp] theorem State.bump_xl (s : State) (f : Fld) (i n : Nat) : (s.bump f i n).xl = s.xl := by rw [State.bump_eq]

@[simp] theorem State.bump_long (s : State) (f : Fld) (i n : Nat) : (s.bump f i n).long = s.long := by rw [State.bump_eq]

/-! ### A request at its port (R246, R255 to R258) -/

section
variable {s : State}

theorem State.rightCheck_isOk (s : State) (t : Trans) (va : Nat) (need : Need) : (s.rightCheck t va need).isOk = t.allows need := by
  cases h : t.allows need <;> simp [State.rightCheck, h, Except.isOk, Except.toBool]

theorem State.useTrans_of_allows {t : Trans} {r : WalkReq} (h : t.allows (needOf r.access) = true) (c : Nat) (indic : Bool) :
    s.useTrans c indic t r = s := by
  simp [State.useTrans, State.rightCheck, h]

theorem State.walkLookup_of_shared {c : Nat} {r : WalkReq} {t : Trans} (hport : s.walkHit r.port c r.va false = none)
    (hshared : s.sharedHit c r.va = some t) (hright : t.allows (needOf r.access) = true) :
    s.walkLookup c false r = (true, (s.bump .TRN_ST_PORT_MISS c 1).fillPort r.port t) := by
  have hmissed : (s.bump .TRN_ST_PORT_MISS c 1).sharedHit c r.va = some t := by simpa [State.sharedHit] using hshared
  simp [State.walkLookup, State.walkMiss, hport, hmissed, State.useTrans_of_allows hright]

theorem State.walkLookup_of_missed {c : Nat} {r : WalkReq} (hport : s.walkHit r.port c r.va false = none)
    (hshared : s.sharedHit c r.va = none) : s.walkLookup c false r = (false, s.bump .TRN_ST_PORT_MISS c 1) := by
  have hmissed : (s.bump .TRN_ST_PORT_MISS c 1).sharedHit c r.va = none := by simpa [State.sharedHit] using hshared
  simp [State.walkLookup, State.walkMiss, hport, hmissed]

/-- The state in which a request has entered the walk queue of its compartment as a new walk (R256). -/
def State.enterWalk (s : State) (c : Nat) (indic : Bool) (r : WalkReq) : State :=
  { s with xl := { s.xl with
      walks := s.xl.walks ++ [⟨s.xl.serial, c, r.va, indic, r.access, [r], true, false, 0, 0, false⟩], serial := s.xl.serial + 1 } }

theorem State.enterWalk_walksQueued (s : State) (c : Nat) (indic : Bool) (r : WalkReq) :
    (s.enterWalk c indic r).walksQueued c = s.walksQueued c + 1 := by
  simp [State.enterWalk, State.walksQueued]

theorem State.walkQueue_of_room {c : Nat} {indic : Bool} {r : WalkReq} (hjoin : s.walkToJoin c r.va indic = none)
    (hroom : s.walksQueued c < 64) :
    s.walkQueue c indic r = (s.enterWalk c indic r).serveQueue c (s.walksQueued c + 1) := by
  rw [← s.enterWalk_walksQueued c indic r]
  simp only [State.walkQueue, hjoin, if_neg (Nat.not_le.2 hroom)]
  rfl

/-- A request of a client port that holds no earlier one of its compartment is looked up, and walks where nothing cached serves it. -/
theorem exec_walkStart_of_free {port cmp : Nat} (hcmp : cmp < 32) (hport : clientPort port = true)
    (hfree : ∀ x ∈ s.xl.waiting, ¬(x.cmp = cmp ∧ x.req.port = port)) (stream va : Nat) (indic : Bool) (access : Nat) :
    let r : WalkReq := ⟨port, stream, va, access⟩
    exec (.walkStart port cmp stream va indic access) s = .next (if (s.walkLookup cmp indic r).1 = true then (s.walkLookup cmp indic r).2
      else ((s.walkLookup cmp indic r).2.walkQueue cmp indic r).serveWalks) := by
  have hheld : s.xl.waiting.any (fun h => h.cmp == cmp && h.req.port == port) = false := by simpa using hfree
  change execWalkStart port cmp stream va indic access s = _
  simp [execWalkStart, Nat.not_le.2 hcmp, hport, hheld]

end

/-! ### A page table entry returns (R235, R255, R257) -/

section
variable {s : State} {w : Walk}

theorem exec_walkEntryReturn_of_table {b : Nat} (hfind : s.xl.walks.find? (fun x => x.id == w.id && !x.queued) = some w)
    (hrestart : w.restart = false) (hlevel : 0 < w.level) (hclean : s.poisoned w.entry 8 = false)
    (hentry : s.checkPte w.cmp w.va w.level (ofLE (s.accRead w.cmp w.entry 8)) = .table b) :
    exec (.walkEntryReturn w.id false) s =
      .next (s.setWalk { w with level := w.level - 1, entry := b + 8 * ptIndex w.va (w.level - 1) }) := by
  change execWalkEntryReturn w.id false s = _
  simp [execWalkEntryReturn, hfind, hrestart, hclean, hentry, Nat.ne_of_gt hlevel]

/-- A page table leaf is no range translation. -/
theorem State.checkPte_leaf_range {c va level e : Nat} {t : Trans} (h : s.checkPte c va level e = .leaf t) : t.range = none := by
  unfold State.checkPte at h
  extract_lets b addr contig size out reserved leaf at h
  repeat' split at h
  all_goals simp only [reduceCtorEq, PteCheck.leaf.injEq] at h
  exact h ▸ rfl

/-- A request with its right receives a page leaf in its port cache. -/
theorem State.giveTrans_of_allows {t : Trans} {q : WalkReq} (hrange : t.range = none) (hright : t.allows (needOf q.access) = true)
    (u : State) (f : Flt) : u.giveTrans w t f q = u.fillPort q.port t := by
  simp [State.giveTrans, State.fillRange, State.reservedAt, hrange, hright]

theorem State.walkResult_of_allows {t : Trans} (hrange : t.range = none) (hrights : ∀ q ∈ w.reqs, t.allows (needOf q.access) = true)
    (u : State) (f : Flt) : u.walkResult w (.ok (t, f)) = w.reqs.foldl (fun u q => u.fillPort q.port t) (u.dropWalk w.id) :=
  List.foldl_ext _ _ _ fun v q hq => State.giveTrans_of_allows hrange (hrights q hq) v f

theorem exec_walkEntryReturn_of_leaf {t : Trans} (hfind : s.xl.walks.find? (fun x => x.id == w.id && !x.queued) = some w)
    (hrestart : w.restart = false) (hclean : s.poisoned w.entry 8 = false)
    (hentry : s.checkPte w.cmp w.va w.level (ofLE (s.accRead w.cmp w.entry 8)) = .leaf t)
    (hrights : ∀ q ∈ w.reqs, t.allows (needOf q.access) = true) :
    exec (.walkEntryReturn w.id false) s =
      .next (w.reqs.foldl (fun u q => u.fillPort q.port t) ((s.fillShared t).dropWalk w.id)).serveWalks := by
  change execWalkEntryReturn w.id false s = _
  simp [execWalkEntryReturn, hfind, hrestart, hclean, hentry, State.walkResult_of_allows (State.checkPte_leaf_range hentry) hrights]

end

/-! ### Invalidation (R263, R267) -/

/-- Nothing that `p` selects stays in a table of lists cleared of it. -/
theorem Tab.not_selected_of_mem_filtered {α : Type} {t : Tab (List α)} {p : α → Bool} {i : Nat} {x : α}
    (hx : x ∈ (t.mapVals (fun _ xs => xs.filter (fun y => !p y))).get [] i) : p x = false := by
  rw [Tab.get_mapVals _ _ _ _ rfl] at hx
  simpa using List.of_mem_filter hx

section
variable {s : State} {p : Trans → Bool} {q : Walk → Bool} {x : Trans}

/-- No cached translation that `p` selects stays at a client port. -/
theorem State.dropTrans_port {port : Nat} (hx : x ∈ (s.dropTrans p q).xl.port.get [] port) : p x = false :=
  Tab.not_selected_of_mem_filtered hx

/-- No translation that `p` selects stays in a pinned place. -/
theorem State.dropTrans_pinned {port : Nat} (hx : x ∈ (s.dropTrans p q).xl.pinned.get [] port) : p x = false :=
  Tab.not_selected_of_mem_filtered hx

/-- No translation that `p` selects stays in the shared cache. -/
theorem State.dropTrans_shared (hx : x ∈ (s.dropTrans p q).xl.shared) : p x = false := by
  simpa using List.of_mem_filter hx

end

/-- The walked translations of a compartment: what an order for its whole address space removes. -/
def Trans.walkedOf (c : Nat) (t : Trans) : Bool := t.host.isNone && t.cmp == c && t.overlaps 0 (2 ^ 57)

theorem Trans.overlaps_of_not_walkedOf {c : Nat} {t : Trans} (h : t.walkedOf c = false) (hhost : t.host = none) (hcmp : t.cmp = c) :
    t.overlaps 0 (2 ^ 57) = false := by
  simpa [Trans.walkedOf, hhost, hcmp] using h

/-- An invalidation changes the caches and their walks, and is counted. -/
theorem State.invalidate_eq (s : State) (c va n : Nat) : s.invalidate c va n =
    { s with reg := { s.reg with vals := (s.invalidate c va n).reg.vals }, xl := (s.invalidate c va n).xl } := by
  unfold State.invalidate
  rw [State.bump_xl]
  exact State.bump_eq ..

theorem State.invalidate_keepsBut (s : State) (c va n : Nat) : s.keepsBut (s.invalidate c va n) [.TRN_ST_INV, .STAT_F_LIVE] :=
  (State.bump_reported _ .TRN_ST_INV c 1 (by decide) (by decide)).2

/-- The state that a manager's order leaves: its compartment is named, the engine is busy, and the translations are removed (R267). -/
def State.mgrInvalidated (s : State) (cmp : Nat) : State :=
  ((s.wr .TRN_MGR_INV_CMP 0 cmp).wr .TRN_MGR_INV_BUSY 0 1).invalidate cmp 0 0

theorem exec_managerInvalidation_of_open {s : State} {cmp : Nat} (hopen : s.closed s.primaryFn 0x500800 = false) (hcmp : cmp < 32) :
    exec (.managerInvalidation s.primaryFn cmp) s = .next (s.mgrInvalidated cmp) := by
  change execManagerInvalidation s.primaryFn cmp s = _
  simp [execManagerInvalidation, hopen, Nat.mod_eq_of_lt hcmp, State.mgrInvalidated]

theorem State.mgrInvalidated_busy (s : State) (cmp : Nat) : (s.mgrInvalidated cmp).rd .TRN_MGR_INV_BUSY 0 = 1 :=
  (State.invalidate_keepsBut _ cmp 0 0 .TRN_MGR_INV_BUSY (by decide) 0).trans (State.rd_wr_same ..)

theorem State.mgrInvalidated_cmp (s : State) {cmp : Nat} (hcmp : cmp < 32) : (s.mgrInvalidated cmp).rd .TRN_MGR_INV_CMP 0 = cmp := by
  have hkept := State.invalidate_keepsBut ((s.wr .TRN_MGR_INV_CMP 0 cmp).wr .TRN_MGR_INV_BUSY 0 1) cmp 0 0 .TRN_MGR_INV_CMP (by decide) 0
  rw [State.mgrInvalidated, hkept, State.rd_wr_ne _ _ _ _ _ _ (by decide), State.rd_wr_same]
  exact Nat.mod_eq_of_lt hcmp

theorem State.mgrInvalidated_keepsBut (s : State) (cmp : Nat) :
    s.keepsBut (s.mgrInvalidated cmp) [.TRN_MGR_INV_BUSY, .TRN_MGR_INV_CMP, .TRN_ST_INV, .STAT_F_LIVE] :=
  State.keepsBut.trans
    (State.keepsBut_wr .TRN_MGR_INV_BUSY 0 1 (by decide) (s.keepsBut_wr .TRN_MGR_INV_CMP 0 cmp (by decide) (s.keepsBut_refl _)))
    ((State.invalidate_keepsBut _ cmp 0 0).mono (by decide))

theorem State.mgrInvalidated_eq (s : State) (cmp : Nat) : s.mgrInvalidated cmp =
    { s with reg := { s.reg with vals := (s.mgrInvalidated cmp).reg.vals }, xl := (s.mgrInvalidated cmp).xl } :=
  State.invalidate_eq ..

/-- The order is for the whole address space: it removes every walked translation of its compartment. -/
theorem State.mgrInvalidated_xl (s : State) (cmp : Nat) : (s.mgrInvalidated cmp).xl =
    (s.dropTrans (Trans.walkedOf cmp) (fun w => w.cmp == cmp && w.overlaps 0 (2 ^ 57))).xl :=
  State.bump_xl ..

/-! ### The accesses of an engine leave the long operations -/

@[simp] theorem State.fillShared_long (s : State) (t : Trans) : (s.fillShared t).long = s.long := by
  unfold State.fillShared
  split <;> rfl

@[simp] theorem State.fillPort_long (s : State) (port : Nat) (t : Trans) : (s.fillPort port t).long = s.long := rfl

@[simp] theorem State.fillRange_long (s : State) (port : Nat) (t : Trans) : (s.fillRange port t).long = s.long := by
  unfold State.fillRange
  split <;> rfl

@[simp] theorem State.portUse_long (s : State) (port : Nat) (t : Trans) : (s.portUse port t).long = s.long := by
  unfold State.portUse
  split <;> rfl

@[simp] theorem State.walkNow_long (s : State) (port c va : Nat) (indic : Bool) (need : Need) :
    (s.walkNow port c va indic need).2.long = s.long := by
  unfold State.walkNow
  dsimp only
  (repeat' split) <;> simp

@[simp] theorem State.translate_long (s : State) (port c va : Nat) (indic : Bool) (need : Need) :
    (s.translate port c va indic need).2.2.long = s.long := by
  unfold State.translate
  dsimp only
  (repeat' split) <;> simp

@[simp] theorem State.mapSpan_long (s : State) (port c : Nat) (indic : Bool) (need : Need) (fuel va n : Nat) :
    (s.mapSpan port c indic need fuel va n).2.2.2.long = s.long := by
  induction fuel generalizing s va n with
  | zero => rfl
  | succ fuel ih =>
    unfold State.mapSpan
    split
    · rfl
    · dsimp only
      split
      · simp
      · simp [ih]

@[simp] theorem State.setCset_long (s : State) (k : Nat) (ls : List CLine) : (s.setCset k ls).long = s.long := rfl

@[simp] theorem State.staleMiss_long (s : State) (c line : Nat) (but : Option Nat) : (s.staleMiss c line but).long = s.long := rfl

@[simp] theorem State.discard_long (s : State) (line : Nat) (u : Under) : (s.discard line u).long = s.long := rfl

@[simp] theorem State.evicted_long (s : State) (x : CLine) : (s.evicted x).long = s.long := by
  unfold State.evicted State.writeBack
  dsimp only
  (repeat' split) <;> simp

@[simp] theorem State.place_long (s : State) (c line : Nat) (dirty : Option Under) : (s.place c line dirty).2.long = s.long := by
  unfold State.place
  dsimp only
  (repeat' split) <;> simp

@[simp] theorem State.hitLine_long (s : State) (k : Nat) (x : CLine) (indic write : Bool) : (s.hitLine k x indic write).long = s.long := by
  unfold State.hitLine
  dsimp only
  (repeat' split) <;> simp

@[simp] theorem State.touchLine_long (s : State) (c : Nat) (indic nc write : Bool) (line : Nat) :
    (s.touchLine c indic nc write line).long = s.long := by
  unfold State.touchLine
  dsimp only
  (repeat' split) <;> simp

@[simp] theorem State.touchPieces_long (s : State) (c : Nat) (indic : Bool) (ps : List Piece) :
    (s.touchPieces c indic ps).long = s.long := by
  have hline (u : State) (nc : Bool) (a n : Nat) : (u.touch c indic nc false a n).long = u.long :=
    kept_fold_of State.long _ (fun v l => v.touchLine_long ..) _ u
  exact kept_fold_of State.long _ (fun u p => by split <;> simp [hline]) ps s

@[simp] theorem State.adminRead_long (s : State) (accOnly : Bool) (va n : Nat) : (s.adminRead accOnly va n).2.long = s.long := by
  unfold State.adminRead State.vread
  dsimp only
  (repeat' split) <;> simp

/-! ### Range table loads (R242 to R244) -/

@[simp] theorem State.readRanges_long (s : State) (ptr n k : Nat) : (s.readRanges ptr n k).2.long = s.long := by
  induction n generalizing s k with
  | zero => rfl
  | succ n ih =>
    unfold State.readRanges
    dsimp only
    split <;> simp [ih]

theorem State.length_readRanges_le (s : State) (ptr n k : Nat) : (s.readRanges ptr n k).1.length ≤ n := by
  induction n generalizing s k with
  | zero => exact Nat.le_refl 0
  | succ n ih =>
    unfold State.readRanges
    dsimp only
    split
    · exact Nat.succ_le_succ (ih ..)
    · exact Nat.zero_le _

theorem State.le_length_of_rangeFail {s : State} {c first count : Nat} {es : List (List Nat)} (h : s.rangeFail c first count es = none) :
    count ≤ es.length := by
  unfold State.rangeFail at h
  split at h
  · cases h
  · split at h
    · cases h
    · exact Nat.not_lt.1 ‹_›

/-- What a checked list entry leaves at its index: itself where it is valid, nothing where it is not. -/
def rangeKept (e : List Nat) : Option (List Nat) := if bit (word e 0) 0 then some e else none

/-- Write one checked list entry at its place behind the first index (R244). -/
def putRange (first : Nat) (t : Tab (List Nat)) (x : List Nat × Nat) : Tab (List Nat) :=
  if bit (word x.1 0) 0 then Tab.put t (first + x.2) x.1 else Tab.del t (first + x.2)

theorem putRange_find_same (first : Nat) (t : Tab (List Nat)) (e : List Nat) (n : Nat) :
    (putRange first t (e, n)).find (first + n) = rangeKept e := by
  unfold putRange rangeKept
  split
  · exact Tab.find_put_same ..
  · exact Tab.find_del_same ..

theorem putRange_find_ne {first j n : Nat} (h : first + n ≠ j) (t : Tab (List Nat)) (e : List Nat) :
    (putRange first t (e, n)).find j = t.find j := by
  unfold putRange
  split
  · exact Tab.find_put_ne _ _ _ _ h
  · exact Tab.find_del_ne _ _ _ h

/-- Indices outside those of the list keep their entries. -/
theorem foldl_putRange_find_outside {first j : Nat} (es : List (List Nat)) {k : Nat} (h : j < first + k ∨ first + k + es.length ≤ j)
    (t : Tab (List Nat)) : ((es.zipIdx k).foldl (putRange first) t).find j = t.find j := by
  induction es generalizing k t with
  | nil => rfl
  | cons e es ih =>
    rw [List.length_cons] at h
    rw [List.zipIdx_cons, List.foldl_cons, ih (by omega), putRange_find_ne (by omega)]

/-- Each index of the list holds what its entry leaves there: later entries lie at higher indices. -/
theorem foldl_putRange_find {first n : Nat} {es : List (List Nat)} (hn : n < es.length) (k : Nat) (t : Tab (List Nat)) :
    ((es.zipIdx k).foldl (putRange first) t).find (first + (k + n)) = rangeKept (es.getD n []) := by
  induction es generalizing n k t with
  | nil => cases hn
  | cons e es ih =>
    rw [List.zipIdx_cons, List.foldl_cons]
    cases n with
    | zero => exact (foldl_putRange_find_outside es (by omega) _).trans (putRange_find_same ..)
    | succ n =>
      have hrest := ih (Nat.lt_of_succ_lt_succ hn) (k + 1) (putRange first t (e, k))
      rwa [Nat.add_right_comm, Nat.add_assoc k] at hrest

theorem State.writeRanges_long (s : State) (c first : Nat) (es : List (List Nat)) : (s.writeRanges c first es).long = s.long := rfl

/-- What a load in slot `i` leaves of the state in which its list is read and checked: the list is written, and the work of `l` has ended
with OK (R244, R539). -/
def State.rangesLoaded (s : State) (c first : Nat) (es : List (List Nat)) (i : Nat) (l : LongOp) : State :=
  ((s.writeRanges c first es).setLong i l).setLong i { l with fin := some (0, 0) }

theorem State.rangesLoaded_find (s : State) (c : Nat) {first n : Nat} {es : List (List Nat)} (hn : n < es.length) (i : Nat) (l : LongOp) :
    (s.rangesLoaded c first es i l).xl.ranges.find (first + n) = rangeKept (es.getD n []) := by
  have hfound := foldl_putRange_find (first := first) hn 0 s.xl.ranges
  rwa [Nat.zero_add] at hfound

theorem State.rangesLoaded_find_outside (s : State) (c : Nat) {first j : Nat} {es : List (List Nat)}
    (hj : j < first ∨ first + es.length ≤ j) (i : Nat) (l : LongOp) :
    (s.rangesLoaded c first es i l).xl.ranges.find j = s.xl.ranges.find j :=
  foldl_putRange_find_outside es hj s.xl.ranges

theorem State.rangesLoaded_mem (s : State) (c first : Nat) (es : List (List Nat)) (i : Nat) (l : LongOp) :
    (s.rangesLoaded c first es i l).mem = s.mem := rfl

theorem State.rangesLoaded_fin (s : State) (c first : Nat) (es : List (List Nat)) (i : Nat) (l : LongOp) :
    ((s.rangesLoaded c first es i l).longAt i).map (·.fin) = some (some (0, 0)) :=
  congrArg (Option.map LongOp.fin) (State.setLong_at ..)

@[simp] theorem State.addOp_mem (s : State) (o : Op) : (s.addOp o).mem = s.mem := rfl

@[simp] theorem State.addOp_xl (s : State) (o : Op) : (s.addOp o).xl = s.xl := rfl

@[simp] theorem State.addOp_longAt (s : State) (o : Op) (i : Nat) : (s.addOp o).longAt i = s.longAt i := rfl

/-- The work of a load whose list is sound, is read and passes its checks, for an operation of descriptor `d`. -/
theorem rangeLoadWork_of_checked {o : Op} {d : List Nat} {s : State} {i : Nat} (hdesc : o.desc = d) (hfn : o.fn = s.primaryFn)
    (hfawn : s.rd .BOOT_FAWN 0 = 0) (hbusy : s.longBusy (dOpcode d) (adCmp d) = false) (hslot : s.claimSlot = some i)
    (hcount : 0 < bits (adArg0 d) 16 14) (hlast : bits (adArg0 d) 0 13 + bits (adArg0 d) 16 14 ≤ 8192) (halign : adPtr d % 64 = 0) :
    let r := (s.opensLong o 2 (adCmp d) (bits (adArg0 d) 16 14) i [] []).readRanges (adPtr d) (bits (adArg0 d) 16 14) 0
    r.2.rangeFail (adCmp d) (bits (adArg0 d) 0 13) (bits (adArg0 d) 16 14) r.1 = none →
    ∃ l, rangeLoadWork o s = ({ o with wait := .long i }, r.2.rangesLoaded (adCmp d) (bits (adArg0 d) 0 13) r.1 i l) := by
  subst hdesc
  intro r hpass
  obtain ⟨l, hopened, _⟩ := s.opensLong_longAt o 2 (adCmp o.desc) (bits (adArg0 o.desc) 16 14) i [] []
  have hlong : (r.2.writeRanges (adCmp o.desc) (bits (adArg0 o.desc) 0 13) r.1).longAt i = some l := by
    rwa [State.longAt, State.writeRanges_long, State.readRanges_long]
  have hsound : (decide (bits (adArg0 o.desc) 16 14 = 0) || decide (8192 < bits (adArg0 o.desc) 0 13 + bits (adArg0 o.desc) 16 14)
      || adPtr o.desc % 64 != 0) = false := by
    simp [Nat.ne_of_gt hcount, Nat.not_lt.2 hlast, halign]
  refine ⟨{ l with done := bits (adArg0 o.desc) 16 14 }, ?_⟩
  rw [rangeLoadWork, adminGate_open _ hfn hfawn]
  dsimp only [rlFirst, rlCount]
  rw [State.startLong_of_slot _ hbusy hslot]
  simp only [hsound, Bool.false_eq_true, if_false, hpass, hlong, State.finLong_of_longAt (State.setLong_at ..), r, State.rangesLoaded]

section
variable {s : State} {fn ring c i : Nat} {k : Cand}

/-- A load of the primary manager function that starts, finds its slot and passes its checks. -/
theorem exec_tableLoadRangeTable_of_checked (h : s.starts fn ring 0x64 c k) (hkind : adKind k.desc = 2) (hfn : fn = s.primaryFn)
    (hfawn : (s.begun fn ring c k).2.rd .BOOT_FAWN 0 = 0) (hbusy : (s.begun fn ring c k).2.longBusy 0x64 (adCmp k.desc) = false)
    (hslot : (s.begun fn ring c k).2.claimSlot = some i) (hcount : 0 < bits (adArg0 k.desc) 16 14)
    (hlast : bits (adArg0 k.desc) 0 13 + bits (adArg0 k.desc) 16 14 ≤ 8192) (halign : adPtr k.desc % 64 = 0) :
    let r := ((s.begun fn ring c k).2.opensLong (s.begun fn ring c k).1 2 (adCmp k.desc) (bits (adArg0 k.desc) 16 14) i [] []).readRanges
      (adPtr k.desc) (bits (adArg0 k.desc) 16 14) 0
    r.2.rangeFail (adCmp k.desc) (bits (adArg0 k.desc) 0 13) (bits (adArg0 k.desc) 16 14) r.1 = none →
    ∃ l, exec (.tableLoadRangeTable fn ring) s = .next ((r.2.rangesLoaded (adCmp k.desc) (bits (adArg0 k.desc) 0 13) r.1 i l).addOp
      { (s.begun fn ring c k).1 with wait := .long i }) := by
  intro r hpass
  have ⟨_, _, hcode, _⟩ := h
  obtain ⟨l, hwork⟩ := rangeLoadWork_of_checked (s.begun_desc fn ring c k) (by simpa using hfn) hfawn (hcode.symm ▸ hbusy) hslot hcount
    hlast halign hpass
  refine ⟨l, ?_⟩
  change Host.Outcome.next (s.startNext fn ring _ rangeLoadWork) = _
  rw [State.startNext_of_starts h _ _ (by simp [isLoad, opTableLoad, hcode, hkind]), hwork]

end

/-! ### The statement -/

/-- Settles O30: a request by what its lookup finds, an entry by what its check gives, an order by what it removes, and a load by the
entries it writes one after another. -/
theorem translationsAreWalkedAndLoaded : Obligations.TranslationsAreWalkedAndLoaded := by
  refine ⟨?_, ?_, ?_, ?_, ?_, ?_, ?_⟩
  · rintro s port cmp stream va access t ⟨hcmp, hport, hmiss, hshared⟩ ⟨hright, hfree⟩
    have hlookup := State.walkLookup_of_shared (r := ⟨port, stream, va, access⟩) hmiss hshared (s.rightCheck_isOk .. ▸ hright)
    rw [exec_walkStart_of_free hcmp hport hfree, hlookup, if_pos rfl]
  · rintro s port cmp stream va access ⟨hcmp, hport, hmiss, hshared⟩ ⟨hjoin, hroom, hfree⟩ u q
    have hlookup := State.walkLookup_of_missed (r := ⟨port, stream, va, access⟩) hmiss hshared
    have hxl : u.xl = s.xl := State.bump_xl ..
    have hqueued : u.walksQueued cmp = s.walksQueued cmp := by rw [State.walksQueued, hxl, State.walksQueued]
    have hentered : u.enterWalk cmp false ⟨port, stream, va, access⟩ = q := by simp only [State.enterWalk, hxl, q]
    rw [exec_walkStart_of_free hcmp hport hfree, hlookup, if_neg Bool.false_ne_true,
      State.walkQueue_of_room (by rwa [State.walkToJoin, hxl]) (hqueued.symm ▸ hroom), hqueued, hentered]
  · rintro s w b ⟨hfind, hrestart, hlevel⟩ ⟨hclean, hentry⟩
    exact exec_walkEntryReturn_of_table hfind hrestart hlevel hclean hentry
  · rintro s w t ⟨hfind, hrestart⟩ ⟨hclean, hentry⟩ hrights
    exact exec_walkEntryReturn_of_leaf hfind hrestart hclean hentry hrights
  · rintro s cmp ⟨hopen, hcmp⟩
    exact ⟨_, exec_managerInvalidation_of_open hopen hcmp, s.mgrInvalidated_busy cmp, s.mgrInvalidated_cmp hcmp,
      fun _ _ hx => Trans.overlaps_of_not_walkedOf (State.dropTrans_port (s.mgrInvalidated_xl cmp ▸ hx)),
      fun _ _ hx => Trans.overlaps_of_not_walkedOf (State.dropTrans_pinned (s.mgrInvalidated_xl cmp ▸ hx)),
      fun _ hx => Trans.overlaps_of_not_walkedOf (State.dropTrans_shared (s.mgrInvalidated_xl cmp ▸ hx)),
      s.mgrInvalidated_keepsBut cmp, s.mgrInvalidated_eq cmp⟩
  · exact fun s => rfl
  · rintro s fn ring c i k ⟨hstart, hkind, hfn, hfawn⟩ ⟨hbusy, hslot⟩ ⟨hcount, hlast, halign⟩ hpass r
    obtain ⟨l, hexec⟩ := exec_tableLoadRangeTable_of_checked hstart hkind hfn hfawn hbusy hslot hcount hlast halign hpass
    refine ⟨_, hexec, ?_, ?_⟩
    · exact Nat.le_antisymm (State.length_readRanges_le ..) (State.le_length_of_rangeFail hpass)
    · simp only [State.addOp_xl, State.addOp_longAt, State.addOp_mem]
      exact ⟨fun n hn => State.rangesLoaded_find _ _ hn _ _, fun j hj => State.rangesLoaded_find_outside _ _ hj _ _,
        State.rangesLoaded_fin .., State.rangesLoaded_mem ..⟩

end Sys2Proof.Machine
end

section
/-! SUPPORT. Proof of the statement on expansion links, enumeration and what expanders answer (chapter 14). -/
namespace Sys2Proof.Machine

open Sys2Proof

/-! ### Enumeration (R382) -/

theorem exec_enumerationStart_of_idle {s : State} (hopen : s.closed s.primaryFn 0x900800 = false) (hidle : s.enumBusy = false) :
    exec (.enumerationStart s.primaryFn) s = .next s.enumStart := by
  change execEnumerationStart s.primaryFn s = _
  simp [execEnumerationStart, hopen, hidle]

/-- The visit of a port ends with a reason code and a usable capacity. -/
def State.endVisit (s : State) (port reason gib : Nat) : State :=
  { s with exp := { s.exp with visited := Tab.put s.exp.visited port (reason, gib) } }

theorem State.endVisit_found (s : State) (port reason gib : Nat) : (s.endVisit port reason gib).exp.visited.find port = some (reason, gib) :=
  Tab.find_put_same ..

@[simp] theorem State.rd_endVisit (s : State) (port reason gib : Nat) (f : Fld) (i : Nat) : (s.endVisit port reason gib).rd f i = s.rd f i := rfl

section
variable {s : State} {port : Nat}

/-- A trained expander with capacity, on an up port without bound granules, can fail only for its missing IDE stream. -/
theorem State.enumReason_of_unbound (hup : s.rd .EXP_LINK_UP port = 1) (hunbound : s.portBound port = false) {gib : Nat} (hgib : 0 < gib)
    (serial : Nat) : s.enumReason port true true gib serial false true = if s.rd .EXP_IDE_REQUIRED 0 = 1 then 5 else 0 := by
  simp [enumReason, hup, hunbound, Nat.ne_of_gt hgib]

/-- Check 5 fails: the serial number is known, and the IDE stream is not looked at. -/
theorem exec_enumerationPortVisit_ideMissing (hnext : s.enumNext = some port) {gib serial : Nat}
    (hreason : s.enumReason port true true gib serial false true = 5) :
    exec (.enumerationPortVisit port true true gib serial false true) s =
      .next ((s.wr .EXP_SERIAL port serial).endVisit port 5 (min gib 512)) := by
  change execEnumerationPortVisit port true true gib serial false true s = _
  simp [execEnumerationPortVisit, hnext, hreason, usableGib, State.endVisit]

/-- Every check passes without an IDE stream. -/
theorem exec_enumerationPortVisit_passed (hnext : s.enumNext = some port) {gib serial : Nat}
    (hreason : s.enumReason port true true gib serial false true = 0) :
    exec (.enumerationPortVisit port true true gib serial false true) s =
      .next (((s.wr .EXP_SERIAL port serial).wr .EXP_IDE_UP port 0).endVisit port 0 (min gib 512)) := by
  change execEnumerationPortVisit port true true gib serial false true s = _
  simp [execEnumerationPortVisit, hnext, hreason, usableGib, State.endVisit, b2n]

/-! ### Links (R381, R391) -/

theorem State.portBound_of_cmp {s t : State} (h : t.cmp = s.cmp) (p : Nat) : t.portBound p = s.portBound p := by
  simp only [portBound, boundAt, taken, grants, h]

theorem exec_expansionLinkUp_of_unbound (hport : port < 8) (hdown : s.rd .EXP_LINK_UP port ≠ 1)
    (hungated : bit (s.rd .PWR_GATE_EXP 0) port = false) (hinactive : s.rd .EXP_STATE port ≠ 2) (hunbound : s.portBound port = false)
    (hidle : s.enumBusy = false) :
    exec (.expansionLinkUp port) s = .next (((s.wr .EXP_LINK_UP port 1).setPort port .ready).post (devInc 0x0A01 .notice port 0 [])) := by
  have hkept : (s.wr .EXP_LINK_UP port 1).portBound port = false := (State.portBound_of_cmp rfl port).trans hunbound
  have hbusy : ((s.wr .EXP_LINK_UP port 1).setPort port .ready).enumBusy = false := by
    simpa [State.enumBusy, State.setPort, State.rd_wr] using hidle
  change execExpansionLinkUp port s = _
  simp [execExpansionLinkUp, Nat.not_le.2 hport, hdown, hungated, State.rd_wr, hinactive, hkept, hbusy]

/-- A port whose link is lost: DOWN where granules are bound and EMPTY otherwise, and noted by an enumeration that runs. -/
def State.linkDropped (s : State) (p : Nat) : State :=
  { (((s.wr .EXP_LINK_UP p 0).wr .EXP_IDE_UP p 0).setPort p (if s.portBound p then .down else .empty)) with
    exp := if s.enumBusy then { s.exp with fell := addOnce s.exp.fell p } else s.exp }

theorem State.linkDropped_keepsBut (s : State) (p : Nat) : s.keepsBut (s.linkDropped p) [.EXP_LINK_UP, .EXP_IDE_UP, .EXP_STATE] :=
  have hlink := State.keepsBut_wr .EXP_IDE_UP p 0 (by decide) (State.keepsBut_wr .EXP_LINK_UP p 0 (by decide) (s.keepsBut_refl _))
  (State.keepsBut_wr .EXP_STATE p _ (by decide) hlink).of_reg rfl

theorem State.linkDropped_linkUp (s : State) (p : Nat) : (s.linkDropped p).rd .EXP_LINK_UP p = 0 := by
  change (((s.wr .EXP_LINK_UP p 0).wr .EXP_IDE_UP p 0).wr .EXP_STATE p _).rd .EXP_LINK_UP p = 0
  simp [State.rd_wr]

theorem State.linkDropped_state (s : State) (p : Nat) :
    (s.linkDropped p).rd .EXP_STATE p = if s.portBound p = true then 3 else 0 := by
  change (((s.wr .EXP_LINK_UP p 0).wr .EXP_IDE_UP p 0).wr .EXP_STATE p _).rd .EXP_STATE p = _
  rw [State.rd_wr_same]
  split <;> rfl

theorem State.expanderLost_reported (s : State) (p : Nat) : s.reported postFlds (s.expanderLost p) :=
  .ite (s.post_reported _) (s.post_reported _)

/-- The loss of a link is the lost port and, where it was ACTIVE, the report of its expander. -/
theorem State.expansionLoss_eq (s : State) (p : Nat) :
    s.expansionLoss p = if s.rd .EXP_STATE p = 2 then (s.linkDropped p).expanderLost p else s.linkDropped p := by
  have hbusy : ((s.wr .EXP_LINK_UP p 0).wr .EXP_IDE_UP p 0).enumBusy = s.enumBusy := by simp [State.enumBusy, State.rd_wr]
  unfold State.expansionLoss State.linkDropped
  simp only [hbusy]
  cases s.enumBusy <;> rfl

theorem State.expansionLoss_reported (s : State) (p : Nat) : (s.linkDropped p).reported postFlds (s.expansionLoss p) := by
  rw [State.expansionLoss_eq]
  exact .ite (State.expanderLost_reported ..) (.refl ..)

theorem exec_expansionLinkDown_of_up (hport : port < 8) (hup : s.rd .EXP_LINK_UP port ≠ 0) :
    exec (.expansionLinkDown port) s = .next (s.expansionLoss port) := by
  change execExpansionLinkDown port s = _
  simp [execExpansionLinkDown, Nat.not_le.2 hport, hup]

end

/-! ### Poison (R282, R390, R506) -/

theorem mem_addOnce (xs : List Nat) (x : Nat) : x ∈ addOnce xs x := by
  unfold addOnce
  split
  · exact List.contains_iff_mem.1 ‹_›
  · simp

/-- A line that is marked holds poison. -/
theorem State.linePoison_of_mem {s : State} {l : Nat} (h : l ∈ s.mem.poison) : s.linePoison l = true := by
  simp [State.linePoison, h]

/-- Poisoning a line marks it and enters it in a poison table; no byte changes. -/
theorem State.poisonLine_mem (s : State) (l : Nat) :
    ∃ tabs, (s.poisonLine l).mem = { s.mem with poison := addOnce s.mem.poison l, t2Poison := tabs } := by
  unfold State.poisonLine
  dsimp only
  split
  · exact ⟨_, rfl⟩
  · split
    · exact ⟨_, rfl⟩
    · split
      · exact ⟨_, rfl⟩
      · exact ⟨_, (State.post_reported ..).mem⟩

theorem State.uncorrectable_reported (s : State) (unit a : Nat) : s.reported postFlds (s.uncorrectable unit a) := by
  unfold State.uncorrectable
  split <;> exact s.post_reported _

/-- A poisoned read within the latency limit from an ACTIVE port is counted, poisons its line and is reported. -/
theorem exec_expanderResponse_of_poisoned {s : State} {addr latency : Nat} (hlo : t2Base ≤ addr) (hhi : addr < t2Base + t2Bytes)
    (hactive : s.rd .EXP_STATE (portOfLine (lineOf addr)) = 2) (hfast : latency ≤ s.rd .EXP_LAT_LIMIT 0) :
    exec (.expanderResponse addr false true latency) s = .next
      (((s.bump .EXP_RD_POISON (portOfLine (lineOf addr)) 1).poisonLine (lineOf addr)).uncorrectable (0x10 + portOfLine (lineOf addr)) addr) := by
  change execExpanderResponse addr false true latency s = _
  simp [execExpanderResponse, Nat.not_lt.2 hlo, Nat.not_le.2 hhi, hactive, Nat.not_lt.2 hfast]

/-- A counted, poisoned and reported read marks its line and changes memory only in its poison. -/
theorem State.poisonedRead_mem (s : State) (f : Fld) (i n l unit a : Nat) :
    ∃ tabs, (((s.bump f i n).poisonLine l).uncorrectable unit a).mem = { s.mem with poison := addOnce s.mem.poison l, t2Poison := tabs } := by
  obtain ⟨tabs, hmem⟩ := (s.bump f i n).poisonLine_mem l
  rw [State.mem_of_still (still_State_bump ..)] at hmem
  exact ⟨tabs, (State.uncorrectable_reported ..).mem.trans hmem⟩

/-! ### The statement -/

/-- Settles O55: a visit by the reason code it finds, a lost link by the port it leaves and the report that follows, a poisoned read by
what its mark changes. -/
theorem expansionPortsAreEnumerated : Obligations.ExpansionPortsAreEnumerated := by
  refine ⟨?_, ?_, ?_, ?_, ?_, ?_⟩
  · rintro s ⟨hopen, hidle⟩
    exact exec_enumerationStart_of_idle hopen hidle
  · rintro s port gib serial ⟨hnext, hup, hunbound⟩ ⟨hgib, hserial⟩
    have hreason := State.enumReason_of_unbound hup hunbound hgib serial
    have hknown : s.keepsBut (s.wr .EXP_SERIAL port serial) [.EXP_SERIAL, .EXP_IDE_UP] :=
      State.keepsBut_wr _ _ _ (by decide) (s.keepsBut_refl _)
    have hwidth : serial % 2 ^ Fld.EXP_SERIAL.spec.width = serial := Nat.mod_eq_of_lt hserial
    by_cases hide : s.rd .EXP_IDE_REQUIRED 0 = 1
    · rw [if_pos hide] at hreason ⊢
      refine ⟨_, exec_enumerationPortVisit_ideMissing hnext hreason, State.endVisit_found .., ?_, hknown.of_reg rfl, rfl⟩
      rw [State.rd_endVisit, State.rd_wr_same, hwidth]
    · rw [if_neg hide] at hreason ⊢
      refine ⟨_, exec_enumerationPortVisit_passed hnext hreason, State.endVisit_found .., ?_,
        (State.keepsBut_wr .EXP_IDE_UP port 0 (by decide) hknown).of_reg rfl, rfl⟩
      rw [State.rd_endVisit, State.rd_wr_ne _ _ _ _ _ _ (by simp), State.rd_wr_same, hwidth]
  · rintro s port ⟨hport, hdown, hungated⟩ ⟨hinactive, hunbound, hidle⟩
    exact exec_expansionLinkUp_of_unbound hport hdown hungated hinactive hunbound hidle
  · rintro s port ⟨hport, hup⟩
    have hlost := s.expansionLoss_reported port
    refine ⟨_, exec_expansionLinkDown_of_up hport hup, ?_, ?_, ?_, ?_⟩
    · rw [hlost.rd (by decide), State.linkDropped_linkUp]
    · rw [hlost.rd (by decide), State.linkDropped_state]
    · exact hlost.keeps (fun _ => List.mem_append_right _) ((s.linkDropped_keepsBut port).mono fun _ => List.mem_append_left _)
    · rw [hlost.exp]
      exact hlost.1
  · rintro s addr latency ⟨hlo, hhi, hactive⟩ hfast
    obtain ⟨tabs, hmem⟩ := s.poisonedRead_mem .EXP_RD_POISON (portOfLine (lineOf addr)) 1 (lineOf addr) (0x10 + portOfLine (lineOf addr)) addr
    refine ⟨_, exec_expanderResponse_of_poisoned hlo hhi hactive hfast, State.linePoison_of_mem ?_, ?_, ?_⟩ <;> rw [hmem]
    exact mem_addOnce _ _
  · intro s port record hport
    exact if_neg (Nat.not_le.2 hport)

end Sys2Proof.Machine
end

section
/-! SUPPORT. Proof of the statement on slot plans and routing tables (chapter 15). -/
namespace Sys2Proof.Machine

open Sys2Proof

/-! ### What lies beyond the accesses of an engine -/

/-- The state apart from what reads of an engine move: the fields, memory under victims of the cache, the translation caches and the
system cache stand as after reset. -/
def State.beyondReads (s : State) : State :=
  { s with reg := State.reset.reg, mem := State.reset.mem, xl := State.reset.xl, syc := State.reset.syc }

@[simp] theorem State.bump_beyondReads (s : State) (f : Fld) (i n : Nat) : (s.bump f i n).beyondReads = s.beyondReads := by
  rw [State.bump_eq]
  rfl

@[simp] theorem State.fillShared_beyondReads (s : State) (t : Trans) : (s.fillShared t).beyondReads = s.beyondReads := by
  unfold State.fillShared
  split <;> rfl

@[simp] theorem State.fillPort_beyondReads (s : State) (port : Nat) (t : Trans) : (s.fillPort port t).beyondReads = s.beyondReads := rfl

@[simp] theorem State.fillRange_beyondReads (s : State) (port : Nat) (t : Trans) : (s.fillRange port t).beyondReads = s.beyondReads := by
  unfold State.fillRange
  split <;> rfl

@[simp] theorem State.portUse_beyondReads (s : State) (port : Nat) (t : Trans) : (s.portUse port t).beyondReads = s.beyondReads := by
  unfold State.portUse
  split <;> rfl

@[simp] theorem State.walkNow_beyondReads (s : State) (port c va : Nat) (indic : Bool) (need : Need) :
    (s.walkNow port c va indic need).2.beyondReads = s.beyondReads := by
  unfold State.walkNow
  dsimp only
  (repeat' split) <;> simp

@[simp] theorem State.translate_beyondReads (s : State) (port c va : Nat) (indic : Bool) (need : Need) :
    (s.translate port c va indic need).2.2.beyondReads = s.beyondReads := by
  unfold State.translate
  dsimp only
  (repeat' split) <;> simp

@[simp] theorem State.mapSpan_beyondReads (s : State) (port c : Nat) (indic : Bool) (need : Need) (fuel va n : Nat) :
    (s.mapSpan port c indic need fuel va n).2.2.2.beyondReads = s.beyondReads := by
  induction fuel generalizing s va n with
  | zero => rfl
  | succ fuel ih =>
    unfold State.mapSpan
    split
    · rfl
    · dsimp only
      split
      · simp
      · simp [ih]

@[simp] theorem State.setCset_beyondReads (s : State) (k : Nat) (ls : List CLine) : (s.setCset k ls).beyondReads = s.beyondReads := rfl

@[simp] theorem State.staleMiss_beyondReads (s : State) (c line : Nat) (but : Option Nat) :
    (s.staleMiss c line but).beyondReads = s.beyondReads := rfl

@[simp] theorem State.discard_beyondReads (s : State) (line : Nat) (u : Under) : (s.discard line u).beyondReads = s.beyondReads := rfl

@[simp] theorem State.evicted_beyondReads (s : State) (x : CLine) : (s.evicted x).beyondReads = s.beyondReads := by
  unfold State.evicted State.writeBack
  dsimp only
  (repeat' split) <;> simp

@[simp] theorem State.place_beyondReads (s : State) (c line : Nat) (dirty : Option Under) :
    (s.place c line dirty).2.beyondReads = s.beyondReads := by
  unfold State.place
  dsimp only
  (repeat' split) <;> simp

@[simp] theorem State.hitLine_beyondReads (s : State) (k : Nat) (x : CLine) (indic write : Bool) :
    (s.hitLine k x indic write).beyondReads = s.beyondReads := by
  unfold State.hitLine
  dsimp only
  (repeat' split) <;> simp

@[simp] theorem State.touchLine_beyondReads (s : State) (c : Nat) (indic nc write : Bool) (line : Nat) :
    (s.touchLine c indic nc write line).beyondReads = s.beyondReads := by
  unfold State.touchLine
  dsimp only
  (repeat' split) <;> simp

@[simp] theorem State.touchPieces_beyondReads (s : State) (c : Nat) (indic : Bool) (ps : List Piece) :
    (s.touchPieces c indic ps).beyondReads = s.beyondReads := by
  have hline (u : State) (nc : Bool) (a n : Nat) : (u.touch c indic nc false a n).beyondReads = u.beyondReads :=
    kept_fold_of State.beyondReads _ (fun v l => v.touchLine_beyondReads ..) _ u
  exact kept_fold_of State.beyondReads _ (fun u p => by split <;> simp [hline]) ps s

@[simp] theorem State.adminRead_beyondReads (s : State) (accOnly : Bool) (va n : Nat) :
    (s.adminRead accOnly va n).2.beyondReads = s.beyondReads := by
  unfold State.adminRead State.vread
  dsimp only
  (repeat' split) <;> simp

@[simp] theorem State.adminRead_plk (s : State) (accOnly : Bool) (va n : Nat) : (s.adminRead accOnly va n).2.plk = s.plk := by
  have h := congrArg State.plk (s.adminRead_beyondReads accOnly va n)
  exact h

/-! ### Long operations of ADMIN descriptors (R531) -/

@[simp] theorem State.addOp_plk (s : State) (o : Op) : (s.addOp o).plk = s.plk := rfl

@[simp] theorem State.opensLong_plk (s : State) (o : Op) (tkind c total i : Nat) (words args : List Nat) :
    (s.opensLong o tkind c total i words args).plk = s.plk := rfl

/-- The work of an ADMIN descriptor of the primary manager function that is a long operation and finds its slot. -/
theorem adminLong_of_slot {o : Op} {s : State} {i tkind total : Nat} {cmp : Op → Nat} (work : Nat → Op → State → Op × State)
    (hfn : o.fn = s.primaryFn) (hfawn : s.rd .BOOT_FAWN 0 = 0) (hbusy : s.longBusy (dOpcode o.desc) (cmp o) = false)
    (hslot : s.claimSlot = some i) :
    adminGate o s (fun o s => s.startLong o tkind (cmp o) total [] [] work) =
      work i { o with wait := .long i } (s.opensLong o tkind (cmp o) total i [] []) := by
  rw [adminGate_open _ hfn hfawn, State.startLong_of_slot _ hbusy hslot]

/-- A record that is read leaves the long operation that opened for it. -/
theorem State.opensLong_adminRead_longAt (s : State) (o : Op) (tkind c total i : Nat) (accOnly : Bool) (va n : Nat) :
    ∃ l, ((s.opensLong o tkind c total i [] []).adminRead accOnly va n).2.longAt i = some l := by
  obtain ⟨l, hopened, _⟩ := s.opensLong_longAt o tkind c total i [] []
  exact ⟨l, by rwa [State.longAt, State.adminRead_long]⟩

/-! ### Slot plans (R411, R412) -/

/-- A plan record is STAGED for the link it names. -/
def State.stagePlan (s : State) (ws : List Nat) : State :=
  { s with plk := { s.plk with next := Tab.put s.plk.next (planLink ws) ws } }

@[simp] theorem State.stagePlan_next (s : State) (ws : List Nat) : (s.stagePlan ws).plk.next.find (planLink ws) = some ws :=
  Tab.find_put_same ..

@[simp] theorem State.stagePlan_plan (s : State) (ws : List Nat) : (s.stagePlan ws).plk.plan = s.plk.plan := rfl

theorem State.loadPlan_of_passed {s : State} {i : Nat} {l : LongOp} {ws : List Nat} (hpass : s.planCheck ws = (0, 0))
    (hat : s.longAt i = some l) : s.loadPlan i (some ws) = (s.stagePlan ws).setLong i { l with fin := some (0, 0) } := by
  have hstaged : (s.stagePlan ws).longAt i = some l := hat
  rw [← State.finLong_of_longAt hstaged]
  simp [State.loadPlan, hpass, State.stagePlan]

theorem State.tableRead_of_ok {s : State} {o : Op} {n : Nat} {bs : List Byte} (h : (s.adminRead true (adPtr o.desc) n).1 = .ok bs) :
    s.tableRead o n = (some (wordsOf (n / 8) bs), (s.adminRead true (adPtr o.desc) n).2) := by
  simp only [State.tableRead, h]

/-- The work of a load whose record is read and passes its checks, for an operation of descriptor `d`. -/
theorem slotPlanWork_of_passed {o : Op} {d : List Nat} {s : State} {i : Nat} {bs : List Byte} (hdesc : o.desc = d)
    (hfn : o.fn = s.primaryFn) (hfawn : s.rd .BOOT_FAWN 0 = 0) (hcmp : adCmp d = 0) (halign : adPtr d % 64 = 0)
    (hbusy : s.longBusy (dOpcode d) 0 = false) (hslot : s.claimSlot = some i)
    (hread : ((s.opensLong o 4 0 0 i [] []).adminRead true (adPtr d) 3136).1 = .ok bs)
    (hpass : ((s.opensLong o 4 0 0 i [] []).adminRead true (adPtr d) 3136).2.planCheck (wordsOf 392 bs) = (0, 0)) :
    ∃ l : LongOp, slotPlanWork o s = ({ o with wait := .long i },
      (((s.opensLong o 4 0 0 i [] []).adminRead true (adPtr d) 3136).2.stagePlan (wordsOf 392 bs)).setLong i { l with fin := some (0, 0) }) := by
  subst hdesc
  obtain ⟨l, hat⟩ := s.opensLong_adminRead_longAt o 4 0 0 i true (adPtr o.desc) 3136
  have hsound : ¬(adCmp o.desc != 0 || adPtr o.desc % 64 != 0) = true := by simp [hcmp, halign]
  refine ⟨l, ?_⟩
  rw [slotPlanWork, adminLong_of_slot (cmp := fun o => adCmp o.desc) _ hfn hfawn (hcmp.symm ▸ hbusy) hslot]
  dsimp only
  rw [if_neg hsound, hcmp, State.tableRead_of_ok (o := { o with wait := .long i }) hread, State.loadPlan_of_passed hpass hat]

/-! ### Routing tables (R417) -/

/-- A routing table takes effect for a compartment. -/
def State.setRoutes (s : State) (c : Nat) (ns : List Nat) : State :=
  { s with plk := { s.plk with routes := Tab.put s.plk.routes c ns } }

@[simp] theorem State.setRoutes_routes (s : State) (c : Nat) (ns : List Nat) : (s.setRoutes c ns).plk.routes.find c = some ns :=
  Tab.find_put_same ..

/-- The work of a load whose table is read and valid, for an operation of descriptor `d`. -/
theorem routingWork_of_valid {o : Op} {d : List Nat} {s : State} {i : Nat} {bs : List Byte} (hdesc : o.desc = d)
    (hfn : o.fn = s.primaryFn) (hfawn : s.rd .BOOT_FAWN 0 = 0) (halign : adPtr d % 64 = 0)
    (hbusy : s.longBusy (dOpcode d) (adCmp d) = false) (hslot : s.claimSlot = some i)
    (hread : ((s.opensLong o 3 (adCmp d) 0 i [] []).adminRead true (adPtr d) 256).1 = .ok bs)
    (hvalid : ((s.opensLong o 3 (adCmp d) 0 i [] []).adminRead true (adPtr d) 256).2.routesOk (adCmp d) (bs.map BitVec.toNat) = true) :
    ∃ l : LongOp, routingWork o s = ({ o with wait := .long i },
      (((s.opensLong o 3 (adCmp d) 0 i [] []).adminRead true (adPtr d) 256).2.setRoutes (adCmp d) (bs.map BitVec.toNat)).setLong i
        { l with fin := some (0, 0) }) := by
  subst hdesc
  obtain ⟨l, hat⟩ := s.opensLong_adminRead_longAt o 3 (adCmp o.desc) 0 i true (adPtr o.desc) 256
  have hset : (((s.opensLong o 3 (adCmp o.desc) 0 i [] []).adminRead true (adPtr o.desc) 256).2.setRoutes (adCmp o.desc)
      (bs.map BitVec.toNat)).longAt i = some l := hat
  refine ⟨l, ?_⟩
  rw [routingWork, adminLong_of_slot (cmp := fun o => adCmp o.desc) _ hfn hfawn hbusy hslot, ← State.finLong_of_longAt hset]
  simp only [halign, if_true, hread, hvalid, State.setRoutes]

/-! ### The statement -/

/-- Settles O36: a record that passes is put in its place behind the read, and the work of its long operation has ended. -/
theorem plansAndRoutesAreLoaded : Obligations.PlansAndRoutesAreLoaded := by
  refine ⟨?_, ?_⟩
  · rintro s fn ring c i k bs ⟨hstart, hkind, hfn, hfawn, hcmp, halign⟩ ⟨hbusy, hslot⟩ hread hpass
    have ⟨_, _, hcode, _⟩ := hstart
    obtain ⟨l, hwork⟩ := slotPlanWork_of_passed (s.begun_desc fn ring c k) (by simpa using hfn) hfawn hcmp halign (hcode.symm ▸ hbusy)
      hslot hread hpass
    refine ⟨_, congrArg Host.Outcome.next (State.startNext_of_starts hstart _ slotPlanWork (by simp [isLoad, opTableLoad, hcode, hkind])), ?_⟩
    rw [hwork]
    simp
  · rintro s fn ring c i k bs ⟨hstart, hkind, hfn, hfawn, halign⟩ ⟨hbusy, hslot⟩ hread hvalid
    have ⟨_, _, hcode, _⟩ := hstart
    obtain ⟨l, hwork⟩ := routingWork_of_valid (s.begun_desc fn ring c k) (by simpa using hfn) hfawn halign (hcode.symm ▸ hbusy) hslot
      hread hvalid
    refine ⟨_, congrArg Host.Outcome.next (State.startNext_of_starts hstart _ routingWork (by simp [isLoad, opTableLoad, hcode, hkind])), ?_⟩
    rw [hwork]
    simp

end Sys2Proof.Machine
end

section
/-! SUPPORT. Proof of the statement on roll calls (chapter 15). -/
namespace Sys2Proof.Machine

open Sys2Proof

/-! ### The start of a roll call (R424, R425) -/

/-- The fields that an answer to a roll call reads. -/
def answerFlds : List Fld := [.PLK_LINK_STATE, .PLK_NBR_SERIAL, .PLK_NBR_LINK, .PLK_LAST_DOWN, .PLK_LAST_UP]

/-- An answer is the same wherever those fields read the same. -/
theorem State.keepsBut.rollAnswer_eq {s t : State} {fs : List Fld} (h : s.keepsBut t fs) (hfs : ∀ f ∈ answerFlds, f ∉ fs) (since : Nat)
    (stop : Option Nat) : t.rollAnswer since stop = s.rollAnswer since stop := by
  have hread (f : Fld) (hf : f ∈ answerFlds) (l : Nat) : t.rd f l = s.rd f l := h f (hfs f hf) l
  refine List.map_congr_left fun l _ => ?_
  simp only [State.linkSeen, State.linkIs, hread _ (show .PLK_LINK_STATE ∈ answerFlds by decide),
    hread _ (show .PLK_NBR_SERIAL ∈ answerFlds by decide), hread _ (show .PLK_NBR_LINK ∈ answerFlds by decide),
    hread _ (show .PLK_LAST_DOWN ∈ answerFlds by decide), hread _ (show .PLK_LAST_UP ∈ answerFlds by decide)]

/-- The roll call marked busy from this beat (R424). -/
def State.rollBusy (s : State) : State := (s.wr .PLK_ROLL_BUSY 0 1).wr .PLK_ROLL_START 0 s.beat

theorem State.rollBusy_keepsBut (s : State) : s.keepsBut s.rollBusy [.PLK_ROLL_BUSY, .PLK_ROLL_START] :=
  State.keepsBut_wr _ _ _ (by decide) (State.keepsBut_wr _ _ _ (by decide) (s.keepsBut_refl _))

/-- A roll call in slot `i` that knows of this junction alone. -/
def State.rollSeed (s : State) (i limit : Nat) : Roll :=
  { slot := i, limit := limit, start := s.beat, stop := 0, ls := [], queue := [0], closing := false, cut := false,
    js := [⟨s.rd .HST_SERIAL 0, s.rd .PLK_JUNCTION_ID 0, 0, 0, true⟩] }

/-- A roll call that has taken the answer of this junction. -/
def State.rollOpened (s : State) (i limit : Nat) : Roll :=
  (s.rollSeed i limit).take 0 (s.rd .PLK_JUNCTION_ID 0) (s.rollAnswer s.beat none)

/-- The roll call under way becomes `r`. -/
def State.setRoll (s : State) (r : Roll) : State := { s with plk := { s.plk with roll := some r } }

/-- The work of a ROLL_CALL whose limit and buffer are right, for an operation of descriptor `d`. -/
theorem rollWork_of_right {o : Op} {d : List Nat} {s : State} {i : Nat} (hdesc : o.desc = d) (hfn : o.fn = s.primaryFn)
    (hfawn : s.rd .BOOT_FAWN 0 = 0) (hbusy : s.longBusy (dOpcode d) 0 = false) (hslot : s.claimSlot = some i)
    (hpos : 0 < bits (adArg0 d) 0 5) (hmax : bits (adArg0 d) 0 5 ≤ 16) (halign : adPtr d % 64 = 0) :
    let u := s.opensLong o 0 0 0 i [] []
    rollWork o s = ({ o with wait := .long i }, u.rollBusy.setRoll (u.rollOpened i (bits (adArg0 d) 0 5))) := by
  subst hdesc
  intro u
  have hright : ¬(bits (adArg0 o.desc) 0 5 = 0 || decide (16 < bits (adArg0 o.desc) 0 5) || adPtr o.desc % 64 != 0) = true := by
    simp [Nat.ne_of_gt hpos, hmax, halign]
  have hname : u.rollBusy.rd .PLK_JUNCTION_ID 0 = u.rd .PLK_JUNCTION_ID 0 := u.rollBusy_keepsBut _ (by decide) 0
  have hseen : u.rollBusy.rollAnswer u.beat none = u.rollAnswer u.beat none := u.rollBusy_keepsBut.rollAnswer_eq (by decide) _ _
  rw [rollWork, adminLong_of_slot (cmp := fun _ => 0) _ hfn hfawn hbusy hslot]
  dsimp only
  rw [if_neg hright, State.rollOpened, ← hname, ← hseen]
  rfl

/-- The first query goes out once the operation stands in its ring. -/
theorem exec_rollCall_of_right {s : State} {fn ring c i : Nat} {k : Cand} (h : s.starts fn ring 0x69 c k) (hfn : fn = s.primaryFn)
    (hfawn : (s.begun fn ring c k).2.rd .BOOT_FAWN 0 = 0) (hidle : s.plk.roll = none)
    (hbusy : (s.begun fn ring c k).2.longBusy 0x69 0 = false) (hslot : (s.begun fn ring c k).2.claimSlot = some i)
    (hpos : 0 < bits (adArg0 k.desc) 0 5) (hmax : bits (adArg0 k.desc) 0 5 ≤ 16) (halign : adPtr k.desc % 64 = 0) :
    let u := (s.begun fn ring c k).2.opensLong (s.begun fn ring c k).1 0 0 0 i [] []
    let r := u.rollOpened i (bits (adArg0 k.desc) 0 5)
    exec (.rollCall fn ring) s = .next (((u.rollBusy.setRoll r).addOp { (s.begun fn ring c k).1 with wait := .long i }).rollGo r) := by
  intro u r
  have ⟨_, _, hcode, _⟩ := h
  have hwork := rollWork_of_right (s.begun_desc fn ring c k) (by simpa using hfn) hfawn (hcode.symm ▸ hbusy) hslot hpos hmax halign
  change execRollCall fn ring s = _
  rw [execRollCall, State.startNext_of_starts h _ _ (by simp [hcode]), hwork, hidle]
  rfl

/-! ### Answers and their absence (R425) -/

/-- The walk goes on without the junction that is awaited. -/
def Roll.skip (r : Roll) (j : Nat) : Roll :=
  { r with queue := r.queue.drop 1, js := r.js.zipIdx.map (fun e => if e.2 == j then { e.1 with reached := false } else e.1) }

theorem Roll.skip_unreached (r : Roll) (j : Nat) : ((r.skip j).js[j]?).all (fun x => !x.reached) = true := by
  cases h : r.js[j]? <;> simp [Roll.skip, h]

/-- While a junction is awaited, the roll call under way is the one that goes on. -/
theorem State.rollGo_roll_of_awaited (s : State) {r : Roll} {j : Nat} (h : r.queue.head? = some j) : (s.rollGo r).plk.roll = some r := by
  obtain ⟨js, hqueue⟩ := List.head?_eq_some_iff.1 h
  simp only [State.rollGo, hqueue, State.emit_plk]

section
variable {s : State} {j : Nat} {r : Roll}

theorem exec_rollAnswerReceive_of_awaited (hroll : s.plk.roll = some r) (hawaited : r.queue.head? = some j) (jid : Nat)
    (xs : List LinkSeen) : exec (.rollAnswerReceive j jid xs) s = .next (s.rollGo (r.take j jid xs)) := by
  change execRollAnswerReceive j jid xs s = _
  simp only [execRollAnswerReceive, hroll, hawaited, if_true]

theorem exec_rollQueryTimeout_of_awaited (hroll : s.plk.roll = some r) (hawaited : r.queue.head? = some j) :
    exec (.rollQueryTimeout j) s = .next (s.rollGo (r.skip j)) := by
  change execRollQueryTimeout j s = _
  simp only [execRollQueryTimeout, hroll, hawaited, if_true, Roll.skip]

end

theorem State.length_rollAnswer (s : State) (since : Nat) (stop : Option Nat) : (s.rollAnswer since stop).length = 12 := by
  simp [State.rollAnswer]

theorem exec_rollQueryReceive_of_up {s : State} {l : Nat} (h : s.linkIs l .up = true) (since : Nat) (stop : Option Nat) :
    exec (.rollQueryReceive l since stop) s = .next (s.emit .control ([2, l, s.rd .PLK_JUNCTION_ID 0, s.rd .HST_SERIAL 0] ++
      (s.rollAnswer since stop).flatMap (fun x => [x.link, b2n x.up, x.serial, x.far, b2n x.down, b2n x.rose]))) := by
  change execRollQueryReceive l since stop s = _
  simp only [execRollQueryReceive, h, Bool.not_true, Bool.false_eq_true, if_false]

/-! ### The statement -/

/-- Settles O37: the start by the work of its descriptor, the rest by the junction that is awaited. -/
theorem rollCallsAreAnswered : Obligations.RollCallsAreAnswered := by
  refine ⟨?_, ?_, ?_⟩
  · rintro s fn ring c i k ⟨hstart, hfn, hfawn, hidle⟩ ⟨hbusy, hslot⟩ ⟨hpos, hmax, halign⟩
    exact exec_rollCall_of_right hstart hfn hfawn hidle hbusy hslot hpos hmax halign
  · exact fun s l since stop hup => ⟨exec_rollQueryReceive_of_up hup since stop, s.length_rollAnswer since stop⟩
  · rintro s j jid xs r ⟨hroll, hawaited⟩
    refine ⟨exec_rollAnswerReceive_of_awaited hroll hawaited jid xs, exec_rollQueryTimeout_of_awaited hroll hawaited, fun a ha => ?_⟩
    have hnext : (r.skip j).queue.head? = some a := by rwa [Roll.skip, List.drop_one]
    refine ⟨_, exec_rollQueryTimeout_of_awaited hroll hawaited, ?_⟩
    rw [State.rollGo_roll_of_awaited s hnext]
    exact r.skip_unreached j

end Sys2Proof.Machine
end

section
/-! SUPPORT. Proofs of the statements on every step: what a command reaches, the agreement of power, resets and host links, and that no
command stops the block. -/
namespace Sys2Proof.Machine

open Sys2Proof

/-! ### What a command reaches -/

/-- What a command that moves no pin does to the parts that few commands touch: it leaves what `State.kept` holds, and one that is listed as
storing nothing leaves the memories too. -/
def Reach (c : Instr) (s t : State) : Prop := t.kept = s.kept ∧ (c.storesNothing = true → t.mem = s.mem)

theorem Reach.of_still {c : Instr} {s t : State} (h : t.still = s.still) : Reach c s t := ⟨kept_of_still h, fun _ => State.mem_of_still h⟩

theorem Reach.of_kept {c : Instr} {s t : State} (hc : c.storesNothing = false) (h : t.kept = s.kept) : Reach c s t :=
  ⟨h, fun hs => absurd hs (by simp [hc])⟩

theorem exec_reach {c : Instr} {s t : State} (hc : c.movesPins = false) (h : exec c s = .next t) : Reach c s t := by
  cases c with
  | warmReset | coldReset | sysRstNRelease | pwrgoodFall | powerLoss | powerOn | perstDeassert | hostLinkReset | bootPhaseDone => cases hc
  | registerWrite => exact .of_kept rfl (keep_execRegisterWrite (h := h) ..)
  | unsupportedRegisterAccess => exact .of_still (still_execUnsupportedRegisterAccess (h := h) ..)
  | registerPairLowRead => exact .of_still (still_execRegisterPairLowRead (h := h) ..)
  | registerPairHighRead => exact .of_still (still_execRegisterPairHighRead (h := h) ..)
  | registerPairLowWrite => exact .of_still (still_execRegisterPairLowWrite (h := h) ..)
  | registerPairHighWrite => exact .of_kept rfl (keep_execRegisterPairHighWrite (h := h) ..)
  | readToClear => exact .of_still (still_execReadToClear (h := h) ..)
  | assign => exact .of_kept rfl (keep_execAssign (h := h) ..)
  | quiesce => exact .of_still (still_execQuiesce (h := h) ..)
  | quiesceDrainComplete => exact .of_still (still_execQuiesceDrainComplete (h := h) ..)
  | reopen => exact .of_still (still_execReopen (h := h) ..)
  | scrub => exact .of_kept rfl (keep_execScrub (h := h) ..)
  | scrubStepComplete => exact .of_kept rfl (keep_execScrubStepComplete (h := h) ..)
  | serviceSlotGrant => exact .of_still (still_execServiceSlotGrant (h := h) ..)
  | tableLoadContract => exact .of_kept rfl (keep_execTableLoadContract (h := h) ..)
  | contractPreloadDone => exact .of_still (still_execContractPreloadDone (h := h) ..)
  | contractActivate => exact .of_still (still_execContractActivate (h := h) ..)
  | contractEnd => exact .of_still (still_execContractEnd (h := h) ..)
  | deadlineMissed => exact .of_still (still_execDeadlineMissed (h := h) ..)
  | frameBoundary => exact .of_still (still_execFrameBoundary (h := h) ..)
  | mailboxSend => exact .of_still (still_execMailboxSend (h := h) ..)
  | mailboxRequestProcess => exact .of_still (still_execMailboxRequestProcess (h := h) ..)
  | queryState => exact .of_still (still_execQueryState (h := h) ..)
  | queryGrants => exact .of_still (still_execQueryGrants (h := h) ..)
  | queryIdentity => exact .of_still (still_execQueryIdentity (h := h) ..)
  | mailboxReply => exact .of_still (still_execMailboxReply (h := h) ..)
  | mailboxReplyProcess => exact .of_still (still_execMailboxReplyProcess (h := h) ..)
  | managementWindowEnd => exact .of_still (still_execManagementWindowEnd (h := h) ..)
  | mailboxNoticeSet => exact .of_still (still_execMailboxNoticeSet (h := h) ..)
  | instanceReset => exact .of_kept rfl (keep_execInstanceReset (h := h) ..)
  | instanceResetDrained => exact .of_still (still_execInstanceResetDrained (h := h) ..)
  | managerReset => exact .of_kept rfl (keep_execManagerReset (h := h) ..)
  | ringStart => exact .of_still (still_execRingStart (h := h) ..)
  | ringSuspend => exact .of_still (still_execRingSuspend (h := h) ..)
  | ringResume => exact .of_still (still_execRingResume (h := h) ..)
  | ringStop => exact .of_still (still_execRingStop (h := h) ..)
  | ringCancel => exact .of_still (still_execRingCancel (h := h) ..)
  | ringRevokeOrder => exact .of_still (still_execRingRevokeOrder (h := h) ..)
  | cplRingStart => exact .of_still (still_execCplRingStart (h := h) ..)
  | cplRingStop => exact .of_still (still_execCplRingStop (h := h) ..)
  | ringCreate => exact .of_still (still_execRingCreate (h := h) ..)
  | ringDestroy => exact .of_still (still_execRingDestroy (h := h) ..)
  | cplRingCreate => exact .of_still (still_execCplRingCreate (h := h) ..)
  | cplRingDestroy => exact .of_still (still_execCplRingDestroy (h := h) ..)
  | commandDoorbell => exact .of_still (still_execCommandDoorbell (h := h) ..)
  | completionDoorbell => exact .of_still (still_execCompletionDoorbell (h := h) ..)
  | descriptorFetch => exact .of_kept rfl (keep_execDescriptorFetch (h := h) ..)
  | nop => exact .of_still (still_execNop (h := h) ..)
  | callList => exact .of_still (still_execCallList (h := h) ..)
  | moveCopy => exact .of_kept rfl (keep_execMoveCopy (h := h) ..)
  | moveFill => exact .of_kept rfl (keep_execMoveFill (h := h) ..)
  | move2d => exact .of_kept rfl (keep_execMove2d (h := h) ..)
  | moveAtomic => exact .of_kept rfl (keep_execMoveAtomic (h := h) ..)
  | gatherReduce => exact .of_kept rfl (keep_execGatherReduce (h := h) ..)
  | xlatePrefetch => exact .of_still (still_execXlatePrefetch (h := h) ..)
  | xlateInvalidate => exact .of_still (still_execXlateInvalidate (h := h) ..)
  | xlateProbe => exact .of_still (still_execXlateProbe (h := h) ..)
  | remoteWrite => exact .of_kept rfl (keep_execRemoteWrite (h := h) ..)
  | remoteRead => exact .of_kept rfl (keep_execRemoteRead (h := h) ..)
  | remoteSend => exact .of_kept rfl (keep_execRemoteSend (h := h) ..)
  | remoteAtomic => exact .of_kept rfl (keep_execRemoteAtomic (h := h) ..)
  | conSignal => exact .of_still (still_execConSignal (h := h) ..)
  | conRead => exact .of_still (still_execConRead (h := h) ..)
  | conArm => exact .of_kept rfl (keep_execConArm (h := h) ..)
  | conDisarm => exact .of_still (still_execConDisarm (h := h) ..)
  | operationComplete => exact .of_still (still_execOperationComplete (h := h) ..)
  | completionRecordWrite => exact .of_kept rfl (keep_execCompletionRecordWrite (h := h) ..)
  | commandTimeout => exact .of_still (still_execCommandTimeout (h := h) ..)
  | concordSignalApply => exact .of_still (still_execConcordSignalApply (h := h) ..)
  | concordViewSignal => exact .of_still (still_execConcordViewSignal (h := h) ..)
  | concordWindowSet => exact .of_still (still_execConcordWindowSet (h := h) ..)
  | eventSourceBind => exact .of_still (still_execEventSourceBind (h := h) ..)
  | eventRouteApply => exact .of_still (still_execEventRouteApply (h := h) ..)
  | eventDoorbell => exact .of_still (still_execEventDoorbell (h := h) ..)
  | coalesceTimerExpiry => exact .of_still (still_execCoalesceTimerExpiry (h := h) ..)
  | vectorUnmask => exact .of_still (still_execVectorUnmask (h := h) ..)
  | eventClaim => exact .of_still (still_execEventClaim (h := h) ..)
  | mgmtCoreEventForward => exact .of_still (still_execMgmtCoreEventForward (h := h) ..)
  | atsTranslationCompletion => exact .of_kept rfl (keep_execAtsTranslationCompletion (h := h) ..)
  | prgResponse => exact .of_kept rfl (keep_execPrgResponse (h := h) ..)
  | atsInvalidateRequest => exact .of_still (still_execAtsInvalidateRequest (h := h) ..)
  | atsInvalidateCompletion => exact .of_still (still_execAtsInvalidateCompletion (h := h) ..)
  | hostReadCompletion => exact .of_kept rfl (keep_execHostReadCompletion (h := h) ..)
  | hostCompletionTimeout => exact .of_kept rfl (keep_execHostCompletionTimeout (h := h) ..)
  | walkStart => exact .of_still (still_execWalkStart (h := h) ..)
  | walkEntryReturn => exact .of_still (still_execWalkEntryReturn (h := h) ..)
  | managerInvalidation => exact .of_still (still_execManagerInvalidation (h := h) ..)
  | managerInvalidationDone => exact .of_still (still_execManagerInvalidationDone (h := h) ..)
  | tableLoadRangeTable => exact .of_kept rfl (keep_execTableLoadRangeTable (h := h) ..)
  | sliceRequest => exact .of_kept rfl (keep_execSliceRequest (h := h) ..)
  | fillReturn => exact .of_kept rfl (keep_execFillReturn (h := h) ..)
  | fill => exact .of_kept rfl (keep_execFill (h := h) ..)
  | clean => exact .of_kept rfl (keep_execClean (h := h) ..)
  | invalidate => exact .of_kept rfl (keep_execInvalidate (h := h) ..)
  | flush => exact .of_kept rfl (keep_execFlush (h := h) ..)
  | maintenanceDone => exact .of_still (still_execMaintenanceDone (h := h) ..)
  | pinnedWayChange => exact .of_kept rfl (keep_execPinnedWayChange (h := h) ..)
  | pinFlushDone => exact .of_still (still_execPinFlushDone (h := h) ..)
  | getCopy => exact .of_kept rfl (keep_execGetCopy (h := h) ..)
  | getOwn => exact .of_kept rfl (keep_execGetOwn (h := h) ..)
  | claimOwn => exact .of_kept rfl (keep_execClaimOwn (h := h) ..)
  | peek => exact .of_kept rfl (keep_execPeek (h := h) ..)
  | putLine => exact .of_kept rfl (keep_execPutLine (h := h) ..)
  | putBytes => exact .of_kept rfl (keep_execPutBytes (h := h) ..)
  | atomicFar => exact .of_kept rfl (keep_execAtomicFar (h := h) ..)
  | event => exact .of_still (still_execEvent (h := h) ..)
  | installed => exact .of_kept rfl (keep_execInstalled (h := h) ..)
  | rspServed => exact .of_kept rfl (keep_execRspServed (h := h) ..)
  | rspCleared => exact .of_kept rfl (keep_execRspCleared (h := h) ..)
  | rspMiss => exact .of_kept rfl (keep_execRspMiss (h := h) ..)
  | rspEvicting => exact .of_kept rfl (keep_execRspEvicting (h := h) ..)
  | lineWb => exact .of_kept rfl (keep_execLineWb (h := h) ..)
  | lineBack => exact .of_kept rfl (keep_execLineBack (h := h) ..)
  | linePeek => exact .of_still (still_execLinePeek (h := h) ..)
  | retryResend => exact .of_kept rfl (keep_execRetryResend (h := h) ..)
  | reservationExpiry => exact .of_kept rfl (keep_execReservationExpiry (h := h) ..)
  | coherentWindowChangeDone => exact .of_still (still_execCoherentWindowChangeDone (h := h) ..)
  | diePortLinkDown => exact .of_kept rfl (keep_execDiePortLinkDown (h := h) ..)
  | cxlM2sRequest => exact .of_kept rfl (keep_execCxlM2sRequest (h := h) ..)
  | cxlBirsp => exact .of_kept rfl (keep_execCxlBirsp (h := h) ..)
  | hostAtomicopRequest => exact .of_still (still_execHostAtomicopRequest (h := h) ..)
  | stackReadReturn => exact .of_kept rfl (keep_execStackReadReturn (h := h) ..)
  | grResultReturn => exact .of_kept rfl (keep_execGrResultReturn (h := h) ..)
  | activityWindowBoundary => exact .of_still (still_execActivityWindowBoundary (h := h) ..)
  | enumerationStart => exact .of_still (still_execEnumerationStart (h := h) ..)
  | enumerationPortVisit => exact .of_still (still_execEnumerationPortVisit (h := h) ..)
  | enumerationMapApply => exact .of_kept rfl (keep_execEnumerationMapApply (h := h) ..)
  | expansionLinkUp => exact .of_still (still_execExpansionLinkUp (h := h) ..)
  | expansionLinkDown => exact .of_still (still_execExpansionLinkDown (h := h) ..)
  | expanderResponse => exact .of_kept rfl (keep_execExpanderResponse (h := h) ..)
  | expanderEvent => exact .of_still (still_execExpanderEvent (h := h) ..)
  | plkLinkEnable => exact .of_still (still_execPlkLinkEnable (h := h) ..)
  | linkRetrain => exact .of_still (still_execLinkRetrain (h := h) ..)
  | linkSignalDetected => exact .of_still (still_execLinkSignalDetected (h := h) ..)
  | linkEqualizeDone => exact .of_still (still_execLinkEqualizeDone (h := h) ..)
  | linkEqualizeTimeout => exact .of_still (still_execLinkEqualizeTimeout (h := h) ..)
  | linkAlignLock => exact .of_still (still_execLinkAlignLock (h := h) ..)
  | linkAlignTimeout => exact .of_still (still_execLinkAlignTimeout (h := h) ..)
  | linkInitDone => exact .of_still (still_execLinkInitDone (h := h) ..)
  | linkInitTimeout => exact .of_still (still_execLinkInitTimeout (h := h) ..)
  | linkSignalLost => exact .of_still (still_execLinkSignalLost (h := h) ..)
  | slotTransmit => exact .of_still (still_execSlotTransmit (h := h) ..)
  | flitReceive => exact .of_still (still_execFlitReceive (h := h) ..)
  | replayBufferFullTimeout => exact .of_still (still_execReplayBufferFullTimeout (h := h) ..)
  | replayRoundTimeout => exact .of_still (still_execReplayRoundTimeout (h := h) ..)
  | slotPlanSwitch => exact .of_still (still_execSlotPlanSwitch (h := h) ..)
  | tableLoadSlotPlan => exact .of_kept rfl (keep_execTableLoadSlotPlan (h := h) ..)
  | tableLoadRouting => exact .of_kept rfl (keep_execTableLoadRouting (h := h) ..)
  | timeFlitReceive => exact .of_still (still_execTimeFlitReceive (h := h) ..)
  | timeExchangeTimeout => exact .of_still (still_execTimeExchangeTimeout (h := h) ..)
  | rollCall => exact .of_kept rfl (keep_execRollCall (h := h) ..)
  | rollQueryReceive => exact .of_still (still_execRollQueryReceive (h := h) ..)
  | rollAnswerReceive => exact .of_kept rfl (keep_execRollAnswerReceive (h := h) ..)
  | rollQueryTimeout => exact .of_kept rfl (keep_execRollQueryTimeout (h := h) ..)
  | qpCreate => exact .of_still (still_execQpCreate (h := h) ..)
  | qpModify => exact .of_still (still_execQpModify (h := h) ..)
  | qpDestroy => exact .of_still (still_execQpDestroy (h := h) ..)
  | qpQuery => exact .of_still (still_execQpQuery (h := h) ..)
  | cqCreate => exact .of_still (still_execCqCreate (h := h) ..)
  | cqDestroy => exact .of_still (still_execCqDestroy (h := h) ..)
  | srqCreate => exact .of_still (still_execSrqCreate (h := h) ..)
  | srqDestroy => exact .of_still (still_execSrqDestroy (h := h) ..)
  | pdAlloc => exact .of_still (still_execPdAlloc (h := h) ..)
  | pdFree => exact .of_still (still_execPdFree (h := h) ..)
  | regRegion => exact .of_still (still_execRegRegion (h := h) ..)
  | openWindow => exact .of_still (still_execOpenWindow (h := h) ..)
  | revoke => exact .of_still (still_execRevoke (h := h) ..)
  | revokeDrainDone => exact .of_still (still_execRevokeDrainDone (h := h) ..)
  | managerRevoke => exact .of_still (still_execManagerRevoke (h := h) ..)
  | qpStopOrder => exact .of_still (still_execQpStopOrder (h := h) ..)
  | qpStartOrder => exact .of_still (still_execQpStartOrder (h := h) ..)
  | remoteRequestReceive => exact .of_kept rfl (keep_execRemoteRequestReceive (h := h) ..)
  | remoteMessageVisible => exact .of_kept rfl (keep_execRemoteMessageVisible (h := h) ..)
  | remoteResponseReceive => exact .of_kept rfl (keep_execRemoteResponseReceive (h := h) ..)
  | srqDoorbell => exact .of_still (still_execSrqDoorbell (h := h) ..)
  | cqDoorbell => exact .of_still (still_execCqDoorbell (h := h) ..)
  | transportTimeout => exact .of_still (still_execTransportTimeout (h := h) ..)
  | rnrWaitExpiry => exact .of_kept rfl (keep_execRnrWaitExpiry (h := h) ..)
  | aeqRead => exact .of_still (still_execAeqRead (h := h) ..)
  | rocePacketReceive => exact .of_still (still_execRocePacketReceive (h := h) ..)
  | cnpReceive => exact .of_still (still_execCnpReceive (h := h) ..)
  | pfcFrameReceive => exact .of_still (still_execPfcFrameReceive (h := h) ..)
  | ackTimeout => exact .of_kept rfl (keep_execAckTimeout (h := h) ..)
  | pfcRefreshTimer => exact .of_still (still_execPfcRefreshTimer (h := h) ..)
  | pfcStorm => exact .of_still (still_execPfcStorm (h := h) ..)
  | ccAlphaTimer => exact .of_still (still_execCcAlphaTimer (h := h) ..)
  | ccRateTimer => exact .of_still (still_execCcRateTimer (h := h) ..)
  | netLinkDown => exact .of_still (still_execNetLinkDown (h := h) ..)
  | netLinkUp => exact .of_still (still_execNetLinkUp (h := h) ..)
  | incidentRecordWrite => exact .of_kept rfl (keep_execIncidentRecordWrite (h := h) ..)
  | devicePendingClear => exact .of_still (still_execDevicePendingClear (h := h) ..)
  | bootPhaseTimeout => exact .of_still (still_execBootPhaseTimeout (h := h) ..)
  | mgmtCoreFault => exact .of_still (still_execMgmtCoreFault (h := h) ..)
  | clampLogClear => exact .of_still (still_execClampLogClear (h := h) ..)
  | attemptClear => exact .of_still (still_execAttemptClear (h := h) ..)
  | bulkFill => exact .of_kept rfl (keep_execBulkFill (h := h) ..)
  | memtest => exact .of_kept rfl (keep_execMemtest (h := h) ..)
  | keyRotate => exact .of_kept rfl (keep_execKeyRotate (h := h) ..)
  | fwStageImage => exact .of_kept rfl (keep_execFwStageImage (h := h) ..)
  | fwStageRecord => exact .of_kept rfl (keep_execFwStageRecord (h := h) ..)
  | opSuspend => exact .of_kept rfl (keep_execOpSuspend (h := h) ..)
  | opResume => exact .of_kept rfl (keep_execOpResume (h := h) ..)
  | opCancel => exact .of_kept rfl (keep_execOpCancel (h := h) ..)
  | longOperationEnd => exact .of_still (still_execLongOperationEnd (h := h) ..)
  | linkKeySet => exact .of_still (still_execLinkKeySet (h := h) ..)
  | linkKeyActivate => exact .of_still (still_execLinkKeyActivate (h := h) ..)
  | linkKeyPreviousExpiry => exact .of_still (still_execLinkKeyPreviousExpiry (h := h) ..)
  | getVersion => exact .of_still (still_execGetVersion (h := h) ..)
  | getCapabilities => exact .of_still (still_execGetCapabilities (h := h) ..)
  | negotiateAlgorithms => exact .of_still (still_execNegotiateAlgorithms (h := h) ..)
  | getDigests => exact .of_still (still_execGetDigests (h := h) ..)
  | getCertificate => exact .of_still (still_execGetCertificate (h := h) ..)
  | challenge => exact .of_still (still_execChallenge (h := h) ..)
  | getMeasurements => exact .of_still (still_execGetMeasurements (h := h) ..)
  | keyExchange => exact .of_still (still_execKeyExchange (h := h) ..)
  | finish => exact .of_still (still_execFinish (h := h) ..)
  | keyUpdate => exact .of_still (still_execKeyUpdate (h := h) ..)
  | heartbeat => exact .of_still (still_execHeartbeat (h := h) ..)
  | endSession => exact .of_still (still_execEndSession (h := h) ..)
  | lockInterfaceRequest => exact .of_still (still_execLockInterfaceRequest (h := h) ..)
  | getDeviceInterfaceReport => exact .of_still (still_execGetDeviceInterfaceReport (h := h) ..)
  | getDeviceInterfaceState => exact .of_still (still_execGetDeviceInterfaceState (h := h) ..)
  | startInterfaceRequest => exact .of_still (still_execStartInterfaceRequest (h := h) ..)
  | stopInterfaceRequest => exact .of_still (still_execStopInterfaceRequest (h := h) ..)
  | ideFailure => exact .of_still (still_execIdeFailure (h := h) ..)
  | expIdeRekey => exact .of_still (still_execExpIdeRekey (h := h) ..)
  | svnCommit => exact .of_still (still_execSvnCommit (h := h) ..)
  | debugChallengeRequest => exact .of_still (still_execDebugChallengeRequest (h := h) ..)
  | debugResponseSubmit => exact .of_kept rfl (keep_execDebugResponseSubmit (h := h) ..)
  | debugChallengeExpiry => exact .of_still (still_execDebugChallengeExpiry (h := h) ..)
  | telemetrySample => exact .of_still (still_execTelemetrySample (h := h) ..)
  | tsyncEdge => exact .of_still (still_execTsyncEdge (h := h) ..)
  | tsyncEdgeMissing => exact .of_still (still_execTsyncEdgeMissing (h := h) ..)
  | rootTimeSet => exact .of_still (still_execRootTimeSet (h := h) ..)
  | blockGate => exact .of_still (still_execBlockGate (h := h) ..)
  | ungateDone => exact .of_still (still_execUngateDone (h := h) ..)
  | i3cTelemetryRead => exact .of_still (still_execI3cTelemetryRead (h := h) ..)
  | i3cFawnRequest => exact .of_still (still_execI3cFawnRequest (h := h) ..)
  | entdaa => exact .of_still (still_execEntdaa (h := h) ..)
  | setdasa => exact .of_still (still_execSetdasa (h := h) ..)
  | rstdaa => exact .of_still (still_execRstdaa (h := h) ..)
  | enec => exact .of_still (still_execEnec (h := h) ..)
  | disec => exact .of_still (still_execDisec (h := h) ..)
  | getpid => exact .of_still (still_execGetpid (h := h) ..)
  | getbcr => exact .of_still (still_execGetbcr (h := h) ..)
  | getdcr => exact .of_still (still_execGetdcr (h := h) ..)
  | getstatus => exact .of_still (still_execGetstatus (h := h) ..)
  | getmxds => exact .of_still (still_execGetmxds (h := h) ..)
  | pfcPauseExpiry => exact .of_still (still_execPfcPauseExpiry (h := h) ..)
  | intakeBelowXon => exact .of_still (still_execIntakeBelowXon (h := h) ..)
  | diePortLinkUp => exact .of_still (still_execDiePortLinkUp (h := h) ..)
  | h2dSnoop => exact .of_still (still_execH2dSnoop (h := h) ..)
  | biconflict => exact .of_still (still_execBiconflict (h := h) ..)
  | lineS => exact .of_kept rfl (keep_execLineS (h := h) ..)
  | ideKm => exact .of_still (still_execIdeKm (h := h) ..)
  | configurationWrite => exact .of_kept rfl (keep_execConfigurationWrite (h := h) ..)
  -- The one command left is that of SEC_SEAL; Lean reads its name as a keyword here.
  | _ => exact .of_still (still_execSeal (h := h) ..)

/-! ### The commands of power, resets and start-up leave the queue (R513) -/

theorem pending_of_kept {s t : State} (h : t.kept = s.kept) : t.pending = s.pending := congrArg (·.1) h

@[simp] theorem State.setPerst_pending (s : State) (p : Nat) (v : Bool) : (s.setPerst p v).pending = s.pending := rfl

@[simp] theorem State.setHostUp_pending (s : State) (p : Nat) (v : Bool) : (s.setHostUp p v).pending = s.pending :=
  (kept_parts (keep_State_setHostUp s p v)).1

theorem State.hostsUp_pending (s : State) : s.hostsUp.pending = s.pending := by
  obtain ⟨_, hkept, _⟩ := kept_trained [0, 1] s
  exact (kept_parts hkept).1

theorem State.coldClear_pending (s : State) : s.coldClear.pending = s.pending := (kept_parts (keep_State_coldClear s)).1

theorem State.beginStart_pending (s : State) (cause : Nat) : (s.beginStart cause).pending = s.pending := by
  unfold State.beginStart
  dsimp only
  split
  · rw [State.hostsUp_pending]
    exact (kept_parts (keep_State_enterFawn _ _)).1
  · exact pending_of_kept (s := s) (by simp)

theorem State.coldStart_pending (s : State) (cause : Nat) : (s.coldStart cause).pending = s.pending := by
  have hcmps (u : State) : (tenants.foldl State.coldCompartment u).pending = u.pending :=
    pending_of_kept (kept_foldl _ (fun s c => by simp) _ _)
  rw [State.coldStart, State.beginStart_pending, pending_of_kept (keep_State_coldPorts _), hcmps, State.coldClear_pending,
    pending_of_kept (keep_State_interrupt s)]

theorem portsDown_pending (ps : List Nat) (s : State) :
    (ps.foldl (fun (s : State) p => (s.setPerst p false).setHostUp p false) s).pending = s.pending :=
  kept_fold_of State.pending _ (fun s p => by simp) ps s

theorem State.warmBegin_pending (s : State) (cause : Nat) (hosts : List Nat) : (s.warmBegin cause hosts).pending = s.pending := by
  obtain ⟨u, b, hbegin, _, hkept⟩ := warmBegin_parts s cause hosts
  rw [hbegin]
  exact (pending_of_kept hkept).trans (portsDown_pending hosts s)

theorem State.resetOrder_pending (s : State) (fn key : Nat) {k : State → State} (hk : (k s).pending = s.pending) :
    (s.resetOrder fn key k).pending = s.pending := by
  unfold State.resetOrder
  split
  · rfl
  · split
    · exact pending_of_kept (by simp)
    · split
      · exact pending_of_kept (by simp)
      · exact hk

theorem exec_warmReset_pending {cause fn key : Nat} {hosts : List Nat} {s t : State}
    (h : exec (.warmReset cause fn key hosts) s = .next t) : t.pending = s.pending := by
  change execWarmReset cause fn key hosts s = _ at h
  unfold execWarmReset at h
  dsimp only at h
  split at h
  · split at h
    · rw [next_eq h]
    · rw [next_eq h, State.warmBegin_pending]
  · split at h
    · rw [next_eq h]
      exact s.resetOrder_pending fn key (s.warmBegin_pending 4 _)
    · rw [next_eq h]

theorem exec_coldReset_pending {cause fn key : Nat} {s t : State} (h : exec (.coldReset cause fn key) s = .next t) :
    t.pending = s.pending := by
  change execColdReset cause fn key s = _ at h
  unfold execColdReset at h
  dsimp only at h
  split at h
  · split at h
    · rw [next_eq h]
    · split at h
      · rw [next_eq h, State.coldStart_pending]
      · rw [next_eq h]
  · split at h
    · rw [next_eq h]
      exact s.resetOrder_pending fn key (s.coldStart_pending 5)
    · rw [next_eq h]

theorem exec_sysRstNRelease_pending {s t : State} (h : exec .sysRstNRelease s = .next t) : t.pending = s.pending := by
  change execSysRstNRelease s = _ at h
  unfold execSysRstNRelease at h
  dsimp only at h
  split at h
  · rw [next_eq h, State.coldStart_pending]
  · rw [next_eq h]

theorem exec_pwrgoodFall_pending {s t : State} (h : exec .pwrgoodFall s = .next t) : t.pending = s.pending := by
  change execPwrgoodFall s = _ at h
  unfold execPwrgoodFall at h
  split at h
  · rw [next_eq h]
  · rw [next_eq h]
    dsimp only
    rw [State.coldClear_pending, pending_of_kept (keep_State_interrupt s)]

theorem exec_powerLoss_pending {s t : State} (h : exec .powerLoss s = .next t) : t.pending = s.pending := by
  change execPowerLoss s = _ at h
  unfold execPowerLoss at h
  split at h
  · rw [next_eq h]
  · rw [next_eq h, pending_of_kept (keep_State_sealIfOrdered _ _), pending_of_kept (keep_State_destroyAll _)]
    have hcache := pending_of_kept (keep_State_coldCache s)
    exact hcache

theorem exec_powerOn_pending {sel : Nat} {s t : State} (h : exec (.powerOn sel) s = .next t) : t.pending = s.pending := by
  change execPowerOn sel s = _ at h
  unfold execPowerOn at h
  split at h
  · rw [next_eq h]
  · rw [next_eq h]; rfl

theorem exec_perstDeassert_pending {port : Nat} {s t : State} (h : exec (.perstDeassert port) s = .next t) : t.pending = s.pending := by
  change execPerstDeassert port s = _ at h
  unfold execPerstDeassert at h
  dsimp only at h
  split at h
  · rw [next_eq h]
  · split at h
    · rw [next_eq h, State.setHostUp_pending, State.setPerst_pending]
    · rw [next_eq h, State.setPerst_pending]

theorem exec_hostLinkReset_pending {port : Nat} {perst : Bool} {drained : List (Nat × Nat)} {s t : State}
    (h : exec (.hostLinkReset port perst drained) s = .next t) : t.pending = s.pending := by
  have hdown (u : State) : (if perst = true then (u.setPerst port false).setHostUp port false else u).pending = u.pending := by
    split <;> simp
  change execHostLinkReset port perst drained s = _ at h
  unfold execHostLinkReset at h
  dsimp only at h
  split at h
  · rw [next_eq h]
  · split at h
    · rw [next_eq h]; exact hdown s
    · split at h
      · rw [next_eq h]; exact hdown s
      · rw [next_eq h]
        exact (hdown _).trans (pending_of_kept (keep_State_hostLink s port drained))

theorem State.phaseClocks_pending (s : State) (rails : List Nat) (reason : Nat) : (s.phaseClocks rails reason).pending = s.pending := by
  unfold State.phaseClocks
  split
  · exact pending_of_kept (by simp)
  · split
    · exact pending_of_kept (by simp)
    · rw [State.wr_pending, State.hostsUp_pending, State.wr_pending]

theorem State.phaseTrain_pending (s : State) (reason ms : Nat) : (s.phaseTrain reason ms).pending = s.pending := by
  have htrained (u : State) : (u.bootReady ms).pending = u.pending := by
    unfold State.bootReady
    dsimp only
    rw [pending_of_kept (kept_foldl _ (fun s l => by simp) _ _), pending_of_kept (keep_State_enumStart _)]
    exact (kept_parts (keep_State_reachReady ..)).1
  unfold State.phaseTrain
  split
  · exact pending_of_kept (by simp)
  · rw [htrained]
    exact pending_of_kept (by simp)

theorem exec_bootPhaseDone_pending {phase ms reason : Nat} {rails imgA imgB recA recB : List Nat} {s t : State}
    (h : exec (.bootPhaseDone phase ms rails reason imgA imgB recA recB) s = .next t) : t.pending = s.pending := by
  change execBootPhaseDone phase ms rails reason imgA imgB recA recB s = _ at h
  unfold execBootPhaseDone at h
  split at h
  · rw [next_eq h]
  · split at h
    · rw [next_eq h]; exact pending_of_kept (by simp)
    · split at h
      · rw [next_eq h, State.phaseClocks_pending]
      · rw [next_eq h]; exact pending_of_kept (by simp)
      · rw [next_eq h]; exact pending_of_kept (by simp)
      · rw [next_eq h]; exact pending_of_kept (by simp)
      · rw [next_eq h, State.phaseTrain_pending]
      · rw [next_eq h]

theorem exec_pending {c : Instr} {s t : State} (h : exec c s = .next t) : t.pending = s.pending := by
  cases hc : c.movesPins with
  | false => exact pending_of_kept (exec_reach hc h).1
  | true =>
    cases c with
    | warmReset => exact exec_warmReset_pending h
    | coldReset => exact exec_coldReset_pending h
    | sysRstNRelease => exact exec_sysRstNRelease_pending h
    | pwrgoodFall => exact exec_pwrgoodFall_pending h
    | powerLoss => exact exec_powerLoss_pending h
    | powerOn => exact exec_powerOn_pending h
    | perstDeassert => exact exec_perstDeassert_pending h
    | hostLinkReset => exact exec_hostLinkReset_pending h
    | bootPhaseDone => exact exec_bootPhaseDone_pending h
    | _ => cases hc

/-! ### The agreement of the pins (R513, R514, R522, R594, R608) -/

theorem exec_pinsOk {c : Instr} {s t : State} (ok : s.pinsOk) (h : exec c s = .next t) : t.pinsOk := by
  cases hc : c.movesPins with
  | false => exact (pinsOk_kept (exec_reach hc h).1 ok).1
  | true =>
    cases c with
    | warmReset => exact (pins_execWarmReset _ _ _ _ s t ok h).1
    | coldReset => exact (pins_execColdReset _ _ _ s t ok h).1
    | sysRstNRelease => exact (pins_execSysRstNRelease s t ok h).1
    | pwrgoodFall => exact (pins_execPwrgoodFall s t ok h).1
    | powerLoss => exact (pins_execPowerLoss s t ok h).1
    | powerOn => exact (pins_execPowerOn _ s t ok h).1
    | perstDeassert => exact (pins_execPerstDeassert _ s t ok h).1
    | hostLinkReset => exact (pins_execHostLinkReset _ _ _ s t ok h).1
    | bootPhaseDone => exact (pins_execBootPhaseDone _ _ _ _ _ _ _ _ s t ok h).1
    | _ => cases hc

/-! ### No command stops the block -/

/-- The block goes on: it neither faults nor refuses. -/
def Out.answers (o : Out) : Prop := ∃ t, o = .next t

theorem Out.answers_next (t : State) : Out.answers (.next t) := ⟨t, rfl⟩

theorem Out.answers_ite {p : Prop} [Decidable p] {a b : Out} (ha : Out.answers a) (hb : Out.answers b) :
    Out.answers (if p then a else b) := by
  split
  · exact ha
  · exact hb

/-- Every branch of every meaning ends in a next state: the split follows the branches. -/
theorem exec_answers (c : Instr) (s : State) : Out.answers (exec c s) := by
  cases c <;> simp only [exec] <;> delta
    execRegisterWrite execUnsupportedRegisterAccess execRegisterPairLowRead execRegisterPairHighRead execRegisterPairLowWrite
    execRegisterPairHighWrite execReadToClear execAssign execQuiesce execQuiesceDrainComplete execReopen execScrub
    execScrubStepComplete execServiceSlotGrant execTableLoadContract execContractPreloadDone execContractActivate execContractEnd
    execDeadlineMissed execFrameBoundary execMailboxSend execMailboxRequestProcess execQueryState execQueryGrants execQueryIdentity
    execMailboxReply execMailboxReplyProcess execManagementWindowEnd execMailboxNoticeSet execInstanceReset execInstanceResetDrained
    execManagerReset execRingStart execRingSuspend execRingResume execRingStop execRingCancel execRingRevokeOrder execCplRingStart
    execCplRingStop execRingCreate execRingDestroy execCplRingCreate execCplRingDestroy execCommandDoorbell execCompletionDoorbell
    execDescriptorFetch execNop execCallList execMoveCopy execMoveFill execMove2d execMoveAtomic execGatherReduce execXlatePrefetch
    execXlateInvalidate execXlateProbe execRemoteWrite execRemoteRead execRemoteSend execRemoteAtomic execConSignal execConRead
    execConArm execConDisarm execOperationComplete execCompletionRecordWrite execCommandTimeout execConcordSignalApply
    execConcordViewSignal execConcordWindowSet execEventSourceBind execEventRouteApply execEventDoorbell execCoalesceTimerExpiry
    execVectorUnmask execEventClaim execMgmtCoreEventForward execAtsTranslationCompletion execPrgResponse execAtsInvalidateRequest
    execAtsInvalidateCompletion execHostReadCompletion execHostCompletionTimeout execWalkStart execWalkEntryReturn
    execManagerInvalidation execManagerInvalidationDone execTableLoadRangeTable execSliceRequest execFillReturn execFill execClean
    execInvalidate execFlush execMaintenanceDone execPinnedWayChange execPinFlushDone execGetCopy execGetOwn execClaimOwn execPeek
    execPutLine execPutBytes execAtomicFar execEvent execInstalled execRspServed execRspCleared execRspMiss execRspEvicting
    execLineWb execLineBack execLinePeek execRetryResend execReservationExpiry execCoherentWindowChangeDone execDiePortLinkDown
    execCxlM2sRequest execCxlBirsp execHostAtomicopRequest execStackReadReturn execGrResultReturn execActivityWindowBoundary
    execEnumerationStart execEnumerationPortVisit execEnumerationMapApply execExpansionLinkUp execExpansionLinkDown
    execExpanderResponse execExpanderEvent execPlkLinkEnable execLinkRetrain execLinkSignalDetected execLinkEqualizeDone
    execLinkEqualizeTimeout execLinkAlignLock execLinkAlignTimeout execLinkInitDone execLinkInitTimeout execLinkSignalLost
    execSlotTransmit execFlitReceive execReplayBufferFullTimeout execReplayRoundTimeout execSlotPlanSwitch execTableLoadSlotPlan
    execTableLoadRouting execTimeFlitReceive execTimeExchangeTimeout execRollCall execRollQueryReceive execRollAnswerReceive
    execRollQueryTimeout execQpCreate execQpModify execQpDestroy execQpQuery execCqCreate execCqDestroy execSrqCreate execSrqDestroy
    execPdAlloc execPdFree execRegRegion execOpenWindow execRevoke execRevokeDrainDone execManagerRevoke execQpStopOrder
    execQpStartOrder execRemoteRequestReceive execRemoteMessageVisible execRemoteResponseReceive execSrqDoorbell execCqDoorbell
    execTransportTimeout execRnrWaitExpiry execAeqRead execRocePacketReceive execCnpReceive execPfcFrameReceive execAckTimeout
    execPfcRefreshTimer execPfcStorm execCcAlphaTimer execCcRateTimer execNetLinkDown execNetLinkUp execIncidentRecordWrite
    execDevicePendingClear execHostLinkReset execWarmReset execColdReset execPowerOn execPowerLoss execPwrgoodFall execBootPhaseDone
    execBootPhaseTimeout execMgmtCoreFault execClampLogClear execAttemptClear execBulkFill execMemtest execKeyRotate
    execFwStageImage execFwStageRecord execOpSuspend execOpResume execOpCancel execLongOperationEnd execLinkKeySet
    execLinkKeyActivate execLinkKeyPreviousExpiry execGetVersion execGetCapabilities execNegotiateAlgorithms execGetDigests
    execGetCertificate execChallenge execGetMeasurements execKeyExchange execFinish execKeyUpdate execHeartbeat execEndSession
    execLockInterfaceRequest execGetDeviceInterfaceReport execGetDeviceInterfaceState execStartInterfaceRequest
    execStopInterfaceRequest execIdeFailure execExpIdeRekey execSvnCommit execSeal execDebugChallengeRequest execDebugResponseSubmit
    execDebugChallengeExpiry execTelemetrySample execTsyncEdge execTsyncEdgeMissing execRootTimeSet execBlockGate execUngateDone
    execI3cTelemetryRead execI3cFawnRequest execEntdaa execSetdasa execRstdaa execEnec execDisec execGetpid execGetbcr execGetdcr
    execGetstatus execGetmxds execPfcPauseExpiry execIntakeBelowXon execPerstDeassert execSysRstNRelease execDiePortLinkUp
    execH2dSnoop execBiconflict execLineS execIdeKm execConfigurationWrite
  all_goals dsimp -failIfUnchanged only
  all_goals
    repeat' first
      | exact Out.answers_next _
      | apply Out.answers_ite
      | split

/-! ### The statements -/

/-- Settles O1: the queue is not empty. -/
theorem stepRunsTheFrontCommand : Obligations.StepRunsTheFrontCommand := fun _ _ _ => rfl

/-- Settles O4: at reset PWRGOOD is low, no link is up, and nothing is written. -/
theorem invariantsHoldAtReset : Obligations.InvariantsHoldAtReset := by
  refine ⟨⟨?_, ?_, ?_, ?_⟩, ⟨reset_acc_wf, reset_host_wf⟩, rfl, rfl⟩
  · exact fun hpg => absurd hpg (by decide)
  · exact fun p hp => absurd hp (List.not_mem_nil)
  · exact fun hheld => absurd hheld (by decide)
  · exact fun hwarm => absurd hwarm (by decide)

/-- Settles O5: a step is a beat or the effect of the front command, and each keeps the agreement. -/
theorem pinsAgreeInEveryStep : Obligations.PinsAgreeInEveryStep := by
  intro s t ok h
  unfold step at h
  split at h
  · rw [next_eq h]
    exact (pinsOk_tick s ok).1
  · rename_i rest _
    have ok' : State.pinsOk { s with pending := rest } := ok
    exact exec_pinsOk ok' h

/-- Settles O7: a beat and the effect of a command are next states. -/
theorem everyStepCompletes : Obligations.EveryStepCompletes := by
  intro s
  unfold State.runs step
  split
  · exact ⟨_, rfl⟩
  · exact exec_answers _ _

/-- Settles O8: what a command that moves no pin reaches, and that those of power, resets and start-up leave the queue. -/
theorem commandsStayInTheirReach : Obligations.CommandsStayInTheirReach := by
  intro c s t h
  have hpins (hc : c.movesPins = false) : t.pins = s.pins := congrArg (·.2.1) (exec_reach hc h).1
  have hdisjoint (hs : c.storesNothing = true) : c.movesPins = false := by
    cases c with
    | warmReset | coldReset | sysRstNRelease | pwrgoodFall | powerLoss | powerOn | perstDeassert | hostLinkReset | bootPhaseDone => cases hs
    | _ => rfl
  exact ⟨exec_pending h, fun hs => ⟨(exec_reach (hdisjoint hs) h).2 hs, hpins (hdisjoint hs)⟩, hpins⟩

end Sys2Proof.Machine
end

section
/-! SUPPORT. What an event source that is raised can send, and queue pairs that enter ERROR. -/
namespace Sys2Proof.Machine

open Sys2Proof

/-! ### Raises send, and touch neither remote access nor incidents (R192 to R197) -/

/-- `t` comes from `s` with the objects of remote access and the incidents as they were, and everything sent still sent. -/
structure State.sends (s t : State) : Prop where
  net : t.net = s.net
  inc : t.inc = s.inc
  sent : s.sent <+: t.sent

theorem State.sends.refl (s : State) : s.sends s := ⟨rfl, rfl, List.prefix_rfl⟩

theorem State.sends.trans {s t u : State} (h : s.sends t) (k : t.sends u) : s.sends u :=
  ⟨k.net.trans h.net, k.inc.trans h.inc, h.sent.trans k.sent⟩

theorem State.sends.ite {s t u : State} {p : Prop} [Decidable p] (h : s.sends t) (k : s.sends u) : s.sends (if p then t else u) := by
  split
  · exact h
  · exact k

theorem State.sends.foldl {α : Type} (g : State → α → State) (hg : ∀ (s : State) (a : α), s.sends (g s a)) (xs : List α) (s : State) :
    s.sends (xs.foldl g s) := by
  induction xs generalizing s with
  | nil => exact .refl s
  | cons a xs ih => exact (hg s a).trans (ih (g s a))

theorem State.wr_sends (s : State) (f : Fld) (i v : Nat) : s.sends (s.wr f i v) := ⟨rfl, rfl, List.prefix_rfl⟩

theorem State.emit_sends (s : State) (k : EmitKind) (args : List Nat) : s.sends (s.emit k args) := ⟨rfl, rfl, List.prefix_append ..⟩

theorem State.bump_sends (s : State) (f : Fld) (i n : Nat) : s.sends (s.bump f i n) := by
  unfold State.bump
  dsimp only
  split <;> exact ⟨rfl, rfl, List.prefix_rfl⟩

theorem State.msiSend_sends (s : State) (fn e : Nat) : s.sends (s.msiSend fn e) := by
  unfold State.msiSend
  dsimp only
  split
  · exact s.emit_sends ..
  · exact ⟨rfl, rfl, List.prefix_rfl⟩

theorem State.deliverTargets_sends (s : State) (fn v : Nat) : s.sends (s.deliverTargets fn v) := by
  have one (u : State) (b : Bool) (e : Nat) : u.sends (if b then u.msiSend fn e else u) := .ite (u.msiSend_sends ..) (.refl u)
  unfold State.deliverTargets
  extract_lets i t a b c d
  exact (((one s _ _).trans (one a _ _)).trans (one b _ _)).trans
    (.trans (one c _ _) (.foldl _ (fun s c => .ite (s.emit_sends ..) (.refl s)) ..))

theorem State.deliver_sends (s : State) (fn v : Nat) : s.sends (s.deliver fn v) := by
  unfold State.deliver
  dsimp only
  refine .trans ?_ (State.deliverTargets_sends ..)
  refine .trans (.trans (.trans ?_ (State.wr_sends ..)) (State.wr_sends ..)) (State.bump_sends ..)
  split
  · exact State.wr_sends ..
  · exact .refl s

theorem State.deliverOrHold_sends (s : State) (fn v : Nat) : s.sends (s.deliverOrHold fn v) := .ite (s.wr_sends ..) (s.deliver_sends ..)

theorem State.vecRaise_sends (s : State) (fn v : Nat) : s.sends (s.vecRaise fn v) := by
  unfold State.vecRaise
  dsimp only
  refine .trans ?_ (.ite (State.deliverOrHold_sends ..) (.refl _))
  refine .trans (.ite ?_ (.refl s)) (State.bump_sends ..)
  exact ⟨rfl, rfl, List.prefix_rfl⟩

theorem State.raiseSrc_sends (s : State) (n : Nat) : s.sends (s.raiseSrc n) := by
  unfold State.raiseSrc
  refine .ite ?_ (.refl s)
  dsimp only
  refine .trans ?_ (.ite (State.vecRaise_sends ..) (.refl _))
  exact .trans (.ite (s.wr_sends ..) (s.wr_sends ..)) (State.wr_sends ..)

theorem State.occur_sends (s : State) (n : Nat) : s.sends (s.occur n) := .ite (.refl s) (s.raiseSrc_sends n)

/-- Asynchronous events that wait raise their source, and change no more than a raise does. -/
theorem State.aeqRaise_sends (s : State) (fn : Nat) : s.sends (s.aeqRaise fn) := .ite (s.occur_sends _) (.refl s)

theorem State.aeqRaise_reported (s : State) (fn : Nat) : s.reported raiseFlds (s.aeqRaise fn) := .ite (s.occur_reported _) (.refl ..)

theorem State.reported.shadow {fs : List Fld} {s t : State} (h : s.reported fs t) : t.reg.shadow = s.reg.shadow := by
  have e := congrArg (fun x => x.reg.shadow) h.1
  exact e

/-! ### Commands of remote access (R431) -/

/-- The end of a command shows its status, and raises its source. -/
theorem State.netDone_reported (s : State) (fn : Nat) (st : CmdSt) (res : Option Nat) :
    s.reported ([.NET_CMD_BUSY, .NET_CMD_STATUS, .NET_CMD_RESULT] ++ raiseFlds) (s.netDone fn st res) := by
  unfold State.netDone
  extract_lets a b
  have ha : s.reported ([.NET_CMD_BUSY, .NET_CMD_STATUS, .NET_CMD_RESULT] ++ raiseFlds) a :=
    (s.wr_reported .NET_CMD_BUSY _ _ (by decide)).trans (State.wr_reported _ .NET_CMD_STATUS _ _ (by decide))
  have hb : a.reported ([.NET_CMD_BUSY, .NET_CMD_STATUS, .NET_CMD_RESULT] ++ raiseFlds) b := by
    change a.reported _ (match res with | some r => a.wr .NET_CMD_RESULT fn r | none => a)
    split
    · exact a.wr_reported .NET_CMD_RESULT _ _ (by decide)
    · exact .refl ..
  exact (ha.trans hb).trans (.ite ((b.occur_reported _).mono (by decide)) (.refl ..))

theorem State.netDone_result (s : State) (fn : Nat) (st : CmdSt) (r : Nat) :
    (s.netDone fn st (some r)).rd .NET_CMD_RESULT fn = r % 2 ^ Fld.NET_CMD_RESULT.spec.width := by
  unfold State.netDone
  extract_lets a b
  have hraise : b.reported raiseFlds (if b.rd .NET_CMD_SRC_VALID fn = 1 then b.occur (b.rd .NET_CMD_SRC fn) else b) :=
    .ite (b.occur_reported _) (.refl ..)
  exact (hraise.rd (by decide) fn).trans (a.rd_wr_same ..)

/-- A command whose function may start one ends with the status and the result of its work. -/
theorem State.netCmd_of_free {s t : State} {fn : Nat} {st : CmdSt} {res : Option Nat} {k : State → CmdSt × Option Nat × State}
    (hfree : s.netFree fn = true) (hk : k s = (st, res, t)) : s.netCmd fn k = t.netDone fn st res := by
  simp only [State.netCmd, hfree, if_true, hk]

/-! ### A queue pair enters ERROR (R437) -/

/-- A queue pair in ERROR: what it had still to do is dropped. -/
def Qp.failed (q : Qp) : Qp := { q with state := 4, sends := [], buffer := none, wr := none, rnrAt := none, rnrWait := none }

/-- An operation whose queue pair has failed. -/
def Op.qpFailed (o : Op) : Op := { o with wait := .done, status := St.remoteQpError.code }

/-- The operations of a list take their new form one after another. -/
def State.setOps (s : State) (os : List Op) : State := os.foldl (fun (s : State) o => s.setOp o.qpFailed) s

theorem State.setOps_eq (s : State) (os : List Op) : s.setOps os = { s with ring := { s.ring with ops := (s.setOps os).ring.ops } } := by
  induction os generalizing s with
  | nil => rfl
  | cons o os ih => exact ih (s.setOp o.qpFailed)

theorem State.qpError_of_live {s : State} {n : Nat} {q : Qp} (h : s.net.qps.find n = some q) (hlive : q.state ≠ 4) (but : Option Nat)
    (seq : Nat) : s.qpError n but seq =
      ((s.setQp n q.failed).setOps ((s.qpOps n).filter (fun o => some o.id != but))).aeqPost q.owner 1 0 n seq := by
  simp only [State.qpError, h, if_neg hlive]
  rfl

/-- An operation that stands after the failures is one that stood before and is named by none of them, or one that has failed. -/
theorem State.mem_setOps {s : State} {os : List Op} {x : Op} (h : x ∈ (s.setOps os).ring.ops) :
    (x ∈ s.ring.ops ∧ ∀ o ∈ os, x.id ≠ o.id) ∨ ∃ o ∈ os, x = o.qpFailed := by
  induction os generalizing s with
  | nil => exact .inl ⟨h, by simp⟩
  | cons o os ih =>
    rcases ih h with ⟨hx, hne⟩ | ⟨p, hp, rfl⟩
    · rw [State.setOp_ops, List.mem_map] at hx
      obtain ⟨y, hy, rfl⟩ := hx
      split
      · exact .inr ⟨o, List.mem_cons_self, rfl⟩
      · rename_i hid
        rw [if_neg hid] at hne
        exact .inl ⟨hy, fun p hp => by
          rcases List.mem_cons.1 hp with rfl | hp
          · exact hid
          · exact hne p hp⟩
    · exact .inr ⟨p, List.mem_cons_of_mem _ hp, rfl⟩

section
variable {s : State} {n : Nat} {q : Qp}

/-- The failure of a queue pair, but for its operations and what its asynchronous event changes. -/
theorem State.qpError_reported (h : s.net.qps.find n = some q) (hlive : q.state ≠ 4) (but : Option Nat) (seq : Nat) :
    ((s.setQp n q.failed).setOps ((s.qpOps n).filter (fun o => some o.id != but))).reported postFlds (s.qpError n but seq) := by
  rw [State.qpError_of_live h hlive]
  exact State.aeqPost_reported ..

theorem State.qpError_qps (h : s.net.qps.find n = some q) (hlive : q.state ≠ 4) (but : Option Nat) (seq : Nat) :
    (s.qpError n but seq).net.qps = Tab.put s.net.qps n q.failed := by
  rw [(State.qpError_reported h hlive but seq).qps, State.setOps_eq]
  rfl

theorem State.qpError_mem (h : s.net.qps.find n = some q) (hlive : q.state ≠ 4) (but : Option Nat) (seq : Nat) :
    (s.qpError n but seq).mem = s.mem := by
  rw [(State.qpError_reported h hlive but seq).mem, State.setOps_eq]
  rfl

/-- After the failure no operation but the one that caused it waits for the queue pair. -/
theorem State.qpError_wait (h : s.net.qps.find n = some q) (hlive : q.state ≠ 4) (but : Option Nat) (seq : Nat) {x : Op}
    (hx : x ∈ (s.qpError n but seq).ring.ops) (hid : some x.id ≠ but) : x.wait ≠ .remote n := by
  rw [(State.qpError_reported h hlive but seq).ring] at hx
  rcases State.mem_setOps hx with ⟨hold, hne⟩ | ⟨o, _, rfl⟩
  · intro hwait
    exact hne x (by simpa [State.qpOps, hwait, hid] using hold) rfl
  · simp [Op.qpFailed]

end

end Sys2Proof.Machine
end

section
/-! SUPPORT. Proof of the statement on queue pairs (chapter 16). -/
namespace Sys2Proof.Machine

open Sys2Proof

/-! ### The commands QP_CREATE, QP_MODIFY, QP_DESTROY and QP_QUERY (R432 to R435) -/

section
variable {s : State} {fn : Nat}

theorem State.qpCreate_of_free {c : Nat} (hcmp : s.fnCmp fn = some c) (hmgr : isMgr fn = true)
    (hmine : s.qpMine fn (bits (s.arg fn 0) 0 16) = true) (hnew : s.net.qps.find (bits (s.arg fn 0) 0 16) = none)
    (hmood : ¬(bit (s.arg fn 0) 16 = true ∧ bit (s.arg fn 0) 17 = true)) (hpd : s.ownsPd fn (bits (s.arg fn 1) 0 12) = true)
    (hsrq : (s.net.srqs.find (bits (s.arg fn 1) 16 12)).map (·.owner) = some fn)
    (hcq : (s.net.cqs.find (bits (s.arg fn 2) 0 14)).map (·.owner) = some fn) :
    s.qpCreate fn = (.ok, some (bits (s.arg fn 0) 0 16), s.setQp (bits (s.arg fn 0) 0 16)
      (Qp.fresh (bit (s.arg fn 0) 17) (bit (s.arg fn 0) 16) fn c (bits (s.arg fn 1) 0 12) (bits (s.arg fn 1) 16 12)
        (bits (s.arg fn 2) 0 14) (Config.flowHash (bits (s.arg fn 0) 0 16) c).toNat)) := by
  have hlegal : (bit (s.arg fn 0) 17 && bit (s.arg fn 0) 16) = false := by
    rw [Bool.and_comm, ← Bool.not_eq_true, Bool.and_eq_true]
    exact hmood
  simp [State.qpCreate, hcmp, hmgr, hmine, hnew, hlegal, hpd, hsrq, hcq]

section
variable {q : Qp}

theorem State.ownQp_of_find {n : Nat} (hfind : s.net.qps.find n = some q) (hown : q.owner = fn) : s.ownQp fn n = some q := by
  simp [State.ownQp, hfind, hown]

variable (hmine : s.qpMine fn (bits (s.arg fn 0) 0 16) = true) (hfind : s.net.qps.find (bits (s.arg fn 0) 0 16) = some q)
  (hown : q.owner = fn)
include hmine hfind hown

theorem State.qpModify_eq_qpMove : s.qpModify fn = s.qpMove fn (bits (s.arg fn 0) 0 16) q (bits (s.arg fn 0) 16 3) := by
  simp only [State.qpModify, hmine, Bool.not_true, Bool.false_eq_true, if_false, State.ownQp_of_find hfind hown]

theorem State.qpModify_init (hstate : q.state = 0) (htarget : bits (s.arg fn 0) 16 3 = 1) (hunused : bits (s.arg fn 0) 0 16 ∉ s.sec.used) :
    s.qpModify fn = (.ok, some 1, s.setQp (bits (s.arg fn 0) 0 16) { q with state := 1 }) := by
  simp [State.qpModify_eq_qpMove hmine hfind hown, State.qpMove, hstate, htarget, hunused]

theorem State.qpModify_reset (hstate : q.state = 4) (htarget : bits (s.arg fn 0) 16 3 = 0) :
    s.qpModify fn = (.ok, some 0, s.setQp (bits (s.arg fn 0) 0 16) q.reset) := by
  simp only [State.qpModify_eq_qpMove hmine hfind hown, State.qpMove, hstate, htarget]

theorem State.qpModify_error (hstate : q.state < 4) (htarget : bits (s.arg fn 0) 16 3 = 4) :
    s.qpModify fn = (.ok, some 4, s.qpError (bits (s.arg fn 0) 0 16) none 0) := by
  have hcases : q.state = 0 ∨ q.state = 1 ∨ q.state = 2 ∨ q.state = 3 := by omega
  rcases hcases with hstate | hstate | hstate | hstate <;>
    simp only [State.qpModify_eq_qpMove hmine hfind hown, State.qpMove, hstate, htarget]

theorem State.qpDestroy_of_idle (hstate : q.state = 0 ∨ q.state = 4) :
    s.qpDestroy fn = (.ok, none, { s with net := { s.net with qps := Tab.del s.net.qps (bits (s.arg fn 0) 0 16) } }) := by
  simp [State.qpDestroy, hmine, State.ownQp_of_find hfind hown, hstate]

theorem State.qpQuery_of_own : s.qpQuery fn =
    (.ok, some (put q.state 0 3 + put (b2n q.indic) 3 1 + put (b2n q.net) 4 1 + put q.outstanding 16 9), s) := by
  simp [State.qpQuery, hmine, State.ownQp_of_find hfind hown]

end

theorem exec_qpModify_of_free {t : State} {st : CmdSt} {res : Option Nat} (hfree : s.netFree fn = true) (h : s.qpModify fn = (st, res, t)) :
    exec (.qpModify fn) s = .next (t.netDone fn st res) := congrArg _ (State.netCmd_of_free hfree h)

/-- The queue pair that QP_MODIFY brings into ERROR. -/
theorem State.qpModify_error_effect {n : Nat} {q : Qp} (hfind : s.net.qps.find n = some q) (hlive : q.state < 4) :
    let t := (s.qpError n none 0).netDone fn .ok (some 4)
    (t.net.qps.find n).map (·.state) = some 4 ∧ (∀ o ∈ t.ring.ops, o.wait ≠ .remote n) ∧
      (∀ m, m ≠ n → t.net.qps.find m = s.net.qps.find m) ∧ t.rd .NET_CMD_RESULT fn = 4 ∧ t.mem = s.mem := by
  intro t
  have hne : q.state ≠ 4 := Nat.ne_of_lt hlive
  have hdone : (s.qpError n none 0).reported _ t := State.netDone_reported ..
  have hqps : t.net.qps = Tab.put s.net.qps n q.failed := hdone.qps.trans (State.qpError_qps hfind hne none 0)
  refine ⟨?_, fun o ho => ?_, fun m hm => ?_, ?_, hdone.mem.trans (State.qpError_mem hfind hne none 0)⟩
  · rw [hqps, Tab.find_put_same]
    rfl
  · rw [hdone.ring] at ho
    exact State.qpError_wait hfind hne none 0 ho (by simp)
  · rw [hqps, Tab.find_put_ne _ _ _ _ hm.symm]
  · exact State.netDone_result ..

end

/-! ### The statement -/

/-- Settles O39: each command of a free function ends with what its work gives. -/
theorem queuePairsAreManaged : Obligations.QueuePairsAreManaged := by
  refine ⟨?_, ?_, ?_⟩
  · rintro s fn c ⟨hfree, hcmp, hmgr⟩ ⟨hmine, hnew⟩ ⟨hmood, hpd⟩ ⟨hsrq, hcq⟩
    have hcreate := State.qpCreate_of_free hcmp hmgr hmine hnew hmood hpd hsrq hcq
    exact ⟨_, congrArg _ (State.netCmd_of_free hfree hcreate), rfl, rfl, rfl, rfl, rfl, rfl, rfl, rfl, rfl, rfl, rfl⟩
  · rintro s fn q ⟨hfree, hmine⟩ ⟨hfind, hown⟩ n
    refine ⟨fun hstate htarget hunused => ?_, fun hstate htarget => ?_, fun hstate htarget => ?_, fun hstate => ?_, ?_⟩
    · exact exec_qpModify_of_free hfree (State.qpModify_init hmine hfind hown hstate htarget hunused)
    · exact exec_qpModify_of_free hfree (State.qpModify_reset hmine hfind hown hstate htarget)
    · exact ⟨_, exec_qpModify_of_free hfree (State.qpModify_error hmine hfind hown hstate htarget),
        State.qpModify_error_effect hfind hstate⟩
    · exact congrArg _ (State.netCmd_of_free hfree (State.qpDestroy_of_idle hmine hfind hown hstate))
    · exact congrArg _ (State.netCmd_of_free hfree (State.qpQuery_of_own hmine hfind hown))
  · rintro s fn ⟨hfree, hmine⟩
    have hmodify : s.qpModify fn = netFail s .range := by simp [State.qpModify, hmine]
    have hdestroy : s.qpDestroy fn = netFail s .range := by simp [State.qpDestroy, hmine]
    have hquery : s.qpQuery fn = netFail s .range := by simp [State.qpQuery, hmine]
    exact ⟨exec_qpModify_of_free hfree hmodify, congrArg _ (State.netCmd_of_free hfree hdestroy),
      congrArg _ (State.netCmd_of_free hfree hquery)⟩

end Sys2Proof.Machine
end

section
/-! SUPPORT. Proof of the statement on messages that are received and timers that pass (chapter 16). -/
namespace Sys2Proof.Machine

open Sys2Proof

/-! ### Reassembly leaves the queue pairs (R455) -/

theorem State.bump_net (s : State) (f : Fld) (i n : Nat) : (s.bump f i n).net = s.net := by rw [State.bump_eq]

theorem State.oweOne_net (s : State) (l key : Nat) : (s.oweOne l key).net = s.net := by
  unfold State.oweOne
  split <;> rfl

theorem State.enterFlit_net (s : State) (l c : Nat) (f : Flit) (indic tagOk : Bool) : (s.enterFlit l c f indic tagOk).2.net = s.net := by
  unfold State.enterFlit
  dsimp only
  split
  · split
    · rfl
    · exact State.oweOne_net ..
  · split <;> exact State.oweOne_net ..

theorem State.retryHeld_net (s : State) (l c : Nat) : (s.retryHeld l c).net = s.net := by
  refine kept_fold_of (fun a : State × List Nat => a.1.net) _ (fun a h => ?_) _ _
  dsimp only
  split
  · rfl
  · split
    · exact State.enterFlit_net ..
    · rfl

theorem State.takeRx_net (s : State) (c id : Nat) : (s.takeRx c id).net = s.net :=
  kept_fold_of State.net (fun (s : State) l => s.retryHeld l c) (fun u l => u.retryHeld_net l c) _ _

theorem State.drainAllot_qps (s : State) (c : Nat) : (s.drainAllot c).net.qps = s.net.qps := by
  refine kept_fold_of (fun s : State => s.net.qps) _ (fun u p => ?_) _ _
  dsimp only
  split <;> rfl

theorem State.leaveRx_qps (s : State) (c id : Nat) : (s.leaveRx c id).net.qps = s.net.qps := by
  rw [State.leaveRx, State.drainAllot_qps, State.takeRx_net]

/-! ### Requests and visible messages (R441, R448) -/

section
variable {s : State}

/-- A message that comes alone ties with none. -/
theorem State.orderClaims_singleton (s : State) (c id : Nat) : s.orderClaims c [id] = ([id], s) := by
  cases h : s.claimOf c id with
  | none => simp [State.orderClaims, h]
  | some e => simp [State.orderClaims, h, List.eraseDups_cons]

theorem exec_remoteRequestReceive_singleton {cmp id : Nat} {r : RxMsg} {m : Msg} (h : s.nextRequest cmp id = some (r, m)) :
    exec (.remoteRequestReceive cmp [id]) s = .next ((s.checkRequest cmp r m).leaveRx cmp id) := by
  change execRemoteRequestReceive cmp [id] s = _
  have hone : [id].eraseDups = [id] := by simp [List.eraseDups_cons]
  simp only [execRemoteRequestReceive, hone, State.orderClaims_singleton, List.foldl_cons, List.foldl_nil, h]

theorem exec_remoteMessageVisible_of_plain {n : Nat} {q : Qp} {p : Passed} {rest : List Passed} (hfind : s.net.qps.find n = some q)
    (hpassed : q.passed = p :: rest) (hcqe : p.cqe = none) (htag : p.tag = none) (hstate : q.state = 2 ∨ q.state = 3)
    (outcome : Outcome3) :
    exec (.remoteMessageVisible n outcome) s =
      .next (p.rsp.foldl (fun t m => t.respond n m) (s.setQp n { q with passed := rest })) := by
  have hanswers : (decide (q.state = 2) || decide (q.state = 3)) = true := by simpa using hstate
  change execRemoteMessageVisible n outcome s = _
  simp only [execRemoteMessageVisible, hfind, hpassed, hcqe, htag, State.tagged, Bool.not_true, Bool.false_eq_true, if_false, hanswers,
    if_true, List.drop_one, List.tail_cons]

/-! ### Responses (R437, R449) -/

variable {cmp id : Nat} {r : RxMsg} {m : Msg}

theorem exec_remoteResponseReceive_of_unknown (hrx : (s.rxOf cmp).find? (fun r => r.id == id) = some r) (hmsg : r.msg = some m)
    (hrsp : msgIsRsp m = true) (hqp : s.net.qps.find m.dstQp = none) :
    exec (.remoteResponseReceive cmp id) s = .next (((s.bump .NET_ST_RX_MSGS cmp 1).bump .NET_ST_LATE cmp 1).leaveRx cmp id) := by
  change execRemoteResponseReceive cmp id s = _
  simp only [execRemoteResponseReceive, hrx, hmsg, hrsp, State.bump_net, hqp, State.lateRsp, Bool.not_true, Bool.false_eq_true, if_false]

theorem exec_remoteResponseReceive_of_peer {q : Qp} (hrx : (s.rxOf cmp).find? (fun r => r.id == id) = some r) (hmsg : r.msg = some m)
    (hrsp : msgIsRsp m = true) (hqp : s.net.qps.find m.dstQp = some q) (hcmp : q.cmp = cmp) (hnet : q.net = false) (hvia : r.via < 16)
    (hstate : q.state = 2 ∨ q.state = 3) :
    exec (.remoteResponseReceive cmp id) s = .next (((s.bump .NET_ST_RX_MSGS cmp 1).peerRsp cmp m.dstQp q m).leaveRx cmp id) := by
  have hopen : (q.state == 2 || q.state == 3) = true := by simpa using hstate
  have hlink : decide (16 ≤ r.via) = false := by simpa using hvia
  change execRemoteResponseReceive cmp id s = _
  simp only [execRemoteResponseReceive, hrx, hmsg, hrsp, State.bump_net, hqp, hcmp, hnet, hlink, hopen, bne_self_eq_false, Bool.not_true,
    Bool.or_self, Bool.false_eq_true, if_false]

/-- A response that no queue pair awaits changes none, and no memory. -/
theorem remoteResponseReceive_unknown_frame (hrx : (s.rxOf cmp).find? (fun r => r.id == id) = some r) (hmsg : r.msg = some m)
    (hrsp : msgIsRsp m = true) (hqp : s.net.qps.find m.dstQp = none) {t : State}
    (h : exec (.remoteResponseReceive cmp id) s = .next t) : t.net.qps = s.net.qps ∧ t.mem = s.mem := by
  rw [exec_remoteResponseReceive_of_unknown hrx hmsg hrsp hqp] at h
  rw [next_eq h]
  refine ⟨?_, State.mem_of_still (by simp)⟩
  rw [State.leaveRx_qps, State.bump_net, State.bump_net]

end

/-! ### The transport timeout (R458, R459) -/

/-- The message of an operation that its transport timeout names. -/
def Op.timeoutMsn (o : Op) (q : Qp) : Nat :=
  match q.sends.find? (fun m => m.op == o.id && decide (0 < m.npsn)) with
  | some m => m.msg.msn
  | none => q.sendMsn

/-- REMOTE_TIMEOUT of an operation. -/
def State.transportPost (s : State) (o : Op) (n : Nat) (q : Qp) : Post :=
  { cmpInc 0x0C02 (if dIndic o.desc then .job else .notice) o.cmp (o.unitOf q) n [o.timeoutMsn q, q.timeout] with cause := s.timeoutCause o }

/-- An operation that its transport timeout has ended. -/
def Op.transportTimedOut (o : Op) : Op := { o with wait := .done, status := 0x0E, detail := 0x0F }

/-- The incident is posted and the operation has ended, its queue pair not yet failed. -/
def State.transportTimedOut (s : State) (o : Op) (n : Nat) (q : Qp) : State :=
  (s.post (s.transportPost o n q)).setOp o.transportTimedOut

section
variable {s : State} {o : Op} {n : Nat} {q : Qp}

theorem exec_transportTimeout_of_passed (hop : s.findOp o.id = some o) (hwait : o.wait = .remote n) (hfind : s.net.qps.find n = some q)
    (hrun : s.inRecovery o = false) (hpassed : o.startNs + 1000 * q.timeout ≤ s.ns) :
    exec (.transportTimeout o.id) s =
      .next ((s.transportTimedOut o n q).qpError n (some o.id) (s.postQ (s.transportPost o n q)).1) := by
  change execTransportTimeout o.id s = _
  simp only [execTransportTimeout, hop, hwait, hfind, hrun, Nat.not_lt.2 hpassed, decide_false, Bool.or_self, Bool.false_eq_true, if_false]
  rfl

theorem State.transportTimedOut_qps : (s.transportTimedOut o n q).net.qps = s.net.qps := (s.post_reported (s.transportPost o n q)).qps

theorem State.transportTimedOut_mem : (s.transportTimedOut o n q).mem = s.mem := (s.post_reported (s.transportPost o n q)).mem

/-- What is put in the place of an operation is what its number names. -/
theorem State.findOp_setOp_same {p x : Op} {id : Nat} (hid : p.id = id) (hop : s.findOp id = some x) : (s.setOp p).findOp id = some p := by
  unfold State.findOp at hop ⊢
  rw [State.setOp_ops]
  generalize s.ring.ops = xs at hop ⊢
  induction xs with
  | nil => simp at hop
  | cons y ys ih =>
    by_cases hy : y.id = id
    · simp [hy, hid]
    · have hne : (y.id == id) = false := by simpa using hy
      rw [List.find?_cons, hne] at hop
      simpa [hy, hid] using ih hop

theorem State.findOp_setOp_ne {p : Op} {id : Nat} (hid : p.id ≠ id) : (s.setOp p).findOp id = s.findOp id := by
  unfold State.findOp
  rw [State.setOp_ops]
  generalize s.ring.ops = xs
  induction xs with
  | nil => rfl
  | cons y ys ih =>
    by_cases hy : y.id = p.id
    · simp [hy, hid, ih]
    · simp [hy, List.find?_cons, ih]

theorem State.findOp_setOps {os : List Op} {id : Nat} (h : ∀ p ∈ os, p.id ≠ id) : (s.setOps os).findOp id = s.findOp id := by
  induction os generalizing s with
  | nil => rfl
  | cons p os ih =>
    exact (ih (fun x hx => h x (List.mem_cons_of_mem _ hx))).trans (State.findOp_setOp_ne (p := p.qpFailed) (h p List.mem_cons_self))

/-- The operation that caused the failure of its queue pair stays as it ended. -/
theorem State.qpError_findOp (hfind : s.net.qps.find n = some q) (hlive : q.state ≠ 4) (id seq : Nat) :
    (s.qpError n (some id) seq).findOp id = s.findOp id := by
  rw [State.findOp, (State.qpError_reported hfind hlive (some id) seq).ring, ← State.findOp, State.findOp_setOps]
  · rfl
  · intro p hp
    simpa using (List.mem_filter.1 hp).2

theorem transportTimeout_effect (hop : s.findOp o.id = some o) (hfind : s.net.qps.find n = some q) (hlive : q.state ≠ 4) (seq : Nat) :
    let t := (s.transportTimedOut o n q).qpError n (some o.id) seq
    (t.net.qps.find n).map (·.state) = some 4 ∧
      (t.findOp o.id).map (fun x => (x.wait, x.status, x.detail)) = some (.done, 0x0E, 0x0F) ∧
      (∀ x ∈ t.ring.ops, x.id ≠ o.id → x.wait ≠ .remote n) ∧ (∀ m, m ≠ n → t.net.qps.find m = s.net.qps.find m) ∧ t.mem = s.mem := by
  intro t
  have hfind' : (s.transportTimedOut o n q).net.qps.find n = some q := by rw [State.transportTimedOut_qps, hfind]
  have hqps : t.net.qps = Tab.put s.net.qps n q.failed := by
    rw [← State.transportTimedOut_qps (s := s) (o := o) (n := n) (q := q)]
    exact State.qpError_qps hfind' hlive _ _
  have hop' : (s.post (s.transportPost o n q)).findOp o.id = some o := by
    rw [State.findOp, (s.post_reported (s.transportPost o n q)).ring, ← State.findOp, hop]
  refine ⟨?_, ?_, fun x hx hid => ?_, fun m hm => ?_, ?_⟩
  · rw [hqps, Tab.find_put_same]
    rfl
  · rw [State.qpError_findOp hfind' hlive, State.transportTimedOut, State.findOp_setOp_same (p := o.transportTimedOut) (id := o.id) rfl hop']
    rfl
  · exact State.qpError_wait hfind' hlive _ _ hx (by simpa using hid)
  · rw [hqps, Tab.find_put_ne _ _ _ _ hm.symm]
  · exact (State.qpError_mem hfind' hlive _ _).trans State.transportTimedOut_mem

/-! ### Waits and the acknowledgement timer (R452, R479) -/

theorem exec_rnrWaitExpiry_of_passed {w : Nat} (hfind : s.net.qps.find n = some q) (hwait : q.rnrWait = some w) (hpassed : w ≤ s.ns) :
    exec (.rnrWaitExpiry n) s = .next ((s.setQp n { q with rnrWait := none, lastRetry := s.ns }).pump n) := by
  change execRnrWaitExpiry n s = _
  simp only [execRnrWaitExpiry, hfind, hwait, if_pos hpassed]

theorem exec_ackTimeout_of_passed (hfind : s.net.qps.find n = some q) (hnet : q.net = true) (hstate : q.state = 3)
    (hspent : q.spent = false) (hwait : q.rnrWait = none) (hsent : 0 < q.outstanding)
    (hpassed : q.lastRetry + 4096 * 2 ^ q.ackTime ≤ s.ns) : exec (.ackTimeout n) s = .next (s.retryPeriod n q q.sqAck) := by
  change execAckTimeout n s = _
  simp [execAckTimeout, hfind, hnet, hstate, hspent, hwait, Nat.ne_of_gt hsent, Nat.not_lt.2 hpassed]

end

/-! ### The statement -/

/-- Settles O43: each message alone in its cycle, each timer by the queue pair it belongs to. -/
theorem messagesAreTakenAndAnswered : Obligations.MessagesAreTakenAndAnswered := by
  refine ⟨?_, ?_, ?_, ?_, ?_, ?_, ?_⟩
  · exact fun s cmp id r m h => exec_remoteRequestReceive_singleton h
  · rintro s n q p rest outcome ⟨hfind, hpassed, hcqe, htag, hstate⟩
    exact exec_remoteMessageVisible_of_plain hfind hpassed hcqe htag hstate outcome
  · rintro s cmp id r m ⟨hrx, hmsg, hrsp, hqp⟩
    exact ⟨exec_remoteResponseReceive_of_unknown hrx hmsg hrsp hqp, fun t => remoteResponseReceive_unknown_frame hrx hmsg hrsp hqp⟩
  · rintro s cmp id r m q ⟨hrx, hmsg, hrsp, hqp⟩ ⟨hcmp, hnet, hvia, hstate⟩
    exact exec_remoteResponseReceive_of_peer hrx hmsg hrsp hqp hcmp hnet hvia hstate
  · rintro s o n q ⟨hop, hwait, hfind, hlive⟩ ⟨hrun, hpassed⟩
    exact ⟨_, exec_transportTimeout_of_passed hop hwait hfind hrun hpassed, transportTimeout_effect hop hfind hlive _⟩
  · rintro s n w q ⟨hfind, hwait, hpassed⟩
    exact exec_rnrWaitExpiry_of_passed hfind hwait hpassed
  · rintro s n q ⟨hfind, hnet, hstate, hspent, hwait, hsent⟩ hpassed
    exact exec_ackTimeout_of_passed hfind hnet hstate hspent hwait hsent hpassed

end Sys2Proof.Machine
end

section
/-! SUPPORT. Proof of the statement on orders to queue pairs, doorbells of queues and asynchronous events (chapter 16). -/
namespace Sys2Proof.Machine

open Sys2Proof

/-! ### Manager orders (R436) -/

section
variable {s : State} {issuer fn n : Nat} {q : Qp}

section
variable (hopen : s.closed issuer (0x30002C + 0x100 * fn) = false) (hent : entitled issuer fn = true) (hne : issuer ≠ fn)
  (hfind : s.net.qps.find n = some q) (hown : q.owner = fn)
include hopen hent hne hfind hown

/-- An order of the manager, met by no command of the owner, that the state of the queue pair lists. -/
theorem State.qpOrder_of_listed {code : Nat} {t : State} (h : s.applyQp n code = some t) :
    s.qpOrder issuer fn n code false = t.wr .INS_ORD_STATUS fn 0 := by
  simp [State.qpOrder, hopen, hent, hne, State.ownQp_of_find hfind hown, h]

theorem State.qpOrder_of_unlisted {code : Nat} (h : s.applyQp n code = none) :
    s.qpOrder issuer fn n code false = s.wr .INS_ORD_STATUS fn 2 := by
  simp [State.qpOrder, hopen, hent, hne, State.ownQp_of_find hfind hown, h]

end

theorem State.applyQp_stop (hfind : s.net.qps.find n = some q) :
    s.applyQp n 5 = if q.state = 4 then none else some (s.qpError n none 0) := by
  simp [State.applyQp, hfind]

theorem State.applyQp_start (hfind : s.net.qps.find n = some q) :
    s.applyQp n 1 = if q.state = 4 then some (s.setQp n q.reset) else none := by
  simp [State.applyQp, hfind]

end

/-! ### Doorbells (R451, R454) -/

section
variable {s : State} {fn slot count : Nat}

/-- The doorbell page of a function that no reset holds is open. -/
theorem State.bellShut_eq_false (h : isMgr fn = true ∨ s.rd .INS_RESET_BUSY fn = 0) : s.bellShut fn 0 4 = false := by
  rcases h with h | h <;> simp [State.bellShut, h]

theorem exec_srqDoorbell_of_room {q : Srq} (hslot : slot < 64) (hbell : s.bellBlocked fn = false) (hcount : count < 2 ^ 32)
    (hfree : isMgr fn = true ∨ s.rd .INS_RESET_BUSY fn = 0) (hvalid : s.rd .NET_SRQ_SLOT_VALID (64 * fn + slot) = 1)
    (hfind : s.net.srqs.find (s.rd .NET_SRQ_SLOT (64 * fn + slot)) = some q) (hcons : diff32 count q.cons ≤ 2 ^ q.log2)
    (hprod : diff32 count q.prod ≤ 2 ^ q.log2) :
    exec (.srqDoorbell fn slot 0 4 count) s = .next (s.setSrq (s.rd .NET_SRQ_SLOT (64 * fn + slot))
      { q with prod := count, told := q.told && decide (diff32 count q.cons < q.limit) }) := by
  change execSrqDoorbell fn slot 0 4 count s = _
  simp only [execSrqDoorbell, Nat.mod_eq_of_lt hcount]
  simp [Nat.not_le.2 hslot, hbell, State.bellShut_eq_false hfree, hvalid, hfind,
    Nat.not_lt.2 hcons, Nat.not_lt.2 hprod]
  rfl

theorem exec_cqDoorbell_of_room {q : Cq} (hslot : slot < 64) (hbell : s.bellBlocked fn = false) (hcount : count < 2 ^ 32)
    (hfree : isMgr fn = true ∨ s.rd .INS_RESET_BUSY fn = 0) (hvalid : s.rd .NET_CQ_SLOT_VALID (64 * fn + slot) = 1)
    (hfind : s.net.cqs.find (s.rd .NET_CQ_SLOT (64 * fn + slot)) = some q) (hroom : diff32 q.prod count ≤ 2 ^ q.log2) :
    exec (.cqDoorbell fn slot 0 4 count) s = .next (s.setCq (s.rd .NET_CQ_SLOT (64 * fn + slot)) { q with cons := count }) := by
  change execCqDoorbell fn slot 0 4 count s = _
  simp only [execCqDoorbell, Nat.mod_eq_of_lt hcount]
  simp [Nat.not_le.2 hslot, hbell, State.bellShut_eq_false hfree, hvalid, hfind,
    Nat.not_lt.2 hroom]

end

/-! ### Asynchronous events (R460, R11) -/

/-- The register of a function that reads its asynchronous events. -/
def aeqOff (fn : Nat) : Nat := if isMgr fn then 0xB80030 else 0x50030

/-- The oldest record `r` has left the queue of a function, which holds `rest`: its high half is latched and its low half answered. -/
def State.aeqTaken (s : State) (fn r : Nat) (rest : List Nat) : State :=
  { s with net := { s.net with aeq := Tab.set s.net.aeq [] fn rest }
           reg := { s.reg with shadow := Tab.put s.reg.shadow (pairKey fn (aeqOff fn)) (r / 2 ^ 32) }
           sent := s.sent ++ [⟨.readValue, [fn, aeqOff fn, r % 2 ^ 32]⟩] }

section
variable {s : State} {fn r : Nat} {rest : List Nat}

theorem exec_aeqRead_of_record (hbars : s.barsBlocked fn = false) (hopen : s.closed fn (aeqOff fn) = false) (hq : s.aeq fn = r :: rest) :
    exec (.aeqRead fn) s = .next ((s.aeqTaken fn r rest).aeqRaise fn) := by
  change execAeqRead fn s = _
  rw [aeqOff] at hopen
  simp only [execAeqRead, hbars, hopen, hq, Bool.false_eq_true, if_false, List.headD_cons, List.drop_one, List.tail_cons]
  rfl

theorem State.aeqTaken_raise : (s.aeqTaken fn r rest).sends ((s.aeqTaken fn r rest).aeqRaise fn) := State.aeqRaise_sends ..

theorem State.aeqTaken_raise_aeq : ((s.aeqTaken fn r rest).aeqRaise fn).aeq fn = rest := by
  rw [State.aeq, State.aeqTaken_raise.net]
  exact Tab.get_set_same ..

theorem State.aeqTaken_raise_shadow :
    ((s.aeqTaken fn r rest).aeqRaise fn).reg.shadow.find (pairKey fn (aeqOff fn)) = some (r / 2 ^ 32) := by
  rw [(State.aeqRaise_reported ..).shadow]
  exact Tab.find_put_same ..

theorem State.aeqTaken_raise_sent :
    (⟨.readValue, [fn, aeqOff fn, r % 2 ^ 32]⟩ : Emit) ∈ ((s.aeqTaken fn r rest).aeqRaise fn).sent :=
  State.aeqTaken_raise.sent.subset List.mem_concat_self

theorem State.aeqTaken_raise_keepsBut : s.keepsBut ((s.aeqTaken fn r rest).aeqRaise fn) raiseFlds :=
  (State.aeqRaise_reported ..).2

end

/-! ### The statement -/

/-- Settles O42: an order by the state of its queue pair, a doorbell by its count, a read by the record that is oldest. -/
theorem remoteOrdersAndDoorbells : Obligations.RemoteOrdersAndDoorbells := by
  refine ⟨?_, ?_, ?_, ?_⟩
  · rintro s issuer fn n q ⟨hopen, hent, hne⟩ ⟨hfind, hown⟩
    have hstop := State.applyQp_stop hfind
    have hstart := State.applyQp_start hfind
    constructor <;> intro hstate
    · rw [if_pos hstate] at hstop hstart
      exact ⟨congrArg _ (State.qpOrder_of_unlisted hopen hent hne hfind hown hstop),
        congrArg _ (State.qpOrder_of_listed hopen hent hne hfind hown hstart)⟩
    · rw [if_neg hstate] at hstop hstart
      exact ⟨congrArg _ (State.qpOrder_of_listed hopen hent hne hfind hown hstop),
        congrArg _ (State.qpOrder_of_unlisted hopen hent hne hfind hown hstart)⟩
  · rintro s fn slot count q ⟨hslot, hbell, hcount, hfree⟩ ⟨hvalid, hfind⟩ ⟨hcons, hprod⟩
    exact exec_srqDoorbell_of_room hslot hbell hcount hfree hvalid hfind hcons hprod
  · rintro s fn slot count q ⟨hslot, hbell, hcount, hfree⟩ ⟨hvalid, hfind⟩ hroom
    exact exec_cqDoorbell_of_room hslot hbell hcount hfree hvalid hfind hroom
  · rintro s fn r rest ⟨hbars, hopen, hq⟩ off
    exact ⟨_, exec_aeqRead_of_record hbars hopen hq, State.aeqTaken_raise_aeq, State.aeqTaken_raise_shadow, State.aeqTaken_raise_sent,
      State.aeqTaken_raise_keepsBut, (State.aeqRaise_reported ..).mem⟩

end Sys2Proof.Machine
end

section
/-! SUPPORT. Proof of the statement on the Ethernet ports (chapter 17). -/
namespace Sys2Proof.Machine

open Sys2Proof

/-! ### Received packets (R464 to R467, R485, R488) -/

section
variable {s : State} {port occ c : Nat} {k : Packet}

/-- Below its mark an intake buffer sends no pause. -/
theorem State.intake_of_low (h : occ < s.rd .NET_PFC_XOFF port) (prio : Nat) : s.intake port prio occ = s := by
  simp [State.intake, Nat.not_le.2 h]

/-- A packet that passes every check goes on for its compartment. -/
theorem State.packetIn_of_passed (hport : port < 2) (hup : s.rd .NET_PORT_LINK_UP port = 1) (hfcs : k.fcsOk = true)
    (hroce : k.roce = true) (hlow : occ < s.rd .NET_PFC_XOFF port) (hroom : occ < 256) (hicrc : k.icrcOk = true) (hhdr : k.hdrOk = true)
    (hip : s.ipCmp port k.dstIp = some c) (hqp : k.dstQp < 65536) (hblk : (s.grants c).qpBlk.contains (k.dstQp / 512) = true)
    (hkey : k.pkey % 2 ^ 15 = s.rd .NET_CMP_PKEY (2 * c + port) % 2 ^ 15) (next : State → Nat → State) :
    s.packetIn port occ k next = next s c := by
  have hclosed : (decide (2 ≤ port) || decide (s.rd .NET_PORT_LINK_UP port = 0)) = false := by
    simp [Nat.not_le.2 hport, hup]
  have hlossy : (!s.prioOn port k.prio && decide (256 ≤ occ)) = false := by simp [Nat.not_le.2 hroom]
  have hdest : (decide (65536 ≤ k.dstQp) || !(s.grants c).qpBlk.contains (k.dstQp / 512)) = false := by
    rw [hblk]
    simpa using hqp
  simp only [State.packetIn, hclosed, State.intake_of_low hlow, hfcs, hroce, hlossy, hicrc, hhdr, hip, hdest, hkey, bne_self_eq_false,
    Bool.not_true, Bool.false_eq_true, if_false]

theorem State.packetIn_of_badFcs (hport : port < 2) (hup : s.rd .NET_PORT_LINK_UP port = 1) (hfcs : k.fcsOk = false)
    (hlow : occ < s.rd .NET_PFC_XOFF port) (next : State → Nat → State) :
    s.packetIn port occ k next = s.bump .NET_PORT_FCS_ERR port 1 := by
  simp [State.packetIn, Nat.not_le.2 hport, hup, State.intake_of_low hlow, hfcs]

theorem State.packetIn_of_noPort (h : 2 ≤ port) (next : State → Nat → State) : s.packetIn port occ k next = s := by
  simp [State.packetIn, h]

/-- A listed opcode on a queue pair without encryption, once the packet has passed, goes to its allotment. -/
theorem exec_rocePacketReceive_of_packetIn (hop : k.opcode ≤ 0x14) (hplain : (s.net.qps.find k.dstQp).any (fun q => q.crypt) = false)
    (hpass : ∀ next, s.packetIn port occ k next = next s c) :
    exec (.rocePacketReceive port occ k) s = .next ((s.ceMark k.dstQp k).allotIn c port k) := by
  have hcnp : k.opcode ≠ 0x81 := by omega
  change execRocePacketReceive port occ k s = _
  rw [execRocePacketReceive, hpass]
  simp [hcnp, opListed, hop, hplain]

/-! ### Rate control (R489) -/

theorem exec_cnpReceive_of_packetIn {q : Qp} (hop : k.opcode = 0x81) (hfind : s.net.qps.find k.dstQp = some q) (hnet : q.net = true)
    (hcmp : q.cmp = c) (hpass : ∀ next, s.packetIn port 0 k next = next s c) :
    exec (.cnpReceive port k) s = .next ((s.setQp k.dstQp (q.onCnp (s.rd .NET_CC_G port) (s.rd .NET_CC_MIN port) s.ns)).bump
      .NET_ST_CNP_RX c 1) := by
  change execCnpReceive port k s = _
  rw [execCnpReceive, hpass]
  simp [hfind, hop, hnet, hcmp]

/-- A congestion notification changes its queue pair and a counter. -/
theorem State.cnpTaken_frame (s : State) (n c : Nat) (q : Qp) :
    let t := (s.setQp n q).bump .NET_ST_CNP_RX c 1
    t.net.qps.find n = some q ∧ (∀ m, m ≠ n → t.net.qps.find m = s.net.qps.find m) ∧ s.keepsBut t [.NET_ST_CNP_RX, .STAT_F_LIVE] ∧
      t = { s with reg := { s.reg with vals := t.reg.vals }, net := t.net } := by
  intro t
  have hcount : t = (s.setQp n q).wr .NET_ST_CNP_RX c (satAdd Fld.NET_ST_CNP_RX.spec.width (s.rd .NET_ST_CNP_RX c) 1) :=
    State.bump_eq_wr _ rfl ..
  rw [hcount]
  exact ⟨Tab.find_put_same .., fun m hm => Tab.find_put_ne _ _ _ _ hm.symm,
    State.keepsBut_wr (t := s.setQp n q) .NET_ST_CNP_RX _ _ (by decide) (s.keepsBut_refl _), rfl⟩

end

section
variable {s : State} {n : Nat} {q : Qp}

theorem exec_ccAlphaTimer_of_quiet (hfind : s.net.qps.find n = some q) (hnet : q.net = true) (hquiet : q.cnpRx = none) :
    exec (.ccAlphaTimer n) s = .next (s.setQp n { q with alpha := q.alpha - q.alpha * s.rd .NET_CC_G q.port / 1024 }) := by
  change execCcAlphaTimer n s = _
  simp [execCcAlphaTimer, hfind, hnet, hquiet]

/-- The queue pair after a step of its rate. -/
def Qp.rateStep (q : Qp) (rai : Nat) : Qp :=
  let target := if 5 < q.stage + 1 then min (q.target + rai) 8000 else q.target
  { q with stage := q.stage + 1, target := target, rate := (q.rate + target) / 2 }

theorem exec_ccRateTimer_of_net (hfind : s.net.qps.find n = some q) (hnet : q.net = true) :
    exec (.ccRateTimer n) s = .next (s.setQp n (q.rateStep (s.rd .NET_CC_RAI q.port))) := by
  change execCcRateTimer n s = _
  have hon : (!q.net) = false := by simp [hnet]
  simp only [execCcRateTimer, hfind, hon, Bool.false_eq_true, if_false]
  rfl

end

/-! ### Priority flow control (R484, R485, R487) -/

/-- A priority is paused until `w`; a pause that has begun keeps its beginning. -/
def State.paused (s : State) (k w : Nat) : State :=
  { s with net := { s.net with pauseTo := Tab.put s.net.pauseTo k w, pauseAt := Tab.put s.net.pauseAt k ((s.net.pauseAt.find k).getD s.ns) } }

section
variable {s : State} {port prio : Nat}

theorem State.prioOn_of_keepsBut {t : State} {fs : List Fld} (h : s.keepsBut t fs)
    (hfs : ∀ f ∈ [Fld.NET_PFC_EN, .NET_PFC_PRIO_A, .NET_PFC_PRIO_B], f ∉ fs) (p prio : Nat) : t.prioOn p prio = s.prioOn p prio := by
  simp only [State.prioOn, h .NET_PFC_EN (hfs _ (by decide)), h .NET_PFC_PRIO_A (hfs _ (by decide)), h .NET_PFC_PRIO_B (hfs _ (by decide))]

theorem exec_pfcFrameReceive_of_enabled {quanta : Nat} (hport : port < 2) (hup : s.rd .NET_PORT_LINK_UP port = 1)
    (hon : s.prioOn port prio = true) (hpos : 0 < quanta) (hlt : quanta < 2 ^ 16) :
    exec (.pfcFrameReceive port prio quanta) s = .next ((s.bump .NET_PORT_PFC_RX port 1).paused (prioKey port prio)
      (s.ns + ceilDiv (quanta * 64) 100)) := by
  have hbump := s.bump_reported (fs := [.NET_PORT_PFC_RX, .STAT_F_LIVE]) .NET_PORT_PFC_RX port 1 (by decide) (by decide)
  have hon' : (s.bump .NET_PORT_PFC_RX port 1).prioOn port prio = true := (State.prioOn_of_keepsBut hbump.2 (by decide) ..).trans hon
  change execPfcFrameReceive port prio quanta s = _
  simp only [execPfcFrameReceive, Nat.mod_eq_of_lt hlt]
  simp only [Nat.not_le.2 hport, hup, hon', Nat.ne_of_gt hpos, hbump.ns, decide_false, Bool.or_false, Bool.not_true,
    Bool.false_eq_true, if_false, Nat.one_ne_zero, State.paused]

theorem State.paused_frame (s : State) (k port w : Nat) :
    let t := (s.bump .NET_PORT_PFC_RX port 1).paused k w
    t.net.pauseTo.find k = some w ∧ t.net.pauseAt.find k = some ((s.net.pauseAt.find k).getD s.ns) ∧
      s.keepsBut t [.NET_PORT_PFC_RX, .STAT_F_LIVE] ∧ t = { s with reg := { s.reg with vals := t.reg.vals }, net := t.net } := by
  intro t
  have hbump := s.bump_reported (fs := [.NET_PORT_PFC_RX, .STAT_F_LIVE]) .NET_PORT_PFC_RX port 1 (by decide) (by decide)
  have hcount : s.bump .NET_PORT_PFC_RX port 1 =
      s.wr .NET_PORT_PFC_RX port (satAdd Fld.NET_PORT_PFC_RX.spec.width (s.rd .NET_PORT_PFC_RX port) 1) := s.bump_eq_wr rfl ..
  refine ⟨Tab.find_put_same .., ?_, hbump.2.of_reg rfl, ?_⟩
  · rw [show t = (s.bump .NET_PORT_PFC_RX port 1).paused k w from rfl, hcount]
    exact Tab.find_put_same ..
  · rw [show t = (s.bump .NET_PORT_PFC_RX port 1).paused k w from rfl, hcount]
    rfl

theorem exec_pfcPauseExpiry_of_passed {w : Nat} (hpause : s.net.pauseTo.find (prioKey port prio) = some w) (hpassed : w ≤ s.ns) :
    exec (.pfcPauseExpiry port prio) s = .next (State.flushFrames { s with net := { s.net with
      pauseTo := Tab.del s.net.pauseTo (prioKey port prio), pauseAt := Tab.del s.net.pauseAt (prioKey port prio)
      stormed := s.net.stormed.filter (fun x => x != prioKey port prio) } } port prio) := by
  change execPfcPauseExpiry port prio s = _
  simp only [execPfcPauseExpiry, hpause, if_neg (Nat.not_lt.2 hpassed)]

/-- A pause is noted as one that has lasted too long. -/
def State.stormNoted (s : State) (k : Nat) : State := { s with net := { s.net with stormed := s.net.stormed ++ [k] } }

theorem exec_pfcStorm_of_long {w : Nat} (hpause : s.net.pauseAt.find (prioKey port prio) = some w) (hnew : prioKey port prio ∉ s.net.stormed)
    (hlong : w + 1000 * s.rd .NET_PFC_STORM_US port ≤ s.ns) :
    exec (.pfcStorm port prio) s = .next ((s.stormNoted (prioKey port prio)).post (devInc 0x0C07 .degraded (0x10 + port) 0 [prio])) := by
  change execPfcStorm port prio s = _
  simp [execPfcStorm, hpause, hnew, Nat.not_lt.2 hlong, State.stormNoted]

/-- What an incident leaves of remote access: all but the asynchronous event queues. -/
theorem State.reported.net {fs : List Fld} {s t : State} (h : s.reported fs t) : t.net = { s.net with aeq := t.net.aeq } :=
  congrArg State.net h.1

theorem State.stormNoted_post_frame (s : State) (k : Nat) {p : Post} (hsev : p.sev ≠ .device) :
    let t := (s.stormNoted k).post p
    k ∈ t.net.stormed ∧ t.rd .INC_SEQ_NEXT 0 = seqAfter (s.rd .INC_SEQ_NEXT 0) % 2 ^ 32 ∧ s.keepsBut t postFlds ∧
      t = { s.reports t with net := t.net } := by
  intro t
  have hpost : (s.stormNoted k).reported postFlds t := State.post_reported _ p
  refine ⟨?_, State.post_seq _ hsev, hpost.2, ?_⟩
  · rw [hpost.net]
    exact List.mem_concat_self
  · have heq := hpost.1
    generalize t = u at heq ⊢
    rw [heq]
    rfl

theorem exec_pfcRefreshTimer_of_on (hon : prioKey port prio ∈ s.net.pfcOn) :
    exec (.pfcRefreshTimer port prio) s = .next ((s.bump .NET_PORT_PFC_TX port 1).emit .pfc [port, prio, 0xFFFF]) := by
  change execPfcRefreshTimer port prio s = _
  simp [execPfcRefreshTimer, hon, State.pfcSend]

/-- A priority whose intake is below its mark sends no more pauses. -/
def State.resumed (s : State) (port prio : Nat) : State :=
  { s.pfcSend port prio 0 with net := { (s.pfcSend port prio 0).net with
      pfcOn := (s.pfcSend port prio 0).net.pfcOn.filter (fun x => x != prioKey port prio) } }

theorem exec_intakeBelowXon_of_on (hon : prioKey port prio ∈ s.net.pfcOn) :
    exec (.intakeBelowXon port prio) s = .next (s.resumed port prio) := by
  change execIntakeBelowXon port prio s = _
  simp [execIntakeBelowXon, hon, State.resumed, State.pfcSend, State.bump_net]

theorem State.resumed_frame (s : State) (port prio : Nat) : prioKey port prio ∉ (s.resumed port prio).net.pfcOn ∧
    (s.resumed port prio).sent = s.sent ++ [⟨.pfc, [port, prio, 0]⟩] ∧ s.keepsBut (s.resumed port prio) [.NET_PORT_PFC_TX, .STAT_F_LIVE] ∧
    (s.resumed port prio).mem = s.mem := by
  have hbump := s.bump_reported (fs := [.NET_PORT_PFC_TX, .STAT_F_LIVE]) .NET_PORT_PFC_TX port 1 (by decide) (by decide)
  refine ⟨by simp [State.resumed], ?_, hbump.2.of_reg rfl, hbump.mem⟩
  change (s.bump .NET_PORT_PFC_TX port 1).sent ++ _ = _
  rw [State.bump_eq]

end

/-! ### Links (R463) -/

theorem State.portEvent_reported (s : State) (fns : List Nat) (code port seq : Nat) : s.reported postFlds (s.portEvent fns code port seq) :=
  .foldl _ (fun s _ => s.aeqPost_reported ..) ..

/-- The link of a port is down, and its users and the device ring know it. -/
def State.netDownTold (s : State) (p : Nat) : State :=
  let r := (s.wr .NET_PORT_LINK_UP p 0).postQ (devInc 0x0C03 .degraded (0x10 + p) 0 [])
  r.2.portEvent (r.2.portUsers p) 4 (0x10 + p) r.1

section
variable {s : State} {p : Nat}

theorem exec_netLinkDown_of_up (hp : p < 2) (hup : s.rd .NET_PORT_LINK_UP p = 1) : exec (.netLinkDown p) s =
    .next { s.netDownTold p with net := { (s.netDownTold p).net with held := (s.netDownTold p).net.held.keep (fun k _ => k / 8 != p) } } := by
  change execNetLinkDown p s = _
  simp only [execNetLinkDown, if_pos hp, State.netDown, hup, Nat.one_ne_zero, if_false]
  rfl

theorem State.netDownTold_reported (s : State) (p : Nat) : (s.wr .NET_PORT_LINK_UP p 0).reported postFlds (s.netDownTold p) :=
  (State.postQ_reported ..).trans (State.portEvent_reported ..)

theorem State.netDownTold_linkUp (s : State) (p : Nat) : (s.netDownTold p).rd .NET_PORT_LINK_UP p = 0 :=
  ((s.netDownTold_reported p).rd (by decide) p).trans (s.rd_wr_same ..)

theorem State.netDownTold_keepsBut (s : State) (p : Nat) : s.keepsBut (s.netDownTold p) (.NET_PORT_LINK_UP :: postFlds) :=
  (s.netDownTold_reported p).keeps (List.subset_cons_self _ _) (s.keepsBut_wr .NET_PORT_LINK_UP p 0 (by decide) (s.keepsBut_refl _))

theorem State.netDownTold_net (s : State) (p : Nat) : (s.netDownTold p).net = { s.net with aeq := (s.netDownTold p).net.aeq } :=
  (s.netDownTold_reported p).net

theorem State.netDownTold_eq (s : State) (p : Nat) : s.netDownTold p = s.reports (s.netDownTold p) := (s.netDownTold_reported p).1

/-- Frames that leave are sent, and change no register, queue pair or memory. -/
theorem State.flushFrames_parts (s : State) (p prio : Nat) :
    (s.flushFrames p prio).reg = s.reg ∧ (s.flushFrames p prio).net.qps = s.net.qps := by
  unfold State.flushFrames
  dsimp only
  split
  · exact ⟨kept_fold_of State.reg (fun (s : State) ws => s.emit .packet (p :: ws)) (fun _ _ => rfl) _ _,
      kept_fold_of (fun s : State => s.net.qps) (fun (s : State) ws => s.emit .packet (p :: ws)) (fun _ _ => rfl) _ _⟩
  · exact ⟨rfl, rfl⟩

/-- The link of a port is up, and its users know it. -/
def State.netUpTold (s : State) (p : Nat) : State :=
  (s.wr .NET_PORT_LINK_UP p 1).portEvent ((s.wr .NET_PORT_LINK_UP p 1).portUsers p) 5 (0x10 + p) 0

theorem exec_netLinkUp_of_down (hp : p < 2) (hdown : s.rd .NET_PORT_LINK_UP p = 0) (hen : s.rd .NET_PORT_EN p = 1)
    (hgate : bit (s.rd .PWR_GATE_NET 0) p = false) :
    exec (.netLinkUp p) s = .next ((List.range 8).foldl (fun (s : State) prio => s.flushFrames p prio) (s.netUpTold p)) := by
  change execNetLinkUp p s = _
  simp only [execNetLinkUp, Nat.not_le.2 hp, hdown, hen, hgate, Nat.zero_ne_one, Nat.one_ne_zero, decide_false, Bool.or_self,
    Bool.false_eq_true, if_false]
  rfl

theorem State.netUpTold_reported (s : State) (p : Nat) : (s.wr .NET_PORT_LINK_UP p 1).reported postFlds (s.netUpTold p) :=
  State.portEvent_reported ..

theorem State.netUpFlushed_parts (s : State) (p : Nat) (prios : List Nat) :
    let t := prios.foldl (fun (s : State) prio => s.flushFrames p prio) (s.netUpTold p)
    t.rd .NET_PORT_LINK_UP p = 1 ∧ t.net.qps = s.net.qps := by
  intro t
  have hreg : t.reg = (s.netUpTold p).reg := kept_fold_of State.reg (fun (s : State) prio => s.flushFrames p prio) (fun u prio => (u.flushFrames_parts p prio).1) _ _
  have hqps : t.net.qps = (s.netUpTold p).net.qps :=
    kept_fold_of (fun s : State => s.net.qps) (fun (s : State) prio => s.flushFrames p prio) (fun u prio => (u.flushFrames_parts p prio).2) _ _
  refine ⟨?_, hqps.trans (s.netUpTold_reported p).qps⟩
  rw [State.rd, hreg]
  exact ((s.netUpTold_reported p).rd (by decide) p).trans (s.rd_wr_same ..)

end

/-! ### The statement -/

/-- Settles O44: a packet by its checks, a queue pair by its timers, a priority by its pause, a port by its link. -/
theorem ethernetPortsTakePackets : Obligations.EthernetPortsTakePackets := by
  refine ⟨?_, ?_, ?_, ?_, ?_, ?_, ?_, ?_, ?_⟩
  · rintro s port occ c k ⟨hport, hup, hfcs, hroce, hlow, hroom, hicrc, hhdr⟩ ⟨hip, hqp, hblk, hkey⟩ ⟨hop, hplain⟩
    exact exec_rocePacketReceive_of_packetIn hop hplain
      (State.packetIn_of_passed hport hup hfcs hroce hlow hroom hicrc hhdr hip hqp hblk hkey)
  · rintro s port occ k ⟨hport, hup, hfcs, hlow⟩
    refine ⟨congrArg _ (State.packetIn_of_badFcs hport hup hfcs hlow _), ?_⟩
    change execRocePacketReceive 2 occ k s = _
    rw [execRocePacketReceive, State.packetIn_of_noPort (Nat.le_refl 2)]
  · rintro s port c k q ⟨hport, hup, hfcs, hroce, hlow, hroom, hicrc, hhdr⟩ ⟨hip, hqp, hblk, hkey⟩ ⟨hop, hfind, hnet, hcmp⟩
    obtain ⟨hnew, hothers, hkeeps, hframe⟩ := s.cnpTaken_frame k.dstQp c (q.onCnp (s.rd .NET_CC_G port) (s.rd .NET_CC_MIN port) s.ns)
    exact ⟨_, _, exec_cnpReceive_of_packetIn hop hfind hnet hcmp
      (State.packetIn_of_passed hport hup hfcs hroce hlow hroom hicrc hhdr hip hqp hblk hkey), hnew, rfl, rfl, rfl, rfl, hothers, hkeeps,
      hframe⟩
  · rintro s n q ⟨hfind, hnet⟩
    exact ⟨exec_ccAlphaTimer_of_quiet hfind hnet, _, exec_ccRateTimer_of_net hfind hnet, rfl, rfl, rfl, rfl⟩
  · rintro s port prio quanta ⟨hport, hup, hon, hpos, hlt⟩
    exact ⟨_, exec_pfcFrameReceive_of_enabled hport hup hon hpos hlt, s.paused_frame ..⟩
  · rintro s port prio w ⟨hpause, hpassed⟩ k n
    exact exec_pfcPauseExpiry_of_passed hpause hpassed
  · rintro s port prio w ⟨hpause, hnew, hlong⟩
    exact ⟨_, exec_pfcStorm_of_long hpause hnew hlong, s.stormNoted_post_frame _ (by simp [devInc])⟩
  · rintro s port prio hon
    exact ⟨exec_pfcRefreshTimer_of_on hon, _, exec_intakeBelowXon_of_on hon, s.resumed_frame port prio⟩
  · rintro s p hp
    refine ⟨fun hup => ⟨_, exec_netLinkDown_of_up hp hup, s.netDownTold_linkUp p, ?_, ?_, s.netDownTold_keepsBut p, ?_⟩,
      fun hdown hen hgate => ?_⟩
    · rw [s.netDownTold_net p]
    · rw [s.netDownTold_net p]
    · rw [s.netDownTold_eq p]
      rfl
    · have hexec := exec_netLinkUp_of_down hp hdown hen hgate
      obtain ⟨hlink, hqps⟩ := s.netUpFlushed_parts p (List.range 8)
      exact ⟨_, hexec, hlink, hqps, State.mem_of_still (still_execNetLinkUp (h := hexec) ..)⟩

end Sys2Proof.Machine
end

section
/-! SUPPORT. Incident records on their way into a ring (chapter 18). -/
namespace Sys2Proof.Machine

open Sys2Proof

theorem leBytes_length (n v : Nat) : (leBytes n v).length = n := by
  induction n generalizing v with
  | zero => rfl
  | succ n ih => exact congrArg (· + 1) (ih _)

theorem bytesOf_length (ws : List Nat) : (bytesOf ws).length = 8 * ws.length := by
  induction ws with
  | nil => rfl
  | cons w ws ih =>
    have hcons : bytesOf (w :: ws) = leBytes 8 w ++ bytesOf ws := rfl
    rw [hcons, List.length_append, leBytes_length, ih, List.length_cons]
    omega

/-- A record has 64 bytes (R493). -/
theorem Incident.bytes_length (r : Incident) (ring prod : Nat) : (bytesOf (r.words ring prod)).length = 64 := by
  rw [bytesOf_length]
  rfl

/-! ### The fields and the queue of a ring -/

theorem State.incRd_of_keepsBut {s t : State} {fs : List Fld} (h : s.keepsBut t fs) {dev cmp : Fld} (hdev : dev ∉ fs) (hcmp : cmp ∉ fs)
    (ring : Nat) : t.incRd dev cmp ring = s.incRd dev cmp ring := by
  unfold State.incRd
  rw [h dev hdev, h cmp hcmp]

theorem State.incRd_incWr_same (s : State) (dev cmp : Fld) (ring v : Nat) (hw : cmp.spec.width = dev.spec.width) :
    (s.incWr dev cmp ring v).incRd dev cmp ring = v % 2 ^ dev.spec.width := by
  unfold State.incRd State.incWr
  split
  · exact s.rd_wr_same ..
  · rw [← hw]
    exact s.rd_wr_same ..

theorem State.incWr_reported (s : State) {fs : List Fld} (dev cmp : Fld) (ring v : Nat) (hdev : dev ∈ fs) (hcmp : cmp ∈ fs) :
    s.reported fs (s.incWr dev cmp ring v) := .ite (s.wr_reported _ _ _ hdev) (s.wr_reported _ _ _ hcmp)

theorem State.incWr_incQ (s : State) (dev cmp : Fld) (ring v n : Nat) : (s.incWr dev cmp ring v).incQ n = s.incQ n := by
  unfold State.incWr
  split <;> rfl

theorem State.incQ_setIncQ (s : State) (ring : Nat) (q : List Incident) : (s.setIncQ ring q).incQ ring = q := by
  unfold State.incQ State.setIncQ
  split
  · rfl
  · exact Tab.get_set_same _ _ _ _

theorem State.setIncQ_reported (s : State) (fs : List Fld) (ring : Nat) (q : List Incident) : s.reported fs (s.setIncQ ring q) :=
  .ite (s.inc_reported ..) (s.inc_reported ..)

theorem State.incQ_of_inc {s t : State} (h : t.inc = s.inc) (ring : Nat) : t.incQ ring = s.incQ ring := by
  unfold State.incQ
  rw [h]

/-! ### Losses (R501) -/

/-- What no ring field of a loss names, leaves the losses. -/
theorem State.lostAt_of_keepsBut {s t : State} {fs : List Fld} (h : s.keepsBut t fs) (hdev : ∀ v, lostDev v ∉ fs) (hcmp : ∀ v, lostCmp v ∉ fs)
    (ring : Nat) : t.lostAt ring = s.lostAt ring := by
  unfold State.lostAt
  simp only [fun v => State.incRd_of_keepsBut h (hdev v) (hcmp v) ring]

/-- A ring that has lost nothing has nothing to report. -/
theorem State.reportLost_of_none {s : State} {ring : Nat} (h : s.lostAt ring = [0, 0, 0, 0]) : s.reportLost ring = s := by
  simp [State.reportLost, h]

/-! ### Writing a record (R499, R501) -/

/-- Fields that a written record may change. -/
def recordFlds : List Fld := .INC_DRING_PROD :: .INC_CRING_PROD :: raiseFlds

theorem lostDev_notMem_record (v : Nat) : lostDev v ∉ recordFlds := by
  unfold lostDev
  split <;> decide

theorem lostCmp_notMem_record (v : Nat) : lostCmp v ∉ recordFlds := by
  unfold lostCmp
  split <;> decide

/-- The front record leaves its queue, and is counted in its ring. -/
def State.incAdvanced (s : State) (ring : Nat) : State :=
  let t := s.incWr .INC_DRING_PROD .INC_CRING_PROD ring ((s.incRd .INC_DRING_PROD .INC_CRING_PROD ring + 1) % 2 ^ 32)
  t.setIncQ ring ((t.incQ ring).drop 1)

section
variable (s : State) (ring : Nat)

theorem State.incAdvanced_reported : s.reported recordFlds (s.incAdvanced ring) :=
  (s.incWr_reported _ _ _ _ (by decide) (by decide)).trans (State.setIncQ_reported ..)

theorem State.incAdvanced_incQ : (s.incAdvanced ring).incQ ring = (s.incQ ring).drop 1 :=
  (State.incQ_setIncQ ..).trans (congrArg (List.drop 1) (s.incWr_incQ ..))

theorem State.incAdvanced_count : (s.incAdvanced ring).incRd .INC_DRING_PROD .INC_CRING_PROD ring
    = (s.incRd .INC_DRING_PROD .INC_CRING_PROD ring + 1) % 2 ^ 32 := by
  refine (State.incRd_of_keepsBut (State.setIncQ_reported _ [] _ _).2 (by simp) (by simp) ring).trans ?_
  exact (s.incRd_incWr_same .INC_DRING_PROD .INC_CRING_PROD ring _ rfl).trans (Nat.mod_mod ..)

/-- With nothing lost, a written record beside that only raises the event source of its ring. -/
theorem State.incWritten_of_none (hlost : s.lostAt ring = [0, 0, 0, 0]) :
    s.incWritten ring = (s.incAdvanced ring).occur (if ring = 0 then 1 else 0xE0 + (ring - 1)) := by
  refine State.reportLost_of_none ?_
  have hraised := (State.occur_reported (s.incAdvanced ring) (if ring = 0 then 1 else 0xE0 + (ring - 1))).mono (gs := recordFlds) (by decide)
  exact (State.lostAt_of_keepsBut ((s.incAdvanced_reported ring).trans hraised).2 lostDev_notMem_record lostCmp_notMem_record ring).trans hlost

end

theorem exec_incidentRecordWrite_of_room {s : State} {ring : Nat} {r : Incident} {rest : List Incident} (hring : ring < 33)
    (hroom : s.incRoom ring = true) (hq : s.incQ ring = r :: rest) :
    exec (.incidentRecordWrite ring .ok) s = .next ((s.incStore ring r).incWritten ring)
      ∧ exec (.incidentRecordWrite ring .fault) s = .next (s.incError ring false) := by
  have hlow : ¬ 33 ≤ ring := by omega
  constructor
  · change execIncidentRecordWrite ring .ok s = _
    simp [execIncidentRecordWrite, hlow, hroom, hq]
  · change execIncidentRecordWrite ring .fault s = _
    simp [execIncidentRecordWrite, hlow, hroom, hq]

/-- A record of a ring in host memory is stored through the primary port. -/
theorem State.incStore_of_host {s : State} {ring : Nat} (hloc : s.incRd .INC_DRING_LOC .INC_CRING_LOC ring = 1) (r : Incident) :
    s.incStore ring r = s.hostWrite s.pins.primary (s.incRd .INC_DRING_BASE .INC_CRING_BASE ring
        + 64 * (s.incRd .INC_DRING_PROD .INC_CRING_PROD ring % incSize ring))
      (bytesOf (r.words ring (s.incRd .INC_DRING_PROD .INC_CRING_PROD ring))) := by
  simp only [State.incStore, hloc, if_true]

/-! ### Orders of the primary manager function (R503, R527, R530) -/

theorem State.barsBlocked_of_open {s : State} {fn off : Nat} (h : s.closed fn off = false) : s.barsBlocked fn = false := by
  unfold State.closed at h
  exact (Bool.or_eq_false_iff.mp h).1

section
variable {s : State} {fn : Nat} (hmgr : isMgr fn = true) (hprim : fn = s.primaryFn)
include hmgr hprim

theorem exec_devicePendingClear_of_open (hopen : s.barsBlocked fn = false) :
    exec (.devicePendingClear fn) s = .next (s.wr .INC_DEVICE_PENDING 0 0) := by
  change execDevicePendingClear fn s = _
  simp [execDevicePendingClear, hopen, hmgr, ← hprim]

theorem exec_clampLogClear_of_open (hopen : s.closed fn 0x100104 = false) :
    exec (.clampLogClear fn) s = .next ({ s with reg := { s.reg with clamp := [] } }.wr .BOOT_CLAMP_DROPPED 0 0) := by
  change execClampLogClear fn s = _
  simp [execClampLogClear, hopen, hmgr, ← hprim]

theorem exec_attemptClear_of_open (hopen : s.closed fn 0x100004 = false) :
    exec (.attemptClear fn) s = .next (s.wr .BOOT_ATTEMPTS 0 0) := by
  change execAttemptClear fn s = _
  simp [execAttemptClear, hopen, hmgr, ← hprim]

end

/-! ### The statement -/

/-- Settles O51: a ring that has lost nothing reports no loss, so a written record stores its 64 bytes, advances its ring and raises an
event source; a fault and the orders of the primary manager function are the writes of their rules. -/
theorem incidentsReachTheirRings : Obligations.IncidentsReachTheirRings := by
  refine ⟨?_, ?_, ?_⟩
  · rintro s ring r rest ⟨hring, hroom, hq, hloc⟩ hlost
    have hexec := (exec_incidentRecordWrite_of_room hring hroom hq).1
    rw [State.incStore_of_host hloc] at hexec
    have hexec := hexec.trans (congrArg Host.Outcome.next (State.incWritten_of_none _ ring hlost))
    refine ⟨_, hexec, ?_, ?_, ⟨r.bytes_length .., fun b => ?_⟩, ?_, ?_⟩
    · exact (State.incRd_of_keepsBut (State.occur_reported ..).2 (by decide) (by decide) ring).trans (State.incAdvanced_count _ ring)
    · refine (State.incQ_of_inc (State.occur_sends ..).inc ring).trans ((State.incAdvanced_incQ _ ring).trans ?_)
      exact congrArg (List.drop 1) hq
    · rw [(State.occur_reported ..).mem, (State.incAdvanced_reported _ ring).mem, State.hostWrite_byte, r.bytes_length]
    · rw [(State.occur_reported ..).mem, (State.incAdvanced_reported _ ring).mem]
      rfl
    · exact (State.occur_reported ..).keeps (by decide) (State.incAdvanced_reported _ ring).2
  · rintro s ring r rest ⟨hring, hroom, hq⟩
    refine (exec_incidentRecordWrite_of_room hring hroom hq).2.trans (congrArg Host.Outcome.next ?_)
    unfold State.incError State.incWr
    by_cases hdevice : ring = 0
    · simp [hdevice]
    · simp [hdevice, b2n]
  · rintro s fn ⟨hclamp, hattempts, hmgr, hprim⟩
    exact ⟨exec_devicePendingClear_of_open hmgr hprim (State.barsBlocked_of_open hclamp), exec_clampLogClear_of_open hmgr hprim hclamp,
      exec_attemptClear_of_open hmgr hprim hattempts⟩

end Sys2Proof.Machine
end

section
/-! SUPPORT. Entries of the clamp log, writes of the root time, and the answers of the I3C target (chapters 19 and 21). -/
namespace Sys2Proof.Machine

open Sys2Proof

/-! ### The clamp log (R17, R527) -/

theorem State.reported.clamp {fs : List Fld} {s t : State} (h : s.reported fs t) : t.reg.clamp = s.reg.clamp := by
  have e := congrArg (fun x => x.reg.clamp) h.1
  exact e

/-- The clamp log with one more entry. -/
def State.clamped (s : State) (e : ClampEntry) : State := { s with reg := { s.reg with clamp := s.reg.clamp ++ [{ e with beat := s.beat }] } }

theorem State.logClamp_of_room {s : State} (h : s.reg.clamp.length < 64) (e : ClampEntry) : s.logClamp e = (s.clamped e).occur 2 := by
  rw [State.logClamp, if_pos h]
  rfl

/-- A full log only reports. -/
theorem State.logClamp_reported_of_full {s : State} (h : 64 ≤ s.reg.clamp.length) (e : ClampEntry) :
    s.reported (.BOOT_CLAMP_DROPPED :: postFlds) (s.logClamp e) := by
  rw [State.logClamp, if_neg (by omega)]
  exact (s.bump_reported _ 0 1 (by decide) (by decide)).trans (.ite ((State.post_reported ..).mono (by decide)) (.refl ..))

theorem State.rd_bump_of_no_frame (s : State) (f : Fld) (i n : Nat) (h : frameStat f = none) :
    (s.bump f i n).rd f i = satAdd f.spec.width (s.rd f i) n := by
  rw [State.bump_eq_wr _ h, State.rd_wr_same]
  refine Nat.mod_eq_of_lt ?_
  have hpos : 0 < 2 ^ f.spec.width := Nat.two_pow_pos _
  unfold satAdd
  omega

/-- A full log counts the clamp that it drops. -/
theorem State.logClamp_count_of_full {s : State} (h : 64 ≤ s.reg.clamp.length) (e : ClampEntry) :
    (s.logClamp e).rd .BOOT_CLAMP_DROPPED 0 = min (s.rd .BOOT_CLAMP_DROPPED 0 + 1) 65535 := by
  rw [State.logClamp, if_neg (by omega)]
  have hpost : (s.bump .BOOT_CLAMP_DROPPED 0 1).reported postFlds
      (if s.rd .BOOT_CLAMP_DROPPED 0 = 0 then (s.bump .BOOT_CLAMP_DROPPED 0 1).post (devInc 0x0E03 .notice 0 0 [1])
        else s.bump .BOOT_CLAMP_DROPPED 0 1) := .ite (State.post_reported ..) (.refl ..)
  refine Eq.trans ?_ ((hpost.rd (by decide) 0).trans (s.rd_bump_of_no_frame _ 0 1 rfl))
  simp

/-- A clamp changes fields of reports and the count of dropped clamps. -/
theorem State.logClamp_keepsBut (s : State) (e : ClampEntry) : s.keepsBut (s.logClamp e) (.BOOT_CLAMP_DROPPED :: postFlds) := by
  rcases Nat.lt_or_ge s.reg.clamp.length 64 with h | h
  · rw [State.logClamp_of_room h]
    exact (State.occur_reported ..).keeps (by decide) (fun _ _ _ => rfl)
  · exact (State.logClamp_reported_of_full h e).2

/-! ### Writes of the root time (R570, R571) -/

/-- The low half that a function staged for PWR_ROOT_TIME is used up. -/
def State.rootUnstaged (s : State) (fn : Nat) : State := { s with reg := { s.reg with staged := Tab.del s.reg.staged (pairKey fn 0xF00028) } }

/-- The entry that a write of the root time leaves in the clamp log. -/
def rootClamp (fn v : Nat) : ClampEntry := ⟨fieldId 0xF00028 0, 0, fn, true, v, 0, 0, false⟩

/-- A write of the root time that reaches its register. -/
def State.rootWritten (s : State) (fn v : Nat) : State :=
  if s.rd .PWR_BEAT_LOCKED 0 = 1 then s.logClamp (rootClamp fn v)
  else if !(s.wr .PWR_ROOT_TIME 0 v).isRoot then s.wr .PWR_ROOT_TIME 0 v
  else if (s.wr .PWR_ROOT_TIME 0 v).rd .PWR_TSYNC_EN 0 = 0 then (s.wr .PWR_ROOT_TIME 0 v).applyRootTime.wr .PWR_BEAT_LOCKED 0 1
  else { s.wr .PWR_ROOT_TIME 0 v with pwr := { s.pwr with rootWait := true } }

/-- While BEAT is locked, the write is a clamp with 0 applied. -/
theorem State.rootWritten_of_locked {s : State} (h : s.rd .PWR_BEAT_LOCKED 0 = 1) (fn v : Nat) :
    s.rootWritten fn v = s.logClamp (rootClamp fn v) := if_pos h

theorem exec_rootTimeSet_of_open {s : State} {fn high v : Nat} (hopen : s.closed fn 0xF0002C = false) (hprim : fn = s.primaryFn)
    (hmgr : isMgr fn = true) (hlow : s.reg.staged.find (pairKey fn 0xF00028) = some v) (hhigh : high < 2 ^ 32) :
    exec (.rootTimeSet fn high) s = .next ((s.rootUnstaged fn).rootWritten fn (v + 2 ^ 32 * high)) := by
  have hreach : (s.closed fn 0xF0002C || !isMgr fn) = false := by rw [hopen, hmgr]; rfl
  have hown : (fn != s.primaryFn) = false := by rw [← hprim]; exact bne_self_eq_false' fn
  change execRootTimeSet fn high s = _
  simp only [execRootTimeSet, hreach, hown, hlow, Option.getD_some, Nat.mod_eq_of_lt hhigh, Bool.false_eq_true, if_false,
    ← apply_ite Host.Outcome.next]
  rfl

/-- Settles O59: while BEAT is locked the write is a clamp, which the log takes or counts, and which leaves the time and BEAT. -/
theorem rootTimeIsDroppedWhileLocked : Obligations.RootTimeIsDroppedWhileLocked := by
  rintro s fn high v ⟨hopen, hprim, hmgr⟩ ⟨hlock, hlow, hhigh⟩
  have hexec := exec_rootTimeSet_of_open hopen hprim hmgr hlow hhigh
  rw [State.rootWritten_of_locked (s := s.rootUnstaged fn) hlock] at hexec
  have hkeeps : s.keepsBut ((s.rootUnstaged fn).logClamp (rootClamp fn (v + 2 ^ 32 * high))) (.BOOT_CLAMP_DROPPED :: postFlds) :=
    (s.rootUnstaged fn).logClamp_keepsBut (rootClamp fn _)
  refine ⟨_, hexec, hkeeps .PWR_BEAT (by decide) 0, hkeeps .PWR_ROOT_TIME (by decide) 0, fun hroom => ?_, fun hfull => ⟨?_, ?_⟩,
    hkeeps, State.mem_of_still (still_execRootTimeSet fn high s _ hexec)⟩
  · rw [State.logClamp_of_room (s := s.rootUnstaged fn) hroom]
    exact (State.occur_reported ..).clamp
  · exact (State.logClamp_reported_of_full (s := s.rootUnstaged fn) hfull _).clamp
  · exact State.logClamp_count_of_full (s := s.rootUnstaged fn) hfull _

/-! ### The I3C target (R582 to R584) -/

section
variable {s : State}

theorem exec_i3cTelemetryRead_of_plain {index : Nat} (hpower : s.pins.pwrgood = true) (hpeak : index ≠ 0) (henergy : index ≠ 3) :
    exec (.i3cTelemetryRead index) s = .next (s.emit .i3c [1, index, s.i3cValue index]) := by
  change execI3cTelemetryRead index s = _
  simp only [execI3cTelemetryRead, hpower, Bool.not_true, Bool.false_eq_true, if_false]

theorem exec_i3cTelemetryRead_peak (hpower : s.pins.pwrgood = true) :
    exec (.i3cTelemetryRead 0) s
      = .next { s.emit .i3c [1, 0, s.i3cValue 0] with pwr := { (s.emit .i3c [1, 0, s.i3cValue 0]).pwr with peak := 0 } } := by
  change execI3cTelemetryRead 0 s = _
  simp only [execI3cTelemetryRead, hpower, Bool.not_true, Bool.false_eq_true, if_false]

theorem exec_i3cFawnRequest_of_request (hpower : s.pins.pwrgood = true) :
    exec (.i3cFawnRequest 0x40 0xFA3E) s = .next (s.wr .BOOT_FAWN_REQ 0 1) := by
  change execI3cFawnRequest 0x40 0xFA3E s = _
  simp [execI3cFawnRequest, hpower]

theorem exec_i3cFawnRequest_of_other {index val : Nat} (h : ¬(index = 0x40 ∧ val = 0xFA3E)) : exec (.i3cFawnRequest index val) s = .next s := by
  change execI3cFawnRequest index val s = _
  have hother : (s.pins.pwrgood && index == 0x40 && val == 0xFA3E) = false := by
    rw [Bool.and_assoc, Bool.and_eq_false_iff]
    exact .inr (by simpa using h)
  simp [execI3cFawnRequest, hother]

/-! Dynamic addresses. -/

theorem exec_entdaa_of_free {addr : Nat} (hpower : s.pins.pwrgood = true) (hfree : s.pwr.address = none) :
    exec (.entdaa addr) s = .next ((s.emit .i3c [2, s.rd .HST_SERIAL 0 % 2 ^ 48]).setAddress (some (addr % 128))) := by
  change execEntdaa addr s = _
  simp [execEntdaa, hpower, hfree]

theorem exec_setdasa_of_free (hpower : s.pins.pwrgood = true) (hfree : s.pwr.address = none) :
    exec .setdasa s = .next (s.setAddress (some 0x2C)) := by
  change execSetdasa s = _
  simp [execSetdasa, hpower, hfree, i3cStatic]

theorem exec_rstdaa_of_power (hpower : s.pins.pwrgood = true) : exec .rstdaa s = .next (s.setAddress none) := if_pos hpower

/-! Constants and the status word. -/

theorem exec_getpid_of_power (hpower : s.pins.pwrgood = true) : exec .getpid s = .next (s.emit .i3c [4, s.rd .HST_SERIAL 0 % 2 ^ 48]) :=
  if_pos hpower

theorem exec_getbcr_of_power (hpower : s.pins.pwrgood = true) : exec .getbcr s = .next (s.emit .i3c [5, (Config.i3cConst 5).toNat]) :=
  if_pos hpower

theorem exec_getdcr_of_power (hpower : s.pins.pwrgood = true) : exec .getdcr s = .next (s.emit .i3c [6, (Config.i3cConst 6).toNat]) :=
  if_pos hpower

theorem exec_getmxds_of_power (hpower : s.pins.pwrgood = true) : exec .getmxds s = .next (s.emit .i3c [8, (Config.i3cConst 8).toNat]) :=
  if_pos hpower

theorem exec_getstatus_of_power (hpower : s.pins.pwrgood = true) :
    exec .getstatus s = .next (s.fresh.2.emit .i3c [7, s.fresh.1 % 2 ^ 16]) := if_pos hpower

/-! In-band interrupts. -/

/-- The in-band interrupt of an event source. -/
def ibiOf (src : Nat) : Emit := ⟨.i3c, [3, 1, src % 256, src / 256]⟩

/-- The held interrupts go out in order, and change nothing else. -/
theorem State.ibis_eq (s : State) (srcs : List Nat) : srcs.foldl State.ibi s = { s with sent := s.sent ++ srcs.map ibiOf } := by
  induction srcs generalizing s with
  | nil => simp
  | cons src srcs ih =>
    rw [List.foldl_cons, ih]
    simp [State.ibi, State.emit, ibiOf]

theorem exec_enec_of_power (hpower : s.pins.pwrgood = true) : exec .enec s
    = .next { s with sent := s.sent ++ s.pwr.ibiQ.map ibiOf, pwr := { s.pwr with ibiOn := true, ibiQ := [] } } := by
  change execEnec s = _
  simp [execEnec, hpower, State.ibis_eq]

theorem exec_disec_of_power (hpower : s.pins.pwrgood = true) : exec .disec s = .next { s with pwr := { s.pwr with ibiOn := false } } :=
  if_pos hpower

/-- A claimed source is forwarded at once while in-band interrupts are enabled. -/
theorem exec_mgmtCoreEventForward_of_claimed {core vec : Nat} (hcore : core < 4) (hvec : vec < 256) (hretry : s.retryStatus = false)
    (htarget : bit (s.rd .EVT_TARGETS (vecIx s.primaryFn vec)) (4 + core) = true) (hclaim : (s.claim s.primaryFn vec).1.1 ≠ 0)
    (hon : (s.claim s.primaryFn vec).2.pwr.ibiOn = true) : exec (.mgmtCoreEventForward core vec) s
      = .next ((s.claim s.primaryFn vec).2.emit .i3c [3, 1, (s.claim s.primaryFn vec).1.1 % 256, (s.claim s.primaryFn vec).1.1 / 256]) := by
  have hcore' : ¬ 4 ≤ core := by omega
  have hvec' : ¬ 256 ≤ vec := by omega
  change execMgmtCoreEventForward core vec s = _
  simp [execMgmtCoreEventForward, hcore', hvec', hretry, htarget, hclaim, State.forwardIbi, hon, State.ibi]

end

/-- Settles O58: each command of the target answers or acts as its rule says; the held interrupts go out in their order. -/
theorem i3cTargetAnswers : Obligations.I3cTargetAnswers := by
  refine ⟨?_, fun s => exec_i3cTelemetryRead_peak, fun s => exec_i3cFawnRequest_of_request, fun s index val => exec_i3cFawnRequest_of_other,
    ?_, ?_, ?_, ?_, ?_⟩
  · rintro s index hpower ⟨hpeak, henergy⟩
    exact exec_i3cTelemetryRead_of_plain hpower hpeak henergy
  · rintro s addr ⟨hpower, hfree⟩
    exact ⟨exec_entdaa_of_free hpower hfree, exec_setdasa_of_free hpower hfree⟩
  · intro s hpower
    exact ⟨exec_rstdaa_of_power hpower, exec_disec_of_power hpower, exec_getpid_of_power hpower⟩
  · intro s hpower
    exact ⟨exec_getbcr_of_power hpower, exec_getdcr_of_power hpower, exec_getmxds_of_power hpower, exec_getstatus_of_power hpower⟩
  · intro s hpower
    exact ⟨_, exec_enec_of_power hpower, rfl, rfl, rfl, rfl, rfl⟩
  · rintro s core vec ⟨hcore, hvec, hretry⟩ htarget ⟨hclaim, hon⟩
    exact exec_mgmtCoreEventForward_of_claimed hcore hvec hretry htarget hclaim hon

end Sys2Proof.Machine
end

section
/-! SUPPORT. Rack time: TSYNC at the root, and exchanges with the time parent below it (R420 to R422, R569, R570). -/
namespace Sys2Proof.Machine

open Sys2Proof

theorem ofSigned_lt (w : Nat) (i : Int) : ofSigned w i < 2 ^ w := by
  have hpos : (0 : Int) < ((2 ^ w : Nat) : Int) := by exact_mod_cast Nat.two_pow_pos w
  have hnonneg := Int.emod_nonneg i hpos.ne'
  have hlt := Int.emod_lt_of_pos i hpos
  unfold ofSigned
  omega

/-! ### The lock is lost -/

/-- Fields that the loss of the lock may change. -/
def lockFlds : List Fld := .PWR_BEAT_LOCKED :: .PWR_BEAT_LOST :: postFlds

/-- The counts of exchanges begin again. -/
def State.timeRestarted (s : State) : State := { s with plk := { s.plk with time := TimeSt.start s.plk.time.hold } }

theorem State.loseLock_of_locked {s : State} (h : s.rd .PWR_BEAT_LOCKED 0 ≠ 0) :
    s.loseLock = ((s.timeRestarted.wr .PWR_BEAT_LOCKED 0 0).wr .PWR_BEAT_LOST 0 1).post (devInc 0x1001 .degraded 0 0 []) := if_neg h

theorem State.loseLock_reported (s : State) : s.timeRestarted.reported lockFlds s.loseLock :=
  .ite (.refl ..) (((State.wr_reported _ _ _ _ (by decide)).trans (State.wr_reported _ _ _ _ (by decide))).trans
    ((State.post_reported ..).mono (by decide)))

/-- After a loss BEAT is not locked. -/
theorem State.loseLock_unlocked (s : State) : s.loseLock.rd .PWR_BEAT_LOCKED 0 = 0 := by
  by_cases h : s.rd .PWR_BEAT_LOCKED 0 = 0
  · exact (congrArg (fun t => t.rd .PWR_BEAT_LOCKED 0) (if_pos h : s.loseLock = s.timeRestarted)).trans h
  · rw [State.loseLock_of_locked h, (State.post_reported ..).rd (by decide), State.rd_wr_ne _ _ _ _ _ _ (by simp), State.rd_wr_same]
    exact Nat.zero_mod _

theorem State.loseLock_lost {s : State} (h : s.rd .PWR_BEAT_LOCKED 0 = 1) : s.loseLock.rd .PWR_BEAT_LOST 0 = 1 := by
  rw [State.loseLock_of_locked (by omega), (State.post_reported ..).rd (by decide), State.rd_wr_same]
  rfl

theorem State.loseLock_keepsBut (s : State) : s.keepsBut s.loseLock lockFlds := s.loseLock_reported.2

/-- A loss restarts the counts of exchanges, and beside that reports. -/
theorem State.loseLock_frame (s : State) : s.loseLock = { s.reports s.loseLock with plk := s.loseLock.plk } := by
  have hreports := s.loseLock_reported.1
  have hplk := s.loseLock_reported.plk
  rw [hplk]
  exact hreports

/-- The counts of TSYNC edges begin again with the loss. -/
theorem State.rootLost_keepsBut (s : State) : s.keepsBut s.rootLost lockFlds := s.loseLock_keepsBut

theorem State.rootLost_rootWait (s : State) : s.rootLost.pwr.rootWait = s.pwr.rootWait := by
  have hkept := congrArg PwrSt.rootWait s.loseLock_reported.pwr
  exact hkept

/-! ### A root that follows TSYNC (R569) -/

/-- The error of an edge is shown, and a root time that waits is applied. -/
def State.edgeSeen (s : State) (err : Nat) : State :=
  if (s.wr .PWR_TSYNC_ERR 0 err).pwr.rootWait then (s.wr .PWR_TSYNC_ERR 0 err).applyRootTime else s.wr .PWR_TSYNC_ERR 0 err

/-- Good and bad edges in a row. -/
def State.edgeCounted (s : State) (err : Nat) : State :=
  { s with pwr := { s.pwr with
      tsGood := if (toSigned 16 err).natAbs ≤ 25 then s.pwr.tsGood + 1 else 0
      tsBad := if 52 ≤ (toSigned 16 err).natAbs then s.pwr.tsBad + 1 else 0
      tsMiss := 0 } }

/-- Four bad edges in a row lose the lock, sixteen good ones take it. -/
def State.edgeJudged (s : State) : State :=
  if 4 ≤ s.pwr.tsBad then s.rootLost
  else if 16 ≤ s.pwr.tsGood && s.pwr.rootSet then s.wr .PWR_BEAT_LOCKED 0 1 else s

section
variable {s : State} (hfollows : s.followsTsync = true)
include hfollows

theorem exec_tsyncEdge_of_follows (err : Nat) : exec (.tsyncEdge err) s = .next ((s.edgeSeen err).edgeCounted err).edgeJudged := by
  change execTsyncEdge err s = _
  simp only [execTsyncEdge, hfollows, Bool.not_true, Bool.false_eq_true, if_false, ← apply_ite Host.Outcome.next]
  rfl

theorem exec_tsyncEdgeMissing_of_few (h : s.pwr.tsMiss < 7) :
    exec .tsyncEdgeMissing s = .next { s with pwr := { s.pwr with tsMiss := s.pwr.tsMiss + 1, tsGood := 0, tsBad := 0 } } := by
  have hfew : ¬ 7 ≤ s.pwr.tsMiss := by omega
  change execTsyncEdgeMissing s = _
  simp [execTsyncEdgeMissing, hfollows, hfew]

theorem exec_tsyncEdgeMissing_of_eighth (h : 7 ≤ s.pwr.tsMiss) : exec .tsyncEdgeMissing s
    = .next { s with pwr := { s.pwr with tsMiss := s.pwr.tsMiss + 1, tsGood := 0, tsBad := 0 } }.rootLost := by
  change execTsyncEdgeMissing s = _
  simp [execTsyncEdgeMissing, hfollows, h]

end

/-- A good edge is never the fourth bad one. -/
theorem State.edgeJudged_of_good {s : State} {err : Nat} (h : (toSigned 16 err).natAbs ≤ 25) : (s.edgeCounted err).edgeJudged
    = if 16 ≤ s.pwr.tsGood + 1 ∧ s.pwr.rootSet = true
      then { s with pwr := { s.pwr with tsGood := s.pwr.tsGood + 1, tsBad := 0, tsMiss := 0 } }.wr .PWR_BEAT_LOCKED 0 1
      else { s with pwr := { s.pwr with tsGood := s.pwr.tsGood + 1, tsBad := 0, tsMiss := 0 } } := by
  have hbad : ¬ 52 ≤ (toSigned 16 err).natAbs := by omega
  simp [State.edgeJudged, State.edgeCounted, h, hbad]

/-- Judging an edge leaves BEAT, and whether a root time waits. -/
theorem State.edgeJudged_keepsBut (s : State) : s.keepsBut s.edgeJudged lockFlds := by
  unfold State.edgeJudged
  split
  · exact s.rootLost_keepsBut
  · split
    · exact State.keepsBut_wr .PWR_BEAT_LOCKED 0 1 (by decide) (s.keepsBut_refl _)
    · exact s.keepsBut_refl _

theorem State.edgeJudged_rootWait (s : State) : s.edgeJudged.pwr.rootWait = s.pwr.rootWait := by
  unfold State.edgeJudged
  split
  · exact s.rootLost_rootWait
  · split <;> rfl

/-! ### The root time is applied (R570) -/

/-- BEAT takes a value that it has not passed. -/
theorem State.setBeat_of_ahead {s : State} {v : Nat} (h : s.beat ≤ v) :
    s.setBeat v = { s.wr .PWR_BEAT 0 v with plk := { s.plk with time := { s.plk.time with hold := 0 } } } := if_pos h

theorem State.applyRootTime_beat {s : State} (hahead : s.beat ≤ s.rd .PWR_ROOT_TIME 0) (hfits : s.rd .PWR_ROOT_TIME 0 < 2 ^ 64) :
    s.applyRootTime.rd .PWR_BEAT 0 = s.rd .PWR_ROOT_TIME 0 := by
  unfold State.applyRootTime
  rw [State.setBeat_of_ahead hahead]
  exact (s.rd_wr_same .PWR_BEAT 0 _).trans (Nat.mod_eq_of_lt hfits)

theorem State.applyRootTime_keepsBut (s : State) : s.keepsBut s.applyRootTime [.PWR_BEAT] := by
  have hset : s.keepsBut (s.setBeat (s.rd .PWR_ROOT_TIME 0)) [.PWR_BEAT] := by
    unfold State.setBeat
    split
    · exact State.keepsBut_wr .PWR_BEAT 0 _ (by decide) (s.keepsBut_refl _)
    · exact s.keepsBut_refl _
  exact hset

/-- A root without TSYNC takes the written time at once, and locks. -/
theorem State.rootWritten_of_untimed {s : State} (hlock : s.rd .PWR_BEAT_LOCKED 0 = 0) (hroot : s.isRoot = true)
    (hsync : s.rd .PWR_TSYNC_EN 0 = 0) (fn v : Nat) :
    s.rootWritten fn v = (s.wr .PWR_ROOT_TIME 0 v).applyRootTime.wr .PWR_BEAT_LOCKED 0 1 := by
  have hroot' : (s.wr .PWR_ROOT_TIME 0 v).isRoot = true := by
    unfold State.isRoot
    rw [State.rd_wr_ne _ _ _ _ _ _ (by simp)]
    exact hroot
  have hsync' : (s.wr .PWR_ROOT_TIME 0 v).rd .PWR_TSYNC_EN 0 = 0 := (State.rd_wr_ne _ _ _ _ _ _ (by simp)).trans hsync
  simp [State.rootWritten, hlock, hroot', hsync']

/-! ### Exchanges of time (R420 to R422) -/

/-- The times that a TIME flit gives of its neighbour. -/
def State.nbrTimed (s : State) (l : Nat) (b : TimeBody) : State :=
  (s.setLnk l { s.lnk l with rxTime := b.recv, rxEcho := b.tx }).wr .PLK_NBR_ID l b.selfId

/-- The offset and the flight time that a TIME flit gives of the parent. -/
def State.parentTimed (s : State) (l : Nat) (b : TimeBody) : State :=
  ((s.nbrTimed l b).wr .PLK_TIME_OFFSET 0 (ofSigned 16 (theta b (toSigned 16 (s.rd .PLK_TIME_ASYM l))))).wr .PLK_FLIGHT l
    (ofSigned 16 (flight b))

section
variable (s : State) (l : Nat) (b : TimeBody)

theorem State.nbrTimed_keepsBut : s.keepsBut (s.nbrTimed l b) [.PLK_NBR_ID] :=
  (s.setLnk l _).wr_reported (fs := [.PLK_NBR_ID]) .PLK_NBR_ID l _ (by decide) |>.2

theorem State.nbrTimed_isParent : (s.nbrTimed l b).isParent l = s.isParent l := by
  have hkeeps := s.nbrTimed_keepsBut l b
  unfold State.isParent
  rw [hkeeps .PLK_TIME_ROOT (by decide), hkeeps .PLK_TIME_PARENT (by decide)]

theorem State.parentTimed_keepsBut : s.keepsBut (s.parentTimed l b) [.PLK_NBR_ID, .PLK_TIME_OFFSET, .PLK_FLIGHT] :=
  State.keepsBut_wr _ _ _ (by decide) (State.keepsBut_wr _ _ _ (by decide) ((s.nbrTimed_keepsBut l b).mono (by decide)))

theorem State.parentTimed_parentGood : (s.parentTimed l b).parentGood b = s.parentGood b := by
  unfold State.parentGood
  rw [s.parentTimed_keepsBut l b .PLK_TIME_ROOT_ID (by decide)]

theorem State.parentTimed_offset :
    (s.parentTimed l b).rd .PLK_TIME_OFFSET 0 = ofSigned 16 (theta b (toSigned 16 (s.rd .PLK_TIME_ASYM l))) := by
  unfold State.parentTimed
  rw [State.rd_wr_ne _ _ _ _ _ _ (by simp), State.rd_wr_same]
  exact Nat.mod_eq_of_lt (ofSigned_lt ..)

theorem State.parentTimed_flight : (s.parentTimed l b).rd .PLK_FLIGHT l = ofSigned 16 (flight b) := by
  unfold State.parentTimed
  rw [State.rd_wr_same]
  exact Nat.mod_eq_of_lt (ofSigned_lt ..)

end

section
variable {s : State} {l : Nat} {b : TimeBody}

theorem exec_timeFlitReceive_of_replayed : exec (.timeFlitReceive l true b) s = .next s := by
  change execTimeFlitReceive l true b s = _
  simp [execTimeFlitReceive]

theorem exec_timeFlitReceive_of_other (hup : s.linkIs l .up = true) (hparent : s.isParent l = false) :
    exec (.timeFlitReceive l false b) s = .next (s.nbrTimed l b) := by
  have hother : (!(s.nbrTimed l b).isParent l) = true := by rw [State.nbrTimed_isParent, hparent]; rfl
  change execTimeFlitReceive l false b s = _
  simp only [execTimeFlitReceive, hup, Bool.not_true, Bool.or_false, Bool.false_eq_true, if_false]
  exact if_pos hother

theorem exec_timeFlitReceive_of_parent (hup : s.linkIs l .up = true) (hparent : s.isParent l = true) :
    exec (.timeFlitReceive l false b) s
      = .next ((s.parentTimed l b).exchange b (theta b (toSigned 16 (s.rd .PLK_TIME_ASYM l)))) := by
  have hsame : ¬ (!(s.nbrTimed l b).isParent l) = true := by rw [State.nbrTimed_isParent, hparent]; simp
  have hasym : (s.nbrTimed l b).rd .PLK_TIME_ASYM l = s.rd .PLK_TIME_ASYM l := s.nbrTimed_keepsBut l b _ (by decide) l
  rw [State.parentTimed, ← hasym]
  change execTimeFlitReceive l false b s = _
  simp only [execTimeFlitReceive, hup, Bool.not_true, Bool.or_false, Bool.false_eq_true, if_false]
  exact if_neg hsame

end

/-- A good exchange of a junction that has stepped is counted. -/
def State.exchanged (s : State) : State :=
  { s with plk := { s.plk with time := { s.plk.time with seen := s.plk.time.seen + 1, good := s.plk.time.good + 1, last := s.beat, bad := 0 } } }

section
variable {s : State} {b : TimeBody} {th : Int}

/-- The sixteenth good exchange in a row locks BEAT below the parent. -/
theorem State.exchange_of_sixteenth (hlock : s.rd .PWR_BEAT_LOCKED 0 = 0) (hgood : s.parentGood b = true) (hstepped : s.plk.time.stepped = true)
    (hcount : 15 ≤ s.plk.time.good) (hth : th.natAbs ≤ 25) :
    s.exchange b th = (s.exchanged.wr .PLK_TIME_DEPTH 0 (b.depth + 1)).wr .PWR_BEAT_LOCKED 0 1 := by
  simp [State.exchange, hlock, hgood, hstepped, hth, hcount, State.exchanged]

/-- An exchange with a parent that may not be followed ends the lock. -/
theorem State.exchange_of_bad (hlock : s.rd .PWR_BEAT_LOCKED 0 = 1) (hgood : s.parentGood b = false) : s.exchange b th = s.loseLock := by
  simp [State.exchange, hlock, hgood]

theorem exec_timeExchangeTimeout_of_passed (hlock : s.rd .PWR_BEAT_LOCKED 0 = 1) (hroot : s.rd .PLK_TIME_ROOT 0 = 0)
    (hpassed : 8 * 1024 * 32 ≤ (s.beat - s.plk.time.last) * 25) : exec .timeExchangeTimeout s = .next s.loseLock := by
  change execTimeExchangeTimeout s = _
  simp only [execTimeExchangeTimeout, hlock, hroot, hpassed, beq_self_eq_true, decide_true, Bool.and_self, if_true]

end

/-! ### The statement -/

/-- Settles O56: each edge, write, exchange and timeout runs as its lemma above says; only the loss of the lock reports. -/
theorem rackTimeIsKept : Obligations.RackTimeIsKept := by
  refine ⟨?_, ?_, ?_, ?_, ?_, ?_, ?_, ?_, ?_⟩
  · intro s err hfollows hwait hgood
    have hseen : s.edgeSeen err = s.wr .PWR_TSYNC_ERR 0 err := if_neg (by simp [hwait])
    rw [exec_tsyncEdge_of_follows hfollows, State.edgeJudged_of_good hgood, hseen]
    rfl
  · rintro s err hfollows hwait ⟨hahead, hfits⟩
    have hseen : s.edgeSeen err = (s.wr .PWR_TSYNC_ERR 0 err).applyRootTime := if_pos hwait
    have hexec := exec_tsyncEdge_of_follows hfollows err
    have htime : (s.wr .PWR_TSYNC_ERR 0 err).rd .PWR_ROOT_TIME 0 = s.rd .PWR_ROOT_TIME 0 := State.rd_wr_ne _ _ _ _ _ _ (by simp)
    have hbeat : (s.wr .PWR_TSYNC_ERR 0 err).beat = s.beat := State.rd_wr_ne _ _ _ _ _ _ (by simp)
    refine ⟨_, hexec, ?_, ?_, State.mem_of_still (still_execTsyncEdge err s _ hexec)⟩
    · refine (State.edgeJudged_keepsBut _ .PWR_BEAT (by decide) 0).trans ?_
      rw [hseen]
      exact (State.applyRootTime_beat (by rw [hbeat, htime]; exact hahead) (by rw [htime]; exact hfits)).trans htime
    · rw [State.edgeJudged_rootWait, hseen]
      rfl
  · exact fun s => exec_tsyncEdgeMissing_of_few
  · intro s hfollows hmissed
    have hexec := exec_tsyncEdgeMissing_of_eighth hfollows hmissed
    exact ⟨_, hexec, State.loseLock_unlocked _, rfl, State.mem_of_still (still_execTsyncEdgeMissing s _ hexec)⟩
  · rintro s fn high v ⟨hopen, hprim, hmgr⟩ hlock ⟨hroot, hsync⟩ hlow ⟨hhigh, hv, hahead⟩
    have hexec := exec_rootTimeSet_of_open hopen hprim hmgr hlow hhigh
    rw [State.rootWritten_of_untimed (s := s.rootUnstaged fn) hlock hroot hsync] at hexec
    generalize htime : v + 2 ^ 32 * high = time at *
    have hwritten : ((s.rootUnstaged fn).wr .PWR_ROOT_TIME 0 time).rd .PWR_ROOT_TIME 0 = time :=
      (State.rd_wr_same ..).trans (Nat.mod_eq_of_lt (by change time < 2 ^ 64; omega))
    have hbeat : ((s.rootUnstaged fn).wr .PWR_ROOT_TIME 0 time).beat = s.beat := State.rd_wr_ne _ _ _ _ _ _ (by simp)
    have hkeeps := ((s.rootUnstaged fn).wr .PWR_ROOT_TIME 0 time).applyRootTime_keepsBut
    refine ⟨_, hexec, ?_, ?_, ?_, ?_, State.mem_of_still (still_execRootTimeSet fn high s _ hexec)⟩
    · rw [State.rd_wr_ne _ _ _ _ _ _ (by simp)]
      exact (State.applyRootTime_beat (by rw [hbeat, hwritten]; exact hahead) (by rw [hwritten]; omega)).trans hwritten
    · rw [State.rd_wr_ne _ _ _ _ _ _ (by simp)]
      exact (hkeeps .PWR_ROOT_TIME (by decide) 0).trans hwritten
    · exact State.rd_wr_same ..
    · have hstart : s.keepsBut (s.rootUnstaged fn) [.PWR_ROOT_TIME, .PWR_BEAT, .PWR_BEAT_LOCKED] := fun _ _ _ => rfl
      exact State.keepsBut_wr _ _ _ (by decide) ((State.keepsBut_wr _ _ _ (by decide) hstart).trans (hkeeps.mono (by decide)))
  · rintro s l b ⟨hup, hparent, -⟩
    exact ⟨exec_timeFlitReceive_of_other hup hparent, exec_timeFlitReceive_of_replayed⟩
  · rintro s l b ⟨hup, hparent, hlock, hgood⟩ ⟨hstepped, hcount, hth⟩
    have hkeeps := s.parentTimed_keepsBut l b
    have hdepth : b.depth ≤ 7 := by
      simp only [State.parentGood, Bool.and_eq_true, decide_eq_true_eq] at hgood
      exact hgood.2
    have hexec := exec_timeFlitReceive_of_parent (b := b) hup hparent
    rw [State.exchange_of_sixteenth ((hkeeps .PWR_BEAT_LOCKED (by decide) 0).trans hlock)
      ((s.parentTimed_parentGood l b).trans hgood) hstepped hcount hth] at hexec
    refine ⟨_, hexec, State.rd_wr_same .., ?_, ?_, ?_, ?_, rfl⟩
    · rw [State.rd_wr_ne _ _ _ _ _ _ (by simp), State.rd_wr_same]
      exact Nat.mod_eq_of_lt (by change b.depth + 1 < 2 ^ 4; omega)
    · rw [State.rd_wr_ne _ _ _ _ _ _ (by simp), State.rd_wr_ne _ _ _ _ _ _ (by simp)]
      exact s.parentTimed_offset l b
    · rw [State.rd_wr_ne _ _ _ _ _ _ (by simp), State.rd_wr_ne _ _ _ _ _ _ (by simp)]
      exact s.parentTimed_flight l b
    · exact State.keepsBut_wr _ _ _ (by decide) (State.keepsBut_wr _ _ _ (by decide) (hkeeps.mono (by decide)))
  · rintro s l b ⟨hup, hparent, hlock, hgood⟩
    have hlock' : (s.parentTimed l b).rd .PWR_BEAT_LOCKED 0 = 1 := (s.parentTimed_keepsBut l b .PWR_BEAT_LOCKED (by decide) 0).trans hlock
    have hexec := exec_timeFlitReceive_of_parent (b := b) hup hparent
    rw [State.exchange_of_bad hlock' ((s.parentTimed_parentGood l b).trans hgood)] at hexec
    exact ⟨_, hexec, State.loseLock_unlocked _, State.loseLock_lost hlock', State.mem_of_still (still_execTimeFlitReceive l false b s _ hexec)⟩
  · rintro s ⟨hlock, hroot, hpassed⟩
    exact ⟨_, exec_timeExchangeTimeout_of_passed hlock hroot hpassed, s.loseLock_unlocked, State.loseLock_lost hlock,
      s.loseLock_keepsBut, s.loseLock_frame⟩

end Sys2Proof.Machine
end

section
/-! SUPPORT. Requests of SPDM and of its sessions, and link keys (R546 to R553). -/
namespace Sys2Proof.Machine

open Sys2Proof

/-! ### Requests of a connection and of a session -/

/-- A request that the connection state allows is answered. -/
theorem State.spdmReq_of_up {s : State} {port : Nat} {ok : Nat → Bool} (hup : s.spdmUp port = true) (hok : ok (s.conn port) = true)
    (k : State → State) : s.spdmReq port ok k = k s := by
  simp only [State.spdmReq, hup, hok, Bool.not_true, Bool.false_eq_true, if_false, if_true]

/-- A request in an established session is answered. -/
theorem State.inSession_of_established {s : State} {id : Nat} {x : Session} (hx : s.session id = some x) (hup : s.spdmUp x.port = true)
    (hest : x.established = true) (k : Session → State → State) : s.inSession id k = k x s := by
  simp only [State.inSession, hx, hup, hest, Bool.not_true, Bool.false_eq_true, if_false, if_true]

/-! ### The connection -/

section
variable {s : State} {port : Nat} (hup : s.spdmUp port = true)
include hup

theorem exec_getVersion_of_up : exec (.getVersion port) s = .next ((s.setConn port 1).answer port 0x04 [0x13]) :=
  congrArg Host.Outcome.next (State.spdmReq_of_up hup rfl _)

theorem exec_getCapabilities_of_version (hconn : s.conn port = 1) :
    exec (.getCapabilities port) s = .next ((s.setConn port 2).answer port 0x61 []) :=
  congrArg Host.Outcome.next (State.spdmReq_of_up hup (by simp [hconn]) _)

theorem exec_negotiateAlgorithms_of_capabilities (hconn : s.conn port = 2) :
    exec (.negotiateAlgorithms port true) s = .next ((s.setConn port 3).answer port 0x63 []) :=
  congrArg Host.Outcome.next (State.spdmReq_of_up hup (by simp [hconn]) _)

/-! ### Attestation -/

variable (hconn : s.conn port = 3)
include hconn

theorem exec_getDigests_of_algorithms : exec (.getDigests port) s
    = .next (s.answer port 0x01 (1 :: digestOf [0, s.rd .HST_SERIAL 0, s.sec.digest, s.sec.recDigest])) :=
  congrArg Host.Outcome.next (State.spdmReq_of_up hup (by simp [hconn]) _)

theorem exec_getCertificate_of_algorithms (offset len : Nat) : exec (.getCertificate port 0 offset len) s
    = .next (s.answer port 0x02 [offset, len, (Config.digest [1, s.rd .HST_SERIAL 0, s.sec.digest, s.sec.recDigest, offset, len] 0).toNat]) :=
  congrArg Host.Outcome.next (State.spdmReq_of_up hup (by simp [hconn]) _)

theorem exec_challenge_of_algorithms : exec (.challenge port 0) s = .next (s.fresh.2.answer port 0x03 [s.fresh.1]) :=
  congrArg Host.Outcome.next (State.spdmReq_of_up hup (by simp [hconn]) _)

theorem exec_getMeasurements_of_algorithms {index : Nat} (hlow : 1 ≤ index) (hhigh : index ≤ 5) :
    exec (.getMeasurements port index) s = .next (s.fresh.2.answer port 0x60 (index :: s.measurement index ++ [s.fresh.1])) := by
  refine congrArg Host.Outcome.next ((State.spdmReq_of_up hup (by simp [hconn]) _).trans ?_)
  have hone : (decide (1 ≤ index) && decide (index ≤ 5)) = true := by simp [hlow, hhigh]
  simp only [show index ≠ 0 by omega, hone, if_false, if_true]
  rfl

theorem exec_keyExchange_of_algorithms (hfew : s.sec.sessions.length < 8) (mutualAuth : Bool) (digest : Nat) :
    exec (.keyExchange port 0 mutualAuth digest) s = .next ({ s.fresh.2 with sec := { s.sec with
        sessions := s.sec.sessions ++ [(⟨s.sec.sessSerial, port, false, mutualAuth, digest⟩ : Session)]
        sessSerial := s.sec.sessSerial + 1 } }.answer port 0x64 [s.sec.sessSerial, s.fresh.1]) := by
  refine congrArg Host.Outcome.next ((State.spdmReq_of_up hup (by simp [hconn]) _).trans ?_)
  simp only [bne_self_eq_false, Bool.false_eq_true, if_false, show ¬ 8 ≤ s.sec.sessions.length by omega]
  rfl

end

/-! ### Sessions and link keys -/

theorem exec_finish_of_verified {s : State} {session : Nat} {x : Session} (hx : s.session session = some x) (hup : s.spdmUp x.port = true)
    (hest : x.established = false) : exec (.finish session true) s
      = .next ({ s with sec := { s.sec with sessions := s.sec.sessions.map (fun (y : Session) =>
        if y.id == session then { y with established := true } else y) } }.answer x.port 0x65 [session]) := by
  change execFinish session true s = _
  simp only [execFinish, hx, hup, hest, Bool.not_true, Bool.false_eq_true, if_false]

/-- The session and the compartment that a link key is for allow it (R547). -/
def State.linkKeyOk (s : State) (x : Session) (c : Nat) : Bool :=
  x.mutualAuth && decide (c < 32) && x.digest == s.cmpAuth c && s.cmpState c == .assigned

theorem State.linkKeyOk_iff (s : State) (x : Session) (c : Nat) :
    s.linkKeyOk x c = true ↔ x.mutualAuth = true ∧ c < 32 ∧ x.digest = s.cmpAuth c ∧ s.cmpState c = .assigned := by
  simp [State.linkKeyOk, and_assoc]

section
variable {s : State} {session : Nat} {x : Session} (hx : s.session session = some x) (hup : s.spdmUp x.port = true)
  (hest : x.established = true)
include hx hup hest

theorem exec_keyUpdate_of_established (op : Nat) : exec (.keyUpdate session op) s = .next (s.answer x.port 0x69 [session, op]) :=
  congrArg Host.Outcome.next (State.inSession_of_established hx hup hest _)

theorem exec_heartbeat_of_established : exec (.heartbeat session) s = .next (s.answer x.port 0x68 [session]) :=
  congrArg Host.Outcome.next (State.inSession_of_established hx hup hest _)

theorem exec_endSession_of_established : exec (.endSession session) s = .next ((s.closeSession session).answer x.port 0x6C [session]) :=
  congrArg Host.Outcome.next (State.inSession_of_established hx hup hest _)

theorem exec_linkKeySet_of_ok {cmp : Nat} (hok : s.linkKeyOk x cmp = true) (key tag beat : Nat) :
    exec (.linkKeySet session cmp key tag beat) s = .next ({ s with sec := { s.sec with
      linkStg := Tab.put s.sec.linkStg cmp (key, tag % 2 ^ 32, beat % 2 ^ 64) } }.answer x.port 0x7E [session, cmp]) :=
  congrArg Host.Outcome.next ((State.inSession_of_established hx hup hest _).trans (if_pos hok))

theorem exec_linkKeySet_of_not_ok {cmp : Nat} (hok : ¬ s.linkKeyOk x cmp = true) (key tag beat : Nat) :
    exec (.linkKeySet session cmp key tag beat) s = .next (s.spdmError x.port 1) :=
  congrArg Host.Outcome.next ((State.inSession_of_established hx hup hest _).trans (if_neg hok))

end

theorem exec_linkKeyActivate_of_reached {s : State} {cmp : Nat} {k : Nat × Nat × Nat} (hk : s.sec.linkStg.find cmp = some k)
    (hreached : frameFrom k.2.2 ≤ s.beat) : exec (.linkKeyActivate cmp) s = .next (s.activateKey cmp k) := by
  change execLinkKeyActivate cmp s = _
  simp only [execLinkKeyActivate, hk, hreached, if_true]

/-- The ACTIVE key becomes PREVIOUS, with the boundary at which it ended. -/
theorem State.activateKey_linkPrev {s : State} {cmp : Nat} {a : Nat × Nat × Nat} (ha : s.sec.linkAct.find cmp = some a) (k : Nat × Nat × Nat) :
    (s.activateKey cmp k).sec.linkPrev = Tab.put s.sec.linkPrev cmp (a.1, a.2.1, frameFrom k.2.2) := by
  simp only [State.activateKey, ha]

theorem exec_linkKeyPreviousExpiry_of_passed {s : State} {cmp : Nat} {k : Nat × Nat × Nat} (hk : s.sec.linkPrev.find cmp = some k)
    (hpassed : k.2.2 + 1048576 ≤ s.beat) :
    exec (.linkKeyPreviousExpiry cmp) s = .next { s with sec := { s.sec with linkPrev := Tab.del s.sec.linkPrev cmp } } := by
  change execLinkKeyPreviousExpiry cmp s = _
  simp only [execLinkKeyPreviousExpiry, hk, hpassed, if_true]

/-! ### The statement -/

/-- Settles O45: each request is answered as its lemma above says, with a signature that takes the next free value; a link key is staged
exactly where `State.linkKeyOk` allows it. -/
theorem spdmAnswersAndCarriesLinkKeys : Obligations.SpdmAnswersAndCarriesLinkKeys := by
  refine ⟨?_, ?_, ?_, ?_, ?_, ?_, ?_, ?_, ?_, ?_, ?_, ?_, ?_, ?_⟩
  · exact fun s port => exec_getVersion_of_up
  · rintro s port ⟨hup, hconn⟩
    exact exec_getCapabilities_of_version hup hconn
  · rintro s port ⟨hup, hconn⟩
    exact exec_negotiateAlgorithms_of_capabilities hup hconn
  · rintro s port ⟨hup, hconn⟩
    exact exec_getDigests_of_algorithms hup hconn
  · rintro s port offset len ⟨hup, hconn⟩
    exact exec_getCertificate_of_algorithms hup hconn offset len
  · rintro s port ⟨hup, hconn⟩
    exact exec_challenge_of_algorithms hup hconn
  · rintro s port index ⟨hup, hconn⟩ ⟨hlow, hhigh⟩
    exact ⟨exec_getMeasurements_of_algorithms hup hconn hlow hhigh, rfl, fun hrecord => if_pos hrecord, rfl, rfl⟩
  · rintro s port digest mutualAuth ⟨hup, hconn⟩ hfew
    exact exec_keyExchange_of_algorithms hup hconn hfew mutualAuth digest
  · rintro s session x ⟨hx, hup⟩ hest
    exact exec_finish_of_verified hx hup hest
  · rintro s session op x ⟨hx, hup⟩ hest
    exact ⟨exec_keyUpdate_of_established hx hup hest op, exec_heartbeat_of_established hx hup hest, exec_endSession_of_established hx hup hest⟩
  · rintro s session cmp key tag beat x ⟨hx, hup, hest⟩ hok
    exact exec_linkKeySet_of_ok hx hup hest ((s.linkKeyOk_iff x cmp).mpr hok) key tag beat
  · rintro s session cmp key tag beat x ⟨hx, hup, hest⟩ hok
    exact exec_linkKeySet_of_not_ok hx hup hest (fun h => hok ((s.linkKeyOk_iff x cmp).mp h)) key tag beat
  · rintro s cmp k hk hreached
    exact ⟨exec_linkKeyActivate_of_reached hk hreached, rfl, rfl, fun a ha => State.activateKey_linkPrev ha k, rfl⟩
  · exact fun s cmp k => exec_linkKeyPreviousExpiry_of_passed

end Sys2Proof.Machine
end

section
/-! SUPPORT. Streams of PCIe IDE and interfaces of TDISP (R554 to R557). -/
namespace Sys2Proof.Machine

open Sys2Proof

/-! ### Key sets of a stream (R554) -/

/-- A request of the session of the port, for a stream and a key set that there are, is none of those that are invalid. -/
theorem State.ideKm_valid {port stream set : Nat} {x : Session} (hport : x.port = port) (hstream : stream < 5) (hset : set < 2) :
    (x.port != port || decide (ideStreams ≤ stream) || decide (2 ≤ set)) = false := by
  simp [hport, ideStreams, hset, Nat.not_le.2 hstream]

section
variable {s : State} {port session stream set : Nat} {x : Session} (hx : s.session session = some x) (hup : s.spdmUp x.port = true)
  (hest : x.established = true) (hport : x.port = port) (hstream : stream < 5) (hset : set < 2)
include hx hup hest hport hstream hset

theorem exec_ideKm_program : exec (.ideKm port session stream 0 set) s = .next
    ((s.setIde port stream { s.sec.ide.get IdeStream.none (8 * port + stream) with
      keys := if bit (s.sec.ide.get IdeStream.none (8 * port + stream)).keys set then (s.sec.ide.get IdeStream.none (8 * port + stream)).keys
        else (s.sec.ide.get IdeStream.none (8 * port + stream)).keys + 2 ^ set }).answer port 0x7E [0, stream, set]) := by
  refine congrArg Host.Outcome.next ((State.inSession_of_established hx hup hest _).trans ?_)
  simp only [State.ideKm_valid hport hstream hset, Bool.false_eq_true, if_false]

variable {i : IdeStream} (hi : s.sec.ide.get IdeStream.none (8 * port + stream) = i) (hkey : bit i.keys set = true)
include hi hkey

theorem exec_ideKm_switch : exec (.ideKm port session stream 1 set) s
    = .next ((s.setIde port stream { i with active := set + 1, insecure := false }).answer port 0x7E [1, stream, set]) := by
  refine congrArg Host.Outcome.next ((State.inSession_of_established hx hup hest _).trans ?_)
  simp only [State.ideKm_valid hport hstream hset, Bool.false_eq_true, if_false, hi, hkey, if_true]

theorem exec_ideKm_stop : exec (.ideKm port session stream 2 set) s = .next ((s.setIde port stream
    { i with keys := i.keys - 2 ^ set, active := if i.active = set + 1 then 0 else i.active }).answer port 0x7E [2, stream, set]) := by
  refine congrArg Host.Outcome.next ((State.inSession_of_established hx hup hest _).trans ?_)
  simp only [State.ideKm_valid hport hstream hset, Bool.false_eq_true, if_false, hi, hkey, if_true]

end

/-! ### A stream that fails (R556) -/

/-- What changes the security part and then reports, changes the security part and what reports change. -/
theorem State.reported.of_sec {fs : List Fld} {s t u : State} (h : t.reported fs u) (hsec : t = { s with sec := t.sec }) :
    u = { s.reports u with sec := u.sec } := by
  obtain ⟨x, hx⟩ : ∃ x, t = { s with sec := x } := ⟨_, hsec⟩
  subst hx
  have hreports := h.1
  rw [h.sec]
  exact hreports

theorem State.ideIncident_reported (s : State) (unit : Nat) (cs : List Nat) : s.reported postFlds (s.ideIncident unit cs) := s.post_reported _

/-- Interfaces outside a list do not fail with it. -/
theorem State.tdispErrors_tdi {fns : List Nat} {f : Nat} (h : f ∉ fns) (s : State) : (fns.foldl State.tdispError s).tdi f = s.tdi f := by
  induction fns generalizing s with
  | nil => rfl
  | cons g fns ih =>
    obtain ⟨hne, hrest⟩ := not_or.mp (List.mem_cons.not.mp h)
    rw [List.foldl_cons, ih hrest]
    unfold State.tdispError
    split
    · exact Tab.get_set_ne s.sec.tdisp 0 0 g f 3 (Ne.symm hne)
    · rfl

/-- Failing interfaces leave the streams. -/
theorem State.tdispErrors_ide (s : State) (fns : List Nat) : (fns.foldl State.tdispError s).sec.ide = s.sec.ide :=
  kept_fold_of (fun t : State => t.sec.ide) _ (fun t fn => by unfold State.tdispError; split <;> rfl) fns s

/-- The interfaces of a port that are bound to a selective stream. -/
def State.ideBound (s : State) (port stream : Nat) : List Nat :=
  if stream = 0 then [] else (instancesAt port).filter (fun f => s.sec.ifStream.get 0 f == stream)

theorem State.notMem_ideBound (s : State) {port stream f : Nat} (h : f ∉ instancesAt port ∨ stream = 0) : f ∉ s.ideBound port stream := by
  unfold State.ideBound
  rcases h with h | h
  · split
    · simp
    · exact fun hf => h (List.mem_filter.mp hf).1
  · simp [h]

/-- A host stream is Insecure, without keys, and its interfaces have failed. -/
def State.ideFailed (s : State) (port stream : Nat) : State :=
  (s.ideBound port stream).foldl State.tdispError (s.setIde port stream ⟨0, 0, true⟩)

theorem State.ideFailed_eq (s : State) (port stream : Nat) : s.ideFailed port stream = { s with sec := (s.ideFailed port stream).sec } :=
  State.tdispErrors_eq ..

theorem exec_ideFailure_of_active {s : State} {port stream : Nat} {i : IdeStream} (hport : port < 2) (hstream : stream < 5)
    (hi : s.sec.ide.get IdeStream.none (8 * port + stream) = i) (hactive : i.active ≠ 0) (hsecure : i.insecure = false) :
    exec (.ideFailure false port stream) s
      = .next ((s.ideFailed port stream).ideIncident (0x20 + port) ((s.setIde port stream ⟨0, 0, true⟩).cmpsAt port)) := by
  have hvalid : (decide (2 ≤ port) || decide (ideStreams ≤ stream) || decide (i.active = 0) || i.insecure) = false := by
    simp [hport, ideStreams, hactive, hsecure, Nat.not_le.2 hstream]
  change execIdeFailure false port stream s = _
  simp only [execIdeFailure, hi, hvalid, Bool.false_eq_true, if_false]
  rfl

theorem exec_ideFailure_of_expansion {s : State} {port : Nat} (hport : port < 8) (hup : s.rd .EXP_IDE_UP port ≠ 0) :
    exec (.ideFailure true port 0) s = .next ((s.ideIncident (0x10 + port)
      (tenants.filter (fun c => (s.grants c).t2.any (fun g => g / 512 == port)))).expansionLoss port) := by
  change execIdeFailure true port 0 s = _
  simp [execIdeFailure, hport, hup]

theorem State.linkDropped_ideUp (s : State) (p : Nat) : (s.linkDropped p).rd .EXP_IDE_UP p = 0 := by
  change (((s.wr .EXP_LINK_UP p 0).wr .EXP_IDE_UP p 0).wr .EXP_STATE p _).rd .EXP_IDE_UP p = 0
  simp [State.rd_wr]

theorem exec_expIdeRekey_of_up {s : State} {fn port : Nat} (hopen : s.barsBlocked fn = false) (hmgr : isMgr fn = true)
    (hprim : fn = s.primaryFn) (hport : port < 8) (hup : s.rd .EXP_IDE_UP port ≠ 0) (hentropy : s.sec.entropyBad = false) :
    exec (.expIdeRekey fn port) s
      = .next { s with sec := { s.sec with expSet := Tab.set s.sec.expSet 0 port (1 - s.sec.expSet.get 0 port) } } := by
  change execExpIdeRekey fn port s = _
  simp [execExpIdeRekey, hopen, hmgr, ← hprim, hport, hup, hentropy]

/-! ### Interfaces (R557) -/

section
variable {s : State} {i : Nat} (hinst : isMgr i = false) (hup : s.spdmUp (portOf i) = true)
include hinst hup

/-- A request to a function of a port whose responder runs is answered. -/
theorem State.tdispReq_of_up (k : State → State) : s.tdispReq i k = k s := by
  simp [State.tdispReq, hinst, hup]

theorem exec_lockInterfaceRequest_of_up {stream : Nat} (hstream : stream < 5) : exec (.lockInterfaceRequest i stream) s = .next
    (if s.tdi i = 0 ∧ s.rd .INS_BOUND i = 1 ∧ s.rd .INS_ENABLE i = 1 then (s.setTdi i 1 stream).answer (0x100 + i) 0x03 []
      else s.tdispErr i) := by
  refine congrArg Host.Outcome.next ((State.tdispReq_of_up hinst hup _).trans ?_)
  simp [ideStreams, hstream, and_assoc]

theorem exec_startInterfaceRequest_of_up : exec (.startInterfaceRequest i) s = .next
    (if s.tdi i = 1 then (s.setTdi i 2 (s.sec.ifStream.get 0 i)).answer (0x100 + i) 0x06 [] else s.tdispErr i) :=
  congrArg Host.Outcome.next (State.tdispReq_of_up hinst hup _)

theorem exec_stopInterfaceRequest_of_up : exec (.stopInterfaceRequest i) s = .next ((s.setTdi i 0 0).answer (0x100 + i) 0x07 []) :=
  congrArg Host.Outcome.next (State.tdispReq_of_up hinst hup _)

theorem exec_getDeviceInterfaceState_of_up : exec (.getDeviceInterfaceState i) s = .next (s.answer (0x100 + i) 0x05 [s.tdi i]) :=
  congrArg Host.Outcome.next (State.tdispReq_of_up hinst hup _)

theorem exec_getDeviceInterfaceReport_of_up : exec (.getDeviceInterfaceReport i) s = .next
    (if s.tdi i = 1 ∨ s.tdi i = 2 then s.answer (0x100 + i) 0x04 (s.interfaceReport i) else s.tdispErr i) := by
  have hlocked : s.tdispLocked i = true ↔ s.tdi i = 1 ∨ s.tdi i = 2 := by simp [State.tdispLocked, State.tdi]
  exact congrArg Host.Outcome.next ((State.tdispReq_of_up hinst hup _).trans (if_congr hlocked rfl rfl))

end

/-! ### The statement -/

/-- Settles O46: a failing host stream changes the security part and reports; a failing expansion stream is a lost link after its report;
each request to an interface is answered as its lemma above says. -/
theorem ideAndTdispFollowTheirTables : Obligations.IdeAndTdispFollowTheirTables := by
  refine ⟨?_, ?_, ?_, ?_, ?_, ?_, ?_, ?_⟩
  · rintro s port session stream set x ⟨hx, hup, hest, hport⟩ ⟨hstream, hset⟩
    exact exec_ideKm_program hx hup hest hport hstream hset
  · rintro s port session stream set x i ⟨hx, hup, hest, hport⟩ ⟨hstream, hset, hi, hkey⟩
    exact ⟨exec_ideKm_switch hx hup hest hport hstream hset hi hkey, exec_ideKm_stop hx hup hest hport hstream hset hi hkey⟩
  · rintro s port stream i ⟨hport, hstream, hi, hactive, hsecure⟩
    have hreport := (s.ideFailed port stream).ideIncident_reported (0x20 + port) ((s.setIde port stream ⟨0, 0, true⟩).cmpsAt port)
    refine ⟨_, exec_ideFailure_of_active hport hstream hi hactive hsecure, ?_, ?_, ?_, fun f hf => ?_⟩
    · rw [hreport.sec]
      exact State.tdispErrors_ide ..
    · exact hreport.of_sec (s.ideFailed_eq port stream)
    · refine State.reported.keeps hreport (fun _ => id) ?_
      rw [State.ideFailed_eq]
      exact s.keepsBut_refl _
    · change Tab.get _ 0 f = _
      rw [hreport.sec]
      exact State.tdispErrors_tdi (s.notMem_ideBound hf) _
  · rintro s port ⟨hport, hup⟩
    refine ⟨_, exec_ideFailure_of_expansion hport hup, ?_, ?_, ?_, ?_, ?_⟩
    · rw [(State.expansionLoss_reported ..).rd (by decide), State.linkDropped_linkUp]
    · rw [(State.expansionLoss_reported ..).rd (by decide), State.linkDropped_ideUp]
    · have hposted := (s.ideIncident_reported (0x10 + port) (tenants.filter (fun c => (s.grants c).t2.any (fun g => g / 512 == port)))).2
      exact (State.expansionLoss_reported ..).keeps (fun _ => List.mem_append_right _)
        ((hposted.mono fun _ => List.mem_append_right _).trans ((State.linkDropped_keepsBut _ port).mono fun _ => List.mem_append_left _))
    · exact (State.expansionLoss_reported ..).mem.trans (s.ideIncident_reported ..).mem
    · exact (State.expansionLoss_reported ..).sec.trans (s.ideIncident_reported ..).sec
  · rintro s fn port ⟨hopen, hmgr, hprim⟩ ⟨hport, hup, hentropy⟩
    exact exec_expIdeRekey_of_up hopen hmgr hprim hport hup hentropy
  · rintro s i stream ⟨hinst, hup⟩ hstream
    exact exec_lockInterfaceRequest_of_up hinst hup hstream
  · rintro s i ⟨hinst, hup⟩
    exact ⟨exec_startInterfaceRequest_of_up hinst hup, exec_stopInterfaceRequest_of_up hinst hup⟩
  · rintro s i ⟨hinst, hup⟩
    exact ⟨exec_getDeviceInterfaceState_of_up hinst hup, exec_getDeviceInterfaceReport_of_up hinst hup⟩

end Sys2Proof.Machine
end

section
/-! SUPPORT. The accesses of an engine, and with them a squash, leave the security part of the state (chapters 9, 10 and 20). -/
namespace Sys2Proof.Machine

open Sys2Proof

/-! ### Counters and reports -/

@[simp] theorem State.bump_sec (s : State) (f : Fld) (i n : Nat) : (s.bump f i n).sec = s.sec := by
  unfold State.bump
  dsimp only
  split <;> rfl

@[simp] theorem State.post_sec (s : State) (p : Post) : (s.post p).sec = s.sec := (s.post_reported p).sec

@[simp] theorem State.occur_sec (s : State) (n : Nat) : (s.occur n).sec = s.sec := (s.occur_reported n).sec

@[simp] theorem State.breach_sec (s : State) (c : Nat) (k : Breach) (b : BreachAt) : (s.breach c k b).sec = s.sec := by
  unfold State.breach
  dsimp only
  split
  · simp [State.stat]
  · split <;> simp [State.stat, State.countFrame]

theorem State.opBreach_sec (s : State) (o : Op) (k : Breach) (b : BreachAt) : (s.opBreach o k b).2.sec = s.sec := by
  unfold State.opBreach
  split
  · rfl
  · exact s.breach_sec ..

@[simp] theorem State.opLate_sec (s : State) (o : Op) (late : Bool) (va : Nat) : (s.opLate o late va).2.sec = s.sec := by
  unfold State.opLate
  split
  · exact s.opBreach_sec ..
  · rfl

theorem State.postFault_sec (s : State) (c : Nat) (indic : Bool) (f : Flt) (port func ring index : Nat) (list : Option Nat) :
    (s.postFault c indic f port func ring index list).sec = s.sec := by
  unfold State.postFault
  dsimp only
  split
  · simp
  · split <;> simp [State.countFrame]

@[simp] theorem State.opFault_sec (s : State) (o : Op) (port result : Nat) (f : Flt) : (s.opFault o port result f).2.sec = s.sec :=
  s.postFault_sec ..

/-! ### Reads (chapters 9 and 10) -/

/-- What lies beyond the reads of an engine holds the security part. -/
theorem State.sec_of_beyondReads {s t : State} (h : t.beyondReads = s.beyondReads) : t.sec = s.sec := by
  have e := congrArg State.sec h
  exact e

@[simp] theorem State.mapSpan_sec (s : State) (port c : Nat) (indic : Bool) (need : Need) (fuel va n : Nat) :
    (s.mapSpan port c indic need fuel va n).2.2.2.sec = s.sec := State.sec_of_beyondReads (s.mapSpan_beyondReads ..)

theorem State.vread_sec (s : State) (port c : Nat) (indic : Bool) (need : Need) (accOnly : Bool) (va n : Nat) :
    (s.vread port c indic need accOnly va n).2.2.sec = s.sec := by
  have htouch (u : State) (ps : List Piece) : (u.touchPieces c indic ps).sec = u.sec := State.sec_of_beyondReads (u.touchPieces_beyondReads ..)
  unfold State.vread
  dsimp only
  split
  · simp
  · split
    · simp
    · split <;> simp [htouch]

@[simp] theorem State.opRead_sec (s : State) (o : Op) (port : Nat) (need : Need) (accOnly : Bool) (va n : Nat) :
    (s.opRead o port need accOnly va n).2.2.sec = s.sec := (State.opLate_sec ..).trans (s.vread_sec ..)

/-! ### GATHER_REDUCE, and what a squash wakes of it (chapter 13) -/

@[simp] theorem State.gatherRun_sec (s : State) (o : Op) (n : Nat) (g : GrRun) : (s.gatherRun o n g).2.2.2.sec = s.sec := by
  induction n generalizing s o g with
  | zero => rfl
  | succ n ih =>
    unfold State.gatherRun
    extract_lets d size ix
    split
    · simp [ix]
    · simp [ix]
    · extract_lets e va m l
      have hrow : l.2.sec = s.sec := by simp [l, m, ix]
      split
      · exact hrow
      · split
        · exact hrow
        · split
          · exact hrow
          · split
            · exact hrow
            · split <;> exact (ih ..).trans hrow

theorem gatherWork_sec (o : Op) (s : State) : (gatherWork o s).2.sec = s.sec := by
  unfold gatherWork
  dsimp only
  split
  · simp
  · split
    · simp
    · simp
    · split <;> simp

theorem State.wakeHeld_sec (s : State) (c stack : Nat) : (s.wakeHeld c stack).sec = s.sec := by
  unfold State.wakeHeld
  split
  · rfl
  · split
    · exact gatherWork_sec ..
    · rfl

theorem State.dropFired_sec (s : State) (fn n : Nat) : (s.dropFired fn n).sec = s.sec :=
  kept_fold_of State.sec (fun (u : State) (e : Nat × List Nat) => u.unarm e.1) (fun _ _ => rfl) (s.run fn n).fire s

theorem State.squash_sec (s : State) (fn : Nat) : (s.squash fn).sec = s.sec := by
  unfold State.squash
  extract_lets gone ids held fired
  have hfired : fired.sec = s.sec := kept_fold_of State.sec (fun (u : State) n => u.dropFired fn n) (fun u n => u.dropFired_sec fn n) _ s
  clear_value fired
  refine (kept_fold_of State.sec (fun (u : State) (e : Nat × Nat) => u.wakeHeld e.1 e.2) (fun u e => u.wakeHeld_sec e.1 e.2) held _).trans ?_
  exact hfired

end Sys2Proof.Machine
end

section
/-! SUPPORT. Fuses, and the challenges and responses of the debug lock (R560 to R565). -/
namespace Sys2Proof.Machine

open Sys2Proof

/-! ### Fuses (R560, R561) -/

section
variable {s : State} {fn : Nat} (hopen : s.barsBlocked fn = false) (hmgr : isMgr fn = true) (hprim : fn = s.primaryFn)
include hopen hmgr hprim

theorem exec_svnCommit_of_open :
    exec (.svnCommit fn) s = .next (s.wr .SEC_MIN_SVN 0 (max (s.rd .SEC_MIN_SVN 0) (s.rd .SEC_IMAGE_SVN 0))) := by
  change execSvnCommit fn s = _
  simp [execSvnCommit, hopen, hmgr, ← hprim]

theorem exec_seal_of_open (value : Nat) : exec (.seal fn value) s
    = .next (if value = 0x5EA1 ∧ s.rd .SEC_LIFECYCLE 0 = 0 then { s with sec := { s.sec with sealNext := true } } else s) := by
  change execSeal fn value s = _
  simp only [execSeal, hopen, hmgr, ← hprim, Bool.not_true, Bool.or_self, bne_self_eq_false, Bool.false_eq_true, if_false,
    Bool.and_eq_true, decide_eq_true_eq, ← apply_ite Host.Outcome.next]

end

/-! ### A challenge is issued (R562) -/

/-- The entries of a field that are written in a row read as they were written. -/
theorem State.rd_wrRange (s : State) (f : Fld) (g : Nat → Nat) {n j : Nat} (h : j < n) :
    ((List.range n).foldl (fun (t : State) i => t.wr f i (g i)) s).rd f j = g j % 2 ^ f.spec.width := by
  induction n with
  | zero => omega
  | succ n ih =>
    rw [List.range_succ, List.foldl_append]
    by_cases hlast : n = j
    · subst hlast
      exact State.rd_wr_same ..
    · exact (State.rd_wr_ne _ _ _ _ _ _ (by simp [hlast])).trans (ih (by omega))

theorem State.wrRange_reported (s : State) {fs : List Fld} {f : Fld} (h : f ∈ fs) (g : Nat → Nat) (is : List Nat) :
    s.reported fs (is.foldl (fun (t : State) i => t.wr f i (g i)) s) := .foldl _ (fun t i => t.wr_reported f i (g i) h) is s

/-- A field reads what the registers hold. -/
theorem State.rd_of_reg {s t : State} (h : t.reg = s.reg) (f : Fld) (i : Nat) : t.rd f i = s.rd f i := by
  unfold State.rd
  rw [h]

/-- The state after the four free values of a challenge are taken. -/
def State.drawn (s : State) : State := s.fresh.2.fresh.2.fresh.2.fresh.2

theorem State.drawn_eq (s : State) : s.drawn = { s with free := s.free + 4 } := rfl

/-- The words of the challenge that is issued next. -/
def State.nextChallenge (s : State) : List Nat :=
  s.drawn.challengeWords [s.fresh.1, s.fresh.2.fresh.1, s.fresh.2.fresh.2.fresh.1, s.fresh.2.fresh.2.fresh.2.fresh.1]

/-- The challenge record is shown. -/
def State.challengeShown (s : State) : State :=
  (List.range 16).foldl (fun (t : State) i => t.wr .SEC_DBG_CHALLENGE i (word s.nextChallenge i)) s.drawn

/-- The shown challenge waits for its response. -/
def State.challengeWaits (s : State) : State :=
  { s.wr .SEC_DBG_STATUS 0 1 with sec := { s.sec with challenge := some s.ns } }

theorem State.issueChallenge_eq (s : State) : s.issueChallenge = s.challengeShown.challengeWaits := rfl

theorem State.challengeWaits_reg (s : State) : s.challengeWaits.reg = (s.wr .SEC_DBG_STATUS 0 1).reg := rfl

theorem State.challengeShown_reported (s : State) : s.drawn.reported [.SEC_DBG_CHALLENGE] s.challengeShown :=
  s.drawn.wrRange_reported (by decide) ..

theorem State.issueChallenge_challenge (s : State) : s.issueChallenge.sec.challenge = some s.ns :=
  congrArg some s.challengeShown_reported.ns

theorem State.issueChallenge_keepsBut (s : State) : s.keepsBut s.issueChallenge [.SEC_DBG_CHALLENGE, .SEC_DBG_STATUS] := by
  have hdrawn : s.keepsBut s.drawn [.SEC_DBG_CHALLENGE] := fun _ _ _ => rfl
  rw [State.issueChallenge_eq]
  exact (State.keepsBut_wr .SEC_DBG_STATUS 0 1 (by decide) ((hdrawn.trans s.challengeShown_reported.2).mono (by decide))).of_reg
    (State.challengeWaits_reg _)

theorem State.issueChallenge_status (s : State) : s.issueChallenge.rd .SEC_DBG_STATUS 0 = 1 := by
  rw [State.issueChallenge_eq, State.rd_of_reg (State.challengeWaits_reg _), State.rd_wr_same]
  rfl

theorem State.issueChallenge_word (s : State) {j : Nat} (h : j < 16) :
    s.issueChallenge.rd .SEC_DBG_CHALLENGE j = word s.nextChallenge j % 2 ^ 32 := by
  rw [State.issueChallenge_eq, State.rd_of_reg (State.challengeWaits_reg _), State.rd_wr_ne _ _ _ _ _ _ (by simp)]
  exact s.drawn.rd_wrRange .SEC_DBG_CHALLENGE _ h

/-- `t` comes from `s` by register writes and by steps of the security part, with the next four free values taken. -/
def State.challenged (s t : State) : Prop := t = { s with reg := t.reg, sec := t.sec, free := s.free + 4 }

theorem State.challenged.wr {s t : State} (h : s.challenged t) (f : Fld) (i v : Nat) : s.challenged (t.wr f i v) :=
  congrArg (fun u : State => u.wr f i v) h

theorem State.challenged.waits {s t : State} (h : s.challenged t) : s.challenged t.challengeWaits := by
  unfold State.challenged
  rw [h]
  rfl

theorem State.issueChallenge_challenged (s : State) : s.challenged s.issueChallenge := by
  have hshown : s.challenged s.challengeShown :=
    List.foldlRecOn (motive := s.challenged) (List.range 16) (fun (t : State) i => t.wr .SEC_DBG_CHALLENGE i (word s.nextChallenge i)) s.drawn_eq
      fun t ht i _ => ht.wr ..
  exact hshown.waits

/-- Arbitration moves a rotating pointer. -/
theorem State.arbitrate_eq (s : State) (p : Point) (n : Nat) (claims : List Nat) :
    ∃ ptrs, (s.arbitrate p n claims).2 = { s with reg := { s.reg with ptrs := ptrs } } := by
  unfold State.arbitrate
  dsimp only
  split
  · exact ⟨_, rfl⟩
  · exact ⟨s.reg.ptrs, rfl⟩

/-- A challenge that loses against the other path reads as refused. -/
def State.challengeTied (s : State) (lost : Bool) : State := if lost then s.wr .SEC_DBG_STATUS 0 6 else s

section
variable {s : State} {fn : Nat} {rival : Bool}

theorem exec_debugChallengeRequest_of_open (hopen : s.barsBlocked fn = false) (hmgr : isMgr fn = true) (hprim : fn = s.primaryFn)
    (hpower : s.pins.pwrgood = true) (hlock : s.rd .SEC_DBG_LOCKOUT 0 = 0) (hentropy : s.sec.entropyBad = false) :
    ∃ ptrs lost, (rival = false → lost = false) ∧ exec (.debugChallengeRequest 0 fn rival) s
      = .next (({ s with reg := { s.reg with ptrs := ptrs } } : State).issueChallenge.challengeTied lost) := by
  obtain ⟨ptrs, hptrs⟩ := s.arbitrate_eq (.other 0x200) 2 (if rival then [0, 1] else [0])
  refine ⟨ptrs, rival && (s.arbitrate (.other 0x200) 2 (if rival then [0, 1] else [0])).1.headD 0 != 0, fun h => by simp [h], ?_⟩
  rw [← hptrs]
  change execDebugChallengeRequest 0 fn rival s = _
  simp only [execDebugChallengeRequest, hopen, hmgr, hpower, ← hprim, hlock, hentropy, bne_self_eq_false, Bool.not_true, Bool.or_self,
    Bool.and_false, Bool.false_eq_true, if_false, show ¬ 2 ≤ 0 by omega, decide_false, Nat.zero_ne_one]
  rfl

theorem exec_debugChallengeRequest_of_lockout {path : Nat} (hpath : path < 2) (hpower : s.pins.pwrgood = true)
    (hreach : path = 0 → s.barsBlocked fn = false ∧ isMgr fn = true ∧ fn = s.primaryFn) (hlock : s.rd .SEC_DBG_LOCKOUT 0 = 1) :
    exec (.debugChallengeRequest path fn rival) s = .next (s.wr .SEC_DBG_STATUS 0 7) := by
  have hvalid : (decide (2 ≤ path) || !s.pins.pwrgood || (decide (path = 0) && (s.barsBlocked fn || !isMgr fn))) = false := by
    by_cases h : path = 0
    · obtain ⟨hopen, hmgr, -⟩ := hreach h
      simp [h, hpower, hopen, hmgr]
    · simp [h, hpower, Nat.not_le.2 hpath]
  have hown : (decide (path = 0) && fn != s.primaryFn) = false := by
    by_cases h : path = 0
    · simp [← (hreach h).2.2]
    · simp [h]
  change execDebugChallengeRequest path fn rival s = _
  simp only [execDebugChallengeRequest, hvalid, hown, hlock, Bool.false_eq_true, if_false, if_true]

end

/-! ### A challenge fails (R564) -/

/-- The issued challenge is used up. -/
def State.challengeTaken (s : State) : State := { s with sec := { s.sec with challenge := none } }

section
variable (s : State) (status : Nat)

theorem State.debugFailed_keepsBut : s.keepsBut (s.debugFailed status) [.SEC_DBG_FAILURES, .SEC_DBG_STATUS, .SEC_DBG_LOCKOUT] := by
  have hcount := State.keepsBut_wr .SEC_DBG_STATUS 0 status (by decide) (State.keepsBut_wr .SEC_DBG_FAILURES 0 (min 15 (s.rd .SEC_DBG_FAILURES 0 + 1))
    (by decide) (s.keepsBut_refl [.SEC_DBG_FAILURES, .SEC_DBG_STATUS, .SEC_DBG_LOCKOUT]))
  unfold State.debugFailed
  dsimp only
  split
  · exact State.keepsBut_wr .SEC_DBG_LOCKOUT 0 1 (by decide) hcount
  · exact hcount

theorem State.debugFailed_failures : (s.debugFailed status).rd .SEC_DBG_FAILURES 0 = min 15 (s.rd .SEC_DBG_FAILURES 0 + 1) := by
  have hfits : min 15 (s.rd .SEC_DBG_FAILURES 0 + 1) % 2 ^ Fld.SEC_DBG_FAILURES.spec.width = min 15 (s.rd .SEC_DBG_FAILURES 0 + 1) :=
    Nat.mod_eq_of_lt (by change _ < 2 ^ 4; omega)
  unfold State.debugFailed
  dsimp only
  split <;> simp [State.rd_wr, hfits]

theorem State.debugFailed_status (h : status < 8) : (s.debugFailed status).rd .SEC_DBG_STATUS 0 = status := by
  have hfits : status % 2 ^ Fld.SEC_DBG_STATUS.spec.width = status := Nat.mod_eq_of_lt h
  unfold State.debugFailed
  dsimp only
  split <;> simp [State.rd_wr, hfits]

theorem State.debugFailed_lockout (h : 7 ≤ s.rd .SEC_DBG_FAILURES 0) : (s.debugFailed status).rd .SEC_DBG_LOCKOUT 0 = 1 := by
  have heighth : 8 ≤ min 15 (s.rd .SEC_DBG_FAILURES 0 + 1) := by omega
  unfold State.debugFailed
  dsimp only
  rw [if_pos heighth]
  exact State.rd_wr_same ..

theorem State.debugFailed_frame : s.debugFailed status = { s with reg := { s.reg with vals := (s.debugFailed status).reg.vals } } := by
  unfold State.debugFailed
  dsimp only
  split <;> rfl

end

/-! ### A response passes, and the port opens (R563, R565) -/

theorem State.debugEndLongs_sec (s : State) : s.debugEndLongs.sec = s.sec := by
  have hroll : s.abortRoll.sec = s.sec := by
    unfold State.abortRoll
    split <;> rfl
  refine (kept_fold_of State.sec _ (fun u i => ?_) _ s.abortRoll).trans hroll
  split
  · split
    · unfold State.endSlot
      split
      · rfl
      · exact State.occur_sec ..
    · rfl
  · rfl

theorem State.taint_challenge (s : State) (c cause : Nat) : (s.taint c cause).sec.challenge = s.sec.challenge := by
  have hfail (u : State) (fns : List Nat) : (fns.foldl State.tdispError u).sec.challenge = u.sec.challenge :=
    kept_fold_of (fun t : State => t.sec.challenge) _ (fun t fn => by unfold State.tdispError; split <;> rfl) fns u
  have henter : (s.enterState c .tainted).sec.challenge = s.sec.challenge := by
    unfold State.enterState
    have hstate : (s.setCmpState c .tainted).sec = s.sec := by
      unfold State.setCmpState
      split <;> rfl
    extract_lets u
    split
    · exact congrArg SecSt.challenge hstate
    · rw [hfail, State.endContracts_eq]
      exact congrArg SecSt.challenge hstate
  unfold State.taint
  split
  · rfl
  · rw [State.post_sec]
    exact henter

/-- Work of every function and every long operation has ended. -/
def State.debugEnded (s : State) : State := ((List.range 128).foldl State.squash s).debugEndLongs

/-- The keys of every compartment are destroyed. -/
def State.debugKeyless (s : State) : State := compartments.foldl State.destroyKeys s

/-- The expansion streams are down, and the host streams Insecure. -/
def State.debugStreamless (s : State) : State :=
  let t := (List.range 8).foldl (fun (s : State) p => s.wr .EXP_IDE_UP p 0) s
  { t with sec := { t.sec with expSet := [], ide := t.sec.ide.mapVals (fun _ _ => ⟨0, 0, true⟩) } }

/-- The tenants are TAINTED, and the house has fresh keys. -/
def State.debugTainted (s : State) : State := (tenants.foldl (fun s c => s.taint c 5) s).freshKeys 0

theorem State.openDebug_eq (s : State) : s.openDebug
    = ((s.debugEnded.debugKeyless.debugStreamless.debugTainted.wr .SEC_DBG_OPEN 0 1).wr .SEC_DBG_OPENED_SINCE_POWER 0 1).post
      (devInc 0x0F01 .device 0 0 []) := by
  simp only [State.openDebug, State.debugTainted, State.debugStreamless, State.debugKeyless, State.debugEnded]

theorem State.debugEnded_sec (s : State) : s.debugEnded.sec = s.sec :=
  (State.debugEndLongs_sec _).trans (kept_fold_of State.sec State.squash (fun u fn => u.squash_sec fn) (List.range 128) s)

theorem State.debugKeyless_challenge (s : State) : s.debugKeyless.sec.challenge = s.sec.challenge :=
  kept_fold_of (fun x : State => x.sec.challenge) State.destroyKeys (fun _ _ => rfl) compartments s

theorem State.debugStreamless_challenge (s : State) : s.debugStreamless.sec.challenge = s.sec.challenge :=
  kept_fold_of (fun x : State => x.sec.challenge) (fun (s : State) p => s.wr .EXP_IDE_UP p 0) (fun _ _ => rfl) (List.range 8) s

theorem State.debugTainted_challenge (s : State) : s.debugTainted.sec.challenge = s.sec.challenge := by
  have htaint := kept_fold_of (fun x : State => x.sec.challenge) (fun s c => State.taint s c 5) (fun x c => x.taint_challenge c 5) tenants s
  unfold State.debugTainted State.freshKeys
  generalize tenants.foldl (fun s c => State.taint s c 5) s = u at htaint
  dsimp only
  split <;> exact htaint

theorem State.openDebug_challenge (s : State) : s.openDebug.sec.challenge = s.sec.challenge := by
  rw [State.openDebug_eq, State.post_sec, State.wr_sec, State.wr_sec, State.debugTainted_challenge, State.debugStreamless_challenge,
    State.debugKeyless_challenge, State.debugEnded_sec]

theorem State.openDebug_open (s : State) : s.openDebug.rd .SEC_DBG_OPEN 0 = 1 ∧ s.openDebug.rd .SEC_DBG_OPENED_SINCE_POWER 0 = 1 := by
  rw [State.openDebug_eq, (State.post_reported ..).rd (by decide), (State.post_reported ..).rd (by decide)]
  simp [State.rd_wr, Fld.spec]

/-- The port opens, and the failures start anew. -/
def State.debugPassed (s : State) : State := (s.openDebug.wr .SEC_DBG_FAILURES 0 0).wr .SEC_DBG_STATUS 0 3

theorem State.debugPassed_challenge (s : State) : s.debugPassed.sec.challenge = s.sec.challenge := by
  rw [State.debugPassed, State.wr_sec, State.wr_sec, State.openDebug_challenge]

theorem exec_debugResponseSubmit_of_testPort {s : State} {fn mode n : Nat} {words : List Nat} (hpower : s.pins.pwrgood = true)
    (hissued : s.sec.challenge = some n) : exec (.debugResponseSubmit 1 fn mode words) s
      = .next (if s.responseOk (mode % 2) ((List.range 48).map (fun i => word words i % 2 ^ 32)) = true then s.challengeTaken.debugPassed
        else s.challengeTaken.debugFailed 4) := by
  change execDebugResponseSubmit 1 fn mode words s = _
  simp only [execDebugResponseSubmit, hpower, hissued, Nat.one_ne_zero, if_false, decide_false, Bool.false_and, Bool.not_true, Bool.or_false,
    show ¬ 2 ≤ 1 by omega, Bool.false_eq_true, ← apply_ite Host.Outcome.next]
  rfl

/-- The expiry of a challenge, which comes no earlier than its time. -/
def State.challengeExpired (s : State) (n : Nat) : State := { s.challengeTaken with ns := max s.ns (n + 60000000000) }

theorem exec_debugChallengeExpiry_of_issued {s : State} {n : Nat} (hissued : s.sec.challenge = some n) :
    exec .debugChallengeExpiry s = .next ((s.challengeExpired n).debugFailed 5) := by
  change execDebugChallengeExpiry s = _
  simp only [execDebugChallengeExpiry, hissued]
  rfl

/-! ### The statement -/

/-- Settles O47: a challenge takes four free values and is shown word by word; a failure is counted and at the eighth locks; a response
that passes leaves the challenge used and the port open whatever the junction clears before. -/
theorem theDebugLockOpensByChallenge : Obligations.TheDebugLockOpensByChallenge := by
  refine ⟨?_, ?_, ?_, ?_, ?_⟩
  · rintro s fn value ⟨hopen, hmgr, hprim⟩
    exact ⟨exec_svnCommit_of_open hopen hmgr hprim, exec_seal_of_open hopen hmgr hprim value⟩
  · rintro s fn rival ⟨hopen, hmgr, hprim, hpower⟩ ⟨hlock, hentropy⟩
    obtain ⟨ptrs, lost, hlost, hexec⟩ := exec_debugChallengeRequest_of_open (rival := rival) hopen hmgr hprim hpower hlock hentropy
    generalize hu : ({ s with reg := { s.reg with ptrs := ptrs } } : State) = u at hexec
    have hword (j : Nat) (hj : j < 16) : (u.issueChallenge.challengeTied lost).rd .SEC_DBG_CHALLENGE j = word u.nextChallenge j % 2 ^ 32 := by
      refine Eq.trans ?_ (u.issueChallenge_word hj)
      unfold State.challengeTied
      split
      · exact State.rd_wr_ne _ _ _ _ _ _ (by simp)
      · rfl
    have hframe : u.challenged (u.issueChallenge.challengeTied lost) := by
      unfold State.challengeTied
      split
      · exact u.issueChallenge_challenged.wr ..
      · exact u.issueChallenge_challenged
    have hsec : (u.issueChallenge.challengeTied lost).sec = u.issueChallenge.sec := by
      unfold State.challengeTied
      split <;> rfl
    have hkeeps : u.keepsBut (u.issueChallenge.challengeTied lost) [.SEC_DBG_CHALLENGE, .SEC_DBG_STATUS] := by
      unfold State.challengeTied
      split
      · exact State.keepsBut_wr _ _ _ (by decide) u.issueChallenge_keepsBut
      · exact u.issueChallenge_keepsBut
    refine ⟨_, hexec, ?_, ?_, ?_, ?_, ?_, ?_, ?_, ?_⟩
    · rw [hsec, State.issueChallenge_challenge, ← hu]
    · have hfree := congrArg State.free hframe
      rw [hfree, ← hu]
    · exact hword 0 (by omega)
    · refine (hword 4 (by omega)).trans ?_
      rw [← hu]
      exact Nat.mod_mod ..
    · exact hword 15 (by omega)
    · intro hrival
      rw [hlost hrival]
      exact u.issueChallenge_status
    · rw [← hu] at hkeeps ⊢
      exact hkeeps
    · rw [← hu] at hframe ⊢
      have hfree := congrArg State.free hframe
      rw [hfree]
      exact hframe
  · rintro s path fn rival ⟨hpath, hpower, hreach⟩ hlock
    exact exec_debugChallengeRequest_of_lockout hpath hpower hreach hlock
  · rintro s fn mode n words ⟨hpower, hissued⟩
    have hexec := exec_debugResponseSubmit_of_testPort (fn := fn) (mode := mode) (words := words) hpower hissued
    have hpins := (kept_parts (keep_execDebugResponseSubmit 1 fn mode words s _ hexec)).2.1
    refine ⟨_, hexec, ?_, hpins, ?_⟩
    · split
      · exact s.challengeTaken.debugPassed_challenge
      · rw [State.debugFailed_frame]
        rfl
    · by_cases hok : s.responseOk (mode % 2) ((List.range 48).map (fun i => word words i % 2 ^ 32)) = true
      · simp only [hok, if_true]
        obtain ⟨hopen, hopened⟩ := s.challengeTaken.openDebug_open
        simp [State.debugPassed, State.rd_wr, hopen, hopened, Fld.spec]
      · simp only [hok]
        refine ⟨s.challengeTaken.debugFailed_failures 4, s.challengeTaken.debugFailed_status 4 (by omega), fun h => ?_,
          s.challengeTaken.debugFailed_keepsBut 4, ?_⟩
        · exact s.challengeTaken.debugFailed_lockout 4 h
        · have hframe := s.challengeTaken.debugFailed_frame 4
          rw [hframe]
          rfl
  · rintro s n hissued
    have hframe := (s.challengeExpired n).debugFailed_frame 5
    refine ⟨_, exec_debugChallengeExpiry_of_issued hissued, ?_, ?_, (s.challengeExpired n).debugFailed_failures 5,
      (s.challengeExpired n).debugFailed_status 5 (by omega), fun h => (s.challengeExpired n).debugFailed_lockout 5 h,
      (s.challengeExpired n).debugFailed_keepsBut 5, ?_⟩ <;>
    · rw [hframe]
      rfl

end Sys2Proof.Machine
end

section
/-! SUPPORT. BULK_FILL and MEMTEST in their operation slots (R537, R538). -/
namespace Sys2Proof.Machine

open Sys2Proof

/-! ### Starts (R531) -/

section
variable {o : Op} {d : List Nat} {s : State} {i : Nat} (hdesc : o.desc = d) (hfn : o.fn = s.primaryFn) (hfawn : s.rd .BOOT_FAWN 0 = 0)
  (hbusy : s.longBusy (dOpcode d) (adCmp d) = false) (hslot : s.claimSlot = some i)
include hdesc hfn hfawn hbusy hslot

/-- The work of a BULK_FILL of zeros whose checks pass, for an operation of descriptor `d`. -/
theorem bulkFillWork_of_zeros (hstate : s.cmpState (adCmp d) = .assigned ∨ s.cmpState (adCmp d) = .quiesced)
    (hrange : s.rangeOk (adCmp d) d = true) (hzeros : adPtr d = 0) : bulkFillWork o s = ({ o with wait := .long i },
      s.opensLong o 0 (adCmp d) (bulkLen d / 128) i (List.replicate 16 0) [lineOf (adArg0 d)]) := by
  subst hdesc
  have hright : ¬(s.cmpState (adCmp o.desc) != .assigned && s.cmpState (adCmp o.desc) != .quiesced) = true := by
    rcases hstate with h | h <;> simp [h]
  have hform : ¬(!s.rangeOk (adCmp o.desc) o.desc || adPtr o.desc % 128 != 0) = true := by simp [hrange, hzeros]
  rw [bulkFillWork, adminGate_open _ hfn hfawn]
  dsimp only
  rw [if_neg hright, if_neg hform, if_pos hzeros, State.startLong_of_slot _ hbusy hslot]

/-- The work of a MEMTEST of a compartment's range whose checks pass. -/
theorem memtestWork_of_right (hstate : s.cmpState (adCmp d) = .quiesced ∨ s.cmpState (adCmp d) = .tainted)
    (hrange : s.rangeOk (adCmp d) d = true) (howned : testsFree d = false) : memtestWork o s = ({ o with wait := .long i },
      s.opensLong o 0 (adCmp d) (bulkLen d / 128) i [] [lineOf (adArg0 d)]) := by
  subst hdesc
  have hright : (s.cmpState (adCmp o.desc) == .quiesced || s.cmpState (adCmp o.desc) == .tainted) = true := by
    rcases hstate with h | h <;> simp [h]
  rw [memtestWork, adminGate_open _ hfn hfawn]
  simp only [hright, hrange, howned, Bool.true_or, Bool.not_true, Bool.false_eq_true, if_false]
  exact State.startLong_of_slot _ hbusy hslot

end

section
variable {s : State} {fn ring c i : Nat} {k : Cand} (hfn : fn = s.primaryFn) (hfawn : (s.begun fn ring c k).2.rd .BOOT_FAWN 0 = 0)
  (hslot : (s.begun fn ring c k).2.claimSlot = some i) (hrange : (s.begun fn ring c k).2.rangeOk (adCmp k.desc) k.desc = true)
include hfn hfawn hslot hrange

theorem exec_bulkFill_of_zeros (h : s.starts fn ring 0x65 c k)
    (hstate : (s.begun fn ring c k).2.cmpState (adCmp k.desc) = .assigned ∨ (s.begun fn ring c k).2.cmpState (adCmp k.desc) = .quiesced)
    (hzeros : adPtr k.desc = 0) (hbusy : (s.begun fn ring c k).2.longBusy 0x65 (adCmp k.desc) = false) (lines : Nat) :
    exec (.bulkFill fn ring none lines) s = .next (((s.begun fn ring c k).2.opensLong (s.begun fn ring c k).1 0 (adCmp k.desc)
      (bulkLen k.desc / 128) i (List.replicate 16 0) [lineOf (adArg0 k.desc)]).addOp { (s.begun fn ring c k).1 with wait := .long i }) := by
  have ⟨_, _, hcode, _⟩ := h
  have hwork := bulkFillWork_of_zeros (s.begun_desc fn ring c k) (by simpa using hfn) hfawn (hcode.symm ▸ hbusy) hslot hstate hrange hzeros
  change Host.Outcome.next (s.startNext fn ring _ bulkFillWork) = _
  rw [State.startNext_of_starts h _ _ (by simp [hcode]), hwork]

theorem exec_memtest_of_right (h : s.starts fn ring 0x66 c k)
    (hstate : (s.begun fn ring c k).2.cmpState (adCmp k.desc) = .quiesced ∨ (s.begun fn ring c k).2.cmpState (adCmp k.desc) = .tainted)
    (howned : testsFree k.desc = false) (hbusy : (s.begun fn ring c k).2.longBusy 0x66 (adCmp k.desc) = false) (lines corrected : Nat)
    (bad : List Nat) : exec (.memtest fn ring none lines corrected bad) s
      = .next (((s.begun fn ring c k).2.opensLong (s.begun fn ring c k).1 0 (adCmp k.desc) (bulkLen k.desc / 128) i []
        [lineOf (adArg0 k.desc)]).addOp { (s.begun fn ring c k).1 with wait := .long i }) := by
  have ⟨_, _, hcode, _⟩ := h
  have hwork := memtestWork_of_right (s.begun_desc fn ring c k) (by simpa using hfn) hfawn (hcode.symm ▸ hbusy) hslot hstate hrange howned
  change Host.Outcome.next (s.startNext fn ring _ memtestWork) = _
  rw [State.startNext_of_starts h _ _ (by simp [hcode]), hwork]

end

/-! ### Progress -/

section
variable {s : State} {i lines : Nat} {l : LongOp} (hfits : l.done + lines ≤ l.total)
include hfits

/-- Lines that are still to be filled are filled. -/
theorem State.fillMore_of_fits : s.fillMore i l lines =
    let t := ((span (word l.args 0 + l.done) lines).foldl (fun u x => u.fillLine l.cmp x (bytesOf l.words)) s).setLong i
      { l with done := l.done + lines }
    if l.done + lines = l.total then t.finLong i 0 l.total else t := by
  have hall : min lines (l.total - l.done) = lines := by omega
  simp only [State.fillMore, hall]

/-- Lines that are still to be tested, none of which mismatches. -/
theorem State.testMore_of_clean (hclean : l.mismatch = 0) (corrected : Nat) : s.testMore i l lines corrected [] =
    let t := (s.testLines l.cmp (word l.args 0 + l.done) lines).setLong i { l with done := l.done + lines, corr := l.corr + corrected }
    if l.done + lines = l.total then t.finLong i 0 0 else t := by
  have hall : min lines (l.total - l.done) = lines := by omega
  obtain ⟨id, kind, tkind, cmp, state, status, done, total, start, endBeat, endOrder, corr, mismatch, detail, op, fin, words, args⟩ := l
  subst hclean
  simp only [State.testMore, hall]
  rfl

end

theorem exec_bulkFill_of_running {s : State} {fn ring i lines : Nat} {l : LongOp} (h : s.runningAt i 0x65 = some l) :
    exec (.bulkFill fn ring (some i) lines) s = .next (s.fillMore i l lines) := by
  change execBulkFill fn ring (some i) lines s = _
  simp only [execBulkFill, h]

theorem exec_memtest_of_running {s : State} {fn ring i lines corrected : Nat} {bad : List Nat} {l : LongOp}
    (h : s.runningAt i 0x66 = some l) : exec (.memtest fn ring (some i) lines corrected bad) s = .next (s.testMore i l lines corrected bad) := by
  change execMemtest fn ring (some i) lines corrected bad s = _
  simp only [execMemtest, h]

/-! ### The statement -/

/-- Settles O52: a start by the work of its descriptor, a portion by the lines that are left. -/
theorem bulkWorkRunsInSlots : Obligations.BulkWorkRunsInSlots := by
  refine ⟨?_, ?_, ?_, ?_⟩
  · rintro s fn ring c i lines k ⟨hstart, hfn, hfawn⟩ hstate ⟨hrange, hzeros⟩ ⟨hbusy, hslot⟩
    exact exec_bulkFill_of_zeros hfn hfawn hslot hrange hstart hstate hzeros hbusy lines
  · rintro s fn ring i lines l ⟨hrunning, hfits⟩
    exact (exec_bulkFill_of_running hrunning).trans (congrArg Host.Outcome.next (State.fillMore_of_fits hfits))
  · rintro s fn ring c i lines corrected bad k ⟨hstart, hfn, hfawn⟩ hstate ⟨hrange, howned⟩ ⟨hbusy, hslot⟩
    exact exec_memtest_of_right hfn hfawn hslot hrange hstart hstate howned hbusy lines corrected bad
  · rintro s fn ring i lines corrected l ⟨hrunning, hfits, hclean⟩
    exact (exec_memtest_of_running hrunning).trans (congrArg Host.Outcome.next (State.testMore_of_clean hfits hclean corrected))

end Sys2Proof.Machine
end

section
/-! SUPPORT. What coherence, completions and ends of operations leave of a start: its register fields, the functions with MSI-X enabled, the
conjunction slots and the ACTIVE contracts. -/
namespace Sys2Proof.Machine

open Sys2Proof

/-! ### The anchor of a state -/

/-- The fields that a start goes by (R518, R519, R528). -/
@[simp] def startFlds : List Fld := [.BOOT_READY, .BOOT_FAWN, .BOOT_FAWN_REQ, .BOOT_ATTEMPTS, .BOOT_ATTEMPT_LIMIT]

/-- The values of those fields. -/
def RegSt.startVals (r : RegSt) : List Nat := startFlds.map (fun f => Tab.get r.vals (f.resetAt 0) (fkey f 0))

/-- What an ordinary operation of a block leaves: the fields of a start, the functions with MSI-X enabled, the conjunction slots and the
ACTIVE contracts. -/
def State.anchor (s : State) : List Nat × List Nat × Tab Slot × Tab Contract := (s.reg.startVals, s.evt.msixEn, s.slots, s.cmp.active)

@[simp] theorem anchor_mk (pending reg mem pins ring slots cmp fns evt inc xl syc coh stk exp long plk net ats sec boot pwr sent ns free) :
    State.anchor (State.mk pending reg mem pins ring slots cmp fns evt inc xl syc coh stk exp long plk net ats sec boot pwr sent ns free)
      = (reg.startVals, evt.msixEn, slots, cmp.active) := rfl

@[simp] theorem anchor_fold (s : State) : (s.reg.startVals, s.evt.msixEn, s.slots, s.cmp.active) = s.anchor := rfl

@[simp] theorem anchor_foldl {α : Type} (f : State → α → State) (h : ∀ s a, (f s a).anchor = s.anchor) (l : List α) (s : State) :
    (l.foldl f s).anchor = s.anchor := kept_fold_of State.anchor f h l s

@[simp] theorem anchor_ite (c : Prop) [Decidable c] (s t : State) : (if c then s else t).anchor = if c then s.anchor else t.anchor :=
  apply_ite State.anchor c s t

theorem State.startVals_of_keepsBut {s t : State} {fs : List Fld} (h : s.keepsBut t fs) (hfs : ∀ f ∈ startFlds, f ∉ fs) :
    t.reg.startVals = s.reg.startVals := List.map_congr_left fun f hf => h f (hfs f hf) 0

theorem State.rd_of_startVals {s t : State} (h : t.reg.startVals = s.reg.startVals) {f : Fld} (hf : f ∈ startFlds) : t.rd f 0 = s.rd f 0 :=
  List.map_inj_left.mp h f hf

@[simp] theorem State.wr_startVals (s : State) (f : Fld) (i v : Nat) (h : f ∉ startFlds) : (s.wr f i v).reg.startVals = s.reg.startVals :=
  State.startVals_of_keepsBut (fs := [f]) (s.keepsBut_wr f i v (by simp) (s.keepsBut_refl _)) fun g hg hgf => h (List.mem_singleton.mp hgf ▸ hg)

@[simp] theorem State.wr_anchor (s : State) (f : Fld) (i v : Nat) (h : f ∉ startFlds) : (s.wr f i v).anchor = s.anchor :=
  congrArg (fun x => (x, s.evt.msixEn, s.slots, s.cmp.active)) (s.wr_startVals f i v h)

@[simp] theorem State.bump_anchor (s : State) (f : Fld) (i n : Nat) (h : f ∉ startFlds) : (s.bump f i n).anchor = s.anchor := by
  unfold State.bump
  dsimp only
  split
  · exact (State.wr_anchor _ .STAT_F_LIVE _ _ (by simp)).trans (s.wr_anchor f i _ h)
  · exact s.wr_anchor f i _ h

@[simp] theorem State.emit_anchor (s : State) (k : EmitKind) (args : List Nat) : (s.emit k args).anchor = s.anchor := rfl

@[simp] theorem State.stat_anchor (s : State) (c k n : Nat) : (s.stat c k n).anchor = s.anchor := s.wr_anchor .STAT_F_LIVE _ _ (by simp)

/-! ### Events and incidents -/

@[simp] theorem State.msiSend_anchor (s : State) (fn e : Nat) : (s.msiSend fn e).anchor = s.anchor := by
  unfold State.msiSend
  dsimp only
  split <;> rfl

@[simp] theorem State.deliverTargets_anchor (s : State) (fn v : Nat) : (s.deliverTargets fn v).anchor = s.anchor := by
  unfold State.deliverTargets
  simp

@[simp] theorem State.deliver_anchor (s : State) (fn v : Nat) : (s.deliver fn v).anchor = s.anchor := by
  unfold State.deliver
  dsimp only
  split <;> simp

@[simp] theorem State.vecRaise_anchor (s : State) (fn v : Nat) : (s.vecRaise fn v).anchor = s.anchor := by
  unfold State.vecRaise State.deliverOrHold
  simp

@[simp] theorem State.occur_anchor (s : State) (n : Nat) : (s.occur n).anchor = s.anchor := by
  unfold State.occur State.raiseSrc
  simp

@[simp] theorem State.aeqPost_anchor (s : State) (fn code port obj seq : Nat) : (s.aeqPost fn code port obj seq).anchor = s.anchor := by
  unfold State.aeqPost State.aeqRaise
  simp

@[simp] theorem State.enqDev_anchor (s : State) (r : Incident) : (s.enqDev r).anchor = s.anchor := by
  have hlost : lostDev r.severity ∉ startFlds := by
    unfold lostDev
    split <;> simp
  unfold State.enqDev
  split
  · rfl
  · exact s.bump_anchor _ _ _ hlost

@[simp] theorem State.enqCmp_anchor (s : State) (c : Nat) (r : Incident) : (s.enqCmp c r).anchor = s.anchor := by
  have hlost : lostCmp r.severity ∉ startFlds := by
    unfold lostCmp
    split <;> simp
  unfold State.enqCmp
  dsimp only
  split
  · rfl
  · exact s.bump_anchor _ _ _ hlost

@[simp] theorem State.postOne_anchor (s : State) (p : Post) : (s.postOne p).2.anchor = s.anchor := by
  unfold State.postOne
  simp

@[simp] theorem State.post_anchor (s : State) (p : Post) : (s.post p).anchor = s.anchor := by
  have heffects (u : State) (seq : Nat) : (u.deviceEffects seq).anchor = u.anchor := by
    unfold State.deviceEffects
    dsimp only
    split <;> simp
  unfold State.post State.postQ
  dsimp only
  split <;> simp [heffects]

/-! ### Accesses -/

/-- Reads of an engine leave the anchor. -/
theorem State.anchor_of_reads {s t : State} (hbeyond : t.beyondReads = s.beyondReads) (hread : s.accessed t) : t.anchor = s.anchor := by
  have hevt := congrArg (fun u => (u.evt.msixEn, u.slots, u.cmp.active)) hbeyond
  exact Prod.ext (State.startVals_of_keepsBut hread.2 (by decide)) hevt

@[simp] theorem State.mapSpan_anchor (s : State) (port c : Nat) (indic : Bool) (need : Need) (fuel va n : Nat) :
    (s.mapSpan port c indic need fuel va n).2.2.2.anchor = s.anchor := State.anchor_of_reads (s.mapSpan_beyondReads ..) (s.mapSpan_accessed ..)

@[simp] theorem State.touchLine_anchor (s : State) (c : Nat) (indic nc write : Bool) (line : Nat) :
    (s.touchLine c indic nc write line).anchor = s.anchor := State.anchor_of_reads (s.touchLine_beyondReads ..) (s.touchLine_accessed ..)

@[simp] theorem State.touch_anchor (s : State) (c : Nat) (indic nc write : Bool) (a n : Nat) : (s.touch c indic nc write a n).anchor = s.anchor := by
  unfold State.touch
  simp

@[simp] theorem State.accWrite_anchor (s : State) (key a : Nat) (bs : List Byte) : (s.accWrite key a bs).anchor = s.anchor := rfl

@[simp] theorem State.hostWrite_anchor (s : State) (port a : Nat) (bs : List Byte) : (s.hostWrite port a bs).anchor = s.anchor := rfl

@[simp] theorem State.cmpWrite_anchor (s : State) (c a : Nat) (bs : List Byte) : (s.cmpWrite c a bs).anchor = s.anchor := by
  unfold State.cmpWrite
  simp

@[simp] theorem State.clearCopies_anchor (s : State) (c a n : Nat) : (s.clearCopies c a n).anchor = s.anchor := by
  unfold State.clearCopies
  refine kept_fold_of State.anchor _ (fun u e => ?_) _ s
  simp only [anchor_mk, anchor_fold]
  rw [anchor_foldl _ (by simp)]
  simp

@[simp] theorem State.breach_anchor (s : State) (c : Nat) (k : Breach) (b : BreachAt) : (s.breach c k b).anchor = s.anchor := by
  unfold State.breach
  dsimp only
  split
  · simp
  · split <;> simp [State.countFrame]

@[simp] theorem State.opBreach_anchor (s : State) (o : Op) (k : Breach) (b : BreachAt) : (s.opBreach o k b).2.anchor = s.anchor := by
  unfold State.opBreach
  split
  · rfl
  · exact s.breach_anchor ..

@[simp] theorem State.opLate_anchor (s : State) (o : Op) (late : Bool) (va : Nat) : (s.opLate o late va).2.anchor = s.anchor := by
  unfold State.opLate
  split
  · exact s.opBreach_anchor ..
  · rfl

@[simp] theorem State.opFault_anchor (s : State) (o : Op) (port result : Nat) (f : Flt) : (s.opFault o port result f).2.anchor = s.anchor := by
  unfold State.opFault State.postFault
  dsimp only
  split
  · simp
  · split <;> simp [State.countFrame]

/-! ### Coherence (chapter 11) -/

@[simp] theorem State.setEntry_anchor (s : State) (line : Nat) (e : FEntry) : (s.setEntry line e).anchor = s.anchor := by
  unfold State.setEntry
  split <;> rfl

@[simp] theorem State.clearAgent_anchor (s : State) (line a : Nat) : (s.clearAgent line a).anchor = s.anchor := by
  unfold State.clearAgent
  split <;> simp

@[simp] theorem State.coh1_anchor (s : State) (agent op line aux : Nat) (poison : Bool) (bs : List Byte) :
    (s.coh1 agent op line aux poison bs).anchor = s.anchor := rfl

@[simp] theorem State.forward_anchor (s : State) (t : Track) (op : Nat) (back : Bool) (agents : List Nat) :
    (s.forward t op back agents).2.anchor = s.anchor := by
  have hcounter : (if op = 0x13 then Fld.COH_ST_INV else if op = 0x14 then .COH_ST_BACK_INV else .COH_ST_FWD) ∉ startFlds := by
    split
    · simp
    · split <;> simp
  exact kept_fold_of State.anchor _ (fun u a => (State.coh1_anchor ..).trans (u.bump_anchor _ _ _ hcounter)) agents s

@[simp] theorem State.actOn_anchor (s : State) (t : Track) : (s.actOn t).2.anchor = s.anchor := by
  unfold State.actOn
  dsimp only
  (repeat' split) <;> simp_all

@[simp] theorem State.sendLine_anchor (s : State) (r : CohReq) (op : Nat) : (s.sendLine r op).anchor = s.anchor := by
  unfold State.sendLine
  simp

@[simp] theorem State.homeServe_anchor (s : State) (t : Track) : (s.homeServe t).2.anchor = s.anchor := by
  unfold State.homeServe
  dsimp only
  (repeat' split) <;> simp

@[simp] theorem State.atomAt_anchor (s : State) (c a op fmt : Nat) (ftz sat : Bool) (operand compare : Nat) :
    (s.atomAt c a op fmt ftz sat operand compare).2.anchor = s.anchor := by
  unfold State.atomAt State.atomStats
  dsimp only
  split <;> simp

@[simp] theorem State.poisonLine_anchor (s : State) (l : Nat) : (s.poisonLine l).anchor = s.anchor := by
  unfold State.poisonLine
  simp

@[simp] theorem State.homeWrite_anchor (s : State) (c a : Nat) (bs : List Byte) (poison : Bool) : (s.homeWrite c a bs poison).anchor = s.anchor := by
  unfold State.homeWrite State.poisonLines
  simp

@[simp] theorem State.performReq_anchor (s : State) (r : CohReq) : (s.performReq r).anchor = s.anchor := by
  unfold State.performReq
  dsimp only
  (repeat' split) <;> simp_all

@[simp] theorem State.recordAgent_anchor (s : State) (line a : Nat) (own : Bool) : (s.recordAgent line a own).anchor = s.anchor := by
  unfold State.recordAgent
  simp

@[simp] theorem State.setTrack_anchor (s : State) (t : Track) : (s.setTrack t).anchor = s.anchor := rfl

@[simp] theorem State.unblock_anchor (s : State) (t : Track) : (s.unblock t).anchor = s.anchor := by
  unfold State.unblock State.reserveNext
  split <;> rfl

@[simp] theorem State.stage_anchor (s : State) (t : Track) : (s.stage t).anchor = s.anchor := by
  unfold State.stage
  dsimp only
  (repeat' split) <;> simp_all

@[simp] theorem State.acceptReq_anchor (s : State) (r : CohReq) : (s.acceptReq r).anchor = s.anchor := by
  unfold State.acceptReq
  dsimp only
  split <;> simp

@[simp] theorem State.hostsGo_anchor (s : State) : s.hostsGo.anchor = s.anchor := by
  have hstarve (u : State) (k : Nat) (q : CohReq) : (u.starve k q).anchor = u.anchor := by
    unfold State.starve
    simp
  unfold State.hostsGo
  refine (kept_fold_of State.anchor _ (fun u q => ?_) _ _).trans (kept_fold_of State.anchor _ (fun u q => ?_) _ s)
  · split <;> simp [hstarve]
  · split <;> simp

@[simp] theorem State.afterUnblock_anchor (s : State) (line : Nat) : (s.afterUnblock line).anchor = s.anchor := by
  unfold State.afterUnblock State.wakeVictim
  simp

@[simp] theorem State.missed_anchor (s : State) (agent line : Nat) : (s.missed agent line).anchor = s.anchor := by
  unfold State.missed State.answered
  split <;> simp

/-- Losing agents leaves the anchor. -/
@[simp] theorem State.loseAgents_anchor (s : State) (as : List Nat) : (s.loseAgents as).anchor = s.anchor := by
  unfold State.loseAgents
  simp

end Sys2Proof.Machine
end

section
/-! SUPPORT. Power, cold resets and the starts that follow them. Settles O48. -/
namespace Sys2Proof.Machine

open Sys2Proof

/-! ### Links of host ports -/

/-- The state with other values of its register fields. -/
def State.withVals (s : State) (vals : Tab Nat) : State := { s with reg := { s.reg with vals := vals } }

theorem State.eq_withVals {s t : State} {vs : Tab Nat} (h : t.withVals vs = s.withVals vs) : t = s.withVals t.reg.vals := by
  have hvals := congrArg (State.withVals · t.reg.vals) h
  exact hvals

/-- Agents that follow the plans and links write register values only. -/
theorem State.refreshAgents_eq (s : State) : s.refreshAgents = s.withVals s.refreshAgents.reg.vals := by
  have hrest : s.refreshAgents.withVals [] = s.withVals [] := by
    unfold State.refreshAgents
    extract_lets u
    have hstreams : u.withVals [] = s.withVals [] := kept_fold_of (State.withVals · []) _ (fun t a => by split <;> rfl) _ s
    refine Eq.trans ?_ hstreams
    exact kept_fold_of (State.withVals · []) _ (fun t p => by rfl) [0, 1] u
  exact State.eq_withVals hrest

/-- The agent of a host port is live where its link is up. -/
theorem State.refreshAgents_live (s : State) {p : Nat} (hp : p < 2) :
    s.refreshAgents.rd .COH_AG_LIVE (32 + p) = b2n (s.pins.hostUp.contains p) := by
  have hbit (b : Bool) : b2n b % 2 ^ Fld.COH_AG_LIVE.spec.width = b2n b := by cases b <;> rfl
  unfold State.refreshAgents
  extract_lets u
  have hpins : u.pins = s.pins := kept_fold_of State.pins _ (fun t a => by split <;> rfl) _ s
  obtain rfl | rfl : p = 0 ∨ p = 1 := by omega
  · simp [State.rd_wr, hpins, hbit]
  · simp [hpins, hbit]

theorem State.setHostUp_eq (s : State) (port : Nat) (up : Bool) :
    s.setHostUp port up = ({ s with pins := (s.setHostUp port up).pins } : State).withVals (s.setHostUp port up).reg.vals := by
  rw [(kept_parts (keep_State_setHostUp s port up)).2.1]
  unfold State.setHostUp
  exact State.refreshAgents_eq { s with pins := _ }

theorem State.setHostUp_keepsBut (s : State) (port : Nat) (up : Bool) : s.keepsBut (s.setHostUp port up) agentFlds := by
  intro f hf i
  unfold State.setHostUp
  exact (State.refreshAgents_reported _).2 f hf i

theorem State.setHostUp_hostUp (s : State) (port : Nat) (up : Bool) :
    (s.setHostUp port up).pins.hostUp = if up then addOnce s.pins.hostUp port else s.pins.hostUp.filter (fun p => p != port) :=
  congrArg PinSt.hostUp (kept_parts (keep_State_setHostUp s port up)).2.1

theorem State.setHostUp_perst (s : State) (port : Nat) (up : Bool) (p : Nat) : (s.setHostUp port up).perst p = s.perst p := by
  have hpins := (kept_parts (keep_State_setHostUp s port up)).2.1
  unfold State.perst
  rw [hpins]

theorem State.setHostUp_live (s : State) {port : Nat} (hport : port < 2) (up : Bool) :
    (s.setHostUp port up).rd .COH_AG_LIVE (32 + port) = b2n up := by
  unfold State.setHostUp
  rw [State.refreshAgents_live _ hport]
  cases up with
  | true => simpa using congrArg b2n (List.contains_iff_mem.mpr (mem_addOnce s.pins.hostUp port))
  | false => simp

@[simp] theorem State.setPerst_perst (s : State) {port : Nat} (hport : port < 2) (v : Bool) : (s.setPerst port v).perst port = v := by
  obtain rfl | rfl : port = 0 ∨ port = 1 := by omega
  · rfl
  · rfl

/-! ### What resets keep of the register fields -/

theorem Fld.ofNat_mem_all : ∀ n < 536, Fld.ofNat n ∈ Fld.all := by decide +kernel

theorem Fld.mem_all (f : Fld) : f ∈ Fld.all := by
  have hlt : f.num < 536 := by cases f <;> decide
  have hof : Fld.ofNat f.num = f := by simp [Fld.num, Fld.ofNat_ctorIdx]
  exact hof ▸ Fld.ofNat_mem_all f.num hlt

theorem Fld.mem_coldKept (f : Fld) : f ∈ Fld.all.filter coldKept ↔ coldKept f = true := by simp [f.mem_all]

theorem RegSt.get_only (r : RegSt) (fs : List Fld) (f : Fld) (i d : Nat) :
    Tab.get (r.only fs).vals d (fkey f i) = if f ∈ fs then Tab.get r.vals d (fkey f i) else d := by
  have hfld : fkey f i % 1024 = f.num := by have := f.num_lt; unfold fkey; omega
  have hmem : (fs.map Fld.num).contains f.num = true ↔ f ∈ fs := by
    simpa using List.mem_map_of_injective (fun _ _ h => Fld.num_inj h)
  simp only [RegSt.only, Tab.get, Tab.find_keep_key, hfld, hmem]
  split <;> rfl

theorem State.eq_withSec {s t : State} (h : { t with sec := s.sec } = s) : t = { s with sec := t.sec } :=
  congrArg (fun u : State => { u with sec := t.sec }) h

theorem State.destroyAll_eq (s : State) : s.destroyAll = { s with sec := s.destroyAll.sec } := by
  have hrest : ({ s.destroyAll with sec := s.sec } : State) = s := by
    unfold State.destroyAll
    exact kept_fold_of (fun t : State => { t with sec := s.sec }) State.destroyKeys (fun t c => rfl) compartments s
  exact State.eq_withSec hrest

theorem State.coldCache_eq (s : State) : s.coldCache = { s with mem := s.coldCache.mem, syc := s.coldCache.syc } := by
  have hrest : ({ s.coldCache with mem := s.mem, syc := s.syc } : State) = s :=
    kept_fold_of (fun t : State => { t with mem := s.mem, syc := s.syc }) _
      (fun t e => kept_fold_of (fun t : State => { t with mem := s.mem, syc := s.syc }) _ (fun t x => by split <;> rfl) _ t) _ s
  exact congrArg (fun t : State => { t with mem := s.coldCache.mem, syc := s.coldCache.syc }) hrest

theorem State.coldCache_host (s : State) : s.coldCache.mem.host = s.mem.host :=
  kept_fold_of (fun t : State => t.mem.host) _
    (fun t e => kept_fold_of (fun t : State => t.mem.host) _ (fun t x => by split <;> rfl) _ t) _ s

/-- A clearing with the keys destroyed and a waiting seal in effect keeps the listed fields. -/
theorem State.rd_cleared {u : State} {r : RegSt} {fs : List Fld} (h : u.reg = r.only fs) (ordered : Bool) (f : Fld) (i : Nat) :
    (u.destroyAll.sealIfOrdered ordered).rd f i =
      if ordered = true ∧ f = .SEC_LIFECYCLE ∧ i = 0 then 1
      else if f ∈ fs then Tab.get r.vals (f.resetAt i) (fkey f i) else f.resetAt i := by
  have hreg : u.destroyAll.rd f i = if f ∈ fs then Tab.get r.vals (f.resetAt i) (fkey f i) else f.resetAt i := by
    rw [u.destroyAll_eq]
    exact (congrArg (fun r => Tab.get r.vals (f.resetAt i) (fkey f i)) h).trans (r.get_only ..)
  unfold State.sealIfOrdered
  cases ordered with
  | true =>
    rw [if_pos rfl, State.rd_wr, hreg]
    simp only [true_and, eq_comm]
    rfl
  | false =>
    rw [if_neg (by simp), if_neg (by simp), hreg]

theorem State.rd_coldClear (s : State) (f : Fld) (i : Nat) :
    s.coldClear.rd f i =
      if s.resetLongs.sec.sealNext = true ∧ f = .SEC_LIFECYCLE ∧ i = 0 then 1
      else if coldKept f = true then s.resetLongs.rd f i else f.resetAt i := by
  unfold State.coldClear
  rw [State.rd_cleared rfl, State.coldCache_eq]
  simp only [Fld.mem_coldKept]
  rfl

theorem State.coldClear_mem (s : State) : s.coldClear.mem = s.resetLongs.coldCache.mem.cold := by
  unfold State.coldClear State.sealIfOrdered
  dsimp only
  rw [State.destroyAll_eq]
  split <;> rfl

theorem State.coldClear_slots (s : State) : s.coldClear.slots = [] := by
  unfold State.coldClear State.sealIfOrdered
  dsimp only
  rw [State.destroyAll_eq]
  split <;> rfl

theorem State.interrupt_of_idle {s : State} (hrun : s.boot.running = false) (hwarm : s.boot.warmStep = 0) : s.interrupt = s := by
  simp [State.interrupt, hrun, hwarm]

theorem State.resetLongs_of_idle {s : State} (hslots : s.long.slots = []) (hroll : s.plk.roll = none) : s.resetLongs = s := by
  have habort : s.abortRoll = s := by simp [State.abortRoll, hroll]
  unfold State.resetLongs
  rw [habort]
  exact List.foldl_fixed' (fun i => by simp [State.longAt, hslots, Tab.find]) _

end Sys2Proof.Machine
end

section
/-! SUPPORT. The starts that follow a cold reset. Settles O48. -/
namespace Sys2Proof.Machine

open Sys2Proof

/-! ### What a cold start leaves of the fields it goes by -/

theorem State.endSlot_anchor (s : State) (i status : Nat) : (s.endSlot i status).anchor = s.anchor := by
  unfold State.endSlot State.setLong
  split <;> simp

theorem State.resetLongs_anchor (s : State) : s.resetLongs.anchor = s.anchor := by
  have habort : s.abortRoll.anchor = s.anchor := by
    unfold State.abortRoll
    split <;> simp
  have hend (t : State) (i : Nat) : (t.resetLong i).anchor = t.anchor := by
    unfold State.resetLong State.dropOp
    (repeat' split) <;> simp [State.endSlot_anchor]
  unfold State.resetLongs
  refine (anchor_foldl _ (fun t i => ?_) ..).trans habort
  (repeat' split) <;> simp [hend]

theorem State.interrupt_anchor (s : State) : s.interrupt.anchor = s.anchor := by
  unfold State.interrupt
  split <;> simp

/-- What compartments that enter their states leave: the fields of a start and the conjunction slots. -/
def State.startPart (s : State) : List Nat × Tab Slot := (s.reg.startVals, s.slots)

theorem State.wr_startPart (s : State) (f : Fld) (i v : Nat) (h : f ∉ startFlds) : (s.wr f i v).startPart = s.startPart :=
  congrArg (·, s.slots) (s.wr_startVals f i v h)

theorem State.startPart_of_anchor {s t : State} (h : t.anchor = s.anchor) : t.startPart = s.startPart :=
  congrArg (fun a => (a.1, a.2.2.1)) h

theorem State.slots_of_startPart {s t : State} (h : t.startPart = s.startPart) : t.slots = s.slots := congrArg Prod.snd h

theorem State.rd_of_startPart {s t : State} (h : t.startPart = s.startPart) {f : Fld} (hf : f ∈ startFlds) : t.rd f 0 = s.rd f 0 :=
  State.rd_of_startVals (congrArg Prod.fst h) hf

theorem State.enterState_startPart (s : State) (c : Nat) (st : CmpState) : (s.enterState c st).startPart = s.startPart := by
  rw [State.enterState_eq, State.setCmpState]
  split
  · rfl
  · exact s.wr_startPart .CMP_STATE c st.code (by simp)

theorem State.taint_startPart (s : State) (c cause : Nat) : (s.taint c cause).startPart = s.startPart := by
  unfold State.taint
  split
  · rfl
  · exact (State.startPart_of_anchor (by simp)).trans (s.enterState_startPart c .tainted)

theorem State.coldCompartment_startPart (s : State) (c : Nat) : (s.coldCompartment c).startPart = s.startPart := by
  unfold State.coldCompartment
  split <;> simp [State.taint_startPart]

/-- A cold reset with the compartments and expansion ports in their states, before its start begins. -/
def State.coldDown (s : State) : State := (tenants.foldl State.coldCompartment s.interrupt.coldClear).coldPorts

theorem State.coldStart_eq (s : State) (cause : Nat) : s.coldStart cause = s.coldDown.beginStart cause := rfl

theorem State.coldDown_startPart (s : State) : s.coldDown.startPart = s.interrupt.coldClear.startPart := by
  unfold State.coldDown State.coldPorts
  refine Eq.trans ?_ (kept_fold_of State.startPart State.coldCompartment State.coldCompartment_startPart tenants s.interrupt.coldClear)
  exact kept_fold_of State.startPart _ (fun t p => t.wr_startPart .EXP_STATE p _ (by simp)) (List.range 8) _

theorem State.coldDown_slots (s : State) : s.coldDown.slots = [] :=
  (State.slots_of_startPart s.coldDown_startPart).trans (State.coldClear_slots s.interrupt)

theorem State.coldDown_kept (s : State) : s.coldDown.kept = (s.pending, { s.pins with hostUp := [] }, false, 0) := by
  obtain ⟨hq, hp, -, -⟩ := kept_parts (show s.interrupt.kept = (s.pending, s.pins, s.boot.sysHeld, s.boot.warmStep) from keep_State_interrupt s)
  unfold State.coldDown
  rw [keep_State_coldPorts, kept_foldl _ (fun t c => keep_State_coldCompartment t c), keep_State_coldClear, hq, hp]

/-- A cold reset keeps the always-on fields of a start. -/
theorem State.coldDown_rd (s : State) {f : Fld} (hf : f ∈ startFlds) (haon : coldKept f = true) : s.coldDown.rd f 0 = s.rd f 0 := by
  have hdown := State.rd_of_startPart s.coldDown_startPart hf
  have hlongs := State.rd_of_startPart (State.startPart_of_anchor s.interrupt.resetLongs_anchor) hf
  have hint := State.rd_of_startPart (State.startPart_of_anchor s.interrupt_anchor) hf
  have hseal : f ≠ .SEC_LIFECYCLE := by
    rintro rfl
    simp at hf
  rw [hdown, State.rd_coldClear, if_neg (by simp [hseal]), if_pos haon, hlongs, hint]

theorem State.coldDown_ready (s : State) : s.coldDown.rd .BOOT_READY 0 = 0 := by
  rw [State.rd_of_startPart s.coldDown_startPart (by simp), State.rd_coldClear]
  simp [show coldKept .BOOT_READY = false by decide]
  rfl

theorem State.fawnNext_congr {s t : State} (h : ∀ f ∈ [Fld.BOOT_FAWN_REQ, .BOOT_ATTEMPT_LIMIT, .BOOT_ATTEMPTS], t.rd f 0 = s.rd f 0) :
    t.fawnNext = s.fawnNext := by
  simp only [State.fawnNext, h _ (List.mem_cons_self ..), h .BOOT_ATTEMPT_LIMIT (by simp), h .BOOT_ATTEMPTS (by simp)]

theorem State.coldDown_fawnNext (s : State) : s.coldDown.fawnNext = s.fawnNext :=
  State.fawnNext_congr fun f hf => by
    fin_cases hf
    · exact s.coldDown_rd (by simp) (by decide)
    · exact s.coldDown_rd (by simp) (by decide)
    · exact s.coldDown_rd (by simp) (by decide)

/-! ### Starts -/

theorem State.beginStart_of_counted {s : State} (h : s.fawnNext = false) (cause : Nat) :
    s.beginStart cause = { s.attempt.wr .BOOT_PHASE 0 1 with boot := { s.boot with
      powerOn := false, running := true, typ := if s.boot.powerOn then 1 else 2, cause := if s.boot.powerOn then 1 else cause, startNs := s.ns } } := by
  unfold State.beginStart
  exact if_neg (Bool.eq_false_iff.mp h)

theorem State.beginStart_of_fawn {s : State} (h : s.fawnNext = true) (cause : Nat) :
    ∃ k, s.beginStart cause = (State.enterFawn { s with boot := { s.boot with powerOn := false } } k).hostsUp :=
  ⟨_, if_pos h⟩

/-- Fields that the record of a finished start writes. -/
def startEndFlds : List Fld := .BOOT_LAST_TYPE :: .BOOT_LAST_CAUSE :: postFlds

theorem State.flushBoot_keepsBut (s : State) : s.keepsBut s.flushBoot postFlds := by
  have hrejected : s.keepsBut (s.boot.rejected.foldl (fun s slot => s.post (devInc 0x0F03 .notice slot 0 [])) s) postFlds :=
    State.keepsBut_foldl _ (fun t slot => (t.post_reported _).2) _ _
  unfold State.flushBoot
  split
  · exact s.keepsBut_refl _
  · dsimp only
    split
    · exact fun f hf i => ((State.post_reported _ _).2 f hf i).trans (hrejected f hf i)
    · exact hrejected

theorem State.recordStart_keepsBut (s : State) (typ cause : Nat) : s.keepsBut (s.recordStart typ cause) startEndFlds := fun f hf i => by
  have hwritten := State.keepsBut_wr .BOOT_LAST_CAUSE 0 cause (fs := startEndFlds) (by simp [startEndFlds])
    (State.keepsBut_wr .BOOT_LAST_TYPE 0 typ (by simp [startEndFlds]) (s.keepsBut_refl _))
  unfold State.recordStart
  exact (State.flushBoot_keepsBut _ f (fun h => hf (.tail _ (.tail _ h))) i).trans (hwritten f hf i)

theorem State.trained_keepsBut (s : State) (ps : List Nat) :
    s.keepsBut (ps.foldl (fun (s : State) p => if s.perst p then s.setHostUp p true else s) s) agentFlds := by
  refine State.keepsBut_foldl _ (fun t p => ?_) ps s
  split
  · exact t.setHostUp_keepsBut p true
  · exact t.keepsBut_refl _

/-- The fields that fawn mode writes as it is entered. -/
def State.fawnWritten (s : State) : State :=
  (((s.wr .BOOT_FAWN 0 1).wr .BOOT_FAWN_REASON 0 (if s.rd .BOOT_FAWN_REQ 0 = 1 then 2 else 1)).wr .BOOT_FAWN_REQ 0 0).wr .BOOT_READY 0 0

theorem State.enterFawn_rd (s : State) (cause : Nat) {f : Fld} (hf : f ∉ startEndFlds) (i : Nat) :
    (s.enterFawn cause).rd f i = s.fawnWritten.rd f i :=
  State.recordStart_keepsBut { s.fawnWritten with boot := { s.boot with running := false, failed := false, warmStep := 0 } } 4 cause f hf i

theorem State.fawnWritten_rds (s : State) :
    s.fawnWritten.rd .BOOT_FAWN 0 = 1 ∧ s.fawnWritten.rd .BOOT_FAWN_REASON 0 = (if s.rd .BOOT_FAWN_REQ 0 = 1 then 2 else 1) ∧
      s.fawnWritten.rd .BOOT_FAWN_REQ 0 = 0 ∧ s.fawnWritten.rd .BOOT_READY 0 = 0 := by
  refine ⟨?_, ?_, ?_, State.rd_wr_same ..⟩
  · rw [State.fawnWritten, State.rd_wr_ne _ _ _ _ _ _ (by simp), State.rd_wr_ne _ _ _ _ _ _ (by simp), State.rd_wr_ne _ _ _ _ _ _ (by simp),
      State.rd_wr_same]
    rfl
  · rw [State.fawnWritten, State.rd_wr_ne _ _ _ _ _ _ (by simp), State.rd_wr_ne _ _ _ _ _ _ (by simp), State.rd_wr_same]
    split <;> rfl
  · rw [State.fawnWritten, State.rd_wr_ne _ _ _ _ _ _ (by simp), State.rd_wr_same]
    rfl

/-! ### The pins of power -/

theorem exec_powerOn {s : State} (hvdd : s.pins.vddAon = false) (sel : Nat) :
    exec (.powerOn sel) s = .next { s.wr .HST_PRIMARY_SEL 0 sel with
      pins := { s.pins with vddAon := true, primary := sel % 2, primarySel := sel % 2 == 1 }, boot := { s.boot with powerOn := true } } := by
  change execPowerOn sel s = _
  simp [execPowerOn, hvdd]

/-- The state across a power loss, before keys are destroyed and a waiting seal takes effect. -/
def State.powerCleared (s : State) : State :=
  { State.reset with
    pending := s.coldCache.pending, sent := s.coldCache.sent, ns := s.coldCache.ns, free := s.coldCache.free
    reg := s.coldCache.reg.only fuses
    mem := s.coldCache.mem.cold
    pins := { s.coldCache.pins with vddAon := false, pwrgood := false, hostUp := [] }
    sec := s.coldCache.sec.cold }

/-- What a power loss leaves. -/
def State.powerLost (s : State) : State := s.powerCleared.destroyAll.sealIfOrdered s.coldCache.sec.sealNext

theorem exec_powerLoss {s : State} (hvdd : s.pins.vddAon = true) : exec .powerLoss s = .next s.powerLost := by
  change execPowerLoss s = _
  unfold execPowerLoss
  rw [if_neg (by simp [hvdd])]
  rfl

theorem State.powerLost_rd (s : State) (f : Fld) (i : Nat) :
    s.powerLost.rd f i =
      if s.sec.sealNext = true ∧ f = .SEC_LIFECYCLE ∧ i = 0 then 1 else if f ∈ fuses then s.rd f i else f.resetAt i := by
  have hreg : s.powerCleared.reg = s.reg.only fuses := by
    rw [State.powerCleared, State.coldCache_eq]
  unfold State.powerLost
  rw [State.rd_cleared hreg, State.coldCache_eq]
  rfl

theorem State.powerLost_kept (s : State) :
    s.powerLost.pins = { s.pins with vddAon := false, pwrgood := false, hostUp := [] } ∧ s.powerLost.pending = s.pending := by
  obtain ⟨hq, hp, -, -⟩ := kept_parts (show s.coldCache.kept = (s.pending, s.pins, s.boot.sysHeld, s.boot.warmStep) from keep_State_coldCache s)
  have hpins : s.powerCleared.pins = { s.pins with vddAon := false, pwrgood := false, hostUp := [] } := by
    rw [State.powerCleared, hp]
  have hpending : s.powerCleared.pending = s.pending := hq
  have hkept : s.powerLost.kept = s.powerCleared.kept := (keep_State_sealIfOrdered ..).trans (keep_State_destroyAll _)
  exact ⟨(kept_parts hkept).2.1.trans hpins, (kept_parts hkept).1.trans hpending⟩

theorem exec_pwrgoodFall {s : State} (hpwr : s.pins.pwrgood = true) (hrun : s.boot.running = false) (hwarm : s.boot.warmStep = 0) :
    exec .pwrgoodFall s = .next { s.coldClear with pins := { s.coldClear.pins with pwrgood := false } } := by
  change execPwrgoodFall s = _
  simp [execPwrgoodFall, hpwr, State.interrupt_of_idle hrun hwarm]

theorem exec_coldReset_released {s : State} (hvdd : s.pins.vddAon = true) (hpwr : s.pins.pwrgood = false) (hrst : s.pins.sysRstN = true) :
    exec (.coldReset 2 0 0) s = .next (State.coldStart { s with pins := { s.pins with pwrgood := true } } 2) := by
  change execColdReset 2 0 0 s = _
  simp [execColdReset, hvdd, hpwr, hrst]

theorem exec_coldReset_held {s : State} (hvdd : s.pins.vddAon = true) (hpwr : s.pins.pwrgood = false) (hrst : s.pins.sysRstN = false) :
    exec (.coldReset 2 0 0) s = .next { s with pins := { s.pins with pwrgood := true }, boot := { s.boot with sysHeld := true } } := by
  change execColdReset 2 0 0 s = _
  simp [execColdReset, hvdd, hpwr, hrst]

theorem exec_sysRstNRelease_held {s : State} (hheld : s.boot.sysHeld = true) :
    exec .sysRstNRelease s = .next (State.coldStart { s with pins := { s.pins with sysRstN := true } } 2) := by
  change execSysRstNRelease s = _
  simp [execSysRstNRelease, hheld]

theorem exec_sysRstNRelease_free {s : State} (hheld : s.boot.sysHeld = false) :
    exec .sysRstNRelease s = .next { s with pins := { s.pins with sysRstN := true } } := by
  change execSysRstNRelease s = _
  simp [execSysRstNRelease, hheld]

theorem exec_perstDeassert {s : State} {port : Nat} (hport : port < 2) (hperst : s.perst port = false) (hpwr : s.pins.pwrgood = true)
    (hwarm : s.boot.warmStep = 0) (hready : s.rd .BOOT_READY 0 = 1) :
    exec (.perstDeassert port) s = .next ((s.setPerst port true).setHostUp port true) := by
  have hpins : (s.setPerst port true).pins.pwrgood = true := by
    unfold State.setPerst
    dsimp only
    split <;> exact hpwr
  have hrd : (s.setPerst port true).rd .BOOT_READY 0 = 1 := hready
  have hstep : (s.setPerst port true).boot.warmStep = 0 := hwarm
  change execPerstDeassert port s = _
  unfold execPerstDeassert
  rw [if_neg (by simp [hport, hperst])]
  dsimp only
  rw [if_pos (by simp [State.retryStatus, hpins, hrd, hstep])]

/-- PWRGOOD falls: the fuses, straps and always-on fields stay. -/
theorem pwrgoodFall_clears {s : State} (hpwr : s.pins.pwrgood = true) (hrun : s.boot.running = false) (hwarm : s.boot.warmStep = 0)
    (hlongs : s.resetLongs = s) :
    ∃ t, exec .pwrgoodFall s = .next t ∧ t.pins = { s.pins with pwrgood := false, hostUp := [] }
      ∧ (∀ f, coldKept f = false → ∀ i, t.rd f i = f.resetAt i)
      ∧ (∀ f, coldKept f = true → f ≠ .SEC_LIFECYCLE → ∀ i, t.rd f i = s.rd f i)
      ∧ t.rd .SEC_LIFECYCLE 0 = (if s.sec.sealNext = true then 1 else s.rd .SEC_LIFECYCLE 0) ∧ t.mem.host = s.mem.host := by
  have hrd (f : Fld) (i : Nat) := s.rd_coldClear f i
  have hpins := (kept_parts (keep_State_coldClear s)).2.1
  have hhost : s.coldClear.mem.host = s.mem.host := by
    rw [State.coldClear_mem, hlongs]
    exact s.coldCache_host
  have hexec := exec_pwrgoodFall hpwr hrun hwarm
  have hlife : coldKept .SEC_LIFECYCLE = true := by decide
  rw [hlongs] at hrd
  generalize s.coldClear = u at hrd hpins hhost hexec
  refine ⟨_, hexec, by rw [hpins], fun f hf i => (hrd f i).trans ?_, fun f hf hne i => (hrd f i).trans ?_, (hrd .SEC_LIFECYCLE 0).trans ?_, hhost⟩
  · rw [if_neg (fun h => by rw [h.2.1, hlife] at hf; simp at hf), if_neg (by simp [hf])]
  · rw [if_neg (fun h => hne h.2.1), if_pos hf]
  · simp [hlife]

theorem State.beginStart_counted {u : State} (hfawn : u.fawnNext = false) (cause : Nat) :
    (u.beginStart cause).pins = u.pins ∧ (u.beginStart cause).boot.running = true ∧ (u.beginStart cause).rd .BOOT_PHASE 0 = 1
      ∧ (u.beginStart cause).rd .BOOT_ATTEMPTS 0 = (u.rd .BOOT_ATTEMPTS 0 + 1) % 8
      ∧ (u.beginStart cause).rd .BOOT_READY 0 = u.rd .BOOT_READY 0 ∧ (u.beginStart cause).slots = u.slots := by
  rw [State.beginStart_of_counted hfawn]
  exact ⟨rfl, rfl, State.rd_wr_same .., (State.rd_wr_ne _ _ _ _ _ _ (by simp)).trans (State.rd_wr_same ..),
    (State.rd_wr_ne _ _ _ _ _ _ (by simp)).trans (State.rd_wr_ne _ _ _ _ _ _ (by simp)), rfl⟩

/-- A cold start that is counted begins phase CLOCKS. -/
theorem State.coldStart_counted {s : State} (hfawn : s.fawnNext = false) (cause : Nat) :
    (s.coldStart cause).pins = { s.pins with hostUp := [] } ∧ (s.coldStart cause).boot.running = true ∧ (s.coldStart cause).rd .BOOT_PHASE 0 = 1
      ∧ (s.coldStart cause).rd .BOOT_ATTEMPTS 0 = (s.rd .BOOT_ATTEMPTS 0 + 1) % 8 ∧ (s.coldStart cause).rd .BOOT_READY 0 = 0
      ∧ (s.coldStart cause).slots = [] := by
  obtain ⟨hpins, hrun, hphase, hattempts, hready, hslots⟩ := State.beginStart_counted (s.coldDown_fawnNext.trans hfawn) cause
  rw [State.coldStart_eq]
  rw [s.coldDown_rd (f := .BOOT_ATTEMPTS) (by simp) (by decide)] at hattempts
  exact ⟨hpins.trans (kept_parts s.coldDown_kept).2.1, hrun, hphase, hattempts, hready.trans s.coldDown_ready, hslots.trans s.coldDown_slots⟩

/-- A start that enters fawn mode keeps the reset pins. -/
theorem State.beginStart_fawn {u : State} (hfawn : u.fawnNext = true) (cause : Nat) :
    (u.beginStart cause).pins.sysRstN = u.pins.sysRstN ∧ (u.beginStart cause).boot.sysHeld = u.boot.sysHeld
      ∧ ∀ f, f ∉ startEndFlds → f ∉ agentFlds → (u.beginStart cause).rd f 0 = u.fawnWritten.rd f 0 := by
  obtain ⟨k, hstart⟩ := State.beginStart_of_fawn hfawn cause
  obtain ⟨-, hpins, hheld, -⟩ := kept_parts (keep_State_enterFawn { u with boot := { u.boot with powerOn := false } } k)
  have hwritten (f : Fld) (hf : f ∉ startEndFlds) := State.enterFawn_rd { u with boot := { u.boot with powerOn := false } } k hf 0
  rw [hstart]
  generalize State.enterFawn { u with boot := { u.boot with powerOn := false } } k = v at hpins hheld hwritten ⊢
  obtain ⟨up, htrained, -⟩ := kept_trained [0, 1] v
  obtain ⟨-, htpins, htheld, -⟩ := kept_parts htrained
  have hsys := congrArg PinSt.sysRstN hpins
  have htsys := congrArg PinSt.sysRstN htpins
  exact ⟨htsys.trans hsys, htheld.trans hheld,
    fun f hf hag => (State.trained_keepsBut v [0, 1] f hag 0).trans (hwritten f hf)⟩

/-- A cold start that enters fawn mode. -/
theorem State.coldStart_fawn {s : State} (hfawn : s.fawnNext = true) (cause : Nat) :
    (s.coldStart cause).pins.sysRstN = s.pins.sysRstN ∧ (s.coldStart cause).boot.sysHeld = false ∧ (s.coldStart cause).rd .BOOT_FAWN 0 = 1
      ∧ (s.coldStart cause).rd .BOOT_FAWN_REASON 0 = (if s.rd .BOOT_FAWN_REQ 0 = 1 then 2 else 1)
      ∧ (s.coldStart cause).rd .BOOT_FAWN_REQ 0 = 0 ∧ (s.coldStart cause).rd .BOOT_READY 0 = 0 := by
  obtain ⟨-, hpins, hheld, -⟩ := kept_parts s.coldDown_kept
  have hdown := congrArg PinSt.sysRstN hpins
  obtain ⟨hsys, hnotHeld, hrd⟩ := State.beginStart_fawn (s.coldDown_fawnNext.trans hfawn) cause
  obtain ⟨h1, h2, h3, h4⟩ := s.coldDown.fawnWritten_rds
  rw [s.coldDown_rd (f := .BOOT_FAWN_REQ) (by simp) (by decide)] at h2
  rw [State.coldStart_eq]
  exact ⟨hsys.trans hdown, hnotHeld.trans hheld, (hrd _ (by decide) (by decide)).trans h1,
    (hrd _ (by decide) (by decide)).trans h2, (hrd _ (by decide) (by decide)).trans h3, (hrd _ (by decide) (by decide)).trans h4⟩

theorem State.hostMoved_keepsBut (s : State) (port : Nat) (level up : Bool) : s.keepsBut ((s.setPerst port level).setHostUp port up) agentFlds := by
  intro f hf i
  exact (State.setHostUp_keepsBut _ port up f hf i).trans rfl

/-- A PERST_x_N pin and its link that move change only pins and register values. -/
theorem State.hostMoved_eq (s : State) (port : Nat) (level up : Bool) :
    (s.setPerst port level).setHostUp port up =
      { s with
        reg := { s.reg with vals := ((s.setPerst port level).setHostUp port up).reg.vals }
        pins := ((s.setPerst port level).setHostUp port up).pins } := by
  have heq := State.setHostUp_eq (s.setPerst port level) port up
  generalize (s.setPerst port level).setHostUp port up = t at heq ⊢
  exact heq

/-- PERST_x_N that rises brings the link up. -/
theorem State.hostRaised {s : State} {port : Nat} (hport : port < 2) :
    ((s.setPerst port true).setHostUp port true).perst port = true ∧ port ∈ ((s.setPerst port true).setHostUp port true).pins.hostUp ∧
      ((s.setPerst port true).setHostUp port true).rd .COH_AG_LIVE (32 + port) = 1 := by
  refine ⟨(State.setHostUp_perst ..).trans (State.setPerst_perst _ hport _), ?_, State.setHostUp_live _ hport true⟩
  rw [State.setHostUp_hostUp, if_pos rfl]
  exact mem_addOnce _ port

/-- Settles O48: a case per pin; a cold start goes by fields that the cold reset keeps. -/
theorem powerPinsAct : Obligations.PowerPinsAct := by
  unfold Obligations.PowerPinsAct
  refine ⟨fun s sel hvdd => exec_powerOn hvdd sel, fun s hvdd => ?_, fun s h => ?_, fun s h => ?_, fun s h => ?_, fun s h => ?_,
    fun s hheld => exec_sysRstNRelease_free hheld, fun s port h => ?_⟩
  · have hrd := s.powerLost_rd
    obtain ⟨hpins, hpending⟩ := s.powerLost_kept
    have hlife : Fld.SEC_LIFECYCLE ∈ fuses := by decide
    refine ⟨_, exec_powerLoss hvdd, by rw [hpins], by rw [hpins], by rw [hpins], fun f hf i => ?_, fun f hf hne i => ?_, ?_, hpending⟩
    · have hne : f ≠ .SEC_LIFECYCLE := fun h => hf (h ▸ hlife)
      rw [hrd f i, if_neg (fun h => hne h.2.1), if_neg hf]
    · rw [hrd f i, if_neg (fun h => hne h.2.1), if_pos hf]
    · rw [hrd .SEC_LIFECYCLE 0, if_pos hlife]
      simp
  · obtain ⟨hpwr, hrun, hwarm, hslots, hroll⟩ := h
    exact pwrgoodFall_clears hpwr hrun hwarm (State.resetLongs_of_idle hslots hroll)
  · obtain ⟨hvdd, hpwr, hrst, hfawn⟩ := h
    have hstart := State.coldStart_counted (s := { s with pins := { s.pins with pwrgood := true } }) hfawn 2
    have hexec := exec_coldReset_released hvdd hpwr hrst
    generalize State.coldStart _ _ = t at hexec hstart
    obtain ⟨hpins, hrest⟩ := hstart
    exact ⟨t, hexec, by rw [hpins], hrest⟩
  · obtain ⟨hvdd, hpwr, hrst⟩ := h
    exact exec_coldReset_held hvdd hpwr hrst
  · obtain ⟨hheld, hfawn⟩ := h
    have hstart := State.coldStart_fawn (s := { s with pins := { s.pins with sysRstN := true } }) hfawn 2
    have hexec := exec_sysRstNRelease_held hheld
    generalize State.coldStart _ _ = t at hexec hstart
    exact ⟨t, hexec, hstart⟩
  · obtain ⟨hport, hperst, hpwr, hwarm, hready⟩ := h
    have hexec := exec_perstDeassert hport hperst hpwr hwarm hready
    have hraised := State.hostRaised (s := s) hport
    have hbut := State.hostMoved_keepsBut s port true true
    have heq := State.hostMoved_eq s port true true
    generalize (s.setPerst port true).setHostUp port true = t at hexec hraised hbut heq
    obtain ⟨hup, hlink, hlive⟩ := hraised
    exact ⟨t, hexec, hup, hlink, hlive, hbut, heq⟩

end Sys2Proof.Machine
end

section
/-! SUPPORT. What page waits that end, resets of functions and the steps of a warm reset leave of the fields that a start goes by. -/
namespace Sys2Proof.Machine

open Sys2Proof

theorem State.startVals_of_anchor {s t : State} (h : t.anchor = s.anchor) : t.reg.startVals = s.reg.startVals := congrArg Prod.fst h

theorem startVals_foldl {α : Type} (f : State → α → State) (h : ∀ s a, (f s a).reg.startVals = s.reg.startVals) (l : List α) (s : State) :
    (l.foldl f s).reg.startVals = s.reg.startVals := kept_fold_of (fun t : State => t.reg.startVals) f h l s

/-! ### Ends of operations -/

@[simp] theorem State.piecesWrite_anchor (s : State) (c : Nat) (indic : Bool) (ps : List Piece) (bs : List Byte) :
    (s.piecesWrite c indic ps bs).anchor = s.anchor := by
  induction ps generalizing s bs with
  | nil => rfl
  | cons p ps ih =>
    rw [State.piecesWrite]
    refine (ih _ _).trans ?_
    split <;> simp

@[simp] theorem State.hostUse_anchor (s : State) (port fn : Nat) (pasid : Option Nat) (va : Nat) (write : Bool) :
    (s.hostUse port fn pasid va write).anchor = s.anchor := by
  unfold State.hostUse
  dsimp only
  (repeat' split) <;> rfl

@[simp] theorem State.dstWrite_anchor (s : State) (o : Op) (h : Shape) (dva : Nat) (got : List Byte) : (s.dstWrite o h dva got).2.2.anchor = s.anchor := by
  unfold State.dstWrite
  dsimp only
  (repeat' split) <;> simp

theorem State.endWaiter_anchor (s : State) (o : Op) (reason page : Nat) (denied : Bool) : (s.endWaiter o reason page denied).anchor = s.anchor := by
  have hstop (f : Flt) : (s.flushStop o f).2.anchor = s.anchor := by
    have hwrite := s.dstWrite_anchor o (shapeOf o.desc) ((shapeOf o.desc).dst + o.listNext * (shapeOf o.desc).dStride) o.got
    unfold State.flushStop State.moveStop
    dsimp only
    split <;> simp_all
  unfold State.endWaiter State.setOp
  exact hstop _

theorem State.listCheck_anchor (s : State) (p : Nat) : (s.listCheck p).anchor = s.anchor := by
  unfold State.listCheck State.setOp
  dsimp only
  (repeat' split) <;> rfl

theorem State.leave_anchor (s : State) (o : Op) : (s.leave o).anchor = s.anchor := by
  have hstop (t : State) (fn n : Nat) : (t.stopCheck fn n).anchor = t.anchor := by
    unfold State.stopCheck State.setRing
    split <;> simp
  have hlist (t : State) : (t.listEnded o).anchor = t.anchor := by
    unfold State.listEnded
    split
    · exact State.listCheck_anchor ..
    · rfl
  unfold State.leave State.dropOp
  rw [hstop, hlist]
  rfl

@[simp] theorem State.arbitrate_anchor (s : State) (p : Point) (n : Nat) (claims : List Nat) : (s.arbitrate p n claims).2.anchor = s.anchor := by
  obtain ⟨ptrs, heq⟩ := s.arbitrate_eq p n claims
  rw [heq]
  rfl

theorem State.claimAll_anchor (s : State) (k : Nat) (ws : List CplWait) : (s.claimAll k ws).anchor = s.anchor := by
  have hone (t : State) (w : CplWait) : (t.claimOne k w).anchor = t.anchor := by
    unfold State.claimOne State.setCplWaits State.ringFull
    split <;> simp
  unfold State.claimAll
  dsimp only
  (repeat' split) <;> simp [hone]

theorem State.completeOps_anchor (s : State) (os : List Op) : (s.completeOps os).anchor = s.anchor := by
  unfold State.completeOps
  simp [State.claimAll_anchor, State.leave_anchor]

theorem State.concordApply_startVals (s : State) (obj : Nat) (rs : List (Nat × Nat × Nat)) :
    (s.concordApply obj rs).reg.startVals = s.reg.startVals := by
  have hfire (t : State) (i : Nat) : (t.fireSlot i).reg.startVals = t.reg.startVals :=
    State.startVals_of_keepsBut (t.fireSlot_keepsBut i) (by decide)
  have hset (t : State) (v : Nat) : (t.concordSet obj v).reg.startVals = t.reg.startVals := by
    unfold State.concordSet State.releaseHeads
    exact (startVals_foldl _ hfire ..).trans (t.wr_startVals .CON_VALUE obj v (by simp))
  have hop (t : State) (r : Nat × Nat × Nat) : (t.concordOp obj r.2.1 r.2.2).reg.startVals = t.reg.startVals := by
    unfold State.concordOp
    split
    · rfl
    · exact hset ..
  unfold State.concordApply
  split
  · exact (startVals_foldl _ hop ..).trans (State.startVals_of_anchor (by simp))
  · exact startVals_foldl _ hop ..

theorem execOperationComplete_startVals (ops : List Nat) (s t : State) :
    ((execOperationComplete ops s).state t).reg.startVals = s.reg.startVals := by
  unfold execOperationComplete Out.state State.signalAll
  dsimp only
  refine (State.startVals_of_anchor (State.completeOps_anchor ..)).trans ((startVals_foldl _ (fun t obj => t.concordApply_startVals ..) ..).trans ?_)
  exact State.startVals_of_anchor (s.bump_anchor .RNG_LATE_COMPLETIONS 0 _ (by simp))

/-! ### Completion records -/

theorem State.atsRequest_startVals (s : State) (fn : Nat) (pasid win : Option Nat) (port va : Nat) :
    (s.atsRequest fn pasid win port va).reg.startVals = s.reg.startVals := by
  unfold State.atsRequest
  dsimp only
  split
  · rfl
  · exact State.startVals_of_keepsBut (State.atsPump_keepsBut _) (by decide)

theorem State.cplLate_anchor (s : State) (k addr : Nat) : (s.cplLate k addr).anchor = s.anchor := by
  unfold State.cplLate State.setCplWaits
  split
  · exact s.opBreach_anchor ..
  · rfl

@[simp] theorem State.cplFault_anchor (s : State) (fn n : Nat) (c : Option Nat) (poison : Bool) : (s.cplFault fn n c poison).anchor = s.anchor := by
  unfold State.cplFault State.setCplWaits
  simp

@[simp] theorem State.cplWritten_anchor (s : State) (k : Nat) (w : CplWait) : (s.cplWritten k w).anchor = s.anchor := by
  unfold State.cplWritten State.setCplWaits
  dsimp only
  (repeat' split) <;> simp

theorem execCompletionRecordWrite_startVals (fn ring : Nat) (outcome : Outcome3) (s : State) :
    ((execCompletionRecordWrite fn ring outcome s).state s).reg.startVals = s.reg.startVals := by
  unfold execCompletionRecordWrite
  dsimp only
  split
  · rfl
  split
  · rfl
  split
  · split
    · exact (State.atsRequest_startVals ..).trans (State.startVals_of_anchor (s.cplLate_anchor ..))
    · exact State.startVals_of_anchor (by simp [Out.state])
    · split <;> exact State.startVals_of_anchor (by simp [Out.state])
  · split
    · exact State.startVals_of_anchor (by simp [Out.state])
    · split <;> exact State.startVals_of_anchor (by simp [Out.state])

theorem State.writeRecords_startVals (fn ring n : Nat) (s : State) : (State.writeRecords fn ring n s).reg.startVals = s.reg.startVals := by
  induction n generalizing s with
  | zero => rfl
  | succ n ih => exact (ih _).trans (execCompletionRecordWrite_startVals fn ring .ok s)

theorem State.endPageWaits_startVals (s : State) (port : Nat) : (s.endPageWaits port).reg.startVals = s.reg.startVals := by
  unfold State.endPageWaits
  dsimp only
  refine (startVals_foldl _ (fun t k => t.writeRecords_startVals ..) ..).trans ((execOperationComplete_startVals ..).trans ?_)
  exact startVals_foldl _ (fun t w => State.startVals_of_anchor (t.endWaiter_anchor ..)) ..

/-! ### Resets of functions -/

theorem State.squash_startVals (s : State) (fn : Nat) : (s.squash fn).reg.startVals = s.reg.startVals :=
  State.startVals_of_keepsBut (s.squash_keepsBut fn) (by decide)

theorem State.functionReset_startVals (s : State) (fn : Nat) : (s.functionReset fn).reg.startVals = s.reg.startVals :=
  calc (s.functionReset fn).reg.startVals
    _ = (((s.qpsError fn).atsForget fn).clearFunction fn).reg.startVals := State.startVals_of_keepsBut (State.clearMailbox_keepsBut _ fn) (by decide)
    _ = ((s.qpsError fn).atsForget fn).reg.startVals := State.startVals_of_keepsBut (State.clearFunction_keepsBut _ fn) (by decide)
    _ = (s.qpsError fn).reg.startVals := State.startVals_of_keepsBut (State.atsForget_keepsBut _ fn) (by decide)
    _ = s.reg.startVals := State.startVals_of_keepsBut (s.qpsError_keepsBut fn) (by decide)

theorem State.resetCut_startVals (s : State) (i : Nat) : (s.resetCut i).reg.startVals = s.reg.startVals :=
  (State.startVals_of_keepsBut (s.resetCut_keepsBut i) (by decide)).trans
    ((State.wr_startVals _ .INS_RESET_SQUASHED _ _ (by simp)).trans (s.wr_startVals .INS_RESET_BUSY _ _ (by simp)))

theorem State.resetEnd_startVals (s : State) (i writes : Nat) : (s.resetEnd i writes).reg.startVals = s.reg.startVals :=
  (State.startVals_of_keepsBut (s.resetEnd_keepsBut i writes) (by decide)).trans
    ((State.startVals_of_keepsBut (s.resetDrained_keepsBut i writes) (by decide)).trans (s.functionReset_startVals i))

theorem State.managerClear_startVals (s : State) (port : Nat) (drained : List (Nat × Nat)) :
    (s.managerClear port drained).reg.startVals = s.reg.startVals := by
  have hinst (t : State) : (t.resetInstances port drained).reg.startVals = t.reg.startVals := startVals_foldl _ (fun u i => by
    split
    · exact u.resetEnd_startVals ..
    · split
      · exact (State.resetEnd_startVals ..).trans (u.resetCut_startVals i)
      · rfl) ..
  have hins (t : State) : (t.rstKeys insFields (fun i => portOf i == port)).reg.startVals = t.reg.startVals :=
    State.startVals_of_keepsBut (t.rstKeys_keepsBut _ (fun f hf => hf)) (by decide)
  have hclear (t : State) (i : Nat) : (t.clearFunction i).reg.startVals = t.reg.startVals :=
    State.startVals_of_keepsBut (t.clearFunction_keepsBut i) (by decide)
  unfold State.managerClear
  refine (State.wr_startVals _ .INS_MB_RELAY_NOTICE _ _ (by simp)).trans ((State.functionReset_startVals ..).trans ?_)
  exact (State.squash_startVals ..).trans ((startVals_foldl _ hclear ..).trans ((hins _).trans (hinst _)))

theorem State.atsForget_startVals (s : State) (fn : Nat) : (s.atsForget fn).reg.startVals = s.reg.startVals :=
  State.startVals_of_keepsBut (s.atsForget_keepsBut fn) (by decide)

end Sys2Proof.Machine
end

section
/-! SUPPORT. Warm resets and host-link resets. Settles O49. -/
namespace Sys2Proof.Machine

open Sys2Proof

/-! ### Steps of a warm reset and the fields of a start -/

theorem State.warmSquash_startVals (s : State) (fn : Nat) : (s.warmSquash fn).reg.startVals = s.reg.startVals := by
  have hrevoke (t : State) : ((t.revokeAll fn).tdispError fn).reg.startVals = t.reg.startVals :=
    (State.startVals_of_keepsBut (State.tdispError_accessed _ fn).2 (by decide)).trans
      (State.startVals_of_keepsBut (t.revokeAll_accessed fn).2 (by decide))
  unfold State.warmSquash
  dsimp only
  split
  · exact (hrevoke _).trans (s.squash_startVals fn)
  · exact s.squash_startVals fn

@[simp] theorem State.setIncQ_anchor (s : State) (ring : Nat) (q : List Incident) : (s.setIncQ ring q).anchor = s.anchor := by
  unfold State.setIncQ
  split <;> rfl

theorem State.incWr_anchor (s : State) {dev cmp : Fld} (ring v : Nat) (hdev : dev ∉ startFlds) (hcmp : cmp ∉ startFlds) :
    (s.incWr dev cmp ring v).anchor = s.anchor := by
  unfold State.incWr
  split
  · exact s.wr_anchor dev 0 v hdev
  · exact s.wr_anchor cmp _ v hcmp

theorem State.incStore_anchor (s : State) (ring : Nat) (r : Incident) : (s.incStore ring r).anchor = s.anchor := by
  unfold State.incStore
  dsimp only
  split <;> simp

theorem State.reportLost_anchor (s : State) (ring : Nat) : (s.reportLost ring).anchor = s.anchor := by
  have hlost (t : State) (v : Nat) : (t.incWr (lostDev v) (lostCmp v) ring 0).anchor = t.anchor := by
    refine t.incWr_anchor ring 0 ?_ ?_
    · unfold lostDev
      split <;> simp
    · unfold lostCmp
      split <;> simp
  unfold State.reportLost
  dsimp only
  (repeat' split) <;> simp [hlost]

theorem State.incWritten_anchor (s : State) (ring : Nat) : (s.incWritten ring).anchor = s.anchor := by
  unfold State.incWritten
  dsimp only
  rw [State.reportLost_anchor, State.occur_anchor, State.setIncQ_anchor, State.incWr_anchor _ _ _ (by simp) (by simp)]

theorem State.drainIncidents_anchor (s : State) : s.drainIncidents.anchor = s.anchor := by
  have hrecord (t : State) (ring : Nat) : ((execIncidentRecordWrite ring .ok t).state t).anchor = t.anchor := by
    unfold execIncidentRecordWrite
    split
    · rfl
    · split
      · rfl
      · exact (State.incWritten_anchor ..).trans (t.incStore_anchor ..)
  have hring (ring n : Nat) (t : State) : (State.drainRing ring n t).anchor = t.anchor := by
    induction n generalizing t with
    | zero => rfl
    | succ n ih => exact (ih _).trans (hrecord t ring)
  exact anchor_foldl _ (fun t ring => hring ring _ t) _ s

theorem State.endPinFlush_anchor (s : State) : s.endPinFlush.anchor = s.anchor := by
  refine anchor_foldl _ (fun t e => ?_) _ s
  split
  · simp
  · rfl

theorem State.abortEnum_anchor (s : State) : s.abortEnum.anchor = s.anchor := by
  unfold State.abortEnum
  split <;> simp

theorem State.startVals_of_startPart {s t : State} (h : t.startPart = s.startPart) : t.reg.startVals = s.reg.startVals := congrArg Prod.fst h

/-! ### Contracts across a warm reset -/

/-- No tenant has an ACTIVE contract. -/
def State.noContracts (s : State) : Prop := ∀ c ∈ tenants, s.active c = none

theorem State.noContracts_of_anchor {s t : State} (h : t.anchor = s.anchor) (hnone : s.noContracts) : t.noContracts := fun c hc =>
  (congrArg (fun a => a.2.2.2.find c) h).trans (hnone c hc)

theorem State.endContracts_active (s : State) (c : Nat) : (s.endContracts c).cmp.active = Tab.del s.cmp.active c := by
  simp only [State.endContracts, State.endActive, State.dropStaged]
  rw [State.unpin_eq, State.unpin_eq s]

theorem State.endContracts_none {s : State} {c d : Nat} (h : c = d ∨ s.active d = none) : (s.endContracts c).active d = none := by
  unfold State.active at h ⊢
  rw [s.endContracts_active c]
  by_cases hcd : c = d
  · rw [hcd, Tab.find_del_same]
  · rw [Tab.find_del_ne _ _ _ hcd]
    exact h.resolve_left hcd

theorem State.allContracts_none (cs : List Nat) {s : State} {d : Nat} (h : d ∈ cs ∨ s.active d = none) :
    (cs.foldl State.endContracts s).active d = none := by
  induction cs generalizing s with
  | nil => exact h.resolve_left (by simp)
  | cons c cs ih =>
    rw [List.foldl_cons]
    obtain hmem | hnone := h
    · obtain rfl | htail := List.mem_cons.mp hmem
      · exact ih (.inr (State.endContracts_none (.inl rfl)))
      · exact ih (.inl htail)
    · exact ih (.inr (State.endContracts_none (.inr hnone)))

theorem State.enterState_noContracts {s : State} (h : s.noContracts) (c : Nat) (st : CmpState) : (s.enterState c st).noContracts := by
  have hset : (s.setCmpState c st).noContracts := by
    unfold State.setCmpState
    split
    · exact h
    · exact h
  unfold State.enterState
  dsimp only
  split
  · exact hset
  · intro d hd
    rw [State.tdispErrors_eq]
    exact State.endContracts_none (.inr (hset d hd))

theorem State.taint_noContracts {s : State} (h : s.noContracts) (c cause : Nat) : (s.taint c cause).noContracts := by
  unfold State.taint
  split
  · exact h
  · exact State.noContracts_of_anchor (by simp) (State.enterState_noContracts h c .tainted)

theorem State.warmCompartments_noContracts {s : State} (h : s.noContracts) : s.warmCompartments.noContracts := by
  refine List.foldlRecOn tenants _ h fun t ht c _ => ?_
  split
  · exact State.noContracts_of_anchor (State.wr_anchor _ .CMP_INTAKE_CLOSED _ _ (by simp)) (State.enterState_noContracts ht c .quiesced)
  · exact State.taint_noContracts ht c 1
  · exact ht

/-! ### A warm reset begins -/

/-- Blocks with the fields that a warm reset clears, before the contracts end. -/
def State.warmCleared (s : State) : State :=
  ((List.range 128).foldl State.functionReset s).rstKeys (statistics ++ inProgress ++ insFields) (fun _ => true)

theorem State.warmCleared_startVals (s : State) : s.warmCleared.reg.startVals = s.reg.startVals := by
  have hrst (t : State) : (t.rstKeys (statistics ++ inProgress ++ insFields) (fun _ => true)).reg.startVals = t.reg.startVals :=
    State.startVals_of_keepsBut (t.rstKeys_keepsBut _ (fun f hf => hf)) (by decide +kernel)
  unfold State.warmCleared
  exact (hrst _).trans (startVals_foldl _ State.functionReset_startVals _ s)

/-- Contracts, pins of the cache and enumeration as a warm reset ends them. -/
def State.warmEnded (s : State) : State := (tenants.foldl State.endContracts s.warmCleared).endPinFlush.abortEnum

/-- Clearing the blocks leaves the fields of a start, no conjunction slot and no contract. -/
theorem State.warmBlocks_parts (s : State) :
    s.warmBlocks.reg.startVals = s.warmEnded.reg.startVals ∧ s.warmBlocks.slots = [] ∧ s.warmBlocks.cmp.active = s.warmEnded.cmp.active := by
  unfold State.warmBlocks State.warmEnded State.warmCleared State.functionReset
  dsimp only
  generalize State.abortEnum _ = u
  exact ⟨rfl, rfl, rfl⟩

theorem State.warmEnded_startVals (s : State) : s.warmEnded.reg.startVals = s.reg.startVals := by
  have hend (t : State) (c : Nat) : (t.endContracts c).reg.startVals = t.reg.startVals := by rw [State.endContracts_eq]
  unfold State.warmEnded
  refine (State.startVals_of_anchor (State.abortEnum_anchor _)).trans ((State.startVals_of_anchor (State.endPinFlush_anchor _)).trans ?_)
  exact (startVals_foldl _ hend tenants _).trans s.warmCleared_startVals

theorem State.warmEnded_noContracts (s : State) : s.warmEnded.noContracts := by
  unfold State.warmEnded
  refine State.noContracts_of_anchor (State.abortEnum_anchor _) (State.noContracts_of_anchor (State.endPinFlush_anchor _) fun c hc => ?_)
  exact State.allContracts_none tenants (.inl hc)

theorem State.warmCompartments_startPart (s : State) : s.warmCompartments.startPart = s.startPart := by
  unfold State.warmCompartments
  refine kept_fold_of State.startPart _ (fun t c => ?_) tenants s
  split
  · exact (State.wr_startPart _ .CMP_INTAKE_CLOSED _ _ (by simp)).trans (t.enterState_startPart c .quiesced)
  · exact t.taint_startPart c 1
  · rfl

theorem State.warmCoherence_anchor (s : State) : s.warmCoherence.anchor = s.anchor := by
  have hlost := s.loseAgents_anchor (List.range 34)
  unfold State.warmCoherence
  generalize s.loseAgents (List.range 34) = u at hlost
  exact hlost

theorem State.refreshAgents_anchor (s : State) : s.refreshAgents.anchor = s.anchor := by
  have hagents := State.startVals_of_keepsBut s.refreshAgents_reported.2 (by decide)
  have hrest := s.refreshAgents_eq
  generalize s.refreshAgents = u at hagents hrest ⊢
  generalize u.reg.vals = vals at hrest
  subst hrest
  exact congrArg (·, s.evt.msixEn, s.slots, s.cmp.active) hagents

/-- What steps 1 to 5 of a warm reset leave. -/
theorem State.warmSteps_parts (s : State) :
    s.warmSteps.reg.startVals = s.reg.startVals ∧ s.warmSteps.slots = [] ∧ s.warmSteps.noContracts := by
  have hcut : ((List.range 128).foldl State.warmSquash s).drainIncidents.resetLongs.reg.startVals = s.reg.startVals :=
    (State.startVals_of_anchor (State.resetLongs_anchor _)).trans
      ((State.startVals_of_anchor (State.drainIncidents_anchor _)).trans (startVals_foldl _ State.warmSquash_startVals _ s))
  unfold State.warmSteps
  dsimp only
  generalize ((List.range 128).foldl State.warmSquash s).drainIncidents.resetLongs = u at hcut ⊢
  obtain ⟨hvals, hslots, hactive⟩ := u.warmBlocks_parts
  have hnone : u.warmBlocks.noContracts := fun c hc => (congrArg (fun a => a.find c) hactive).trans (u.warmEnded_noContracts c hc)
  have hpart := u.warmBlocks.warmCompartments_startPart
  have hcnone := State.warmCompartments_noContracts hnone
  have hcoh := (State.refreshAgents_anchor _).trans (State.warmCoherence_anchor u.warmBlocks.warmCompartments)
  refine ⟨(State.startVals_of_anchor hcoh).trans ?_, ?_, State.noContracts_of_anchor hcoh hcnone⟩
  · exact (State.startVals_of_startPart hpart).trans (hvals.trans (u.warmEnded_startVals.trans hcut))
  · exact (State.slots_of_startPart ((State.startPart_of_anchor hcoh).trans hpart)).trans hslots

/-- The attempt is counted, or fawn mode chosen, and steps 1 to 5 leave the fields of a start. -/
theorem State.warmRun_parts (s : State) (fawn : Bool) :
    (s.warmRun fawn).rd .BOOT_READY 0 = 0 ∧ (s.warmRun fawn).rd .BOOT_FAWN 0 = 0 ∧
      (s.warmRun fawn).rd .BOOT_ATTEMPTS 0 = (if fawn = true then s.rd .BOOT_ATTEMPTS 0 else (s.rd .BOOT_ATTEMPTS 0 + 1) % 8) ∧
      (s.warmRun fawn).slots = [] ∧ (s.warmRun fawn).noContracts := by
  have hzero (f : Fld) : 0 % 2 ^ f.spec.width = 0 := Nat.zero_mod _
  unfold State.warmRun
  dsimp only
  obtain ⟨hvals, hslots, hnone⟩ := State.warmSteps_parts
    (if fawn then ((s.wr .BOOT_READY 0 0).wr .BOOT_FAWN 0 0).wr .BOOT_PHASE 0 0
      else State.attempt (((s.wr .BOOT_READY 0 0).wr .BOOT_FAWN 0 0).wr .BOOT_PHASE 0 0))
  refine ⟨(State.rd_of_startVals hvals (by simp)).trans ?_, (State.rd_of_startVals hvals (by simp)).trans ?_,
    (State.rd_of_startVals hvals (by simp)).trans ?_, hslots, hnone⟩
  · cases fawn <;> simp [State.attempt, State.rd_wr, hzero]
  · cases fawn <;> simp [State.attempt, State.rd_wr, hzero]
  · cases fawn with
    | true => simp [State.rd_wr]
    | false =>
      rw [if_neg (by simp), if_neg (by simp), State.attempt, State.rd_wr_same]
      simp [State.rd_wr]
      rfl

/-- Host ports whose PERST_x_N falls keep the fields of a start and SYS_RST_N. -/
theorem State.portsDown_parts (s : State) (ps : List Nat) :
    (ps.foldl (fun (s : State) p => (s.setPerst p false).setHostUp p false) s).reg.startVals = s.reg.startVals ∧
      (ps.foldl (fun (s : State) p => (s.setPerst p false).setHostUp p false) s).pins.sysRstN = s.pins.sysRstN := by
  have hone (t : State) (p : Nat) : ((t.setPerst p false).setHostUp p false).reg.startVals = t.reg.startVals :=
    State.startVals_of_keepsBut (t.hostMoved_keepsBut p false false) (by decide)
  have hpin (t : State) (p : Nat) : ((t.setPerst p false).setHostUp p false).pins.sysRstN = t.pins.sysRstN := by
    have hkept := (kept_parts (keep_State_setHostUp (t.setPerst p false) p false)).2.1
    rw [hkept]
    unfold State.setPerst
    dsimp only
    split <;> rfl
  exact ⟨startVals_foldl _ hone ps s, kept_fold_of (fun t : State => t.pins.sysRstN) _ hpin ps s⟩

/-- A warm reset begins. -/
theorem State.warmBegin_begun (s : State) (cause : Nat) (hosts : List Nat) :
    (s.warmBegin cause hosts).pins.sysRstN = s.pins.sysRstN ∧ (s.warmBegin cause hosts).rd .BOOT_READY 0 = 0 ∧
      (s.warmBegin cause hosts).rd .BOOT_FAWN 0 = 0 ∧ (s.warmBegin cause hosts).boot.warmStep = (if s.fawnNext = true then 6 else 5) ∧
      (s.warmBegin cause hosts).rd .BOOT_ATTEMPTS 0 =
        (if s.fawnNext = true then s.rd .BOOT_ATTEMPTS 0 else (s.rd .BOOT_ATTEMPTS 0 + 1) % 8) ∧
      (s.warmBegin cause hosts).slots = [] ∧ (s.warmBegin cause hosts).noContracts ∧ (s.warmBegin cause hosts).boot.typ = 3 ∧
      (s.warmBegin cause hosts).boot.cause = cause := by
  obtain ⟨hvals, hsys⟩ := s.portsDown_parts hosts
  obtain ⟨u, hu⟩ : ∃ u, u = hosts.foldl (fun (s : State) p => (s.setPerst p false).setHostUp p false) s := ⟨_, rfl⟩
  obtain ⟨v, hv⟩ : ∃ v, v = u.warmRun s.fawnNext := ⟨_, rfl⟩
  obtain ⟨hready, hfawn, hattempts, hslots, hnone⟩ := u.warmRun_parts s.fawnNext
  have hkept := keep_State_warmRun u s.fawnNext
  have hbegin : s.warmBegin cause hosts = { v with boot := v.boot.warm s.fawnNext cause s.ns hosts } := by
    rw [hv, hu]
    rfl
  rw [← hu] at hvals hsys
  rw [← hv] at hready hfawn hattempts hslots hnone hkept
  rw [State.rd_of_startVals hvals (by simp)] at hattempts
  rw [hbegin]
  exact ⟨(congrArg (fun k => k.2.1.sysRstN) hkept).trans hsys, hready, hfawn, rfl, hattempts, hslots, hnone, rfl, rfl⟩

theorem exec_warmReset_pin {s : State} (hpwr : s.pins.pwrgood = true) (hrun : s.boot.running = false) (hheld : s.boot.sysHeld = false)
    (hwarm : s.boot.warmStep = 0) (fn key : Nat) (hosts : List Nat) :
    exec (.warmReset 3 fn key hosts) s =
      .next (State.warmBegin { s with pins := { s.pins with sysRstN := false } } 3 (hosts.filter (fun p => decide (p < 2)))) := by
  change execWarmReset 3 fn key hosts s = _
  simp [execWarmReset, hpwr, hrun, hheld, hwarm]

/-! ### A warm reset ends -/

/-- The record of a finished start leaves memory and the time. -/
theorem State.recordStart_rest (s : State) (typ cause : Nat) :
    (s.recordStart typ cause).mem = s.mem ∧ (s.recordStart typ cause).ns = s.ns := by
  have hpost (t : State) (p : Post) : (t.post p).mem = t.mem ∧ (t.post p).ns = t.ns := by
    have heq := (t.post_reported p).1
    generalize t.post p = u at heq
    rw [heq]
    exact ⟨rfl, rfl⟩
  have hflush (t : State) : t.flushBoot.mem = t.mem ∧ t.flushBoot.ns = t.ns := by
    have hmem := kept_fold_of State.mem (fun (s : State) slot => s.post (devInc 0x0F03 .notice slot 0 [])) (fun u slot => (hpost u _).1)
      t.boot.rejected t
    have hns := kept_fold_of State.ns (fun (s : State) slot => s.post (devInc 0x0F03 .notice slot 0 [])) (fun u slot => (hpost u _).2)
      t.boot.rejected t
    unfold State.flushBoot
    split
    · exact ⟨rfl, rfl⟩
    · dsimp only
      split
      · exact ⟨(hpost _ _).1.trans hmem, (hpost _ _).2.trans hns⟩
      · exact ⟨hmem, hns⟩
  exact hflush _

/-- The fields that a start writes as it reaches READY. -/
def State.readyWritten (s : State) (ms : Nat) : State :=
  (((s.wr .BOOT_READY 0 1).wr .BOOT_PHASE 0 6).wr .BOOT_ATTEMPTS 0 0).wr .BOOT_READY_MS 0 ms

/-- READY is reached. -/
theorem State.reachReady_parts (s : State) (typ cause ms : Nat) :
    (s.reachReady typ cause ms).rd .BOOT_READY 0 = 1 ∧ (s.reachReady typ cause ms).rd .BOOT_PHASE 0 = 6 ∧
      (s.reachReady typ cause ms).rd .BOOT_ATTEMPTS 0 = 0 ∧ (s.reachReady typ cause ms).mem = s.mem ∧
      (s.reachReady typ cause ms).ns = s.ns := by
  have hwritten : (s.readyWritten ms).rd .BOOT_READY 0 = 1 ∧ (s.readyWritten ms).rd .BOOT_PHASE 0 = 6 ∧
      (s.readyWritten ms).rd .BOOT_ATTEMPTS 0 = 0 := by
    have hone : 1 % 2 ^ Fld.BOOT_READY.spec.width = 1 := rfl
    have hsix : 6 % 2 ^ Fld.BOOT_PHASE.spec.width = 6 := rfl
    simp [State.readyWritten, State.rd_wr, hone, hsix]
  obtain ⟨hready, hphase, hattempts⟩ := hwritten
  have hrd (f : Fld) (hf : f ∉ startEndFlds) : (s.reachReady typ cause ms).rd f 0 = (s.readyWritten ms).rd f 0 :=
    State.recordStart_keepsBut { s.readyWritten ms with boot := { s.boot with running := false, failed := false, warmStep := 0, powerOn := false } }
      typ cause f hf 0
  have hrest := State.recordStart_rest { s.readyWritten ms with boot := { s.boot with
    running := false, failed := false, warmStep := 0, powerOn := false } } typ cause
  exact ⟨(hrd _ (by decide)).trans hready, (hrd _ (by decide)).trans hphase, (hrd _ (by decide)).trans hattempts, hrest⟩

theorem State.reachReady_lastType (s : State) (typ cause ms : Nat) :
    (s.reachReady typ cause ms).rd .BOOT_LAST_TYPE 0 = typ % 2 ^ Fld.BOOT_LAST_TYPE.spec.width := by
  unfold State.reachReady State.recordStart
  refine (State.flushBoot_keepsBut _ .BOOT_LAST_TYPE (by decide) 0).trans ?_
  exact (State.rd_wr_ne _ _ _ _ _ _ (by simp)).trans (State.rd_wr_same ..)

/-- Links that are retrained leave memory, the time and the register fields but those of the agents. -/
theorem State.retrainHosts_parts (s : State) :
    s.keepsBut s.retrainHosts agentFlds ∧ s.retrainHosts.mem = s.mem ∧ s.retrainHosts.ns = s.ns ∧ s.retrainHosts.boot.warmStep = s.boot.warmStep := by
  have hone (t : State) (p : Nat) : (if t.perst p then t.setHostUp p true else t).mem = t.mem ∧ (if t.perst p then t.setHostUp p true else t).ns = t.ns := by
    have heq := t.setHostUp_eq p true
    generalize t.setHostUp p true = u at heq ⊢
    split
    · rw [heq]
      exact ⟨rfl, rfl⟩
    · exact ⟨rfl, rfl⟩
  obtain ⟨up, hkept, -⟩ := kept_trained s.boot.hostAfter { s with boot := { s.boot with hostAfter := [] } }
  have hbut := State.trained_keepsBut { s with boot := { s.boot with hostAfter := [] } } s.boot.hostAfter
  have hmem := kept_fold_of State.mem _ (fun t p => (hone t p).1) s.boot.hostAfter { s with boot := { s.boot with hostAfter := [] } }
  have hns := kept_fold_of State.ns _ (fun t p => (hone t p).2) s.boot.hostAfter { s with boot := { s.boot with hostAfter := [] } }
  unfold State.retrainHosts
  dsimp only
  exact ⟨hbut, hmem, hns, (kept_parts hkept).2.2.2⟩

/-- Step 6 of a warm reset that does not enter fawn mode: READY. -/
theorem State.warmEnd_ready {s : State} (hwarm : s.boot.warmStep = 5) :
    s.warmEnd.rd .BOOT_READY 0 = 1 ∧ s.warmEnd.rd .BOOT_PHASE 0 = 6 ∧ s.warmEnd.rd .BOOT_ATTEMPTS 0 = 0 ∧ s.warmEnd.boot.warmStep = 0 ∧
      s.warmEnd.rd .BOOT_LAST_TYPE 0 = 3 ∧ s.warmEnd.mem = s.mem ∧ s.warmEnd.ns = s.ns := by
  obtain ⟨ms, hend⟩ : ∃ ms, s.warmEnd = (s.reachReady 3 s.boot.cause ms).retrainHosts := by
    refine ⟨(s.ns - s.boot.startNs) / 1000000, ?_⟩
    unfold State.warmEnd
    dsimp only
    rw [if_neg (by rw [hwarm]; decide)]
  obtain ⟨hready, hphase, hattempts, hmem, hns⟩ := s.reachReady_parts 3 s.boot.cause ms
  have htype := s.reachReady_lastType 3 s.boot.cause ms
  have hstep := (kept_parts (keep_State_reachReady s 3 s.boot.cause ms)).2.2.2
  rw [hend]
  generalize s.reachReady 3 s.boot.cause ms = u at hready hphase hattempts hmem hns htype hstep ⊢
  obtain ⟨hbut, hmem', hns', hstep'⟩ := u.retrainHosts_parts
  exact ⟨(hbut _ (by decide) 0).trans hready, (hbut _ (by decide) 0).trans hphase, (hbut _ (by decide) 0).trans hattempts,
    hstep'.trans hstep, (hbut _ (by decide) 0).trans htype, hmem'.trans hmem, hns'.trans hns⟩

/-- The beat that ends a warm reset. -/
theorem step_warmEnd {s : State} (hpending : s.pending = []) (hwarm : s.boot.warmStep = 5) :
    ∃ u : State, step s = .next u.warmEnd ∧ u.boot.warmStep = 5 ∧ u.mem = s.mem ∧ u.ns = s.ns + 1 := by
  have hadvance : s.advance.boot = s.boot ∧ s.advance.mem = s.mem := by
    unfold State.advance
    split <;> exact ⟨rfl, rfl⟩
  refine ⟨{ s.advance with ns := s.ns + 1 }, ?_, (congrArg BootSt.warmStep hadvance.1).trans hwarm, hadvance.2, rfl⟩
  rw [step_of_empty hpending, State.tick]
  dsimp only
  rw [if_pos (by rw [hadvance.1, hwarm]; decide)]

/-! ### Host-link resets -/

theorem State.msixEn_of_anchor {s t : State} (h : t.anchor = s.anchor) : t.evt.msixEn = s.evt.msixEn := congrArg (fun a => a.2.1) h

theorem State.setPerst_pwrgood (s : State) (port : Nat) (v : Bool) : (s.setPerst port v).pins.pwrgood = s.pins.pwrgood := by
  unfold State.setPerst
  dsimp only
  split <;> rfl

/-- The effects of a host-link reset leave BOOT_READY and disable MSI-X of the functions of the port. -/
theorem State.hostLink_parts (s : State) (port : Nat) (drained : List (Nat × Nat)) :
    (s.hostLink port drained).reg.startVals = s.reg.startVals ∧ ∀ f ∈ (s.hostLink port drained).evt.msixEn, portOf f ≠ port := by
  have hcleared : ((span (64 * port) 64).foldl State.atsForget ((s.endPageWaits port).managerClear port drained)).reg.startVals = s.reg.startVals :=
    (startVals_foldl _ State.atsForget_startVals _ _).trans ((State.managerClear_startVals ..).trans (s.endPageWaits_startVals port))
  unfold State.hostLink
  dsimp only
  generalize (span (64 * port) 64).foldl State.atsForget ((s.endPageWaits port).managerClear port drained) = u at hcleared ⊢
  have hanchor (p : Post) : ((((u.clearConfig port).dropIde port).loseAgents [32 + port]).post p).anchor = ((u.clearConfig port).dropIde port).anchor := by
    simp
  refine ⟨(State.startVals_of_anchor (hanchor _)).trans hcleared, fun f hf => ?_⟩
  rw [State.msixEn_of_anchor (hanchor _)] at hf
  simpa using (List.mem_filter.mp hf).2

theorem exec_hostLinkReset_now {s : State} {port : Nat} (hport : port < 2) (hpwr : s.pins.pwrgood = true) (hperst : s.perst port = true)
    (hwarm : s.boot.warmStep = 0) (hready : s.rd .BOOT_READY 0 = 1) (drained : List (Nat × Nat)) :
    exec (.hostLinkReset port true drained) s = .next (((s.hostLink port drained).setPerst port false).setHostUp port false) := by
  change execHostLinkReset port true drained s = _
  simp [execHostLinkReset, State.retryStatus, hport, hpwr, hperst, hwarm, hready]

theorem exec_hostLinkReset_warm {s : State} {port : Nat} (hport : port < 2) (hpwr : s.pins.pwrgood = true) (hperst : s.perst port = true)
    (hwarm : 0 < s.boot.warmStep) (drained : List (Nat × Nat)) :
    exec (.hostLinkReset port true drained) s = .next { (s.setPerst port false).setHostUp port false with
      boot := { ((s.setPerst port false).setHostUp port false).boot with
        hostAfter := addOnce ((s.setPerst port false).setHostUp port false).boot.hostAfter port } } := by
  change execHostLinkReset port true drained s = _
  simp [execHostLinkReset, hport, hpwr, hperst, hwarm]

/-- PERST_x_N that falls takes the link down. -/
theorem State.hostLowered {s : State} {port : Nat} (hport : port < 2) :
    ((s.setPerst port false).setHostUp port false).perst port = false ∧ port ∉ ((s.setPerst port false).setHostUp port false).pins.hostUp ∧
      ((s.setPerst port false).setHostUp port false).rd .COH_AG_LIVE (32 + port) = 0 := by
  refine ⟨(State.setHostUp_perst ..).trans (State.setPerst_perst _ hport _), ?_, State.setHostUp_live _ hport false⟩
  rw [State.setHostUp_hostUp, if_neg (by simp)]
  simp

theorem State.resetOrder_of_badKey {s : State} {fn key : Nat} (hopen : s.barsBlocked fn = false) (hfn : fn = s.primaryFn) (hkey : key ≠ 0xB007) (k : State → State) :
    s.resetOrder fn key k = s.bump .BOOT_RESET_BAD_KEY 0 1 := by
  unfold State.resetOrder
  rw [if_neg (by simp [hopen]), if_neg (by simp [hfn]), if_pos (by simpa using hkey)]

/-! ### The statement -/

/-- Settles O49: the steps of a warm reset keep the fields that a start goes by; a host-link reset ends with the fall of its pin. -/
theorem warmAndHostLinkResetsRun : Obligations.WarmAndHostLinkResetsRun := by
  unfold Obligations.WarmAndHostLinkResetsRun
  refine ⟨fun s fn key hosts h => ?_, fun s h => ?_, fun s fn key hosts h => ?_, fun s port drained h => ?_, fun s port drained h => ?_⟩
  · obtain ⟨hpwr, hrun, hheld, hwarm⟩ := h
    have hexec := exec_warmReset_pin hpwr hrun hheld hwarm fn key hosts
    have hpending := State.warmBegin_pending { s with pins := { s.pins with sysRstN := false } } 3 (hosts.filter (fun p => decide (p < 2)))
    obtain ⟨hsys, hready, hfawn, hstep, hattempts, hslots, hnone, htyp, hcause⟩ :=
      State.warmBegin_begun { s with pins := { s.pins with sysRstN := false } } 3 (hosts.filter (fun p => decide (p < 2)))
    generalize State.warmBegin _ _ _ = t at hexec hpending hsys hready hfawn hstep hattempts hslots hnone htyp hcause
    exact ⟨t, hexec, hsys, hready, hfawn, hstep, hattempts, hslots, hnone, htyp, hcause, hpending⟩
  · obtain ⟨hpending, hwarm⟩ := h
    obtain ⟨u, hstep, hu, humem, huns⟩ := step_warmEnd hpending hwarm
    obtain ⟨hready, hphase, hattempts, hdone, htype, hmem, hns⟩ := State.warmEnd_ready hu
    exact ⟨_, hstep, hready, hphase, hattempts, hdone, htype, hmem.trans humem, hns.trans huns⟩
  · obtain ⟨hopen, hfn, hkey⟩ := h
    exact ⟨congrArg Host.Outcome.next (State.resetOrder_of_badKey hopen hfn hkey _), congrArg Host.Outcome.next (State.resetOrder_of_badKey hopen hfn hkey _)⟩
  · obtain ⟨hport, hpwr, hperst, hwarm, hready⟩ := h
    have hexec := exec_hostLinkReset_now hport hpwr hperst hwarm hready drained
    obtain ⟨hvals, hmsix⟩ := s.hostLink_parts port drained
    have hkept := keep_State_hostLink s port drained
    generalize s.hostLink port drained = u at hexec hvals hmsix hkept
    have hlowered := State.hostLowered (s := u) hport
    have heq := u.hostMoved_eq port false false
    have hbut := u.hostMoved_keepsBut port false false
    have hpins := (kept_parts (keep_State_setHostUp (u.setPerst port false) port false)).2.1
    generalize (u.setPerst port false).setHostUp port false = t at hexec hlowered heq hbut hpins
    obtain ⟨hdown, hlink, hlive⟩ := hlowered
    refine ⟨t, hexec, hdown, hlink, hlive, ?_, ?_, ?_, ?_⟩
    · rw [heq]
      exact hmsix
    · exact (hbut .BOOT_READY (by decide) 0).trans ((State.rd_of_startVals hvals (by simp)).trans hready)
    · rw [hpins]
      exact (u.setPerst_pwrgood port false).trans ((congrArg (fun k => k.2.1.pwrgood) hkept).trans hpwr)
    · rw [heq]
      exact congrArg (fun k => k.1) hkept
  · obtain ⟨hport, hpwr, hperst, hwarm⟩ := h
    have hexec := exec_hostLinkReset_warm hport hpwr hperst hwarm drained
    have hlowered := State.hostLowered (s := s) hport
    have heq := s.hostMoved_eq port false false
    have hbut := s.hostMoved_keepsBut port false false
    generalize (s.setPerst port false).setHostUp port false = t at hexec hlowered heq hbut
    refine ⟨_, hexec, hlowered.1, mem_addOnce _ port, hbut, ?_⟩
    rw [heq]

end Sys2Proof.Machine
end
